-- ==== Sys2Proof/Word.lean ====
section
/-!
DEFINITION. The words of the QM-34 (R5, R6) and the sparse tables that hold its numbered objects.
-/

namespace Sys2Proof

/-- One byte. -/
abbrev Byte := BitVec 8

/-- One 32-bit register or descriptor word. -/
abbrev Word := BitVec 32

/-- One 64-bit quantity: a host address, a cookie, a near-tier word. -/
abbrev DWord := BitVec 64

/-- A byte string, lowest address first (R6). -/
abbrev Bytes := List Byte

/-- Numbered objects kept in one canonical form: numbers strictly rising, and no entry equal to what
an unlisted number holds. The operations are in Machine/Table.lean. -/
abbrev Tbl (α : Type) := List (Nat × α)

end Sys2Proof
end

