-- ==== Sys2Proof/Syntax.lean ====
section
/-!
DEFINITION. The commands of the QM-34: one constructor for each row of spec/opcode_table.json, in the
table's order, with what the outside world supplies to it.
-/

namespace Sys2Proof

/-- The fields of an admin command after AC_OPCODE (R271). -/
structure AdmCmd where
  flags : BitVec 8
  cid : BitVec 16
  arg0 : Word
  addr : DWord
  len : Word
  arg1 : Word
  arg2 : Word
  arg3 : Word
deriving DecidableEq, Repr

/-- The header of a flit that arrived with a good CRC (R415). -/
structure FlitHdr where
  src : BitVec 2
  dst : BitVec 2
  seq : BitVec 8
  ack : BitVec 8
  crd : BitVec 4
  ackv : Bool
deriving DecidableEq, Repr

/-- Payload of a BEACON flit (R417). -/
structure BeaconPl where
  lineage : Word
  epoch : Word
  boots : BitVec 8
  sealing : Bool
  pstate : BitVec 2
deriving DecidableEq, Repr

/-- A PUSH flit with the data of its DATA flits (R417, R430). -/
structure PushPl where
  qid : BitVec 12
  opens : Bool
  ends : Bool
  abort : Bool
  ragged : Bool
  stamp : Word
  data : Bytes
deriving DecidableEq, Repr

/-- A POP_REQ flit (R417, R437). -/
structure PopReqPl where
  qid : BitVec 12
  limit : BitVec 24
  packed : Bool
  arm : Bool
  done : Bool
  ret : Bool
  tag : BitVec 8
  dmin : BitVec 24
  /-- RC_DRAIN_WAIT, which R437 says an arming request carries. -/
  wait : Word
deriving DecidableEq, Repr

/-- A POP_RSP flit with its data (R417, R438). -/
structure PopRspPl where
  qid : BitVec 12
  sop : Bool
  eop : Bool
  aborted : Bool
  ctUnderrun : Bool
  ragged : Bool
  damaged : Bool
  ready : Bool
  tag : BitVec 8
  data : Bytes
deriving DecidableEq, Repr

/-- A SEG flit's fields; `data` is what follows WRITE or READ_RSP (R417). -/
structure SegPl where
  handle : BitVec 16
  persist : Bool
  first : BitVec 8
  count : BitVec 8
  borrower : BitVec 16
  data : Bytes
deriving DecidableEq, Repr

/-- A CMD flit: relay tag, ABANDON, and the relayed command with its buffer (R417, R447). -/
structure CmdPl where
  tag : BitVec 16
  abandon : Bool
  opcode : BitVec 8
  cmd : AdmCmd
  buf : Bytes
  /-- EW of each peer queue that answers the reads of R300 while the command runs, by global QID: what the environment
  answers, not part of the flit. -/
  peerEw : List (Nat × BitVec 2) := []
deriving DecidableEq, Repr

/-- An RSP flit: relay tag, PASSED, and the peer's result with its record (R417, R447, R449). -/
structure RspPl where
  tag : BitVec 16
  passed : Bool
  status : BitVec 8
  result0 : Word
  result1 : Word
  record : Bytes
deriving DecidableEq, Repr

/-- The kinds of host-interface reset (R212). -/
inductive HostReset where
  | flr
  | hotReset
  | linkDown
deriving DecidableEq, Repr

/-- How a device read ended (R200, R210). -/
inductive CplStatus where
  | ok
  | unsupported
  | completerAbort
  | poisoned
deriving DecidableEq, Repr

/-- The conditions the PCIe receiver reports (R209). -/
inductive RxError where
  | receiverError
  | badTlp
  | badDllp
  | replayTimeout
  | replayRollover
  | malformedTlp
  | receiverOverflow
  | flowControl
  | dataLinkProtocol
deriving DecidableEq, Repr

/-- Requests the endpoint does not support (R209). -/
inductive BadRequest where
  | ioRequest
  | lockedRead
  | message
deriving DecidableEq, Repr

/-- The data rates of the link (R189). -/
inductive LinkRate where
  | gt25
  | gt50
  | gt80
deriving DecidableEq, Repr

/-- What the training of the link ends with (R189): the data rate, and two lanes rather than one. -/
structure LinkTrained where
  rate : LinkRate
  twoLanes : Bool
deriving DecidableEq, Repr

/-- A request of a code that R526 does not list, and the length of its data object in DW (R211). -/
structure SpdmOther where
  code : BitVec 8
  dwords : Nat
deriving DecidableEq, Repr

/-- Errors the AER status registers hold (R209). -/
inductive Aer where
  | receiverError
  | badTlp
  | badDllp
  | replayTimeout
  | replayRollover
  | correctedInternal
  | completionTimeout
  | poisonedTlp
  | unexpectedCompletion
  | unsupportedRequest
  | uncorrectableInternal
  | malformedTlp
  | receiverOverflow
  | flowControl
  | dataLinkProtocol
deriving DecidableEq, Repr

/-- The enables of the L1 PM Substates capability (R194, R206). -/
inductive L1Sub where
  | aspmL11
  | aspmL12
  | pmL11
  | pmL12
deriving DecidableEq, Repr

/-- A memory write to BAR0 (R193): 32 bits, 64 bits, or any other size. -/
inductive HostWrite where
  | dword (v : Word)
  | qword (v : DWord)
  | other (data : Bytes)
deriving DecidableEq, Repr

/-- The size of a memory read of BAR0 (R193). -/
inductive HostRead where
  | dword
  | qword
  | other (bytes : Nat)
deriving DecidableEq, Repr

/-- A memory read of BAR0: its offset and its size (R193). -/
structure RegRead where
  off : BitVec 14
  size : HostRead
deriving DecidableEq, Repr

/-- Configuration writes with an effect of their own (R191, R194, R196, R199, R206, R208, R209, R211, R220). -/
inductive CfgWrite where
  | pmeStatusClear
  | pmeEn (v : Bool)
  | ltrEn (v : Bool)
  | completionTimeout (value : BitVec 4) (disable : Bool)
  | relaxedOrdering (v : Bool)
  | maxPayload (code : BitVec 3)
  | maxReadRequest (code : BitVec 3)
  | aspmL1 (v : Bool)
  | msixControl (enable : Bool) (functionMask : Bool)
  /-- A BAR register by its number 0 to 5, or 6 for the expansion ROM BAR. -/
  | bar (index : Fin 7) (v : Word)
  | l1Substate (which : L1Sub) (v : Bool)
  | ltrThreshold (ns : Nat)
  /-- A write of 1 to an AER status bit. -/
  | aerClear (e : Aer)
  | aerMask (e : Aer) (v : Bool)
  | aerSeverity (e : Aer) (fatal : Bool)
  /-- DOE Abort, which clears DOE Error. -/
  | doeAbort
deriving DecidableEq, Repr

/-- What an MSI-X unmask addresses (R204). -/
inductive Unmask where
  | vector (v : BitVec 5)
  | function
deriving DecidableEq, Repr

/-- The values that cross from the Weave to a port (R173). -/
inductive ValueKind where
  /-- ISB read pointer behind FF#, or ESB write pointer behind EF#. -/
  | pointer
  /-- Flag state behind AF# or AE#. -/
  | flag
deriving DecidableEq, Repr

/-- What the code of a deep-tier read found in one sector (R374). -/
inductive DeepRead where
  | clean
  | one
  | two
  | uncorrectable
deriving DecidableEq, Repr

/-- How one bit stood after its burn pulses (R510, R514): the physical outcome. -/
inductive BurnOutcome where
  /-- Verified fully burned at pulse 1 to 4. -/
  | burned
  /-- Verified, yet reads differently in the two margin modes later: weak. -/
  | weak
  /-- Not verified after 4 pulses, and it holds no burn. -/
  | failBlank
  /-- Not verified after 4 pulses, and it holds a partial burn. -/
  | failWeak
  /-- Tj was outside 0 °C to 70 °C before this bit (R509). -/
  | tempRange
deriving DecidableEq, Repr

/-- A read of the table, staging, binding or Shuttle SRAMs that found an error (R376): the memory by its number, the
word address, and whether the (39,32) code could not correct it. -/
structure SramFlaw where
  mem : BitVec 3
  addr : BitVec 28
  uncorrectable : Bool
deriving DecidableEq, Repr

/-- Duplicated areas of which a restore can read neither copy: the table image and the wear counters (R399), the key
record (R545). -/
structure Unread where
  image : Bool := false
  wear : Bool := false
  keys : Bool := false
deriving DecidableEq, Repr

/-- The commands. -/
inductive Instr where
  -- admin commands (06_rings_and_doorbells.md R274)
  | ringCreate (c : AdmCmd)
  | ringDelete (c : AdmCmd)
  | stageQueues (c : AdmCmd) (buf : Bytes)
  | stagePorts (c : AdmCmd) (buf : Bytes)
  | stageBindings (c : AdmCmd) (buf : Bytes)
  | epochCheck (c : AdmCmd) (peerEw : List (Nat × BitVec 2))
  | epochCommit (c : AdmCmd) (peerEw : List (Nat × BitVec 2))
  | commitInstant
  | epochDiscard (c : AdmCmd)
  | queueFlush (c : AdmCmd)
  | queueDropPacket (c : AdmCmd)
  | queueMark (c : AdmCmd)
  | queueRetransmit (c : AdmCmd)
  | queueReadCounters (c : AdmCmd)
  | portUnpark (c : AdmCmd)
  | sealCmd (c : AdmCmd)
  | powerRequestActive (c : AdmCmd)
  | powerRequestListen (c : AdmCmd)
  | powerRequestStandby (c : AdmCmd)
  | keyLoad (c : AdmCmd) (buf : Bytes)
  | keyErase (c : AdmCmd)
  | keyEraseEffect
  | keyInstallPending (slot : BitVec 4)
  | keyStatus (c : AdmCmd)
  | wearReport (c : AdmCmd)
  | scrubReport (c : AdmCmd)
  | remapReport (c : AdmCmd)
  | peerStatus (c : AdmCmd)
  | peerFirmware (c : AdmCmd) (image : Bytes)
  | relayPassWaitExpiry
  | relayBeaconWaitExpiry
  | logRead (c : AdmCmd)
  | invalidOpcode (opcode : BitVec 8) (c : AdmCmd)
  | relayedAdminCommand (opcode : BitVec 8) (c : AdmCmd) (buf : Bytes)
  | adminTimeout
  -- host writes and reads with a row of their own
  | adminEnable
  | adminDisable
  | hifMirrorEnWrite (v : Bool)
  | mirrorHoldExpiry (qid : BitVec 12)
  | pwrSoftReset (v : BitVec 8)
  | pwrPaceWrite (v : BitVec 3)
  | pwrGovEnWrite (v : Bool)
  | pwrPaceRangeWrite (lo : BitVec 3) (hi : BitVec 3)
  | pwrGovWindowWrite (up : BitVec 16) (down : BitVec 16)
  | paceStepSettled
  | govUpWindowExpiry
  | govDownWindowExpiry
  | tbNowCapture
  | slowclkPresent
  | slowclkLost
  | tickOscRestarted
  -- boot and firmware download
  | bootLoadChunk
  | chunkCopyDone
  | bootStart
  | imageVerified (lost : Unread)
  | bootRestart
  | bar2Write (off : BitVec 16) (data : Bytes)
  -- fuses
  | fuseRead (row : BitVec 8) (mode : BitVec 2)
  | fuseBurn (row : BitVec 8) (word : BitVec 3) (outcomes : List BurnOutcome)
  | fuseRedirect (row : BitVec 8)
  | fuseOpDone
  | otpLockWrite (v : BitVec 8)
  | shadowOverrideWrite (off : BitVec 13) (v : Word)
  -- checker test mode
  | eccTestWrite (index : BitVec 9) (deep : Bool) (valid : Bool)
  | eccTestProgram
  | eccTestRead (index : BitVec 9) (deep : Bool)
  | eccTestDone
  -- error capture and registers
  | errCapPop
  | errFirstClr
  | rcFieldRead (r : RegRead)
  | tierSpillBurstWrite (v : BitVec 21)
  | casEnable
  | registerWrite (off : BitVec 14) (w : HostWrite)
  -- stream ports
  | ingressBeat (port : Fin 2) (en : Bool) (tag : Bool) (eop : Bool) (d : BitVec 16)
  | flushPulse (port : Fin 2) (level : Bool)
  | rtPulse (port : Fin 2) (level : Bool)
  | mrkPulse (port : Fin 2) (level : Bool)
  | dropPulse (port : Fin 2) (level : Bool)
  | eventCrossingLatch (port : Fin 4)
  | eventCrossingFree (port : Fin 4)
  | portEventEffect (port : Fin 4)
  | beatVisible (port : Fin 2)
  | valueCrossingAccept (port : Fin 4) (kind : ValueKind)
  | egressRead (port : Fin 2)
  | egressPushBeat (port : Fin 2) (hold : Bool)
  | portClockStall (port : Fin 4)
  | portReopen (port : Fin 4)
  | handover (pair : Fin 2)
  | handoverForced (pair : Fin 2)
  | switchReturn (pair : Fin 2)
  | tpEnChange (pair : Fin 2) (level : Bool)
  | turnstileRound (qid : BitVec 14) (upsets : List (Nat × BitVec 74)) (sram : List SramFlaw)
  -- host interface
  | kick (lowNs : Nat)
  | sweepTimerExpiry
  | sweep (block : List DWord)
  | fillDescriptorFetch (ring : BitVec 6)
  | dmaReadCompletion (tag : Nat) (status : CplStatus) (data : Bytes)
  | completionTimeout (tag : Nat)
  | descTimeout (ring : BitVec 6)
  | drainDescriptorFetch (ring : BitVec 6)
  | drainGrant (ring : BitVec 6)
  | drainWaitExpiry (qid : BitVec 12)
  | drainTransferEnd (ring : BitVec 6)
  | completionIrqTimer (ring : BitVec 6)
  | msixUnmask (u : Unmask)
  | busMasterChange (bme : Bool) (d3hot : Bool)
  | l1EntryRequest
  | unsupportedRequest (r : BadRequest)
  | hostInterfaceReset (r : HostReset)
  | perstAssert
  | perstDeassert
  | linkUp (l : LinkTrained)
  | por (node : BitVec 2) (tpEn0 : Bool) (tpEn1 : Bool) (core0Fail : Bool) (core1Fail : Bool)
  | vinLoss
  -- tiers, journal, scrub, repair
  | deepProgramStart
  | deepProgramVerified (seg : BitVec 14) (ok : Bool)
  | deepReadComplete (qid : BitVec 12) (seg : Nat) (reads : List DeepRead)
  | journalTimerExpiry
  | scrubNearGroup (upsets : List (Nat × BitVec 74))
  | scrubDeepGroup (r : DeepRead)
  | weaveLaneStall (group : BitVec 11) (lane : BitVec 3)
  -- cascade ring
  | train
  | ack (h : FlitHdr)
  | nak (h : FlitHdr)
  | ackTimerExpiry (node : BitVec 2)
  | retryTimeout (node : BitVec 2)
  | beaconTimer
  | beacon (h : FlitHdr) (p : BeaconPl)
  | beaconTimeout (node : BitVec 2)
  | push (h : FlitHdr) (p : PushPl)
  | popReq (h : FlitHdr) (p : PopReqPl)
  | popRsp (h : FlitHdr) (p : PopRspPl)
  | loanReq (h : FlitHdr) (p : SegPl)
  | loanGrant (h : FlitHdr) (p : SegPl)
  | loanRefuse (h : FlitHdr) (p : SegPl)
  | segWrite (h : FlitHdr) (p : SegPl)
  | verifyOk (h : FlitHdr) (p : SegPl)
  | verifyFail (h : FlitHdr) (p : SegPl)
  | readReq (h : FlitHdr) (p : SegPl)
  | readRsp (h : FlitHdr) (p : SegPl)
  | segRelease (h : FlitHdr) (p : SegPl)
  | reclaim (h : FlitHdr) (p : SegPl)
  | loanList (h : FlitHdr) (p : SegPl)
  | listEnd (h : FlitHdr) (p : SegPl)
  | holeTimeout (node : BitVec 2)
  | cmd (h : FlitHdr) (p : CmdPl)
  | rsp (h : FlitHdr) (p : RspPl)
  | img (h : FlitHdr) (chunk : BitVec 24) (data : Bytes)
  | join (h : FlitHdr) (mask : BitVec 4) (lost : Unread)
  -- SPDM over DOE
  | getVersion
  | getCapabilities
  | negotiateAlgorithms
  | getDigests
  | getCertificate (slot : BitVec 4) (off : BitVec 16) (len : BitVec 16)
  | challenge (slot : BitVec 4) (summary : BitVec 8) (nonce : BitVec 256)
  | getMeasurements (index : BitVec 8) (sign : Bool) (nonce : BitVec 256)
  | doeDiscovery (index : BitVec 8)
  | spdmUnsupportedRequest (r : SpdmOther)
  -- JTAG and the Loupe
  | extest (data : List Bool)
  | clamp
  | highz
  | samplePreload (data : List Bool)
  | idcode
  | bypass
  | tapReset
  | loupeAddr (v : BitVec 36)
  | loupeRead
  | loupeWrite (v : Word)
  | haltReq (autoinc : Bool)
  | shuttleHalt
  | resume (autoinc : Bool)
  | stepCmd (autoinc : Bool)
  | unlockChal
  | unlockResp (data : Bytes)
  -- rows at the end of the table
  | flitCrcFail
  | l12Entry
  | l12Exit
  | poisonedTlpReceived
  | receiverErrorCmd (e : RxError)
  | configSpaceWrite (w : CfgWrite)
deriving DecidableEq, Repr

end Sys2Proof
end

