-- ==== Sys2Proof/Decode.lean ====
section
/-!
DEFINITION. The command that a table word spells. The QM-34 is a block: no row of
spec/opcode_table.json gives a bit, so no word spells a command.
-/

namespace Sys2Proof

/-- The command spelled by a word of the table's bits: none, because no row gives bits (log entry 7). -/
def decodeTableWord (_nbits _w : Nat) : Option Instr := none

end Sys2Proof
end

