-- ==== Sys2Proof/Config.lean ====
section
/-!
DEFINITION. What one part fixes and the spec leaves open: free values, and the published cryptographic
functions the spec names without giving their arithmetic. Nothing here has a body, so no proof can
rest on a value.
-/

namespace Sys2Proof.Config

/-- Free value: 256 bits the spec leaves open or takes from the random bit generator (nonces, IVs,
lineage, a weak fuse bit's NORMAL reading). The argument is the counter `Dev.free`. Log entry 3. -/
opaque freeBits : Nat → BitVec 256

/-- SHA-384 of a byte string (FIPS 180-4, named by R190, R478, R525, R527). Log entry 4. -/
opaque sha384 : List (BitVec 8) → BitVec 384

/-- ECDSA P-384 verification: public key X then Y, digest, signature r then s (R531). Log entry 4. -/
opaque ecdsaVerify : BitVec 768 → BitVec 384 → BitVec 768 → Bool

/-- ECDSA P-384 signature by the identity private key over a digest, with the generator's counter as
the source of the per-signature secret (R523, R585). Log entry 4. -/
opaque ecdsaSign : BitVec 384 → BitVec 384 → Nat → BitVec 768

/-- Public key X then Y of a private key (R524). Log entry 4. -/
opaque ecPublic : BitVec 384 → BitVec 768

/-- The x-coordinate of d × point, or none when the point is not on P-384 (R536, R537). Log entry 4. -/
opaque ecdhX : BitVec 384 → BitVec 768 → Option (BitVec 384)

/-- HKDF-SHA-384 (RFC 5869): keying material, salt, info, length in bytes (R533, R536). Log entry 4. -/
opaque hkdf : List (BitVec 8) → List (BitVec 8) → List (BitVec 8) → Nat → List (BitVec 8)

/-- AES-256-GCM opening: key, IV, additional data, ciphertext, tag (R536). Log entry 4. -/
opaque gcmOpen : List (BitVec 8) → List (BitVec 8) → List (BitVec 8) → List (BitVec 8) → List (BitVec 8) →
  Option (List (BitVec 8))

/-- AES-256-XTS of one 32-byte sector as one data unit: key, tweak, plaintext (R541). Log entry 4. -/
opaque xtsEncrypt : List (BitVec 8) → BitVec 128 → BitVec 256 → BitVec 256

/-- AES-256-XTS decryption of one 32-byte sector: key, tweak, ciphertext (R541). Log entry 4. -/
opaque xtsDecrypt : List (BitVec 8) → BitVec 128 → BitVec 256 → BitVec 256

/-- The 20 check bits of the deep-tier (276,256) code (R374, R375): the spec gives no matrix. Log
entry 5. -/
opaque deepCheck : BitVec 256 → BitVec 20

/-- SHA-384 digest of the Tamori firmware public key, held in the boot ROM (R530). -/
opaque tamoriFwHash : BitVec 384

/-- SHA-384 digest of the Tamori debug public key, held in the boot ROM (R587). -/
opaque tamoriDebugHash : BitVec 384

/-- The 48 KiB boot ROM as 12,288 words, by word address (Loupe space 7, R519, R527). -/
opaque romWord : Nat → BitVec 32

/-- The Tamori Device CA certificate in the boot ROM, DER (R525). -/
opaque deviceCaCert : List (BitVec 8)

/-- SHA-384 digest of the Tamori Root CA certificate (R525). -/
opaque rootHash : BitVec 384

/-- Identity private key d in the 256 bytes of fuse rows 16 to 23, whose places in them the spec does not give
(R502). Log entry 4. -/
opaque identityKey : List (BitVec 8) → BitVec 384

/-- Unique secret, 32 bytes, in the bytes of fuse rows 16 to 23 (R502, R533). Log entry 4. -/
opaque uniqueSecret : List (BitVec 8) → List (BitVec 8)

/-- A register or memory word that the Shuttle's own instructions leave (R583, Loupe spaces 5 and 9): its
instruction set is not in the spec. The argument is the counter `Dev.free` and the word. Log entry 3. -/
opaque shuttleWord : Nat → Nat → BitVec 32

/-- Which cell of a near word's complementary valid pair (R370, R371) holds the bit itself: the high one when
true. The spec does not say. Log entry 3. -/
opaque validHigh : Bool

end Sys2Proof.Config
end

