-- ==== Sys2Proof/Machine/State.lean ====
section
/-!
DEFINITION. Everything the spec gives the QM-34 to hold, as plain data. The default of a field is its
value after POR (R484, R621); `State.reset` is built from those defaults.
-/

namespace Sys2Proof.Machine

/-! ### Outcomes -/

/-- Why the block stops. -/
inductive Fault where
  /-- A GO write to FUSE_CTL or ECC_TEST_CTL that names a reserved OP or MODE (R611, R614), to which
  the spec gives no operation. Raised by REGISTER_WRITE, LOUPE_WRITE and FUSE_READ. Safe: the device
  does something the spec does not state (R12), so nothing is claimed of it. -/
  | reservedOperation
deriving DecidableEq, Repr

/-- Why a command has no meaning in this model. -/
inductive Refusal where
  /-- The arm has no meaning yet. Raised by no meaning, only by an arm of `exec`. Safe. -/
  | notModelled (mnemonic : String)
deriving DecidableEq, Repr

/-! ### Time -/

/-- The timers of R39, one name each. -/
inductive TimerId where
  | stall (port : Nat)
  | sweep
  | idle
  | desc (ring : Nat)
  | drainWait (qid : Nat)
  | irq (ring : Nat)
  | admin
  | mirror (qid : Nat)
  | journal
  | beacon
  | beaconTo (node : Nat)
  | hole (node : Nat)
  | retry (node : Nat)
  | relayPass
  | relayBeacon
  | handover (pair : Nat)
  | noClock (pair : Nat)
  | govUp
  | govDown
  | scrubNear
  | scrubDeep
  | lapNear
  | lapDeep
  | read (tag : Nat)
deriving DecidableEq, Repr

/-- A running timer. Times are in 1/512 tick, the unit of R38's 30.517578125 ticks. -/
structure Timer where
  id : TimerId
  /-- Time-base value at which it started; none while it waits for its starting edge (R39). -/
  start : Option Nat
  /-- Time-base value at which it was paused (R567, R582). -/
  paused : Option Nat := none
  /-- Time spent paused. -/
  skipped : Nat := 0
deriving DecidableEq, Repr

/-- The time base (R35 to R41, R670 to R672). -/
structure TimeBase where
  /-- Nominal microseconds since POR, in 1/512 tick. -/
  now : Nat := 0
  /-- TB_NOW_HI of the last capture (R601). -/
  capHi : BitVec 16 := 0
  /-- TB_STATUS.SLOWCLK (R36). -/
  slowclk : Bool := false
  /-- TB_STATUS.TICK_RUN: the tick oscillator runs. -/
  tickRun : Bool := true
  /-- The discipline of R37 is in force. -/
  discipline : Bool := false
  /-- The measurement of R37 under way: oscillator ticks that its 32 SLOWCLK periods take, and ticks counted so
  far. None before the first tick of a measurement. -/
  win : Option (Nat × Nat) := none
  /-- Oscillator ticks counted in the last 32 SLOWCLK periods measured: the correction in force (R37). -/
  osc : Option Nat := none
  /-- Fraction of 1/512 tick that the corrected time base has accumulated, in parts of `osc`. -/
  oscFrac : Nat := 0
  timers : List Timer := []
deriving DecidableEq, Repr

/-- Bytes 0x00 to 0x0F of a PCE (R152). -/
structure Pce where
  en : Bool := false
  width : BitVec 2 := 0
  tagged : Bool := false
  flagAgg : Bool := false
  push : Bool := false
  fwft : Bool := false
  clksrc : Bool := false
  cont : Bool := false
  status : Bool := false
  qid : BitVec 14 := 0
  rsvd : Bool := false
deriving DecidableEq, Repr

/-! ### Power, boot, PACE -/

/-- Power and PACE state (R17 to R26, R460 to R470, R600). -/
structure Pwr where
  vin : Bool := true
  standby : Bool := false
  /-- PERST# is asserted. -/
  perst : Bool := true
  /-- The scope in force at PERST#'s falling edge was LINK (R215). -/
  perstLink : Bool := false
  standbyPend : Bool := false
  /-- Live PCEs of the ports that a pending STANDBY request holds closed (R464, R466). -/
  heldPces : Tbl Pce := []
  listenOk : Bool := true
  vcoreLdo : Bool := true
  phyLdo : Bool := true
  pace : Nat := 5
  govEn : Bool := false
  paceMin : Nat := 0
  paceMax : Nat := 7
  paceNow : Nat := 5
  /-- VCORE in millivolts, set from the level in use (R17). -/
  vcore : Nat := 750
  /-- The level a step in progress goes to (R18, R21). -/
  stepTo : Option Nat := none
  govUp : Nat := 8
  govDown : Nat := 500
deriving DecidableEq, Repr

/-- BOOT_STATUS (R475). -/
inductive BootStatus where
  | powerUp
  | hold
  | bist
  | rom
  | waitImage
  | loading
  | verifying
  | fwStarting
  | fwRunning
  | failed
deriving DecidableEq, Repr

/-- Boot and firmware download (R471 to R483, R597, R619). -/
structure Boot where
  status : BootStatus := .powerUp
  err : BitVec 8 := 0
  busy : Bool := false
  /-- BOOT_CTL.CMD held while BUSY is 1 (R598). -/
  held : BitVec 2 := 0
  off : Nat := 0
  len : Nat := 0
  loaded : Nat := 0
  /-- BAR2 chunk buffer (R619, R620). -/
  buf : Tbl Byte := []
  /-- Image bytes loaded. -/
  image : Tbl Byte := []
  fwVersion : Word := 0
  /-- SHA-384 recorded for measurement 3 (R479, R527). -/
  measured : Option (BitVec 384) := none
  iSram : Tbl Word := []
  dSram : Tbl Word := []
  /-- Image chunks of 7 bytes kept by a peer (R428), by chunk index. -/
  relayed : Tbl (List Byte) := []
deriving DecidableEq, Repr

/-! ### Setup registers without a home elsewhere -/

/-- Setup registers of 15_setup_registers.md (R602, R607 to R613). -/
structure Regs where
  /-- HIF_PERST_SCOPE = LINK. -/
  perstLink : Bool := false
  wakeEnPressure : Bool := false
  wakeEnQueue : Bool := false
  wakeFree : Nat := 0
  wakeSrcPressure : Bool := false
  wakeSrcQueue : Bool := false
  wakeQid : Nat := 0
  wakeQidValid : Bool := false
  /-- The pressure source may fire again (R218). -/
  pressureArmed : Bool := true
  ltrActive : Nat := 200
  ltrIdle : Nat := 50000
  sqBase : DWord := 0
  cqBase : DWord := 0
  sqLog2 : Nat := 0
  cqLog2 : Nat := 0
  admGen : BitVec 16 := 0
  adminTimeout : Nat := 100000
  dbBase : DWord := 0
  mirrorBase : DWord := 0
  mirrorEn : Bool := false
  mirrorHold : Nat := 1000
  sweepFast : Nat := 2
  sweepSlow : Nat := 1000
  sweepIdle : Nat := 50000
  sweepStale : Nat := 0
  sweepDone : Nat := 0
  stallTo : Nat := 1000
  spillRate : Nat := 8192
  spillBurst : Nat := 262144
  scrubNearEn : Bool := true
  scrubDeepEn : Bool := true
  nearGap : Nat := 10
  deepGap : Nat := 100
  wdogRst : Bool := true
  casEn : Bool := false
  casNodes : BitVec 4 := 1
  casBeacon : Nat := 1000
  casHoleTo : Nat := 60000000
deriving DecidableEq, Repr

/-! ### Requests that leave the device -/

/-- What the device has put out, in the order of issue. -/
inductive OutMsg where
  /-- A posted memory write; `ro` is the Relaxed Ordering attribute (R197). -/
  | memWrite (addr : Nat) (data : Bytes) (ro : Bool)
  | memRead (tag : Nat) (addr : Nat) (len : Nat)
  | msix (vector : Nat)
  /-- An LTR message: latency value and scale (R606). -/
  | ltr (value : Nat) (scale : Nat)
  | pmPme
  /-- The value a host register read returned. -/
  | regRead (off : Nat) (v : Word)
  /-- A flit put on the cascade ring: FL_TYPE, FL_DST, FL_SEQ, FL_ACK, FL_CRD, FL_ACKV, its payload and the
  data behind it. -/
  | flit (type : Nat) (dst : Nat) (seq : Nat) (ack : Nat) (crd : Nat) (ackv : Bool) (payload : Bytes)
  /-- A flit of another node passed on unchanged (R418): FL_TYPE, FL_SRC, FL_DST, FL_SEQ, its payload. -/
  | forward (type : Nat) (src : Nat) (dst : Nat) (seq : Nat) (payload : Bytes)
  /-- A DOE data object returned to the host. -/
  | doe (data : Bytes)
  /-- A beat at an egress port: E_D, E_EOP, E_TAGV. -/
  | beat (port : Nat) (d : BitVec 16) (eop : Bool) (tagv : Bool)
  /-- A cycle of I_CLK that passes a pair's closed switches to E_CLK with I_EN, I_D, I_EOP and I_TAG (R145). -/
  | through (pair : Nat) (en : Bool) (d : BitVec 16) (eop : Bool) (tag : Bool)
  /-- The level of the consumer's EF# / HOLD# that a pair's closed switches show the producer on FF# (R145). -/
  | throughHold (pair : Nat) (asserted : Bool)
deriving DecidableEq, Repr

/-! ### Host link -/

/-- Link power state of the PCIe link (R205, R206, R460). -/
inductive LinkState where
  | l0
  | l1
  | l11
  | l12
deriving DecidableEq, Repr

/-- What an outstanding device read fetches (R196, R200). -/
inductive ReadFor where
  | doorbells
  | admin
  | fillDesc (ring : Nat)
  | fillData (ring : Nat)
  | drainDesc (ring : Nat)
  /-- Data of a fill descriptor that has completed (R268, R568): its cookie. -/
  | late (cookie : Nat)
  /-- Data that nothing waits for: its ring has been deleted (R250). -/
  | gone
deriving DecidableEq, Repr

/-- An outstanding device read. -/
structure ReadReq where
  tag : Nat
  what : ReadFor
  addr : Nat
  len : Nat
  /-- Its data, when it completed before an earlier read of the same purpose. -/
  got : Option Bytes := none
deriving DecidableEq, Repr

/-- One MSI-X table entry (R194, R204). -/
structure MsixEntry where
  addr : DWord := 0
  data : Word := 0
  masked : Bool := true
deriving DecidableEq, Repr

/-- Enables of the L1 PM Substates capability (R194, R206) and LTR_L1.2_THRESHOLD in ns. -/
structure L1ss where
  aspmL11 : Bool := false
  aspmL12 : Bool := false
  pmL11 : Bool := false
  pmL12 : Bool := false
  thresholdNs : Nat := 0
deriving DecidableEq, Repr

/-- The AER capability beside its status bits (R194, R209): the error the First Error Pointer names, the header log,
the masked errors and those of fatal severity. -/
structure AerCap where
  first : Option Aer := none
  header : BitVec 128 := 0
  masked : List Aer := [.correctedInternal]
  fatal : List Aer := [.uncorrectableInternal, .malformedTlp, .receiverOverflow, .flowControl, .dataLinkProtocol]
deriving DecidableEq, Repr

/-- Configuration space and link state (R189 to R225). -/
structure Link where
  /-- The link is in L0 or a low-power state of it: training has ended. -/
  up : Bool := false
  training : Bool := false
  lstate : LinkState := .l0
  /-- Data rate, and whether two lanes are up (R189). -/
  rate : LinkRate := .gt25
  twoLanes : Bool := false
  /-- The two 64-bit BARs: BAR0 with BAR1, BAR2 with BAR3 (R191). -/
  bar0 : DWord := 0
  bar2 : DWord := 0
  bme : Bool := false
  d3hot : Bool := false
  pmeEn : Bool := false
  pmeStatus : Bool := false
  ltrEn : Bool := false
  ctoVal : BitVec 4 := 0
  ctoDis : Bool := false
  roEn : Bool := true
  mps : Nat := 128
  mrrs : Nat := 512
  aspmL1 : Bool := false
  msixEn : Bool := false
  funcMask : Bool := false
  vectors : Tbl MsixEntry := []
  pba : BitVec 32 := 0
  ssvid : BitVec 16 := 0x1F5E
  ssid : BitVec 16 := 0x3401
  aer : List Aer := []
  aerCap : AerCap := {}
  l1ss : L1ss := {}
  /-- Latency that the last LTR message carried, in ns (R206, R208). -/
  ltrSent : Option Nat := none
  /-- DOE Error (R211). -/
  doeError : Bool := false
  masterAbort : Bool := false
  targetAbort : Bool := false
  /-- WAKE# is asserted (R219, R220). -/
  wakePin : Bool := false
  /-- CLKREQ# is asserted (R206, R207). -/
  clkreq : Bool := false
  /-- The device has DMA or sweep work since it last reported idle (R208). -/
  active : Bool := false
  reads : List ReadReq := []
  nextTag : Nat := 0
  /-- Writes and messages that wait for R198 to end, oldest first. -/
  heldOut : List OutMsg := []
deriving DecidableEq, Repr

/-- The sweep engine (R234 to R244). -/
structure Sweep where
  running : Bool := false
  /-- The running sweep was started by the timer (R241). -/
  timed : Bool := false
  /-- The running sweep was started by KICK# (R240). -/
  kicked : Bool := false
  /-- One further trigger waits (R239, R222). -/
  pending : Bool := false
  /-- The triggers merged into it: KICK# is one, and something other than KICK# is one. -/
  pendKick : Bool := false
  pendOther : Bool := false
  interval : Nat := 2
  stopped : Bool := true
deriving DecidableEq, Repr

/-! ### Queues -/

/-- A producer (R89 ST_LOCK_OWNER, R50). -/
inductive Producer where
  | port (i : Nat)
  | ring (f : Nat)
  | node (n : Nat)
deriving DecidableEq, Repr

/-- One stored item (R49). -/
structure Item where
  data : DWord
  bound : Bool := false
  ragged : Bool := false
  damaged : Bool := false
  /-- The ABORTED end stands behind this item (R69, R675). -/
  aborted : Bool := false
  /-- The item begins a packet (CE_SOP, R266). -/
  first : Bool := false
  /-- Position in the chain of the segment that holds it. -/
  seg : Nat := 0
  /-- Its place in the order of admission (R50, R676). -/
  seq : Nat := 0
deriving DecidableEq, Repr

/-- A push request: consecutive items of one producer for one queue (R54, R310). -/
structure Burst where
  prod : Producer
  qid : Nat
  items : List Item
  /-- Position in this device's commit sequence at which the work was stamped (R678). -/
  stamp : Nat
  /-- A ring stamp: the EPOCH_NOW value a peer put into the PUSH (R431). -/
  ringStamp : Option Word := none
  /-- The 12-bit tag of a tagged port. -/
  tag : Option Nat := none
  /-- Ingress beats the burst was built from (R111). -/
  beats : Nat := 0
  /-- Fill descriptor with FD_SOP = 1, before its first burst was admitted (R256). -/
  sop : Bool := false
  /-- PUSH with ABORT (R430). -/
  abort : Bool := false
deriving DecidableEq, Repr

/-- Bytes 0x00 to 0x27 of a QTE (R89). -/
structure QCfg where
  valid : Bool := false
  ew : BitVec 2 := 0
  overwrite : Bool := false
  ovrPacket : Bool := false
  idleMode : Bool := false
  pkt : Bool := false
  tier : BitVec 2 := 0
  persist : Bool := false
  wake : Bool := false
  reset : Bool := false
  slot : BitVec 4 := 0
  peerNode : BitVec 2 := 0
  cap : Nat := 0
  aft : Nat := 0
  aet : Nat := 0
  nearQuota : Nat := 0
  nearRsv : Nat := 0
  deepQuota : Nat := 0
  peerQuota : Nat := 0
  ctThr : Nat := 0
  idleItem : DWord := 0
  /-- A reserved bit is non-zero (rule QTE_FIELD, 0x20). -/
  rsvd : Bool := false
deriving DecidableEq, Repr

/-- A deep copy: its segment and the key generation it was encrypted under (R540). -/
structure DeepRef where
  seg : Nat
  gen : Nat := 0
  /-- The journal or the newest table image names it (R329, R350, R351). -/
  named : Bool := false
deriving DecidableEq, Repr

/-- A borrowed copy (R441 to R445): lender, loan handle, generation of its key, and the lender's lineage
(R453). -/
structure LoanRef where
  node : Nat
  handle : Nat
  gen : Nat := 0
  lineage : Word := 0
deriving DecidableEq, Repr

/-- Where a segment's deep program stands (R332, R353). -/
inductive ProgState where
  | none
  | queued
  | started
  /-- SEAL's program of a segment that no tier policy had queued: verified, it keeps the near copy. -/
  | kept (running : Bool)
deriving DecidableEq, Repr

/-- One segment of a queue's chain (08_tiers_and_wear.md, "Chains and copies"). -/
structure ChainSeg where
  pos : Nat
  /-- Items written into it. -/
  used : Nat := 0
  near : Option Nat := none
  /-- The near copy belongs to the reserved set. -/
  resvd : Bool := false
  deep : Option DeepRef := none
  loan : Option LoanRef := none
  prog : ProgState := .none
  /-- A read back into a near segment is in progress (R335). -/
  reading : Bool := false
  /-- The segment's borrowed copy stands behind a hole (R452). -/
  hole : Bool := false
  /-- The segment begins a packet (R361). -/
  begins : Bool := true
  /-- Every item written into it, the popped ones too: what a deep program stores (R338, R360). -/
  all : List Item := []
deriving DecidableEq, Repr

/-- A tail discard (ST_TAIL_DISCARD, R69, R77, R314). -/
structure Discard where
  /-- The producer whose items are discarded; none: the items of any producer. -/
  prod : Option Producer
  /-- Started by a drop-remainder (R77), so that a retransmit ends it (R81). -/
  drop : Bool
deriving DecidableEq, Repr

/-- Where a control request came from. -/
inductive CtlSrc where
  | admin
  | port (i : Nat)
deriving DecidableEq, Repr

/-- Control requests latched at a turnstile (R94). -/
structure Ctl where
  flush : List CtlSrc := []
  aborts : List Producer := []
  rtx : List CtlSrc := []
  mark : List CtlSrc := []
  release : List CtlSrc := []
  drop : List CtlSrc := []
  /-- QUEUE_READ_COUNTERS waits for the end of the round: address and CLEAR (R91). -/
  read : Option (Nat × Bool) := none
deriving DecidableEq, Repr

/-- A count-mirror entry without its sequence bytes (R279). -/
structure MirrorRec where
  avail : Nat := 0
  fill : Nat := 0
  lost : Nat := 0
  flags : BitVec 11 := 0
  epoch : BitVec 8 := 0
deriving DecidableEq, Repr

/-- A transfer that a peer pops for node 0 (R438): tag, byte limit, RC_PACKED, and what was popped. -/
structure PeerPop where
  tag : Nat
  limit : Nat
  packed : Bool
  /-- Element width of the queue at its grant (R317). -/
  ew : BitVec 2 := 0
  items : List Item := []
  ended : Bool := false
  aborted : Bool := false
  ctUnderrun : Bool := false
  /-- As `Xfer.returns`. -/
  returns : Option Nat := none
deriving DecidableEq, Repr

/-- One queue: its live QTE and everything stored for it. -/
structure Queue where
  cfg : QCfg := {}
  /-- Popped since the mark, oldest first (R80). -/
  retained : List Item := []
  /-- Not yet popped, head first. -/
  items : List Item := []
  lost : Nat := 0
  underruns : Nat := 0
  drops : Nat := 0
  mark : Bool := false
  lock : Option Producer := none
  stUnderrun : Bool := false
  stCtUnderrun : Bool := false
  stDamaged : Bool := false
  stUnsealed : Bool := false
  stMarkLost : Bool := false
  epoch : Word := 0
  discards : List Discard := []
  /-- Items admitted of the packet that is open (R66). -/
  openCount : Nat := 0
  /-- Items of the open packet have become available (R66). -/
  openAvail : Bool := false
  /-- The consumer has popped a packet's first items and not its end (R61). -/
  inPkt : Bool := false
  /-- An ABORTED end is what the consumer receives next (R61, R71, R76, R90). -/
  owedEnd : Bool := false
  /-- An overwrite has discarded every stored item of the open packet: its next item begins a further packet
  (R61). -/
  headCut : Bool := false
  /-- Items admitted so far: the next item's place in the order of admission (R50). -/
  nextSeq : Nat := 0
  /-- Commit sequence number of the last format change or reset (R311, R678). -/
  fmtSeq : Nat := 0
  chain : List ChainSeg := []
  nextPos : Nat := 0
  /-- Reserved near segments assigned and unused (R88, R326). -/
  resvFree : List Nat := []
  ctl : Ctl := {}
  /-- Requests of a consumer that must take an item, not yet judged by a round (R62 to R64). -/
  mustPop : Nat := 0
  /-- End-of-round flags (R84, R85): almost-full, almost-empty, empty, full. -/
  fAf : Bool := false
  fAe : Bool := false
  fEmpty : Bool := false
  fFull : Bool := false
  /-- Last count-mirror entry written, its sequence byte, and a held write (R280, R282). -/
  mirror : MirrorRec := {}
  mirrorSeq : BitVec 8 := 0
  mirrorHeld : Bool := false
  /-- What the entry would hold by the queue's last round (R280). -/
  eor : MirrorRec := {}
  /-- The queue is drain-ready by RC_DRAIN_WAIT (R262). -/
  waited : Bool := false
  /-- Where a peer's drain arming stands: RC_PACKED, drain minimum in bytes, RC_DRAIN_WAIT, transfer
  tag (R437). -/
  armed : Option (Bool × Nat × Nat × Nat) := none
  /-- Items a peer transfer popped and still holds, by transfer tag (R439). -/
  held : List (Nat × List Item) := []
  /-- The peer transfer that pops now (R438). -/
  ptx : Option PeerPop := none
deriving DecidableEq, Repr

/-! ### Stream ports -/

/-- The counters and status bits of a PCE, bytes 0x10 to 0x1F (R152, R153). -/
structure PceRun where
  stragglers : Nat := 0
  unmapped : Nat := 0
  ovf : Nat := 0
  tagErr : Nat := 0
  merges : Nat := 0
  parks : Nat := 0
  isOpen : Bool := false
  parked : Bool := false
  unparkPend : Bool := false
  tpForced : Bool := false
deriving DecidableEq, Repr

/-- The crossing of one value toward a port (R173 to R177). -/
structure Crossing where
  /-- The level at the pin: asserted. -/
  pin : Bool := true
  /-- An assertion that the port side has not accepted yet (R176). -/
  hold : Bool := false
  /-- The newest value. -/
  next : Bool := true
deriving DecidableEq, Repr

/-- The event crossing of a port toward the Weave (R160 to R166). On an egress port the bits are RT,
MRK, DROP with the queue each acts on; on an ingress port only the first is used, for the packet
abort. -/
structure EventXing where
  busy : Bool := false
  /-- The carried set has been latched at its turnstile. -/
  latched : Bool := false
  rt : Option Nat := none
  mrk : Option Nat := none
  drop : Option Nat := none
  pRt : Option Nat := none
  pMrk : Option Nat := none
  pDrop : Option Nat := none
deriving DecidableEq, Repr

/-- Why queued items leave an ESB undelivered (R72, R81, R120). -/
inductive EsbCut where
  | flush
  | rewind
  /-- A retransmit that does not bring an ABORTED end back which stands alone in the ESB, so that it stays. -/
  | rewindKeep
  | drop
deriving DecidableEq, Repr

/-- An internal event on its way to a port, one constructor for each kind (R167, R168). -/
inductive PortEv where
  /-- A commit that changes the PCE or tag map, with the place in the commit sequence of those in force at the
  port until then (R310). -/
  | commit (pce : Option Pce) (remap : Bool) (stamp : Option Nat)
  /-- The arming of a through-path hand-over. -/
  | arm
  /-- ESB discards: the queue, and why. -/
  | cut (discard : List (Nat × EsbCut))
deriving DecidableEq, Repr

/-- A tag map entry (R276). -/
structure TagEnt where
  port : Nat
  tag : Nat
  qid : Nat
deriving DecidableEq, Repr

/-- An entry of an ISB (R102, R139, R101). -/
inductive IsbEntry where
  /-- A data beat: data, I_EOP, queue, tag, stamp. -/
  | beat (d : BitVec 16) (eop : Bool) (qid : Nat) (tag : Option Nat) (stamp : Nat) (width : BitVec 2)
  /-- A flush point, or the discard of a partial item at a tag change (R112, R139). -/
  | cut
  /-- The flush point of a closing port (R101): it also aborts an open packet. -/
  | close
deriving DecidableEq, Repr

/-- An ingress port. -/
structure IPort where
  pce : Pce := {}
  run : PceRun := {}
  /-- Internal events that have not taken effect, at most one of a kind, oldest first (R168). -/
  ev : List PortEv := []
  xing : EventXing := {}
  isb : List IsbEntry := []
  /-- How many entries of the ISB, from its head, the Weave sees (R170). -/
  vis : Nat := 0
  /-- How many beats the port side counts as stored (R104, R177). -/
  known : Nat := 0
  ff : Bool := true
  af : Crossing := {}
  /-- The tag map in force at the port (R167, R306). -/
  map : List TagEnt := []
  /-- Tag bits of a partial tag sequence, low part first, and how many beats of it (R107). -/
  tagAcc : Nat := 0
  tagBeats : Nat := 0
  /-- Current tag, its queue when mapped, and its stamp (R108). -/
  tag : Option Nat := none
  tagQid : Option Nat := none
  tagStamp : Nat := 0
  /-- Bits sampled of an item not yet complete (R112). -/
  partBits : Nat := 0
  /-- The assembler: bits of a partial item, how many, its beats, and its queue, tag, stamp, port width
  and element width (R113). -/
  asmData : Nat := 0
  asmBits : Nat := 0
  asmBeats : Nat := 0
  asmKey : Option (Nat × Option Nat × Nat × BitVec 2 × BitVec 2) := none
  /-- The burst handed to a turnstile (R32). -/
  latched : Option Burst := none
  /-- Preceding sample of FLUSH; none before the first sample (R158). -/
  flushPrev : Option Bool := none
deriving DecidableEq, Repr

/-- An entry of an ESB. -/
inductive EsbEntry where
  /-- The tag sequence of a tag ahead of a grant of a queue (R117). -/
  | tag (qid : Nat) (tag : Nat)
  /-- An item of a queue, with that queue's element width. -/
  | item (qid : Nat) (i : Item) (ew : BitVec 2)
  /-- A status beat of a queue's packet: ABORTED, RAGGED, PAD (R118, R119). -/
  | status (qid : Nat) (aborted : Bool) (ragged : Bool) (pad : Bool)
deriving DecidableEq, Repr

/-- An empty item at the pins (R124): its value, its width, and its bits already driven. -/
structure EmptyItem where
  v : DWord
  ew : BitVec 2
  done : Nat := 0
deriving DecidableEq, Repr

/-- What E_CLK carries (R127): nothing of the device's, a held level, the paired I_CLK, or ACLK. -/
inductive EClk where
  | off
  | level (high : Bool)
  | iclk
  | aclk
deriving DecidableEq, Repr

/-- An egress port. -/
structure EPort where
  pce : Pce := {}
  run : PceRun := {}
  /-- Internal events that have not taken effect, at most one of a kind, oldest first (R168). -/
  ev : List PortEv := []
  xing : EventXing := {}
  esb : List EsbEntry := []
  /-- Entries of the ESB the port side knows of (R123, R177). -/
  visible : Nat := 0
  /-- Bits of the first item already driven. -/
  driven : Nat := 0
  ef : Bool := true
  ae : Crossing := {}
  /-- Queue whose packet the port is in, on the pop side (R135). -/
  cur : Option Nat := none
  /-- Bytes popped of the current stream grant (R134). -/
  grantBytes : Nat := 0
  /-- Arbitration: binding position and grants made there (R133). -/
  arbB : Nat := 0
  arbG : Nat := 0
  /-- Queue whose packet the port has most recently begun at the pins (R140). -/
  begun : Option Nat := none
  /-- Mid-packet at the pins. -/
  midPkt : Bool := false
  /-- The packet at the pins ends with the item being driven, because what followed it was discarded (R120). -/
  cutAfter : Bool := false
  /-- Tag of the packet that the port is in on the pop side (R117), and that its next items follow a tag sequence
  anew, because a retransmit brings a packet back (R81). -/
  curTag : Nat := 0
  retag : Bool := false
  /-- Last item driven for each queue, for HOLD mode (R125): data, element width. -/
  last : Tbl (DWord × BitVec 2) := []
  /-- The empty item of which beats are still to be driven (R124). -/
  under : Option EmptyItem := none
  /-- Output pins. -/
  pD : BitVec 16 := 0
  pEop : Bool := false
  pTagv : Bool := false
  pEn : Bool := false
  /-- E_CLK of a push port (R127, R149). -/
  eclk : EClk := .off
  /-- Outputs at high impedance (R99). -/
  hiZ : Bool := true
  /-- Beats still allowed after HOLD# was sampled asserted; none while it is not (R129). -/
  skid : Option Nat := none
  /-- Pins sampled at the present edge: RT, MRK, DROP; and the event crossing carried its set at it
  (R160, R164). -/
  smpRt : Bool := false
  smpMrk : Bool := false
  smpDrop : Bool := false
  fresh : Bool := false
  /-- Preceding samples; none before the first sample (R158). -/
  rtPrev : Option Bool := none
  mrkPrev : Option Bool := none
  dropPrev : Option Bool := none
deriving DecidableEq, Repr

/-- A port pair and its selvedge switches (R145 to R151, R637). -/
structure PairSt where
  /-- TP_EN as sampled at the last sampling boot (R630). -/
  strap : Bool := false
  /-- TP_EN ball level now: powers the series stage (R632). -/
  ball : Bool := false
  /-- Hand-over armed (R148). -/
  armed : Bool := false
  /-- Consecutive edges with I_EN = 0 while armed or returning. -/
  idle : Nat := 0
  /-- The pair is handed over (R149). -/
  handed : Bool := false
  /-- The hand-over point B has been sampled; the switches open in the low phase after it. -/
  pointB : Bool := false
  /-- A return to bypass is due (R151). -/
  returning : Bool := false
  /-- Tag bits tracked while armed, and the last complete tag (R148). -/
  trackAcc : Nat := 0
  trackBeats : Nat := 0
  trackTag : Option Nat := none
deriving DecidableEq, Repr

/-- The four ports and two pairs. -/
structure Ports where
  i0 : IPort := {}
  i1 : IPort := {}
  e0 : EPort := {}
  e1 : EPort := {}
  p0 : PairSt := {}
  p1 : PairSt := {}
deriving DecidableEq, Repr

/-! ### Rings and the admin pair -/

/-- Origin of an admin command: the host's ring, or a relayed CMD with its tag (R447). -/
inductive Origin where
  | host
  | ring (node : Nat) (tag : Nat)
deriving DecidableEq, Repr

/-- What an admin command in execution waits for. -/
inductive RunKind where
  /-- The round of a queue that serves its request. -/
  | round (qid : Nat)
  /-- The commit instant (R304). -/
  | commit
  /-- The last program of SEAL (R353). -/
  | sealing
  /-- The instant of effect of KEY_ERASE (R546). -/
  | erase (slot : Nat)
  /-- The firmware relay (R427). -/
  | relayFw
  /-- A peer's RSP (R447). -/
  | relay (node : Nat) (tag : Nat) (abandonSent : Bool)
  /-- HIF_ADMIN_TIMEOUT: the command could not be read, so it is not executed (R200, R278, log entry 28). -/
  | unread
deriving DecidableEq, Repr

/-- The admin command in execution (R230). -/
structure AdmRun where
  opcode : Nat
  cid : BitVec 16
  addr : Nat
  len : Nat
  origin : Origin
  kind : RunKind
deriving DecidableEq, Repr

/-- The admin ring pair (R227 to R231, R603, R604). -/
structure Adm where
  en : Bool := false
  halted : Bool := false
  cfgErr : Bool := false
  sqBase : Nat := 0
  cqBase : Nat := 0
  sqLog2 : Nat := 0
  cqLog2 : Nat := 0
  gen : BitVec 16 := 0
  dbBase : Nat := 0
  mirrorBase : Nat := 0
  /-- Last seen DB_INDEX of doorbells 0 and 1. -/
  tail : Word := 0
  head : Word := 0
  /-- Commands fetched, completions written, phase. -/
  fetched : Word := 0
  written : Word := 0
  phase : Bool := true
  /-- All 4096 mirror entries are to be written once writing is possible (R283). -/
  mirrorOwed : Bool := false
  /-- Tag of the outstanding fetch of the next command. -/
  fetch : Option Nat := none
  run : Option AdmRun := none
  /-- A finished command that waits for a completion slot (R243): CID, status, two results. -/
  waiting : Option (BitVec 16 × Nat × Nat × Nat) := none
  /-- Commands that go on after host-link resets and are only logged: EPOCH_COMMIT, SEAL, PEER_FIRMWARE (R213), oldest
  first. -/
  bg : List AdmRun := []
deriving DecidableEq, Repr

/-- The RS_ counters of a ring (R277). -/
structure RingCnt where
  stragglers : Nat := 0
  invalid : Nat := 0
  timeouts : Nat := 0
  dmaFaults : Nat := 0
deriving DecidableEq, Repr

/-- A fill descriptor in progress (R251, R254, R257). -/
structure FillRun where
  addr : Nat
  len : Nat
  qid : Nat
  sop : Bool
  eop : Bool
  cookie : DWord
  stamp : Nat
  /-- Bytes admitted. -/
  admitted : Nat := 0
  /-- Data received and not yet handed to the turnstile, and bytes requested so far. -/
  data : Bytes := []
  asked : Nat := 0
  /-- A burst of it has been handed to its turnstile. -/
  begun : Bool := false
deriving DecidableEq, Repr

/-- A live fill ring (R248 to R258). -/
structure FillRing where
  log2 : Nat
  base : Nat
  gen : BitVec 16
  cq : Nat
  timeout : Nat
  tail : Word := 0
  /-- Descriptors whose fetch has been issued, and those that have arrived (RS_CONSUMED). -/
  issued : Word := 0
  consumed : Word := 0
  halted : Bool := false
  /-- Raw descriptors that have arrived, oldest first. -/
  arrived : List Bytes := []
  cur : Option FillRun := none
  latched : Option Burst := none
  cnt : RingCnt := {}
deriving DecidableEq, Repr

/-- A checked drain buffer (R259, R264). -/
structure DrainBuf where
  addr : Nat
  len : Nat
  cookie : DWord
deriving DecidableEq, Repr

/-- A drain transfer (R260 to R263, R267). -/
structure Xfer where
  qid : Nat
  buf : DrainBuf
  ew : BitVec 2
  /-- Items popped into the buffer, in order, for the data and for a return by R213. -/
  items : List Item := []
  /-- Its queue's items end at this transfer, and how (R263). -/
  ended : Bool := false
  aborted : Bool := false
  ctUnderrun : Bool := false
  status : BitVec 8 := 0
  /-- Transfer tag when the queue is on a peer (R438), and its response (length and data). -/
  remote : Option Nat := none
  bytes : Bytes := []
  remoteFlags : BitVec 6 := 0
  /-- How many items, from the first, R213 returns: fewer than all once a retransmit has brought items
  back (R81). -/
  returns : Option Nat := none
deriving DecidableEq, Repr

/-- A live drain ring. -/
structure DrainRing where
  log2 : Nat
  base : Nat
  gen : BitVec 16
  cq : Nat
  packed : Bool
  wait : Nat
  dmin : Nat
  tail : Word := 0
  issued : Word := 0
  consumed : Word := 0
  halted : Bool := false
  arrived : List Bytes := []
  bufs : List DrainBuf := []
  xfer : Option Xfer := none
  arbB : Nat := 0
  arbG : Nat := 0
  /-- Peer queues reported drain-ready (R437). -/
  ready : List Nat := []
  cnt : RingCnt := {}
deriving DecidableEq, Repr

/-- A live completion ring (R245 to R247). -/
structure CompRing where
  log2 : Nat
  base : Nat
  gen : BitVec 16
  vector : Nat
  irqEn : Bool
  thr : Nat
  time : Nat
  head : Word := 0
  written : Word := 0
  phase : Bool := true
  unreported : Nat := 0
  halted : Bool := false
  /-- Entries that wait for a free slot (R246): cookie, the word at 0x08, the word at 0x0C. -/
  waiting : List (Nat × Nat × Nat) := []
deriving DecidableEq, Repr

/-- All rings; a ring is live when it is listed. -/
structure Rings where
  fills : Tbl FillRing := []
  drains : Tbl DrainRing := []
  comps : Tbl CompRing := []
deriving DecidableEq, Repr

/-! ### Bindings, staging, epoch -/

/-- An egress or drain binding (R276): target port or ring, index, queue, tag, weight. -/
structure BindEnt where
  target : Nat
  index : Nat
  qid : Nat
  tag : Nat
  weight : Nat
deriving DecidableEq, Repr

/-- The bindings: tag maps, egress bindings, drain bindings, each ascending by key. -/
structure Bindings where
  tags : List TagEnt := []
  egress : List BindEnt := []
  drain : List BindEnt := []
deriving DecidableEq, Repr

/-- An entry of STAGE_BINDINGS as received (R276). -/
structure BindWord where
  kind : Nat
  remove : Bool
  index : Nat
  target : Nat
  tag : Nat
  qid : Nat
  weight : Nat
  rsvd : Bool
deriving DecidableEq, Repr

/-- The staging area (R287 to R294). -/
structure Stage where
  qtes : Tbl QCfg := []
  pces : Tbl Pce := []
  bind : Option Bindings := none
  /-- Entries received since the last commit or discard, oldest first (R292, R296). -/
  entries : List BindWord := []
deriving DecidableEq, Repr

/-- Epoch state (R303 to R305, R353, R464, R546, R571, R678). -/
structure Epoch where
  now : Word := 0
  /-- Commits made since boot: the sequence of R678. -/
  seq : Nat := 0
  /-- A commit's fence stands. -/
  fence : Bool := false
  /-- Queues under that fence. -/
  fenced : List Nat := []
  /-- Ports, by PCE index, and drain rings under that fence (R302). -/
  fencedPorts : List Nat := []
  fencedRings : List Nat := []
  /-- Element widths of the peer queues that bindings name, as last read (R300). -/
  peerEw : Tbl (BitVec 2) := []
  /-- Staging the check examined (R15, R301), and what has been staged since, while the commit runs. -/
  taken : Option Stage := none
  during : Stage := {}
  sealFence : Bool := false
  eraseFence : Option Nat := none
  allFence : Bool := false
  /-- A QTE, PCE or binding changed since the last table image (R351). -/
  cfgChanged : Bool := true
deriving DecidableEq, Repr

/-! ### Tiers -/

/-- Why a deep program runs. -/
inductive ProgFor where
  /-- SPILL or DEEP_PREFERRED (R332, R333). -/
  | spill (qid : Nat) (pos : Nat)
  /-- Step 3 of SEAL. -/
  | seal (qid : Nat) (pos : Nat)
  /-- A segment lent to a peer: handle, node, borrower queue, PERSIST, ciphertext. -/
  | lent (handle : Nat) (node : Nat) (borrower : Nat) (persist : Bool) (data : Bytes)
  /-- A relocation of a segment by the scrubber or a retirement (R384, R393): from. -/
  | relocate (from_ : Nat)
  /-- A segment on its way into a peer's tier (R441 to R444): the queue, the chain position, the lender, the
  generation of its key, and the handle once it is granted. -/
  | borrow (qid : Nat) (pos : Nat) (node : Nat) (gen : Nat) (handle : Option Nat)
deriving DecidableEq, Repr

/-- A deep program waiting or in flight. -/
structure Prog where
  what : ProgFor
  /-- Deep segment allocated at the start (R328). -/
  seg : Option Nat := none
  /-- The reprogram of R339: not debited. -/
  again : Bool := false
  /-- SEAL's program in the place of a waiting one of R332 or R333, of which it has the effect. -/
  spills : Bool := false
  /-- Key slot, generation and items as they were when it started. -/
  slot : Nat := 0
  gen : Nat := 0
  items : List Item := []
deriving DecidableEq, Repr

/-- What a deep segment holds. -/
inductive DeepUse where
  /-- Allocated to a program in flight. -/
  | busy
  /-- A queue's copy: queue, chain position, key slot, generation, items as programmed. -/
  | copy (qid : Nat) (pos : Nat) (slot : Nat) (gen : Nat) (items : List Item)
  /-- Lent under a handle (R442). -/
  | lent (handle : Nat)
  /-- Released; waits for the journal segment that holds its release record (R329). Until then a restore may
  still find what it held (R352). -/
  | released (was : DeepUse)
deriving DecidableEq, Repr

/-- A loan this node has made (R442, R444, R455). -/
structure Loan where
  node : Nat
  lineage : Word
  persist : Bool
  borrower : Nat
  seg : Nat
  data : Bytes
deriving DecidableEq, Repr

/-- A segment of a chain map: position, deep copy, begins a packet (R351, R361). A borrowed copy names its
loan, and the items it holds. -/
structure MapSeg where
  pos : Nat
  seg : Nat
  begins : Bool
  loan : Option LoanRef := none
  items : List Item := []
deriving DecidableEq, Repr

/-- A queue as the seal record holds it (R353). -/
structure SealedQ where
  qid : Nat
  q : Queue
deriving DecidableEq, Repr

/-- A journal record (R350, R444, R445). -/
inductive JRec where
  | add (qid : Nat) (m : MapSeg)
  | release (qid : Nat) (seg : Nat)
  | giveBack (qid : Nat) (node : Nat) (handle : Nat)
  | sealed (qs : List SealedQ) (level : Int) (at_ : Nat)
  | unseal
  | lend (handle : Nat) (l : Loan)
  | unlend (handle : Nat)
deriving DecidableEq, Repr

/-- The persistent table image (R351). -/
structure Image where
  qtes : Tbl QCfg := []
  pces : Tbl Pce := []
  bind : Bindings := {}
  maps : Tbl (List MapSeg) := []
  lineage : Word := 0
  loans : Tbl Loan := []
deriving DecidableEq, Repr

/-- SEAL in progress (R353 to R356). -/
structure SealRun where
  /-- Segments whose programs are not yet verified: queue and chain position. -/
  left : List (Nat × Nat)
  done : Nat := 0
deriving DecidableEq, Repr

/-- The tiers, governor, journal and images. -/
structure Tier where
  /-- Near segments retired; deep segments retired, reserved ones included (R392). -/
  nearRetired : List Nat := []
  deepRetired : List Nat := []
  /-- Retire-pending segments (R393). -/
  nearPending : List Nat := []
  deepPending : List Nat := []
  /-- Deep user segments that are not free. -/
  deep : Tbl DeepUse := []
  /-- What the cells of the deep segments hold of queue data: 4 KiB as the XTS engine gave them (R338, R541). -/
  cells : Tbl Bytes := []
  wear : Tbl Nat := []
  /-- Bucket level in bytes (R680), and the fraction of a byte in millionths (R344). -/
  level : Int := 274877906944
  frac : Nat := 0
  minLevel : Int := 274877906944
  /-- Bytes debited since manufacture (WR_SPILL_KIB). -/
  debited : Nat := 0
  /-- Ticks since POR in which a program waited for the level. -/
  throttle : Nat := 0
  estimated : Bool := false
  progQ : List Prog := []
  active : List Prog := []
  /-- Journal records verified since the last image, oldest first, and gathered. -/
  journal : List JRec := []
  gathered : List JRec := []
  /-- Journal segments programmed since the last image, and the next of the ring of 128. -/
  jSegs : Nat := 0
  jPos : Nat := 0
  /-- The copies (A or B) written last, of the table image and of the wear counters (R341, R351). -/
  imageB : Bool := true
  wearB : Bool := true
  image : Option Image := none
  /-- The wear copy written last, and programs since (R341). -/
  wearCopy : Option (Tbl Nat) := none
  wearSince : Nat := 0
  sealRun : Option SealRun := none
  lineage : Word := 0
  boots : Nat := 0
  loans : Tbl Loan := []
  /-- Reserved spares remaining, and whether the reserved area is exhausted (R395). -/
  spares : Nat := 212
  exhausted : Bool := false
  /-- Queues whose reservation is short, in the order the shortfalls arose (R679). -/
  shorts : List Nat := []
deriving DecidableEq, Repr

/-! ### Integrity and repair -/

/-- A suspect-list entry: address, and whether its place was programmed since (R386, R387). -/
structure Suspect where
  addr : Nat
  reprogrammed : Bool := false
deriving DecidableEq, Repr

/-- A remap entry: address and spare index (R389, R405). -/
structure Remap where
  addr : Nat
  spare : Nat
deriving DecidableEq, Repr

/-- A Weave lane (R400). -/
structure Lane where
  group : Nat
  lane : Nat
deriving DecidableEq, Repr

/-- Scrub, suspects, remap, lanes, reports (R376 to R405). -/
structure Rep where
  nearLaps : Nat := 0
  nearLapTicks : Nat := 0
  deepLaps : Nat := 0
  deepLapTicks : Nat := 0
  nearCorr : Nat := 0
  nearUncorr : Nat := 0
  deepCorr1 : Nat := 0
  deepCorr2 : Nat := 0
  deepUncorr : Nat := 0
  deepRewrites : Nat := 0
  deepDeferred : Nat := 0
  sramCorr : Nat := 0
  sramUncorr : Nat := 0
  nearSuspects : List Suspect := []
  deepSuspects : List Suspect := []
  nearRemap : List Remap := []
  deepRemap : List Remap := []
  /-- Hard-fault log: near addresses, oldest first (R391). -/
  hardLog : List Nat := []
  /-- Hard faults of near words whose remap bookkeeping waits for the firmware (R28). -/
  faultsDue : List Nat := []
  /-- Next unit of each walk: near group, deep segment × 128 + sector (R381). -/
  nearPos : Nat := 0
  deepPos : Nat := 0
  /-- Error pattern on a stored near word: the two cells of its valid bit above 8 check bits above 64 data bits (R369,
  R371). -/
  upset : Tbl (BitVec 74) := []
  /-- Addresses reported UNCORRECTABLE and not rewritten since (R396). -/
  reported : List Nat := []
  reportedDeep : List Nat := []
  /-- Rows that factory repair entries replace, each with its spare by place: at most 16 near and 32 deep (R497). -/
  factoryNear : List Nat := []
  factoryDeep : List Nat := []
  lanesFactory : List Lane := []
  lanesField : List Lane := []
  /-- Lanes in the field repair map (R400). -/
  fieldMap : List Lane := []
  /-- REPAIR_LANE_PEND, at most four (R610). -/
  lanePend : List Lane := []
  core : Bool := false
  core0Fail : Bool := false
  core1Fail : Bool := false
deriving DecidableEq, Repr

/-- A stored test word or sector: data and check bits as given, and the valid pair (R377). -/
structure TestWord where
  data : BitVec 256 := 0
  check : BitVec 20 := 0
  valid : Bool := false
deriving DecidableEq, Repr

/-- ECC diagnostics (R375 to R379, R611, R612). -/
structure Ecc where
  gen : BitVec 256 := 0
  en : Bool := false
  op : BitVec 2 := 0
  deep : Bool := false
  valid : Bool := false
  index : BitVec 9 := 0
  busy : Bool := false
  check : BitVec 20 := 0
  data : BitVec 256 := 0
  raw : BitVec 256 := 0
  rawCheck : BitVec 20 := 0
  rawValid : BitVec 2 := 0
  synd : BitVec 20 := 0
  cls : BitVec 3 := 0
  corr : BitVec 256 := 0
  /-- The READ under way: TIER and INDEX of its GO. -/
  run : Option (Bool × BitVec 9) := none
  nearSeg : Tbl TestWord := []
  /-- Deep test buffer: sectors loaded since the last PROGRAM. -/
  buf : Tbl TestWord := []
  deepSeg : Tbl TestWord := []
deriving DecidableEq, Repr

/-! ### Fuses and keys -/

/-- One copy of a redirection entry: row and VALID (R516). -/
structure Redir where
  row : BitVec 8 := 0
  valid : Bool := false
deriving DecidableEq, Repr

/-- A BURN under way (R498, R510): the row and word named, the bits pulsed in order as bit positions in the row
with what becomes of each, and how it ends. -/
structure BurnRun where
  row : Nat
  word : Nat
  steps : List (Nat × BurnOutcome)
  code : BitVec 8
  bit : BitVec 5
deriving DecidableEq, Repr

/-- The fuse array and its registers (R493 to R522, R614). Rows 256 to 263 are the spare rows. -/
structure Fuse where
  /-- Bits that hold any burn, and bits fully burned, by array row (R508). -/
  lo : Tbl (BitVec 256) := []
  hi : Tbl (BitVec 256) := []
  /-- Redirection entry of each spare: its three copies. -/
  redir : Tbl (Redir × Redir × Redir) := []
  op : BitVec 2 := 0
  mode : BitVec 2 := 0
  word : BitVec 3 := 0
  row : BitVec 8 := 0
  busy : Bool := false
  mask : Word := 0
  code : BitVec 8 := 0
  weak : Bool := false
  bit : BitVec 5 := 0
  weakMask : Word := 0
  data : BitVec 256 := 0
  intrRow : BitVec 8 := 0
  intrWord : BitVec 3 := 0
  intrValid : Bool := false
  critBad : Bool := false
  /-- Bits [39:0] of row 0 as boot step 3 drove them onto the trim wires, and whether mid-scale trims stand in for a row
  that failed its check (R495). -/
  trims : BitVec 40 := 0
  trimBad : Bool := false
  patchSkipped : Nat := 0
  /-- Patch entries the loader loaded, in ascending i, each with its row as loaded (R519). -/
  patches : List (Nat × BitVec 256) := []
  otpLock : BitVec 8 := 0
  shdSec : BitVec 64 := 0
  shdSsid : BitVec 33 := 0
  shdKey : BitVec 384 := 0
  /-- Security word taken at boot step 3 (R505). -/
  secWord : BitVec 64 := 0
  /-- The BURN under way. -/
  burn : Option BurnRun := none
  /-- The READ or REDIRECT under way: OP, MODE and ROW of its GO. -/
  run : Option (BitVec 2 × BitVec 2 × BitVec 8) := none
deriving DecidableEq, Repr

/-- A key with its generation and PERSIST (R537, R543). -/
structure KeyVal where
  key : Bytes
  gen : Nat
  persist : Bool
deriving DecidableEq, Repr

/-- A key slot (13_identity_and_keys.md, "Key slots"). -/
structure KeySlot where
  installed : Option KeyVal := none
  pending : Option KeyVal := none
  /-- Highest generation ever issued. -/
  counter : Nat := 0
deriving DecidableEq, Repr

/-- One copy of the key record (R543): what it holds of each slot, the key of slot 0 that wraps it, and the random IV of
each key in it, in the order of the slots and the installed before the pending key. -/
structure KeyRec where
  slots : Tbl KeySlot := []
  under : Bytes := []
  ivs : List (BitVec 96) := []
deriving DecidableEq, Repr

/-- Key slots and the key record (R533 to R550). -/
structure Keys where
  /-- The keys of slots 0 and 1, derived at each boot (R533). -/
  slot0 : Bytes := []
  slot1 : Bytes := []
  slots : Tbl KeySlot := []
  /-- The key record's copies A and B with their sequence numbers (R543). -/
  recA : KeyRec := {}
  recB : KeyRec := {}
  seqA : Nat := 0
  seqB : Nat := 0
deriving DecidableEq, Repr

/-- The SPDM responder and the DOE mailbox (R211, R526 to R529). -/
structure Spdm where
  /-- A connection begun with GET_VERSION, and whether capabilities and algorithms were agreed. -/
  version : Bool := false
  caps : Bool := false
  algs : Bool := false
  doeBusy : Bool := false
  /-- What signatures cover (SPDM 1.2): the messages of version, capabilities and algorithms; of digests and
  certificates; of measurements since the last signed ones. -/
  vca : Bytes := []
  certs : Bytes := []
  meas : Bytes := []
  /-- A request held until WAIT_IMAGE (R528). -/
  held : Option Instr := none
deriving DecidableEq, Repr

/-! ### Errors, log, debug -/

/-- A capture record (R555). -/
structure ErrRec where
  code : BitVec 8
  source : Nat
  object : Nat
  rept : Nat := 0
  time : Nat
  seq : Nat
deriving DecidableEq, Repr

/-- A log record (R564). -/
structure LogRec where
  seq : Nat
  kind : Nat
  code : BitVec 8
  time : Nat
  object : Nat
  cid : Nat := 0
  opcode : Nat := 0
  result1 : Nat := 0
  epoch : Word := 0
deriving DecidableEq, Repr

/-- Error capture and log (R555 to R565, R617). -/
structure Err where
  /-- Oldest first, at most 16. -/
  fifo : List ErrRec := []
  first : Option ErrRec := none
  last : Option ErrRec := none
  seq : Nat := 0
  overflow : Bool := false
  fatal : Bool := false
  cntCmd : Nat := 0
  cntMem : Nat := 0
  cntPort : Nat := 0
  cntRing : Nat := 0
  cntSec : Nat := 0
  cntPwr : Nat := 0
  late : Nat := 0
  /-- Log records kept, oldest first, at most 256, and the next LR_SEQ. -/
  log : List LogRec := []
  logSeq : Nat := 0
  /-- Records detected before FW_RUNNING that boot records once firmware runs (R495): fuse rows. -/
  badRows : List Nat := []
deriving DecidableEq, Repr

/-- TAP instructions (R573). -/
inductive TapInstr where
  | extest
  | idcode
  | sample
  | clamp
  | highz
  | loupeAddr
  | loupeData
  | loupeCtrl
  | unlockChal
  | unlockResp
  | bypass
deriving DecidableEq, Repr

/-- JTAG, the Loupe and the Shuttle halt (R573 to R588). -/
structure Jtag where
  ir : TapInstr := .idcode
  /-- Boundary scan register as preloaded or captured. -/
  boundary : List Bool := []
  addr : Word := 0
  space : BitVec 4 := 0
  autoinc : Bool := false
  data : Word := 0
  done : Bool := false
  accErr : Bool := false
  halted : Bool := false
  haltPend : Bool := false
  /-- UR_SCOPE of the unlock in force. -/
  unlocked : Option (BitVec 2) := none
  /-- Challenge bytes 0x00 to 0x2F of the outstanding challenge. -/
  chal : Option Bytes := none
  fails : Nat := 0
  /-- Shuttle program counter and registers (space 9), by word. -/
  core : Tbl Word := []
  /-- Data register last captured for shift-out, lowest bit first. -/
  out : Bytes := []
deriving DecidableEq, Repr

/-! ### Cascade ring -/

/-- PS_STATE (R456). -/
inductive PeerState where
  | absent
  | present
  | lost
deriving DecidableEq, Repr

/-- A sequenced operation unit sent and not yet acknowledged: first sequence number, flits, type,
payload (R419). -/
structure SentFlit where
  seq : Nat
  type : Nat
  payload : Bytes
  /-- The producer whose items a PUSH carries (R269). -/
  src : Option Producer := none
deriving DecidableEq, Repr

/-- What this node keeps for one other node (10_cascade_ring.md). -/
structure Peer where
  st : PeerState := .absent
  boots : BitVec 8 := 0
  lineage : Word := 0
  /-- EPOCH_NOW and the flags of its last beacon. -/
  epoch : Word := 0
  sealing : Bool := false
  pstate : BitVec 2 := 0
  ribDiscards : Nat := 0
  flitsSent : Nat := 0
  resends : Nat := 0
  exhausted : Nat := 0
  losses : Nat := 0
  late : Nat := 0
  returned : Nat := 0
  /-- Next sequence number to send, and flits waiting for an acknowledgement or for the window. -/
  txSeq : Nat := 0
  unacked : List SentFlit := []
  waiting : List SentFlit := []
  attempts : Nat := 0
  /-- A retry is in progress (R422). -/
  retrying : Bool := false
  /-- Next sequence number expected, a NAK has been sent, an acknowledgement is owed. -/
  rxSeq : Nat := 0
  nakSent : Bool := false
  ackDue : Bool := false
  /-- Credits held for its ring ingress buffer, and credits to return (R432). -/
  credits : Nat := 0
  owedCredits : Nat := 0
  /-- Ring ingress buffer: bursts from that node, oldest first. -/
  rib : List Burst := []
  /-- Remote queues on which a local producer holds a packet open (R434). -/
  openQ : List (Nat × Producer) := []
  /-- Remote queues and local producers whose items are discarded up to a boundary (R314). -/
  dropQ : List (Nat × Producer) := []
  /-- Remote queues whose packet abort waits for a credit (R432). -/
  abortQ : List Nat := []
  /-- Handles listed by a LOAN_LIST while a hole is resolved (R453). -/
  listed : List Nat := []
  reclaiming : Bool := false
  /-- Lent programs for that node that the bucket is not debited for: their first program failed (R444). -/
  spared : Nat := 0
deriving DecidableEq, Repr

/-- The cascade interface (R409 to R456). -/
structure Cas where
  /-- NODE[1:0] as sampled (R630). -/
  node : BitVec 2 := 0
  up : Bool := false
  training : Bool := false
  trainSeen : Nat := 0
  fast : Bool := false
  trainings : Nat := 0
  crcErrors : Nat := 0
  peers : Tbl Peer := []
  /-- Node 0: relay passes made, node mask, nodes that became present, chunks (R427). -/
  relayPasses : Nat := 0
  relayMask : BitVec 4 := 0
  relayImage : Bytes := []
  nextTag : Nat := 0
  /-- Peer: waits for the JOIN that starts its verified image (R428). -/
  verified : Bool := false
  /-- The cascade switches conduct (R637). -/
  switchClosed : Bool := true
  /-- Peer: the last RSP, by relay tag, for an ABANDON that comes after it (R449). -/
  lastRsp : Option (Nat × Bytes) := none
  /-- Peer: a relayed POWER_REQUEST STANDBY was accepted (R490). -/
  standbyAfterRsp : Bool := false
  /-- Flits whose service is the firmware's and that arrived while the Shuttle was stopped (R29), oldest
  first. -/
  held : List Instr := []
deriving DecidableEq, Repr

/-! ### The device -/

/-- The whole device, without the queue of waiting commands. -/
structure Dev where
  pwr : Pwr := {}
  tb : TimeBase := {}
  boot : Boot := {}
  regs : Regs := {}
  link : Link := {}
  out : List OutMsg := []
  adm : Adm := {}
  rings : Rings := {}
  sweep : Sweep := {}
  stage : Stage := {}
  bind : Bindings := {}
  epoch : Epoch := {}
  ports : Ports := {}
  queues : Tbl Queue := []
  tier : Tier := {}
  rep : Rep := {}
  ecc : Ecc := {}
  fuse : Fuse := {}
  keys : Keys := {}
  spdm : Spdm := {}
  err : Err := {}
  jtag : Jtag := {}
  cas : Cas := {}
  /-- The model's own counter of free values taken (log entry 3). -/
  free : Nat := 0
deriving DecidableEq, Repr

/-- The machine: the device, and the commands that wait, first in, first out. -/
structure State where
  dev : Dev
  pending : List Instr
deriving DecidableEq, Repr

/-- A shipped part's fuse rows (R494, R498): ROW_CHECK of an otherwise blank row in rows 0 to 2 and 4
to 15, and PROD_STATE 0b11 in the three copies of row 3. Log entry 6. -/
def shippedRows : Tbl (BitVec 256) :=
  let blank : BitVec 256 := 0x2A45#256 <<< 240
  [(0, blank), (1, blank), (2, blank),
   (3, 0x3#256 ||| (0x3#256 <<< 64) ||| (0x3#256 <<< 128)),
   (4, blank), (5, blank), (6, blank), (7, blank), (8, blank), (9, blank), (10, blank), (11, blank),
   (12, blank), (13, blank), (14, blank), (15, blank)]

/-- The device right after POR, VIN present, PERST# held by the board (log entry 1): every field at the
Reset column of R596 to R617, and the non-volatile stores as shipped. -/
def Dev.reset : Dev :=
  { fuse := { lo := shippedRows, hi := shippedRows } }

/-- The machine right after reset: nothing waits. -/
def State.reset : State := { dev := Dev.reset, pending := [] }

end Sys2Proof.Machine
end

