-- ==== Sys2Proof/Machine/Bits.lean ====
section
/-!
DEFINITION. Bit fields, byte order, saturation, the two CRCs (R5, R6, R416, R518).
-/

namespace Sys2Proof.Machine

/-- Bits [lo + n − 1 : lo] of a number (R6). -/
def bitsOf (w lo n : Nat) : Nat := w / 2 ^ lo % 2 ^ n

/-- Bit `i` of a number. -/
def bitOf (w i : Nat) : Bool := w / 2 ^ i % 2 == 1

/-- A Boolean as bit `i`. -/
def flagAt (b : Bool) (i : Nat) : Nat := if b then 2 ^ i else 0

/-- Little-endian value of a byte string (R6). -/
def leNat : Bytes → Nat
  | [] => 0
  | b :: bs => b.toNat + 256 * leNat bs

/-- The `n` low bytes of a value, lowest first (R6). -/
def natLe : Nat → Nat → Bytes
  | 0, _ => []
  | n + 1, v => BitVec.ofNat 8 v :: natLe n (v / 256)

/-- `n` bytes from offset `off` of a byte string; bytes past its end read as zero. -/
def sliceBytes (bs : Bytes) (off n : Nat) : Bytes :=
  let t := (bs.drop off).take n
  t ++ List.replicate (n - t.length) 0

/-- Little-endian field of `n` bytes at `off`. -/
def leAt (bs : Bytes) (off n : Nat) : Nat := leNat (sliceBytes bs off n)

/-- Most-significant-first value of a byte string (R480, R535). -/
def beNat (bs : Bytes) : Nat := leNat bs.reverse

/-- The `n` low bytes of a value, most significant first. -/
def natBe (n v : Nat) : Bytes := (natLe n v).reverse

/-- A 16-bit saturating increment by `k` (R64, R153, R277, R561). -/
def sat16 (n k : Nat) : Nat := min (n + k) 0xFFFF

/-- A 32-bit saturating increment by `k` (R405, R456). -/
def sat32 (n k : Nat) : Nat := min (n + k) 0xFFFFFFFF

/-- Holds a value inside a range (R595). -/
def clampTo (lo hi v : Nat) : Nat := max lo (min hi v)

/-- One byte into the CRC-16 of x^16 + x^12 + x^5 + 1, most significant bit first (R416). -/
def crc16Byte (c : Nat) (b : Byte) : Nat :=
  (List.range 8).foldl (fun c _ =>
    if c ≥ 0x8000 then Nat.xor (c * 2 % 65536) 0x1021 else c * 2 % 65536) (Nat.xor c (b.toNat * 256))

/-- The CRC-16 of R416: initial value 0xFFFF, no final XOR. -/
def crc16 (bs : Bytes) : Nat := bs.foldl crc16Byte 0xFFFF

/-- One byte into the CRC-32 of IEEE 802.3, reflected. -/
def crc32Byte (c : Nat) (b : Byte) : Nat :=
  (List.range 8).foldl (fun c _ => if c % 2 = 1 then Nat.xor (c / 2) 0xEDB88320 else c / 2)
    (Nat.xor c b.toNat)

/-- The CRC-32 of IEEE 802.3 (R518). -/
def crc32 (bs : Bytes) : Nat := Nat.xor (bs.foldl crc32Byte 0xFFFFFFFF) 0xFFFFFFFF

/-- Parity of the bits of a 64-bit word. -/
def parity64 (w : BitVec 64) : Bool :=
  (List.range 64).foldl (fun p i => p ^^ w.getLsbD i) false

end Sys2Proof.Machine
end

