-- ==== Sys2Proof/Machine/Table.lean ====
section
/-!
DEFINITION. Operations on the sparse tables, each keeping the canonical form: numbers strictly rising
and, for a table with a default, no entry equal to it.
-/

namespace Sys2Proof.Machine

/-- The entry listed under a number. -/
def tblFind {α : Type} : Tbl α → Nat → Option α
  | [], _ => none
  | (j, v) :: t, k => if j = k then some v else tblFind t k

/-- What a number holds, with the default for an unlisted one. -/
def tblGet {α : Type} (dflt : α) (t : Tbl α) (k : Nat) : α := (tblFind t k).getD dflt

/-- Lists a value under a number. -/
def tblPut {α : Type} : Tbl α → Nat → α → Tbl α
  | [], k, v => [(k, v)]
  | (j, w) :: t, k, v =>
    if k < j then (k, v) :: (j, w) :: t
    else if k = j then (k, v) :: t
    else (j, w) :: tblPut t k v

/-- Takes a number off the list. -/
def tblErase {α : Type} : Tbl α → Nat → Tbl α
  | [], _ => []
  | (j, w) :: t, k => if j = k then t else (j, w) :: tblErase t k

/-- Stores a value under a number, unlisted when it equals the default. -/
def tblSet {α : Type} [DecidableEq α] (dflt : α) (t : Tbl α) (k : Nat) (v : α) : Tbl α :=
  if v = dflt then tblErase t k else tblPut t k v

/-- Applies a function to what a number holds. -/
def tblModify {α : Type} [DecidableEq α] (dflt : α) (t : Tbl α) (k : Nat) (f : α → α) : Tbl α :=
  tblSet dflt t k (f (tblGet dflt t k))

/-- Applies a function to a listed entry; an unlisted number stays unlisted. -/
def tblAdjust {α : Type} (t : Tbl α) (k : Nat) (f : α → α) : Tbl α :=
  t.map fun e => if e.1 = k then (e.1, f e.2) else e

/-- Applies a function that leaves the default alone to every entry; one that becomes the default is no longer listed. -/
def tblMap {α : Type} [DecidableEq α] (dflt : α) (f : α → α) (t : Tbl α) : Tbl α :=
  (t.map fun e => (e.1, f e.2)).filter fun e => e.2 ≠ dflt

/-- The numbers listed. -/
def tblKeys {α : Type} (t : Tbl α) : List Nat := t.map Prod.fst

/-- Numbers strictly rise. -/
def tblSorted {α : Type} : Tbl α → Bool
  | [] => true
  | [_] => true
  | (j, _) :: (k, v) :: t => decide (j < k) && tblSorted ((k, v) :: t)

/-- The canonical form of a table with a default. -/
def tblWf {α : Type} [DecidableEq α] (dflt : α) (t : Tbl α) : Bool :=
  tblSorted t && t.all fun e => decide (e.2 ≠ dflt)

/-- Stores a byte string from an offset on. -/
def tblWriteBytes (t : Tbl Byte) (off : Nat) : Bytes → Tbl Byte
  | [] => t
  | b :: bs => tblWriteBytes (tblSet 0 t off b) (off + 1) bs

/-- `n` bytes from an offset on. -/
def tblReadBytes (t : Tbl Byte) (off n : Nat) : Bytes :=
  (List.range n).map fun i => tblGet 0 t (off + i)

end Sys2Proof.Machine
end

