-- ==== Sys2Proof/Machine/Ops.lean ====
section
/-!
DEFINITION. Shared operations of the device: time and timers, output, MSI-X, error capture and log,
sweep triggers, completions, wake reports.
-/

namespace Sys2Proof.Machine

/-! ### Time (R35 to R41, R670 to R672) -/

/-- The time base in ticks, 48 bits. -/
def ticks (d : Dev) : Nat := d.tb.now / 512 % 2 ^ 48

/-- A timer by name. -/
def timerOf (d : Dev) (id : TimerId) : Option Timer := d.tb.timers.find? fun t => t.id = id

/-- The timer is set. -/
def timerOn (d : Dev) (id : TimerId) : Bool := (timerOf d id).isSome

/-- Starts a timer anew: at once on the tick oscillator, at the next edge otherwise (R39). -/
def startTimer (id : TimerId) (d : Dev) : Dev :=
  { d with tb.timers := (d.tb.timers.filter fun t => t.id ≠ id) ++
      [{ id, start := if d.tb.tickRun then some d.tb.now else none }] }

/-- Stops a timer. -/
def stopTimer (id : TimerId) (d : Dev) : Dev :=
  { d with tb.timers := d.tb.timers.filter fun t => t.id ≠ id }

/-- Time a timer has run, in 1/512 tick (R39, R567). -/
def timerRan (d : Dev) (t : Timer) : Nat :=
  match t.start with
  | none => 0
  | some s => t.paused.getD d.tb.now - s - t.skipped

/-- The timer has run its `n` ticks (R39). A paused timer does not expire (R567). -/
def timerDue (d : Dev) (id : TimerId) (n : Nat) : Bool :=
  match timerOf d id with
  | some t => t.start.isSome && t.paused.isNone && decide (n * 512 ≤ timerRan d t)
  | none => false

/-- Pauses the timers a condition names (R567, R582). -/
def pauseTimers (p : TimerId → Bool) (d : Dev) : Dev :=
  { d with
    tb.timers := d.tb.timers.map fun t =>
      if p t.id && t.paused.isNone then { t with paused := some d.tb.now } else t }

/-- Resumes paused timers; the time between does not count. -/
def resumeTimers (p : TimerId → Bool) (d : Dev) : Dev :=
  { d with
    tb.timers := d.tb.timers.map fun t =>
      if p t.id then
        match t.paused with
        | some u => { t with paused := none, skipped := t.skipped + (d.tb.now - max u (t.start.getD u)) }
        | none => t
      else t }

/-- Timers that waited for their starting edge start now (R39, R672). -/
def bindTimers (d : Dev) : Dev :=
  { d with
    tb.timers := d.tb.timers.map fun t =>
      if t.start = none then { t with start := some d.tb.now, paused := t.paused.map fun _ => d.tb.now } else t }

/-- The level after `k` units of 1/512 tick at `rate` KiB/s, capped at `cap` bytes: bytes and
millionths (R344). -/
def refill (rate : Nat) (cap : Int) (level : Int) (frac k : Nat) : Int × Nat :=
  let f := frac + rate * 2 * k
  let l := level + ((f / 1000000 : Nat) : Int)
  if cap ≤ l then (cap, 0) else (l, f % 1000000)

/-- A queue data program waits for the level (R345): the first in the queue that takes from it. -/
def programWaits (d : Dev) : Bool :=
  match d.tier.progQ.head? with
  | some p => (match p.what with
    | .seal _ _ => false
    | .relocate _ => false
    | _ => true) && decide (d.tier.level < 4096)
  | none => false

/-- The time base moves on by `k` units of 1/512 tick, and the bucket with it (R38, R344). -/
def advanceTime (k : Nat) (d : Dev) : Dev :=
  let lv := refill d.regs.spillRate (Int.ofNat (d.regs.spillBurst * 2 ^ 20)) d.tier.level d.tier.frac k
  { d with
    tb.now := d.tb.now + k
    tier.level := lv.1
    tier.frac := lv.2
    tier.throttle := if programWaits d then d.tier.throttle + ((d.tb.now + k) / 512 - d.tb.now / 512)
      else d.tier.throttle }

/-- The next 256 free bits (log entry 3). -/
def takeFree (d : Dev) : BitVec 256 × Dev := (Config.freeBits d.free, { d with free := d.free + 1 })

/-- Oscillator ticks in 32 SLOWCLK periods, nominally 976.5625: 782 to 1171 by R35, and free within that (log entry
79). Under mid-scale trims R35 does not hold (R495). -/
def oscTicks (d : Dev) (f : BitVec 256) : Nat :=
  if d.fuse.trimBad then 1 + f.toNat % 65536 else 782 + f.toNat % 390

/-- One oscillator tick counts in the measurement of R37; the last tick of 32 SLOWCLK periods ends it, and what it
counted corrects the time base from then on. -/
def measureTick (d : Dev) : Dev :=
  if !d.tb.discipline then d
  else
    let x : (Nat × Nat) × Dev := match d.tb.win with
      | some w => (w, d)
      | none => ((oscTicks d (takeFree d).1, 0), (takeFree d).2)
    let n := x.1.2 + 1
    if x.1.1 ≤ n then { x.2 with tb.win := none, tb.osc := some n } else { x.2 with tb.win := some (x.1.1, n) }

/-- What one oscillator tick adds to the time base, in 1/512 tick, and the fraction left: one tick, or under the
correction of R37 the part of 32 SLOWCLK periods (500,000 units) that one of the measured ticks is. -/
def tickLength (d : Dev) : Nat × Nat :=
  match d.tb.osc with
  | some n => ((d.tb.oscFrac + 500000) / n, (d.tb.oscFrac + 500000) % n)
  | none => (512, 0)

/-- One tick of the oscillator (R37). -/
def oscTick (d : Dev) : Dev :=
  let l := tickLength d
  measureTick (advanceTime l.1 { d with tb.oscFrac := l.2 })

/-- One move of the time base: a tick of the oscillator, or a SLOWCLK edge of 1,000,000 / 32,768 ticks
(R38); none while time is not known (R41). Log entry 2. -/
def idleTick (d : Dev) : Dev :=
  if !d.pwr.vin then d
  else if d.tb.tickRun then oscTick d
  else if d.tb.slowclk then bindTimers (advanceTime 15625 d)
  else d

/-! ### Modes -/

/-- BOOT_STATUS reads FW_RUNNING (R475). -/
def fwRunning (d : Dev) : Bool := d.boot.status == .fwRunning

/-- The Shuttle takes up firmware work: it runs, is not halted or about to halt, and no fatal condition stands
(R29, R571, R581, R582). -/
def fwExec (d : Dev) : Bool :=
  fwRunning d && !d.jtag.halted && !d.jtag.haltPend && !d.err.fatal && !d.pwr.standby

/-- Own node number (R630). -/
def ownNode (d : Dev) : Nat := d.cas.node.toNat

/-- The device is powered and not in STANDBY. -/
def awake (d : Dev) : Bool := d.pwr.vin && !d.pwr.standby

/-- LISTEN (R460). -/
def listening (d : Dev) : Bool :=
  fwRunning d && !d.pwr.standbyPend && !d.pwr.standby &&
    ((d.pwr.perst && d.pwr.perstLink) || (d.link.lstate == .l12 && d.pwr.listenOk))

/-- The Shuttle SRAM's work, wake logic and DMA may move data over the link (R198, R571). -/
def dmaAllowed (d : Dev) : Bool :=
  d.link.up && d.link.bme && !d.link.d3hot && !d.err.fatal && !d.pwr.perst

/-- Requests can leave now: in L1.2 they wait for the exit (R206). -/
def canIssue (d : Dev) : Bool := dmaAllowed d && d.link.lstate != .l12

/-! ### Output -/

/-- Appends one message to what the device has put out. -/
def emit (m : OutMsg) (d : Dev) : Dev := { d with out := d.out ++ [m] }

/-- A flit to one node of the cascade ring: it acknowledges what came from that node and returns credits, at
most 15 at a time (R415, R420, R432). -/
def emitFlit (type dst seq : Nat) (payload : Bytes) (d : Dev) : Dev :=
  match tblFind d.cas.peers dst with
  | none => d
  | some p =>
    let crd := min p.owedCredits 15
    emit (.flit type dst seq p.rxSeq crd true payload)
      { d with cas.peers := tblPut d.cas.peers dst { p with owedCredits := p.owedCredits - crd, ackDue := false } }

/-- A broadcast flit (R417); node 0 drives its transmitter low while CAS_CTL.EN is 0 (R410). -/
def emitCast (type : Nat) (payload : Bytes) (d : Dev) : Dev :=
  if ownNode d = 0 && !d.regs.casEn then d else emit (.flit type 0 0 0 0 false payload) d

/-- The header of a memory request to `addr` is the 64-bit one: from 4 GiB on (R195). -/
def longHeader (addr : Nat) : Bool := decide (2 ^ 32 ≤ addr)

/-- What R198 and a fatal condition let leave once the link is in L0: memory writes as any DMA does, MSI-X messages in
a fatal condition too, other messages always. -/
def mayLeave (d : Dev) : OutMsg → Bool
  | .memWrite _ _ _ => dmaAllowed d
  | .msix _ => d.link.bme && !d.link.d3hot
  | _ => true

/-- A posted write or message: at once, after the exit from L1 (R205), or held by R198 and in L1.2, which it ends. -/
def emitHost (m : OutMsg) (d : Dev) : Dev :=
  if !d.link.up || d.pwr.perst then d
  else if !mayLeave d m then { d with link.heldOut := d.link.heldOut ++ [m] }
  else if d.link.lstate = .l12 then { d with link.heldOut := d.link.heldOut ++ [m], link.clkreq := true }
  else emit m { d with link.lstate := .l0, link.clkreq := true }

/-- Largest payload of one request from `addr`: not above `lim`, and not across a 4 KiB boundary (R196). -/
def pieceLen (lim addr len : Nat) : Nat := min (min lim len) (4096 - addr % 4096)

/-- The requests that move `len` bytes from `addr` on: address and length of each (R196). `fuel` bounds
their number. -/
def pieces (lim : Nat) : Nat → Nat → Nat → List (Nat × Nat)
  | 0, _, _ => []
  | fuel + 1, addr, len =>
    if len = 0 then []
    else
      let n := pieceLen lim addr len
      (addr, n) :: pieces lim fuel (addr + n) (len - n)

/-- Splits a transfer into its requests. -/
def splitReq (lim addr len : Nat) : List (Nat × Nat) := pieces lim (len + 1) addr len

/-- The latency value and scale that express the largest latency not above a register value in µs (R606): ten bits of
value, in units of 32^scale ns. -/
def ltrCode (us : Nat) : Nat × Nat :=
  let k := ((List.range 6).find? fun k => us * 1000 / 32 ^ k < 1024).getD 5
  (us * 1000 / 32 ^ k, k)

/-- An LTR message of a register value in µs. -/
def ltrMsg (us : Nat) : OutMsg := .ltr (ltrCode us).1 (ltrCode us).2

/-- Sends an LTR message while LTR is enabled; L1.2 looks at what the newest one carried (R206, R208). -/
def sendLtr (us : Nat) (d : Dev) : Dev :=
  if d.link.ltrEn && d.link.up then
    emitHost (ltrMsg us) { d with link.ltrSent := some ((ltrCode us).1 * 32 ^ (ltrCode us).2) }
  else d

/-- Reports DMA or sweep work after an idle period by LTR (R208). -/
def startWork (d : Dev) : Dev :=
  if d.link.active then d else sendLtr d.regs.ltrActive { d with link.active := true }

/-- A posted memory write, split by R196; `ro` on drain data only (R197). -/
def memWrite (addr : Nat) (data : Bytes) (ro : Bool) (d : Dev) : Dev :=
  (splitReq (min 256 d.link.mps) addr data.length).foldl
    (fun d p => emitHost (.memWrite p.1 ((data.drop (p.1 - addr)).take p.2) (ro && d.link.roEn)) d) (startWork d)

/-- One outstanding non-posted request (R196): its tag is the count of requests so far. -/
def memReadOne (what : ReadFor) (addr len : Nat) (d : Dev) : Dev :=
  let tag := d.link.nextTag
  startTimer (.read tag) (emit (.memRead tag addr len)
    { startWork d with
      link.lstate := .l0
      link.clkreq := true
      link.nextTag := tag + 1
      link.reads := (startWork d).link.reads ++ [{ tag, what, addr, len }] })

/-- A device read split by R196. -/
def memRead (what : ReadFor) (addr len : Nat) (d : Dev) : Dev :=
  (splitReq (min 512 d.link.mrrs) addr len).foldl (fun d p => memReadOne what p.1 p.2 d) d

/-- Room for `n` more non-posted requests (R196). -/
def readRoom (d : Dev) (n : Nat) : Bool :=
  decide ((d.link.reads.filter (·.got.isNone)).length + n ≤ 32)

/-- An outstanding read is over. -/
def dropRead (tag : Nat) (d : Dev) : Dev :=
  stopTimer (.read tag) { d with link.reads := d.link.reads.filter fun r => r.tag ≠ tag }

/-- Ends every outstanding read of one purpose. -/
def dropReadsFor (what : ReadFor) (d : Dev) : Dev :=
  (d.link.reads.filter fun r => r.what = what).foldl (fun d r => dropRead r.tag d) d

/-- Correctable errors; the others are uncorrectable, and First Error Pointer and header log are for those (R209). -/
def aerCorrectable : Aer → Bool
  | .receiverError | .badTlp | .badDllp | .replayTimeout | .replayRollover | .correctedInternal => true
  | _ => false

/-- Sets an AER status bit (R209). The first uncorrectable error that is not masked takes the First Error Pointer and
the header log (R194); the header of the packet is free (log entry 91). -/
def aerSet (e : Aer) (d : Dev) : Dev :=
  let d := if e ∈ d.link.aer then d else { d with link.aer := d.link.aer ++ [e] }
  if aerCorrectable e || d.link.aerCap.first.isSome || decide (e ∈ d.link.aerCap.masked) then d
  else
    let x := takeFree d
    { x.2 with link.aerCap := { x.2.link.aerCap with first := some e, header := x.1.setWidth 128 } }

/-- The MSI-X table entry of a vector. -/
def msixEntry (d : Dev) (v : Nat) : MsixEntry := tblGet {} d.link.vectors v

/-- Raises an MSI-X vector: dropped while MSI-X is disabled, held as a pending bit while masked (R204). -/
def msix (v : Nat) (d : Dev) : Dev :=
  if !d.link.msixEn || d.pwr.perst then d
  else if d.link.funcMask || (msixEntry d v).masked then { d with link.pba := d.link.pba ||| (1 <<< v) }
  else emitHost (.msix v) d

/-- Sends what R198 or L1.2 held and may leave now, oldest first; a vector masked since is held as its pending bit
(R204). -/
def flushHeld (d : Dev) : Dev :=
  d.link.heldOut.foldl (fun d m => match m with
    | .msix v => msix v d
    | m => emitHost m d) { d with link.heldOut := [] }

/-- A change of BOOT_STATUS; from ROM onwards it raises vector 0 (R475). -/
def setBoot (b : BootStatus) (d : Dev) : Dev :=
  let chg := d.boot.status ≠ b
  let d := { d with boot.status := b }
  match b with
  | .powerUp | .hold | .bist => d
  | _ => if chg then msix 0 d else d

/-! ### Error capture and log (R553 to R565, R682) -/

/-- Adds a log record; the oldest of 256 is overwritten (R564). -/
def logRec (kind code object cid opcode result1 : Nat) (d : Dev) : Dev :=
  let r : LogRec := { seq := d.err.logSeq, kind, code := BitVec.ofNat 8 code, time := ticks d,
                      object, cid, opcode, result1, epoch := d.epoch.now }
  let l := d.err.log ++ [r]
  { d with err.log := l.drop (l.length - 256), err.logSeq := (d.err.logSeq + 1) % 2 ^ 32 }

/-- Counts an X event in its family (R561). -/
def countErr (code : Nat) (e : Err) : Err :=
  if 0x01 ≤ code ∧ code ≤ 0x1F then { e with cntCmd := sat16 e.cntCmd 1 }
  else if 0x40 ≤ code ∧ code ≤ 0x5F then { e with cntMem := sat16 e.cntMem 1 }
  else if 0x60 ≤ code ∧ code ≤ 0x6F then { e with cntPort := sat16 e.cntPort 1 }
  else if 0x70 ≤ code ∧ code ≤ 0x7F then { e with cntRing := sat16 e.cntRing 1 }
  else if 0x80 ≤ code ∧ code ≤ 0x8F then { e with cntSec := sat16 e.cntSec 1 }
  else if 0x90 ≤ code ∧ code ≤ 0x9F then { e with cntPwr := sat16 e.cntPwr 1 }
  else e

/-- What becomes of a detected record at the FIFO: the FIFO after it, and whether one was dropped
(R558, R559). -/
def fifoPut (fatal : Bool) (r : ErrRec) (fifo : List ErrRec) : List ErrRec × Bool :=
  match fifo.getLast? with
  | none => ([r], false)
  | some n =>
    if n.code = r.code ∧ n.source = r.source ∧ n.object = r.object then
      (fifo.dropLast ++ [{ n with rept := sat16 n.rept 1 }], false)
    else if fifo.length < 16 then (fifo ++ [r], false)
    else if fatal then (fifo.dropLast ++ [r], true)
    else (fifo, true)

/-- Detects a record: numbers it, enters, coalesces or drops it, and keeps the first and the newest
(R555 to R562, R682). -/
def capture (fatal : Bool) (code src obj : Nat) (d : Dev) : Dev :=
  let seq := (d.err.seq + 1) % 65536
  let r : ErrRec := { code := BitVec.ofNat 8 code, source := src, object := obj, time := ticks d, seq }
  let p := fifoPut fatal r d.err.fifo
  let e := countErr code d.err
  let d' := { d with err := { e with
    seq
    fifo := p.1
    overflow := e.overflow || p.2
    last := some r
    first := some (e.first.getD r) } }
  let d' := if d.err.fifo.isEmpty then msix 0 d' else d'
  if fwExec d then logRec 0 code obj 0 0 0 d' else d'

/-- Records a condition that is not fatal. -/
def recordErr (code src obj : Nat) (d : Dev) : Dev := capture false code src obj d

/-- A LATE_SUCCESS: counted, and logged with the command or the descriptor cookie (R564, R568). -/
def lateSuccess (cid opcode cookie : Nat) (d : Dev) : Dev :=
  let d := { d with err.late := sat16 d.err.late 1 }
  if fwExec d then logRec 3 0x0A 0 cid opcode cookie d else d

/-! ### Sweeps (R234 to R244) -/

/-- The timer floor and ceiling; a ceiling below the floor counts as the floor (R241). -/
def sweepCeil (d : Dev) : Nat := max d.regs.sweepFast d.regs.sweepSlow

/-- The reads of a sweep leave: the 2 KiB block in ascending order (R234). -/
def startSweep (timed kicked : Bool) (d : Dev) : Dev :=
  memRead .doorbells d.adm.dbBase 2048
    { d with sweep.running := true, sweep.timed := timed, sweep.kicked := kicked }

/-- Doorbells can be swept: firmware has run, a doorbell block is known, and DMA is possible (R198,
R482). -/
def canSweep (d : Dev) : Bool :=
  fwRunning d && !d.err.fatal &&
    (d.adm.en || d.adm.run.isSome || d.adm.waiting.isSome || !d.rings.fills.isEmpty || !d.rings.drains.isEmpty || !d.rings.comps.isEmpty)

/-- The reads of a sweep cannot leave now (R196, R198, R206). -/
def sweepWaits (d : Dev) : Bool :=
  d.sweep.running || !canIssue d || !readRoom d (splitReq (min 512 d.link.mrrs) d.adm.dbBase 2048).length

/-- A sweep trigger: starts a sweep, or merges into the one pending (R239, R222). -/
def triggerSweep (timed kicked : Bool) (d : Dev) : Dev :=
  if !canSweep d then d
  else if sweepWaits d then
    { d with
      sweep.pending := true
      sweep.pendKick := d.sweep.pendKick || kicked
      sweep.pendOther := d.sweep.pendOther || !kicked
      link.clkreq := d.link.clkreq || dmaAllowed d }
  else startSweep timed kicked d

/-- The pending sweep starts as soon as its reads can leave (R239). -/
def resumeSweep (d : Dev) : Dev :=
  if !d.sweep.pending || (canSweep d && sweepWaits d) then d
  else
    let e := { d with sweep.pending := false, sweep.pendKick := false, sweep.pendOther := false }
    if canSweep d then startSweep false d.sweep.pendKick e else e

/-- A completion ring has no free slot (R246). -/
def compFull (c : CompRing) : Bool := decide (2 ^ c.log2 ≤ (c.written - c.head).toNat)

/-- The completion ring that a ring names is full, so the ring is stalled (R246). -/
def cqFull (d : Dev) (cq : Nat) : Bool :=
  match tblFind d.rings.comps cq with
  | some c => compFull c
  | none => false

/-- A ring is stalled, or a command waits for a slot: the timer must not stop (R243). -/
def someStall (d : Dev) : Bool :=
  d.adm.waiting.isSome || d.rings.fills.any (fun e => cqFull d e.2.cq) ||
    d.rings.drains.any (fun e => cqFull d e.2.cq)

/-- Sets the timer for the next timed sweep, or stops it, with its LTR message (R208, R242, R243). -/
def armSweep (d : Dev) : Dev :=
  let since := match timerOf d .idle with
    | some t => timerRan d t
    | none => 0
  if d.regs.sweepIdle ≠ 0 ∧ d.regs.sweepIdle * 512 ≤ since + d.sweep.interval * 512 ∧ !someStall d then
    sendLtr d.regs.ltrIdle (stopTimer .sweep { d with sweep.stopped := true, link.active := false })
  else startTimer .sweep { d with sweep.stopped := false }

/-- Activity: the interval returns to its floor, and timer and idle count start anew (R240, R242). -/
def activity (d : Dev) : Dev :=
  armSweep (startTimer .idle { d with sweep.interval := d.regs.sweepFast })

/-! ### Completion entries (R245 to R247, R266, R272) -/

/-- Writes one entry into a free slot of a completion ring, and what follows from it: message, sweep,
activity (R239, R240, R245, R247). `hi` is the word at 0x0C without its phase. -/
def putCe (c : Nat) (r : CompRing) (cookie lenStatus hi : Nat) (d : Dev) : Dev :=
  let slot := r.written.toNat % 2 ^ r.log2
  let data := natLe 8 cookie ++ natLe 4 lenStatus ++ natLe 4 (hi + flagAt r.phase 31)
  let n := r.unreported + 1
  let fire := r.irqEn && decide (r.thr ≤ n)
  let r' := { r with
    written := r.written + 1
    phase := if slot + 1 = 2 ^ r.log2 then !r.phase else r.phase
    unreported := if fire then 0 else n }
  let d := memWrite (r.base + 16 * slot) data false { d with rings.comps := tblPut d.rings.comps c r' }
  let d := if fire then stopTimer (.irq c) (msix r.vector d)
    else if r.irqEn && r.time ≠ 0 && n = 1 then startTimer (.irq c) d else d
  triggerSweep false false (activity d)

/-- Completes a descriptor into a completion ring: now, or when a slot comes free (R246). -/
def postCe (c : Nat) (cookie lenStatus hi : Nat) (d : Dev) : Dev :=
  match tblFind d.rings.comps c with
  | none => d
  | some r =>
    if compFull r || !r.waiting.isEmpty then
      { d with rings.comps := tblPut d.rings.comps c { r with waiting := r.waiting ++ [(cookie, lenStatus, hi)] } }
    else putCe c r cookie lenStatus hi d

/-- Slots came free: the entries that waited for them are written, oldest first. -/
def flushCe : Nat → Nat → Dev → Dev
  | 0, _, d => d
  | n + 1, c, d =>
    match tblFind d.rings.comps c with
    | none => d
    | some r =>
      match r.waiting with
      | [] => d
      | w :: ws => if compFull r then d else flushCe n c (putCe c { r with waiting := ws } w.1 w.2.1 w.2.2 d)

/-- The outcome of an admin command: ACE_STATUS, the two results, and a record with its address. -/
structure AdmRes where
  status : Nat := 0
  r0 : Nat := 0
  r1 : Nat := 0
  record : Option (Nat × Bytes) := none
deriving DecidableEq, Repr

/-- Slots used in the admin completion ring. -/
def admFull (d : Dev) : Bool := decide (2 ^ d.adm.cqLog2 ≤ (d.adm.written - d.adm.head).toNat)

/-- A command that could not be read: its ACE_CID is free (log entry 28). -/
def unreadRun (f : BitVec 256) : AdmRun :=
  { opcode := 0, cid := f.setWidth 16, addr := 0, len := 0, origin := .host, kind := .unread }

/-- A request that waits only for the exit from L1.2 asks for it (R205): `f` issues what it can. -/
def askLink (f : Dev → Dev) (d : Dev) : Dev :=
  if d.link.lstate = .l12 && dmaAllowed d && (f { d with link.lstate := .l0 }).link.nextTag != d.link.nextTag then
    { f d with link.clkreq := true }
  else f d

/-- Fetches the next admin command when there is one and nothing is in its way (R230, R29, R198); it is timed from
here (R278). -/
def fetchAdmin (d : Dev) : Dev :=
  if d.adm.en && !d.adm.halted && fwExec d && d.adm.run.isNone && d.adm.fetch.isNone &&
      d.adm.waiting.isNone && d.adm.tail ≠ d.adm.fetched && canIssue d && readRoom d 1 then
    let tag := d.link.nextTag
    memReadOne .admin (d.adm.sqBase + 64 * (d.adm.fetched.toNat % 2 ^ d.adm.sqLog2)) 64
      (startTimer .admin { d with adm.fetch := some tag })
  else d

/-- Fetches the next admin command, or asks for the link to do so. -/
def fetchNext (d : Dev) : Dev := askLink fetchAdmin d

/-- Writes an admin completion entry (R272) with its message, sweep and activity. -/
def writeAce (cid : BitVec 16) (status r0 r1 : Nat) (d : Dev) : Dev :=
  let slot := d.adm.written.toNat % 2 ^ d.adm.cqLog2
  let sqHead := d.adm.fetched.toNat % 2 ^ d.adm.sqLog2
  let data := natLe 4 r0 ++ natLe 4 r1 ++ natLe 4 (cid.toNat + status * 2 ^ 16) ++
    natLe 4 (sqHead + flagAt d.adm.phase 31)
  let d := memWrite (d.adm.cqBase + 16 * slot) data false { d with
    adm.written := d.adm.written + 1
    adm.phase := if slot + 1 = 2 ^ d.adm.cqLog2 then !d.adm.phase else d.adm.phase }
  triggerSweep false false (activity (msix 0 d))

/-- Completes the host's command: now, or when a slot comes free (R246, R278). -/
def postAce (cid : BitVec 16) (status r0 r1 : Nat) (d : Dev) : Dev :=
  let d := stopTimer .admin d
  if admFull d then { d with adm.waiting := some (cid, status, r0, r1) }
  else fetchNext (writeAce cid status r0 r1 d)

/-- A slot came free: the waiting completion is written. -/
def flushAce (d : Dev) : Dev :=
  match d.adm.waiting with
  | none => d
  | some (cid, status, r0, r1) =>
    if admFull d then d else writeAce cid status r0 r1 { d with adm.waiting := none }

/-- Opcodes whose outcome the log keeps (R564). -/
def loggedOpcode (op : Nat) : Bool := op = 0x19 || op = 0x30 || op = 0x40 || op = 0x41 || op = 0x31

/-! ### Wake (R218 to R220) -/

/-- Reports a firing through exactly one path (R219, R224). -/
def wakeReport (d : Dev) : Dev :=
  if d.pwr.perst then
    if d.link.pmeEn then { d with link.pmeStatus := true, link.wakePin := true } else d
  else if d.link.d3hot then
    if d.link.pmeEn then emitHost .pmPme { d with link.pmeStatus := true } else d
  else msix 0 d

/-- The sources that fire in one round: one report, both bits (R218). -/
def wakeFire (pressure : Bool) (queue : Option Nat) (d : Dev) : Dev :=
  let p := pressure && d.regs.wakeEnPressure
  let q := queue.isSome && d.regs.wakeEnQueue
  if !p && !q then d
  else
    let first := q && !d.regs.wakeSrcQueue
    wakeReport { d with
      regs.wakeSrcPressure := d.regs.wakeSrcPressure || p
      regs.wakeSrcQueue := d.regs.wakeSrcQueue || q
      regs.wakeQid := if first then queue.getD 0 else d.regs.wakeQid
      regs.wakeQidValid := d.regs.wakeQidValid || first }

/-! ### Meanings -/

/-- A command's effect on the device, with the queue left as it is. -/
def act (f : Dev → Dev) (s : State) : Host.Outcome State Fault Refusal := .next { s with dev := f s.dev }

end Sys2Proof.Machine
end

