-- ==== Sys2Proof/Machine/Flags.lean ====
section
/-!
DEFINITION. Counts, flags and status words of a queue (R49 to R92), pools of segments, and the packed
words of the setup registers' read-only state.
-/

namespace Sys2Proof.Machine

/-! ### Counts -/

/-- Item width in bytes (QTE_EW, R89). -/
def ewBytes (ew : BitVec 2) : Nat := 2 ^ ew.toNat

/-- Items in one 4 KiB segment. -/
def segItems (ew : BitVec 2) : Nat := 4096 / ewBytes ew

/-- Fill count (R49). -/
def fillCount (q : Queue) : Nat := q.items.length

/-- Occupancy: fill and retained. -/
def occupancy (q : Queue) : Nat := q.items.length + q.retained.length

/-- Items of the open packet that are stored and not yet available (R65, R66). -/
def hiddenCount (q : Queue) : Nat :=
  if q.cfg.pkt && !q.openAvail then min q.openCount q.items.length else 0

/-- Items ahead of the first hole (R452). -/
def aheadOfHole (q : Queue) : Nat :=
  (q.items.takeWhile fun i => q.chain.all fun s => s.pos ≠ i.seg || !s.hole).length

/-- Available count (R65, R66, R336, R452). -/
def available (q : Queue) : Nat := min (q.items.length - hiddenCount q) (aheadOfHole q)

/-- The items the consumer may pop now. -/
def availItems (q : Queue) : List Item := q.items.take (available q)

/-- The queue a number names. -/
def queueOf (d : Dev) (qid : Nat) : Queue := tblGet {} d.queues qid

/-- Stores a queue. -/
def putQueue (qid : Nat) (q : Queue) (d : Dev) : Dev := { d with queues := tblSet {} d.queues qid q }

/-- Changes a queue. -/
def onQueue (qid : Nat) (f : Queue → Queue) (d : Dev) : Dev := putQueue qid (f (queueOf d qid)) d

/-! ### Segments -/

/-- Near copies a queue holds (R327). -/
def nearCopies (q : Queue) : Nat := (q.chain.filter fun s => s.near.isSome).length

/-- Local deep copies a queue holds, segments of programs in flight included (R328). -/
def deepCopies (d : Dev) (qid : Nat) (q : Queue) : Nat :=
  (q.chain.filter fun s => s.deep.isSome).length +
    (d.tier.active.filter fun p => match p.what with
      | .spill i _ => decide (i = qid)
      | .seal i _ => decide (i = qid)
      | _ => false).length

/-- Borrowed copies a queue holds (R441). -/
def loanCopies (q : Queue) : Nat := (q.chain.filter fun s => s.loan.isSome).length

/-- Near segments assigned to queues: copies and unused reserved segments. -/
def nearUsed (d : Dev) : List Nat :=
  d.queues.flatMap fun e => e.2.chain.filterMap (·.near) ++ e.2.resvFree

/-- The lowest-numbered segment of the shared near pool (R327). -/
def nearFree (d : Dev) : Option Nat :=
  let used := nearUsed d
  (List.range 512).find? fun n => n ∉ used && n ∉ d.tier.nearRetired

/-- Size of the shared near pool. -/
def nearPool (d : Dev) : Nat := 512 - d.tier.nearRetired.length - (nearUsed d).length

/-- Near segments in service (R299). -/
def nearInService (d : Dev) : Nat := 512 - d.tier.nearRetired.length

/-- Deep user segments retired. -/
def deepUserRetired (d : Dev) : Nat := (d.tier.deepRetired.filter (· < 8192)).length

/-- Deep user segments in service (R299). -/
def deepInService (d : Dev) : Nat := 8192 - deepUserRetired d

/-- The free deep pool (08, "Free segments"): listed segments are not free. -/
def deepPool (d : Dev) : Nat := 8192 - d.tier.deep.length - deepUserRetired d

/-- A segment's program has started. -/
def inFlight : ProgState → Bool
  | .started => true
  | .kept running => running
  | _ => false

/-- Near-only segments of valid PERSISTENT queues without a program started (the seal reserve). -/
def sealNeed (d : Dev) : Nat :=
  (d.queues.map fun e =>
    if e.2.cfg.valid && e.2.cfg.persist then
      (e.2.chain.filter fun s => s.near.isSome && s.deep.isNone && s.loan.isNone &&
        !inFlight s.prog).length
    else 0).sum

/-- The free segment count of R218. -/
def freeSegments (d : Dev) : Nat := nearPool d + deepPool d

/-- Whether a queue can obtain another near segment now (R326, R327). -/
def canTakeNear (d : Dev) (q : Queue) : Bool :=
  decide (nearCopies q < q.cfg.nearQuota) &&
    (!q.resvFree.isEmpty || (d.tier.shorts.isEmpty && decide (0 < nearPool d)))

/-- Segments a burst of `n` items needs beyond the tail's room. -/
def segsNeeded (q : Queue) (n : Nat) : Nat :=
  let room := match q.chain.getLast? with
    | some s => segItems q.cfg.ew - s.used
    | none => 0
  if n ≤ room then 0 else 1

/-- The tier policy lets go of a segment's near copy once its deep copy is verified (R332, R333). -/
def letGo (q : Queue) (pos : Nat) : Bool :=
  q.cfg.tier = 1 || (q.cfg.tier = 2 && q.chain.head?.map (·.pos) ≠ some pos)

/-- A program has started whose verification will release a near copy of the queue (R337). -/
def releaseComing (q : Queue) : Bool := q.chain.any fun s => s.prog == .started && s.near.isSome && letGo q s.pos

/-- Full: no room by capacity, or the next item needs a segment that cannot be had (R331, R337). -/
def queueFull (d : Dev) (q : Queue) : Bool :=
  decide (q.cfg.cap ≤ occupancy q) ||
    (segsNeeded q 1 ≠ 0 && !canTakeNear d q && !releaseComing q)

/-! ### Flags (R84, R85, R175) -/

/-- Almost-full. -/
def almostFull (q : Queue) : Bool := q.cfg.valid && decide (q.cfg.aft ≤ occupancy q)

/-- Almost-empty. -/
def almostEmpty (q : Queue) : Bool := q.cfg.valid && decide (available q ≤ q.cfg.aet)

/-- Empty. -/
def isEmpty (q : Queue) : Bool := q.cfg.valid && available q == 0

/-- Full as a flag. -/
def fullFlag (d : Dev) (q : Queue) : Bool := q.cfg.valid && queueFull d q

/-! ### Status word -/

/-- ST_LOCK_OWNER of a lock that is held (R89). -/
def ownerCode : Producer → Nat
  | .ring f => f
  | .port i => 64 + i
  | .node n => 96 + n

/-- The word at 0x38 of a QTE (R89). ST_LOCK_OWNER reads 0 while no lock is held (log entry 93, DESIGN CHOICE). -/
def statusWord (q : Queue) : Nat :=
  flagAt q.mark 0 + flagAt q.lock.isSome 1 + ((q.lock.map ownerCode).getD 0) * 4 +
    flagAt q.stUnderrun 9 + flagAt q.stCtUnderrun 10 + flagAt q.stDamaged 11 + flagAt q.stUnsealed 12 +
    flagAt q.stMarkLost 13 + flagAt (!q.discards.isEmpty) 14

/-- The flag bits of a count-mirror entry (R279). -/
def mirrorFlags (q : Queue) : BitVec 11 :=
  BitVec.ofNat 11 (flagAt q.fEmpty 0 + flagAt q.fFull 1 + flagAt q.fAf 2 + flagAt q.fAe 3 +
    flagAt q.stUnderrun 4 + flagAt q.stDamaged 5 + flagAt q.stUnsealed 6 + flagAt q.stCtUnderrun 7 +
    flagAt q.mark 8 + flagAt q.stMarkLost 9 + flagAt q.cfg.valid 10)

/-- A queue's count-mirror entry at the end of a round (R279, R280). -/
def mirrorRec (d : Dev) (q : Queue) : MirrorRec :=
  { avail := min (available q) 0xFFFFFF, fill := fillCount q, lost := q.lost,
    flags := mirrorFlags q, epoch := BitVec.ofNat 8 d.epoch.now.toNat }

/-- The four flags take their end-of-round values (R85), and with them what the count mirror shows of the queue
(R280). -/
def setFlags (d : Dev) (q : Queue) : Queue :=
  let q := { q with fAf := almostFull q, fAe := almostEmpty q, fEmpty := isEmpty q, fFull := fullFlag d q }
  { q with eor := mirrorRec d q }

/-- The 16 bytes of an entry (R279). -/
def mirrorBytes (seq : BitVec 8) (m : MirrorRec) : Bytes :=
  natLe 4 (seq.toNat + m.avail * 2 ^ 8) ++ natLe 4 m.fill ++ natLe 4 m.lost ++
    natLe 4 (m.flags.toNat + m.epoch.toNat * 2 ^ 16 + seq.toNat * 2 ^ 24)

/-- The mirror may be written (R283, R605). -/
def mirrorOn (d : Dev) : Bool := d.regs.mirrorEn && d.adm.en && dmaAllowed d

/-- Writes a queue's entry as its last round left it, with the next sequence byte (R280). -/
def mirrorWrite (qid : Nat) (d : Dev) : Dev :=
  let q := queueOf d qid
  let seq := q.mirrorSeq + 1
  startTimer (.mirror qid) (memWrite (d.adm.mirrorBase + 16 * qid) (mirrorBytes seq q.eor) false
    (putQueue qid { q with mirror := q.eor, mirrorSeq := seq, mirrorHeld := false } d))

/-- What the end of a round does with an entry: a flag change is written now, a count change when the
hold has passed (R282). -/
def mirrorUpdate (qid : Nat) (d : Dev) : Dev :=
  let d := onQueue qid (fun q => { q with eor := mirrorRec d q }) d
  let q := queueOf d qid
  if !mirrorOn d then d
  else if q.eor = q.mirror then onQueue qid (fun q => { q with mirrorHeld := false }) d
  else if q.eor.flags ≠ q.mirror.flags || !timerOn d (.mirror qid) || timerDue d (.mirror qid) d.regs.mirrorHold then
    mirrorWrite qid d
  else putQueue qid { q with mirrorHeld := true } d

/-- Writes all 4096 entries once, now or when R198 no longer holds (R283, R605). A queue that has had no round shows
zeros (log entry 92). -/
def mirrorFull (d : Dev) : Dev :=
  if !(d.regs.mirrorEn && d.adm.en) then d
  else if mirrorOn d then
    (List.range 4096).foldl (fun d i => mirrorWrite i d) { d with adm.mirrorOwed := false }
  else { d with adm.mirrorOwed := true }

/-- Writing is possible again: every entry that differs from its last value is written, in ascending order, or all of
them when they are still owed (R283). -/
def mirrorResync (d : Dev) : Dev :=
  if !mirrorOn d then d
  else if d.adm.mirrorOwed then mirrorFull d
  else d.queues.foldl (fun d e => if e.2.eor ≠ e.2.mirror then mirrorWrite e.1 d else d) d

/-! ### Reads of packed state -/

/-- A program in this device's own deep tier is under way: one segment at a time (R338). -/
def tierBusy (d : Dev) : Bool := d.tier.active.any fun p => match p.what with
  | .borrow _ _ _ _ _ => false
  | _ => true

/-- The deep-tier charge pump is on: firmware runs and a deep access is pending, or a fuse burns (11, supplies; 12). -/
def pumpOn (d : Dev) : Bool :=
  awake d && (d.fuse.burn.isSome ||
    (fwRunning d && (tierBusy d || d.queues.any fun e => e.2.chain.any fun s => s.reading && s.deep.isSome)))

/-- The locked sequence in progress (R581): fuse burn, epoch apply, key-slot write, deep-tier program. The other
extents of R581 are single steps of this model. -/
def lockedSeq (d : Dev) : Nat :=
  if d.fuse.burn.isSome then 1
  else if d.epoch.fence then 2
  else if d.epoch.eraseFence.isSome then 3
  else if tierBusy d then 4 else 0

/-- LOUPE_CTRL bits [14:8] (R618): HALTED, HALT_PENDING, SEQ, UNLOCKED, FATAL. -/
def debugBits (d : Dev) : Nat :=
  flagAt d.jtag.halted 8 + flagAt d.jtag.haltPend 9 + lockedSeq d * 2 ^ 10 +
    flagAt d.jtag.unlocked.isSome 13 + flagAt d.err.fatal 14

end Sys2Proof.Machine
end

