-- ==== Sys2Proof/Machine/Operands.lean ====
section
/-!
DEFINITION. The structures in host memory and on the wire, read from bytes and written to bytes: QTE
(R89), PCE (R152), binding entries (R276), descriptors (R251, R259), commands (R271), flits (R415, R417),
doorbells, logs and reports.
-/

namespace Sys2Proof.Machine

/-! ### QTE -/

/-- Bytes 0x00 to 0x27 of a QTE (R89). -/
def parseQte (bs : Bytes) : QCfg :=
  let w0 := leAt bs 0 4
  let w4 := leAt bs 0x10 4
  let w5 := leAt bs 0x14 4
  let w6 := leAt bs 0x18 4
  { valid := bitOf w0 0
    ew := BitVec.ofNat 2 (bitsOf w0 1 2)
    overwrite := bitOf w0 3
    ovrPacket := bitOf w0 4
    idleMode := bitOf w0 5
    pkt := bitOf w0 6
    tier := BitVec.ofNat 2 (bitsOf w0 7 2)
    persist := bitOf w0 9
    wake := bitOf w0 10
    reset := bitOf w0 11
    slot := BitVec.ofNat 4 (bitsOf w0 12 4)
    peerNode := BitVec.ofNat 2 (bitsOf w0 16 2)
    cap := leAt bs 0x04 4
    aft := leAt bs 0x08 4
    aet := leAt bs 0x0C 4
    nearQuota := bitsOf w4 0 10
    nearRsv := bitsOf w4 16 10
    deepQuota := bitsOf w5 0 14
    peerQuota := bitsOf w5 16 14
    ctThr := bitsOf w6 0 16
    idleItem := BitVec.ofNat 64 (leAt bs 0x20 8)
    rsvd := bitsOf w0 18 14 ≠ 0 || bitsOf w4 10 6 ≠ 0 || bitsOf w4 26 6 ≠ 0 || bitsOf w5 14 2 ≠ 0 ||
      bitsOf w5 30 2 ≠ 0 || bitsOf w6 16 16 ≠ 0 || leAt bs 0x1C 4 ≠ 0 }

/-- The configuration bytes of a live QTE; reserved bits read 0 (R11). -/
def cfgBytes (c : QCfg) : Bytes :=
  natLe 4 (flagAt c.valid 0 + c.ew.toNat * 2 + flagAt c.overwrite 3 + flagAt c.ovrPacket 4 +
    flagAt c.idleMode 5 + flagAt c.pkt 6 + c.tier.toNat * 2 ^ 7 + flagAt c.persist 9 +
    flagAt c.wake 10 + flagAt c.reset 11 + c.slot.toNat * 2 ^ 12 + c.peerNode.toNat * 2 ^ 16) ++
  natLe 4 c.cap ++ natLe 4 c.aft ++ natLe 4 c.aet ++
  natLe 4 (c.nearQuota + c.nearRsv * 2 ^ 16) ++ natLe 4 (c.deepQuota + c.peerQuota * 2 ^ 16) ++
  natLe 4 c.ctThr ++ natLe 4 0 ++ natLe 8 c.idleItem.toNat

/-- The 64-byte live QTE (R89). -/
def qteBytes (q : Queue) : Bytes :=
  cfgBytes q.cfg ++ natLe 4 (fillCount q) ++ natLe 4 q.lost ++ natLe 4 q.retained.length ++
    natLe 4 (q.underruns + q.drops * 2 ^ 16) ++ natLe 4 (statusWord q) ++ natLe 4 q.epoch.toNat

/-! ### PCE -/

/-- Bytes 0x00 to 0x0F of a PCE (R152). -/
def parsePce (bs : Bytes) : Pce :=
  let w0 := leAt bs 0 4
  { en := bitOf w0 0
    width := BitVec.ofNat 2 (bitsOf w0 1 2)
    tagged := bitOf w0 3
    flagAgg := bitOf w0 4
    push := bitOf w0 5
    fwft := bitOf w0 6
    clksrc := bitOf w0 7
    cont := bitOf w0 8
    status := bitOf w0 9
    qid := BitVec.ofNat 14 (leAt bs 4 4)
    rsvd := bitsOf w0 10 22 ≠ 0 || bitsOf (leAt bs 4 4) 14 18 ≠ 0 || leAt bs 8 8 ≠ 0 }

/-- The 32-byte live PCE (R152). -/
def pceBytes (p : Pce) (r : PceRun) (bypass : Bool) : Bytes :=
  natLe 4 (flagAt p.en 0 + p.width.toNat * 2 + flagAt p.tagged 3 + flagAt p.flagAgg 4 + flagAt p.push 5 +
    flagAt p.fwft 6 + flagAt p.clksrc 7 + flagAt p.cont 8 + flagAt p.status 9) ++
  natLe 4 p.qid.toNat ++ natLe 8 0 ++ natLe 4 (r.stragglers + r.unmapped * 2 ^ 16) ++
  natLe 4 (r.ovf + r.tagErr * 2 ^ 16) ++ natLe 4 (r.merges + r.parks * 2 ^ 16) ++
  natLe 4 (flagAt (r.isOpen && !r.parked) 0 + flagAt r.parked 1 + flagAt r.unparkPend 2 + flagAt bypass 3 +
    flagAt r.tpForced 4)

/-- Port width in bits (PCE_WIDTH; 0b11 is refused by EPOCH_CHECK). -/
def portBits (w : BitVec 2) : Nat := if w = 0 then 4 else if w = 1 then 8 else 16

/-! ### Bindings -/

/-- A binding entry of STAGE_BINDINGS (R276). -/
def parseBind (w : Nat) : BindWord :=
  { kind := bitsOf w 0 4
    remove := bitOf w 4
    index := bitsOf w 8 8
    target := bitsOf w 16 6
    tag := bitsOf w 24 12
    qid := bitsOf w 36 14
    weight := bitsOf w 50 4
    rsvd := bitsOf w 5 3 ≠ 0 || bitsOf w 22 2 ≠ 0 || bitsOf w 54 10 ≠ 0 }

/-- The entries of a STAGE_BINDINGS buffer. -/
def parseBinds (bs : Bytes) (n : Nat) : List BindWord :=
  (List.range n).map fun i => parseBind (leAt bs (8 * i) 8)

/-! ### Descriptors and doorbells -/

/-- The fields of a fill descriptor (R251) and whether R264 refuses it. -/
structure FillDesc where
  addr : Nat
  len : Nat
  qid : Nat
  sop : Bool
  eop : Bool
  cookie : DWord
  bad : Bool

/-- Reads a fill descriptor. -/
def parseFill (bs : Bytes) : FillDesc :=
  let w2 := leAt bs 8 4
  let w3 := leAt bs 12 4
  { addr := leAt bs 0 8
    len := bitsOf w2 0 24
    qid := bitsOf w3 0 14
    sop := bitOf w3 16
    eop := bitOf w3 17
    cookie := BitVec.ofNat 64 (leAt bs 16 8)
    bad := bitsOf w2 0 24 = 0 || bitsOf w2 24 8 ≠ 0 || bitsOf w3 14 2 ≠ 0 || bitsOf w3 18 14 ≠ 0 ||
      leAt bs 24 8 ≠ 0 }

/-- Reads a drain descriptor (R259) and says whether R264 refuses it. -/
def parseDrain (bs : Bytes) : DrainBuf × Bool :=
  let a := leAt bs 0 8
  let w2 := leAt bs 8 4
  let n := bitsOf w2 0 24
  ({ addr := a, len := n, cookie := BitVec.ofNat 64 (leAt bs 16 8) },
   n < 64 || n % 8 ≠ 0 || n > 16777208 || a % 8 ≠ 0 || bitsOf w2 24 8 ≠ 0 || leAt bs 12 4 ≠ 0 ||
     leAt bs 24 8 ≠ 0)

/-- DB_INDEX of a doorbell. -/
def dbIndex (w : DWord) : Word := w.setWidth 32

/-- DB_GEN of a doorbell. -/
def dbGen (w : DWord) : BitVec 16 := (w >>> 32).setWidth 16

/-! ### Records -/

/-- The four words of a capture record (R555). -/
def errWord (r : ErrRec) (i : Nat) : Nat :=
  match i with
  | 0 => r.code.toNat + r.source * 2 ^ 8 + r.rept * 2 ^ 16
  | 1 => r.object % 2 ^ 32
  | 2 => r.time % 2 ^ 32
  | _ => r.time / 2 ^ 32 % 2 ^ 16 + r.seq * 2 ^ 16

/-- The 32 bytes of a log record (R564). -/
def logBytes (r : LogRec) : Bytes :=
  natLe 4 r.seq ++ natLe 4 (r.kind + r.code.toNat * 2 ^ 8) ++ natLe 8 r.time ++ natLe 4 r.object ++
    natLe 4 (r.cid + r.opcode * 2 ^ 16) ++ natLe 4 r.result1 ++ natLe 4 r.epoch.toNat

/-- A signed value as 32 bits. -/
def int32 (i : Int) : Nat := (BitVec.ofInt 32 i).toNat

/-- The level in whole KiB, rounded toward minus infinity (R680). -/
def levelKib (l : Int) : Int := l / 1024

/-! ### Flits -/

/-- The 16 bytes of a flit (R415, R416). -/
def flitBytes (type src dst seq ack crd : Nat) (ackv : Bool) (payload : Bytes) : Bytes :=
  let b := natLe 4 (type + src * 2 ^ 4 + dst * 2 ^ 6 + seq * 2 ^ 8 + ack * 2 ^ 16 + crd * 2 ^ 24 +
    flagAt ackv 28) ++ sliceBytes payload 0 10
  b ++ natLe 2 (crc16 b)

/-- Payload of a PUSH header and the data behind it (R417, R430). -/
def pushPayload (qid : Nat) (opens ends abort ragged : Bool) (stamp : Word) (data : Bytes) : Bytes :=
  natLe 2 (qid % 4096 + flagAt opens 12 + flagAt ends 13 + flagAt abort 14) ++ natLe 1 data.length ++
    natLe 1 (flagAt ragged 0) ++ natLe 4 stamp.toNat ++ data

/-- Payload of a POP_REQ (R417, R437): the drain minimum is in units of 64 bytes; RC_DRAIN_WAIT stands
behind the flit of an arming (log entry 21). -/
def popReqPayload (qid limit tag dmin wait : Nat) (packed arm done ret : Bool) : Bytes :=
  natLe 2 (qid % 4096) ++ natLe 3 limit ++
    natLe 1 (flagAt packed 0 + flagAt arm 1 + flagAt done 2 + flagAt ret 3) ++ natLe 1 tag ++
    natLe 3 dmin ++ (if arm then natLe 4 wait else [])

/-- Payload of a POP_RSP and its data (R417, R438). -/
def popRspPayload (qid tag : Nat) (flags : BitVec 7) (data : Bytes) : Bytes :=
  natLe 2 (qid % 4096) ++ natLe 3 data.length ++ natLe 1 flags.toNat ++ natLe 1 tag ++ natLe 3 0 ++ data

/-- Payload of a SEG flit and its data (R417). -/
def segPayload (op handle : Nat) (persist : Bool) (first count borrower : Nat) (data : Bytes) : Bytes :=
  natLe 1 op ++ natLe 2 handle ++ natLe 1 (flagAt persist 0) ++ natLe 1 first ++ natLe 1 count ++
    natLe 2 borrower ++ natLe 2 0 ++ data

/-- The 64 bytes of an admin command (R271). -/
def cmdBytes (opcode : Nat) (c : AdmCmd) : Bytes :=
  natLe 1 opcode ++ natLe 1 c.flags.toNat ++ natLe 2 c.cid.toNat ++ natLe 4 c.arg0.toNat ++
    natLe 8 c.addr.toNat ++ natLe 4 c.len.toNat ++ natLe 4 c.arg1.toNat ++ natLe 4 c.arg2.toNat ++
    natLe 4 c.arg3.toNat ++ List.replicate 32 0

/-! ### Items and bytes (R252, R263) -/

/-- Low EW bytes of an item. -/
def itemBytes (ew : BitVec 2) (i : Item) : Bytes := natLe (ewBytes ew) i.data.toNat

/-- What a consumer receives of an item: a damaged one is replaced (R397). -/
def delivered (c : QCfg) (i : Item) : Item :=
  if i.damaged then { i with data := if c.idleMode then c.idleItem else 0 } else i

/-- The byte stream of a list of items as delivered. -/
def streamBytes (c : QCfg) (is : List Item) : Bytes :=
  is.flatMap fun i => itemBytes c.ew (delivered c i)

/-- Whole items of a byte string; a short last item is filled with zeros and marked ragged (R253).
`fuel` bounds their number. -/
def toItems (ew : Nat) : Nat → Bytes → List Item
  | 0, _ => []
  | fuel + 1, bs =>
    if bs = [] then []
    else
      { data := BitVec.ofNat 64 (leAt bs 0 ew), ragged := bs.length < ew } ::
        toItems ew fuel (bs.drop ew)

/-- The items of a byte string, the last one with its boundary bit as `ends` says. -/
def itemsOf (ew : BitVec 2) (bs : Bytes) (ends ragged : Bool) : List Item :=
  let is := toItems (ewBytes ew) bs.length bs
  match is.getLast? with
  | none => []
  | some l => is.dropLast ++ [{ l with bound := ends, ragged := ragged || l.ragged }]

end Sys2Proof.Machine
end

