-- ==== Sys2Proof/Machine/Pace.lean ====
section
/-!
DEFINITION. PACE, its governor, and the sources of the time base (R16 to R26, R35 to R40, R670 to R674).
-/

namespace Sys2Proof.Machine

/-- The host can reach the setup registers: link up, function in D0, PERST# deasserted (R593). -/
def hostReach (d : Dev) : Bool := d.link.up && !d.pwr.perst && !d.link.d3hot && awake d

/-- Bytes of beat data in an ISB, with those of a burst that waits at its turnstile (R32). -/
def isbBytes (p : IPort) : Nat :=
  ((p.isb.map fun e => match e with
    | .beat _ _ _ _ _ w => portBits w
    | _ => 0).sum + (p.asmBeats + ((p.latched.map (·.beats)).getD 0)) * portBits p.pce.width) / 8

/-- The backlog signal (01, "Pace governor"). -/
def backlog (d : Dev) : Bool :=
  decide (512 ≤ isbBytes d.ports.i0) || decide (512 ≤ isbBytes d.ports.i1) || decide (4 ≤ d.tier.progQ.length)

/-- The level the device steps toward without a window: PWR_PACE with the governor off (R21), the
nearer bound of the range with it on (R25, R673). -/
def paceGoal (p : Pwr) : Nat :=
  if !p.govEn then p.pace
  else if p.paceMax < p.paceMin then p.paceMin
  else clampTo p.paceMin p.paceMax p.paceNow

/-- Both windows stand at zero. -/
def stopWindows (d : Dev) : Dev := stopTimer .govUp (stopTimer .govDown d)

/-- Keeps the window of the present backlog signal running, and the other at zero (R22, R23). -/
def govRefresh (d : Dev) : Dev :=
  if !d.pwr.govEn || !awake d || paceGoal d.pwr ≠ d.pwr.paceNow then stopWindows d
  else if backlog d then
    let d := stopTimer .govDown d
    if timerOn d .govUp then d else startTimer .govUp d
  else
    let d := stopTimer .govUp d
    if timerOn d .govDown then d else startTimer .govDown d

/-- VCORE of a PACE level in millivolts (R17). -/
def vcoreOf (pace : Nat) : Nat :=
  match pace with
  | 0 => 550
  | 1 => 590
  | 2 => 630
  | 3 => 670
  | 4 => 710
  | 5 => 750
  | 6 => 800
  | _ => 850

/-- A change of the backlog signal is seen at once by the governor's windows (R22, R23). -/
def govTrack (d : Dev) : Dev := if d.pwr.govEn then govRefresh d else d

/-- A command that may change the backlog signal. -/
def actBacklog (f : Dev → Dev) (s : State) : Host.Outcome State Fault Refusal := act (fun d => govTrack (f d)) s

/-- Starts one step toward a level, one level at a time (R18, R46). -/
def paceStep (goal : Nat) (d : Dev) : Dev :=
  if d.pwr.stepTo.isSome || goal = d.pwr.paceNow then d
  else stopWindows { d with
    pwr.stepTo := some (if d.pwr.paceNow < goal then d.pwr.paceNow + 1 else d.pwr.paceNow - 1) }

/-- What follows from new settings: a step toward the goal, or the windows (R21, R26, R673). -/
def paceNext (d : Dev) : Dev := govRefresh (paceStep (paceGoal d.pwr) d)

/-- PWR_PACE takes a value (R21). -/
def setPace (v : Nat) (d : Dev) : Dev := paceNext { d with pwr.pace := v }

/-- PWR_GOV_EN takes a value (R26). -/
def setGovEn (v : Bool) (d : Dev) : Dev := paceNext { d with pwr.govEn := v }

/-- PWR_PACE_MIN and PWR_PACE_MAX take values (R673). -/
def setRange (lo hi : Nat) (d : Dev) : Dev := paceNext { d with pwr.paceMin := lo, pwr.paceMax := hi }

/-- PWR_GOV_UP and PWR_GOV_DOWN take values, held in 1 to 65,535 (R595); a window that runs goes on
(R674). -/
def setWindows (up down : Nat) (d : Dev) : Dev :=
  { d with pwr.govUp := clampTo 1 65535 up, pwr.govDown := clampTo 1 65535 down }

/-- A write of PWR_PACE (R21, R46). -/
def execPwrPaceWrite (v : BitVec 3) (s : State) : Host.Outcome State Fault Refusal :=
  act (fun d => if hostReach d then setPace v.toNat d else d) s

/-- A write of PWR_GOV_EN (R26). -/
def execPwrGovEnWrite (v : Bool) (s : State) : Host.Outcome State Fault Refusal :=
  act (fun d => if hostReach d then setGovEn v d else d) s

/-- A write of PWR_PACE_MIN and PWR_PACE_MAX (R25, R673). -/
def execPwrPaceRangeWrite (lo hi : BitVec 3) (s : State) : Host.Outcome State Fault Refusal :=
  act (fun d => if hostReach d then setRange lo.toNat hi.toNat d else d) s

/-- A write of PWR_GOV_UP and PWR_GOV_DOWN (R674). -/
def execPwrGovWindowWrite (up down : BitVec 16) (s : State) : Host.Outcome State Fault Refusal :=
  act (fun d => if hostReach d then setWindows up.toNat down.toNat d else d) s

/-- VCORE settles: PWR_PACE_NOW changes, VCORE stands at its level's value (R17), and the next step may start (R18,
R21, R24). -/
def paceSettled (d : Dev) : Dev :=
  match d.pwr.stepTo with
  | none => d
  | some n => paceNext (stopWindows { d with pwr.paceNow := n, pwr.vcore := vcoreOf n, pwr.stepTo := none })

/-- PACE_STEP_SETTLED. -/
def execPaceStepSettled (s : State) : Host.Outcome State Fault Refusal := act paceSettled s

/-- The up window expires (R22, R24): one step up, not above the ceiling. At the ceiling there is no step to take,
and the window starts anew (DESIGN CHOICE, log entry 78). -/
def govUpExpiry (d : Dev) : Dev :=
  if d.pwr.govEn && backlog d && timerDue d .govUp d.pwr.govUp then
    if d.pwr.stepTo.isSome then startTimer .govUp d
    else if d.pwr.paceNow < d.pwr.paceMax then paceStep (d.pwr.paceNow + 1) d
    else startTimer .govUp d
  else d

/-- GOV_UP_WINDOW_EXPIRY. -/
def execGovUpWindowExpiry (s : State) : Host.Outcome State Fault Refusal := act govUpExpiry s

/-- The down window expires (R23, R24): one step down, not below the floor. At the floor there is no step to take,
and the window starts anew (DESIGN CHOICE, log entry 78). -/
def govDownExpiry (d : Dev) : Dev :=
  if d.pwr.govEn && !backlog d && timerDue d .govDown d.pwr.govDown then
    if d.pwr.stepTo.isSome then startTimer .govDown d
    else if d.pwr.paceMin < d.pwr.paceNow then paceStep (d.pwr.paceNow - 1) d
    else startTimer .govDown d
  else d

/-- GOV_DOWN_WINDOW_EXPIRY. -/
def execGovDownWindowExpiry (s : State) : Host.Outcome State Fault Refusal := act govDownExpiry s

/-! ### Time base -/

/-- A read of TB_NOW_LO: captures all 48 bits and returns the low word (R601). -/
def captureTime (d : Dev) : Dev := { d with tb.capHi := BitVec.ofNat 16 (ticks d / 2 ^ 32) }

/-- TB_NOW_CAPTURE: the host reads TB_NOW_LO. -/
def execTbNowCapture (s : State) : Host.Outcome State Fault Refusal :=
  act (fun d => if hostReach d then
    emit (.regRead 0x0090 (BitVec.ofNat 32 (ticks d))) (captureTime d) else d) s

/-- The measurement and the correction of R37 end. -/
def endDiscipline (d : Dev) : Dev :=
  { d with tb.discipline := false, tb.win := none, tb.osc := none, tb.oscFrac := 0 }

/-- The source of the time base follows the power state: in LISTEN and STANDBY with SLOWCLK the tick
oscillator stops (R38, R461, R671). A running one is never restarted here. -/
def stopOscIfListening (d : Dev) : Dev :=
  if d.tb.slowclk && (listening d || d.pwr.standby) then endDiscipline { d with tb.tickRun := false } else d

/-- SLOWCLK is present (R36): discipline in ACTIVE (R37), edges in LISTEN (R38) and STANDBY (R671). -/
def slowclkPresent (d : Dev) : Dev :=
  if !d.pwr.vin then d
  else
    let d := stopOscIfListening { d with tb.slowclk := true }
    { d with tb.discipline := d.tb.tickRun }

/-- SLOWCLK_PRESENT. -/
def execSlowclkPresent (s : State) : Host.Outcome State Fault Refusal := act slowclkPresent s

/-- SLOWCLK is lost: the discipline ends; in LISTEN the tick oscillator starts and the time base goes on
from its last edge (R40); in STANDBY time is not known (R671). -/
def slowclkLost (d : Dev) : Dev :=
  if !d.pwr.vin then d
  else endDiscipline { d with tb.slowclk := false }

/-- SLOWCLK_LOST. Timers keep running, and none is restarted (R40, R48); in LISTEN the tick oscillator
restarts, which TICK_OSC_RESTARTED ends. -/
def execSlowclkLost (s : State) : Host.Outcome State Fault Refusal := act slowclkLost s

/-- The tick oscillator runs again outside STANDBY, and continues the time base from its value; timers that
waited for an edge start there (R40, R670, R672). It stays stopped in LISTEN with SLOWCLK (R38). -/
def tickOscRestarted (d : Dev) : Dev :=
  if !awake d || d.tb.tickRun || (d.tb.slowclk && listening d) then d
  else bindTimers { d with tb.tickRun := true, tb.discipline := d.tb.slowclk }

/-- TICK_OSC_RESTARTED. -/
def execTickOscRestarted (s : State) : Host.Outcome State Fault Refusal := act tickOscRestarted s

end Sys2Proof.Machine
end

