-- ==== Sys2Proof/Machine/Queue.lean ====
section
/-!
DEFINITION. What a turnstile does to one queue: packet abort, flush, drop, mark, retransmit, pop, return
and overwrite (R54 to R92, R675, R676), and the storage behind it: near segments, deep copies, journal
records (R326 to R335, R350, R351, R679).
-/

namespace Sys2Proof.Machine

/-! ### Wear, journal, image (R340, R341, R350, R351) -/

/-- One program of a deep segment counts, saturating (R340). -/
def addWear (seg : Nat) (d : Dev) : Dev :=
  { d with
    tier.wear := tblModify 0 d.tier.wear seg fun n => sat32 n 1
    tier.wearSince := d.tier.wearSince + 1 }

/-- The wear counters are written to the copy not written last (R341): 9 reserved segments. -/
def writeWearCopy (d : Dev) : Dev :=
  let first := if d.tier.wearB then 8464 else 8473
  let d := (List.range 9).foldl (fun d i => addWear (first + i) d) d
  { d with tier.wearCopy := some d.tier.wear, tier.wearB := !d.tier.wearB, tier.wearSince := 0 }

/-- A program counts, and after 65,536 of them the counters are written (R340, R341). -/
def countProgram (seg : Nat) (d : Dev) : Dev :=
  let d := addWear seg d
  if 65536 ≤ d.tier.wearSince then writeWearCopy d else d

/-- The map entry of a chain segment with a deep copy, its own or a borrowed one. -/
def mapSeg (s : ChainSeg) : Option MapSeg :=
  match s.deep, s.loan with
  | some r, _ => some { pos := s.pos, seg := r.seg, begins := s.begins }
  | none, some l => some { pos := s.pos, seg := 0, begins := s.begins, loan := some l, items := s.all }
  | none, none => none

/-- Chain map of a queue: the segments whose deep copies it holds (R351, R361). -/
def chainMap (q : Queue) : List MapSeg := q.chain.filterMap mapSeg

/-- What an image leaves of the journal it supersedes: the newest seal record with the unseal record behind it
(R359, R681; log entry 47). -/
def sealTail : List JRec → List JRec
  | [] => []
  | .sealed qs l t :: rest =>
    if rest.any (fun r => match r with
      | .sealed _ _ _ => true
      | _ => false) then sealTail rest
    else .sealed qs l t :: rest.filter (· = .unseal)
  | _ :: rest => sealTail rest

/-- The table image of the present configuration (R351). QTE_RESET is kept as 0. -/
def makeImage (d : Dev) (pces : Tbl Pce) : Image :=
  { qtes := d.queues.filterMap fun e =>
      if e.2.cfg = {} then none else some (e.1, { e.2.cfg with reset := false })
    pces
    bind := d.bind
    maps := d.queues.filterMap fun e =>
      if e.2.cfg.persist && !(chainMap e.2).isEmpty then some (e.1, chainMap e.2) else none
    lineage := d.tier.lineage
    loans := d.tier.loans.filter fun e => e.2.persist && !e.2.data.isEmpty }

/-- The PCE that a commit has issued to a port and the port has not taken yet. -/
def evPce (ev : List PortEv) : Option Pce := ev.findSome? fun e => match e with
  | .commit p _ _ => p
  | _ => none

/-- The live PCE of a port: the one a commit has set, which the port may not have taken yet (R306). -/
def livePce (pce : Pce) (ev : List PortEv) : Pce := (evPce ev).getD pce

/-- The live PCE of port `k` whose PCE and event these are; a pending STANDBY request leaves it live (R466). -/
def liveHeld (d : Dev) (k : Nat) (pce : Pce) (ev : List PortEv) : Pce :=
  (tblFind d.pwr.heldPces k).getD (livePce pce ev)

/-- The four live PCEs by port index. -/
def livePces (d : Dev) : Tbl Pce :=
  [(0, liveHeld d 0 d.ports.i0.pce d.ports.i0.ev), (1, liveHeld d 1 d.ports.i1.pce d.ports.i1.ev),
   (2, liveHeld d 2 d.ports.e0.pce d.ports.e0.ev), (3, liveHeld d 3 d.ports.e1.pce d.ports.e1.ev)]

/-- Writes the table image into the copy not written last: 72 reserved segments (R351). -/
def writeImage (d : Dev) : Dev :=
  let first := if d.tier.imageB then 8192 else 8264
  let d := (List.range 72).foldl (fun d i => countProgram (first + i) d) d
  { d with
    tier.image := some (makeImage d (livePces d))
    tier.journal := sealTail d.tier.journal
    tier.jSegs := 0
    tier.imageB := !d.tier.imageB
    epoch.cfgChanged := false
    queues := tblMap {} (fun q => { q with
      chain := q.chain.map fun s => { s with deep := s.deep.map fun r => { r with named := q.cfg.persist } } }) d.queues }

/-- The deep segments whose release records are now verified return to the pool (R329). -/
def freeReleased (recs : List JRec) (d : Dev) : Dev :=
  recs.foldl (fun d r => match r with
    | .release _ seg =>
      (match tblFind d.tier.deep seg with
       | some (.released _) => { d with tier.deep := tblErase d.tier.deep seg }
       | _ => d)
    | _ => d) d

/-- Programs the gathered records as one journal segment, verified (R350); after 96 segments the image
follows (R351). Nothing is written once the reserved area is exhausted (R395). -/
def flushJournal (d : Dev) : Dev :=
  if d.tier.exhausted || d.tier.gathered.isEmpty then d
  else
    let recs := d.tier.gathered
    let d := countProgram (8336 + d.tier.jPos % 128) d
    let d := freeReleased recs { d with
      tier.journal := d.tier.journal ++ recs
      tier.gathered := []
      tier.jSegs := d.tier.jSegs + 1
      tier.jPos := d.tier.jPos + 1 }
    let d := stopTimer .journal d
    if 96 ≤ d.tier.jSegs then writeImage d else d

/-- Gathers a record; 256 of them fill a segment (R350). -/
def addRecord (r : JRec) (d : Dev) : Dev :=
  let d := { d with tier.gathered := d.tier.gathered ++ [r] }
  let d := if timerOn d .journal then d else startTimer .journal d
  if 256 ≤ d.tier.gathered.length then flushJournal d else d

/-- The journal ends with a seal record: no unseal record follows its newest one (R359, R464; log entry 47). -/
def journalSealed (d : Dev) : Bool :=
  match sealTail d.tier.journal with
  | [.sealed _ _ _] => true
  | _ => false

/-- Writes the unseal record before the first change to a PERSISTENT queue (R358). -/
def writeUnseal (d : Dev) : Dev :=
  if journalSealed d then flushJournal (addRecord .unseal d) else d

/-! ### Near and deep segments (R326 to R330, R679) -/

/-- Reserved near segments a queue has: used and unused. -/
def resvCount (q : Queue) : Nat := q.resvFree.length + (q.chain.filter (·.resvd)).length

/-- Reserved near segments a queue is to have. -/
def resvGoal (q : Queue) : Nat := if q.cfg.valid then q.cfg.nearRsv else 0

/-- The queue's reservation is short. -/
def isShort (q : Queue) : Bool := decide (resvCount q < resvGoal q)

/-- Completes shortfalls from the shared pool, in the order in which they arose (R326, R679). -/
def fillShorts : Nat → Dev → Dev
  | 0, d => d
  | n + 1, d =>
    match d.tier.shorts with
    | [] => d
    | qid :: rest =>
      let q := queueOf d qid
      if !isShort q then fillShorts n { d with tier.shorts := rest }
      else match nearFree d with
        | none => d
        | some g => fillShorts n (putQueue qid { q with resvFree := q.resvFree ++ [g] } d)

/-- A queue whose reservation is short joins the line (R326, R394, R679). -/
def noteShort (qid : Nat) (d : Dev) : Dev :=
  if isShort (queueOf d qid) && qid ∉ d.tier.shorts then { d with tier.shorts := d.tier.shorts ++ [qid] } else d

/-- Completes what can be completed: the firmware's work, so it waits while the firmware does not run (R29, R330). -/
def settleShorts (d : Dev) : Dev := if fwExec d then fillShorts (512 + d.tier.shorts.length) d else d

/-- The words of a near segment lose their valid bits and any error pattern (R370). -/
def wipeNear (n : Nat) (d : Dev) : Dev :=
  { d with
    rep.upset := d.rep.upset.filter fun e => e.1 / 512 ≠ n
    rep.reported := d.rep.reported.filter fun a => a / 512 ≠ n }

/-- Writes a repair record: one program in the reserved segments (R391, R392, log entry 38). -/
def writeRepair (d : Dev) : Dev := if d.tier.exhausted then d else countProgram 8484 d

/-- Takes a near segment out of service, with its report (R392, R394). -/
def retireNear (n : Nat) (d : Dev) : Dev :=
  let d := writeRepair d
  recordErr 0x45 4 (n * 512) { d with
    tier.nearRetired := d.tier.nearRetired ++ [n]
    tier.nearPending := d.tier.nearPending.filter (· ≠ n)
    rep.nearRemap := d.rep.nearRemap.filter fun r => r.addr / 512 ≠ n }

/-- Takes a deep segment out of service (R392). A reserved one moves its area to a spare (R395). -/
def retireDeep (seg : Nat) (d : Dev) : Dev :=
  let d := writeRepair d
  let d := recordErr 0x45 5 (seg * 128) { d with
    tier.deepRetired := d.tier.deepRetired ++ [seg]
    tier.deepPending := d.tier.deepPending.filter (· ≠ seg)
    tier.deep := tblErase d.tier.deep seg
    rep.deepRemap := d.rep.deepRemap.filter fun r => r.addr / 128 ≠ seg }
  if seg < 8192 then d
  else if 0 < d.tier.spares then { d with tier.spares := d.tier.spares - 1 }
  else recordErr 0x4A 0 0 { d with tier.exhausted := true }

/-- A near segment of a queue comes free: to the queue's reserved set while that is short, otherwise to
the shared pool and the shortfalls (R329, R679); a retire-pending one is retired (R393). -/
def giveNear (qid n : Nat) (d : Dev) : Dev :=
  let d := wipeNear n d
  if n ∈ d.tier.nearPending then settleShorts (noteShort qid (retireNear n d))
  else
    let q := queueOf d qid
    if isShort q then settleShorts (putQueue qid { q with resvFree := q.resvFree ++ [n] } d)
    else settleShorts d

/-- A queue obtains a near segment: an unused reserved one, else the lowest of the shared pool (R327). -/
def takeNear (qid : Nat) (d : Dev) : Option (Nat × Bool × Dev) :=
  let q := queueOf d qid
  if !canTakeNear d q then none
  else match q.resvFree with
    | n :: rest => some (n, true, putQueue qid { q with resvFree := rest } d)
    | [] => (nearFree d).map fun n => (n, false, d)

/-- A deep segment comes free: at once, or once its release record is verified when the journal names
it (R329); a retire-pending one is retired (R393). -/
def freeDeep (qid seg : Nat) (named : Bool) (d : Dev) : Dev :=
  if seg ∈ d.tier.deepPending then
    let d := retireDeep seg d
    if named then addRecord (.release qid seg) d else d
  else if named then
    let was := (tblFind d.tier.deep seg).getD .busy
    addRecord (.release qid seg) { d with tier.deep := tblPut d.tier.deep seg (.released was) }
  else { d with tier.deep := tblErase d.tier.deep seg }

/-- The wear count of a segment. -/
def wearOf (d : Dev) (seg : Nat) : Nat := tblGet 0 d.tier.wear seg

/-- The free deep user segment with the lowest wear count, the lowest number among equals (R328). -/
def chooseDeep (d : Dev) : Option Nat :=
  (List.range 8192).foldl (fun best n =>
    if (tblFind d.tier.deep n).isSome || n ∈ d.tier.deepRetired then best
    else match best with
      | none => some n
      | some b => if wearOf d n < wearOf d b then some n else best) none

/-- A deep segment for queue data outside SEAL: not from the seal reserve (R328). -/
def takeDeep (d : Dev) : Option Nat := if sealNeed d < deepPool d then chooseDeep d else none

/-- Flits of an operation unit: its header flit and the DATA flits behind it (R417). -/
def flitUnits (payload : Bytes) : Nat := 1 + (payload.length - 10 + 9) / 10

/-- Sends a sequenced operation unit toward a node, with the producer whose items it carries: in the window at once,
else it waits (R419). Nothing goes to a node that is not present (R459). -/
def sendItems (src : Option Producer) (node type : Nat) (payload : Bytes) (d : Dev) : Dev :=
  match tblFind d.cas.peers node with
  | none => d
  | some p =>
    let units := flitUnits payload
    let used := (p.unacked.map fun f => flitUnits f.payload).sum
    let f : SentFlit := { seq := p.txSeq, type, payload, src }
    if p.st ≠ .present then d
    else if d.cas.up && p.waiting.isEmpty && (used = 0 || used + units ≤ 16) then
      let d := { d with cas.peers := tblPut d.cas.peers node { p with
        txSeq := (p.txSeq + units) % 256
        unacked := p.unacked ++ [f]
        attempts := if p.unacked.isEmpty then 1 else p.attempts
        flitsSent := sat32 p.flitsSent units } }
      let d := if p.unacked.isEmpty then startTimer (.retry node) d else d
      emitFlit type node f.seq payload d
    else { d with cas.peers := tblPut d.cas.peers node { p with waiting := p.waiting ++ [f] } }

/-- Sends a sequenced operation unit that carries no items of a local producer. -/
def sendSeq (node type : Nat) (payload : Bytes) (d : Dev) : Dev := sendItems none node type payload d

/-- A borrowed copy is given back: RELEASE to its lender (R329, R445), and its record (R350). A copy in a hole
has no lender to tell; R453 settles it later. -/
def giveLoan (qid : Nat) (persist hole : Bool) (l : LoanRef) (d : Dev) : Dev :=
  let d := if persist then addRecord (.giveBack qid l.node l.handle) d else d
  if hole then d else sendSeq l.node 8 (segPayload 8 l.handle persist 0 0 qid []) d

/-- Every copy of a chain segment is released (R329). Its waiting program is dropped; one in flight
completes and is then released (08, "When events coincide"). -/
def releaseSeg (qid : Nat) (persist : Bool) (s : ChainSeg) (d : Dev) : Dev :=
  let d := match s.near with
    | some n => giveNear qid n d
    | none => d
  let d := match s.deep with
    | some r => freeDeep qid r.seg (r.named || persist) d
    | none => d
  let d := match s.loan with
    | some l => giveLoan qid persist s.hole l d
    | none => d
  { d with tier.progQ := d.tier.progQ.filter fun p => p.what ≠ .spill qid s.pos && p.what ≠ .seal qid s.pos }

/-! ### Stored items -/

/-- Retained and unpopped items, oldest first. -/
def storedItems (q : Queue) : List Item := q.retained ++ q.items

/-- Releases the segments the head has left: no stored item lies in them. The tail of a queue that holds items
stays (R88, R329). Release runs in the firmware, and waits for it (R330). -/
def releaseUnused (qid : Nat) (d : Dev) : Dev :=
  let q := queueOf d qid
  let live := (storedItems q).map (·.seg)
  let tail := (q.chain.getLast?.map (·.pos)).getD 0
  let stays (s : ChainSeg) : Bool := live.contains s.pos || (!live.isEmpty && s.pos == tail)
  if !fwExec d || q.chain.all stays then d
  else
    (q.chain.filter fun s => !stays s).foldl (fun d s => releaseSeg qid q.cfg.persist s d)
      (putQueue qid { q with chain := q.chain.filter stays } d)

/-- The segment stands in the chain without any copy: items came back to it (log entry 22). -/
def isBare (s : ChainSeg) : Bool := s.near.isNone && s.deep.isNone && s.loan.isNone && !s.hole

/-- Segments that items came back to take near segments, reserved ones first, whatever the quota (log entry 22). The
shared pool is the firmware's to give (R330). -/
def settleBare : Nat → Nat → Dev → Dev
  | 0, _, d => d
  | k + 1, qid, d =>
    let q := queueOf d qid
    match q.chain.find? isBare with
    | none => d
    | some s =>
      let near (n : Nat) (resvd : Bool) (t : ChainSeg) : ChainSeg := if t.pos = s.pos then { t with near := some n, resvd } else t
      match q.resvFree with
      | n :: rest => settleBare k qid (putQueue qid { q with resvFree := rest, chain := q.chain.map (near n true) } d)
      | [] =>
        match (if fwExec d then nearFree d else none) with
        | some n => settleBare k qid (putQueue qid { q with chain := q.chain.map (near n false) } d)
        | none => d

/-! ### Pure effects on one queue -/

/-- Marks the last of a list of items with the ABORTED end. -/
def endAborted (l : List Item) : List Item :=
  match l.getLast? with
  | some i => l.dropLast ++ [{ i with aborted := true }]
  | none => []

/-- A list of items ends a packet. -/
def endsPacket (l : List Item) : Bool :=
  match l.getLast? with
  | some i => i.bound || i.aborted
  | none => false

/-- The ABORTED end stands behind the last of a list of items, unless that item ends its packet. -/
def closeRun (l : List Item) : List Item := if endsPacket l then l else endAborted l

/-- Packet abort (R56, R69, R675): the lock goes, the ABORTED end stands behind the last item, and the
owner's later items are discarded up to their boundary. An end is owed at once when the consumer has
popped all of the packet's items; of a packet whose rest was dropped no end is owed (R120), and the items of it that
are retained end with it. -/
def abortPacket (q : Queue) : Queue :=
  match q.lock with
  | none => q
  | some p =>
    let dropping := q.discards.any fun x => x.drop && x.prod = some p
    let q := { q with lock := none, openCount := 0, openAvail := false, headCut := false
                      discards := q.discards ++ [{ prod := some p, drop := false }] }
    if !q.items.isEmpty then (if dropping then q else { q with items := closeRun q.items })
    else if q.inPkt then { q with retained := closeRun q.retained, owedEnd := true, inPkt := false }
    else { q with retained := closeRun q.retained }

/-- QUEUE_FLUSH (R70, R71). -/
def flushQueue (q : Queue) : Queue :=
  let lostMark := q.mark && !(storedItems q).isEmpty
  let inPkt := q.inPkt
  let q := abortPacket { q with items := [], retained := [], mark := false
                                stMarkLost := q.stMarkLost || lostMark, inPkt := false }
  { q with owedEnd := q.owedEnd || inPkt, openCount := 0, openAvail := false, headCut := false }

/-- The items up to and including the first that ends a packet, and the rest. -/
def splitPacket : List Item → List Item × List Item
  | [] => ([], [])
  | i :: is =>
    if i.bound || i.aborted then ([i], is)
    else
      let r := splitPacket is
      (i :: r.1, r.2)

/-- Drop-remainder (R75 to R78). -/
def dropRest (q : Queue) : Queue :=
  if !q.inPkt || q.owedEnd then q
  else
    let s := splitPacket q.items
    let q := { q with items := s.2, inPkt := false, drops := sat16 q.drops 1
                      retained := if q.mark then q.retained ++ s.1 else q.retained }
    if endsPacket s.1 then q else { q with discards := q.discards ++ [{ prod := q.lock, drop := true }] }

/-- The mark goes to the head; items behind an earlier mark are released (R79). -/
def setMark (q : Queue) : Queue := { q with mark := true, retained := [] }

/-- The mark is cleared (R80). -/
def clearMark (q : Queue) : Queue := { q with mark := false, retained := [] }

/-- Two lists of items, each in the order of admission, as one (R50). -/
def mergeItems : List Item → List Item → List Item
  | [], ys => ys
  | x :: xs, ys =>
    (ys.takeWhile fun y => y.seq < x.seq) ++ x :: mergeItems xs (ys.dropWhile fun y => y.seq < x.seq)

/-- Retransmit: the head returns to the mark (R81), with the items behind it in the order of their admission. Tail
discards that a drop started on a replayed packet end. -/
def rewind (q : Queue) : Queue :=
  { q with items := mergeItems q.retained q.items, retained := []
           owedEnd := q.owedEnd && q.retained.isEmpty
           discards := if q.retained.isEmpty then q.discards else q.discards.filter fun x => !x.drop }

/-- A consumer takes the first `n` items (R49, R61, R80). -/
def takeItems (n : Nat) (q : Queue) : Queue :=
  let t := q.items.take n
  { q with items := q.items.drop n
           retained := if q.mark then q.retained ++ t else q.retained
           inPkt := if t.isEmpty then q.inPkt else !endsPacket t
           owedEnd := false }

/-- A chain segment for items that return after the head had left their segment (log entry 22): it has no copy until
a near segment comes free. -/
def bareSeg (l : List Item) (pos : Nat) : ChainSeg :=
  let mine := l.filter fun i => i.seg = pos
  { pos, used := mine.length, all := mine, begins := (mine.head?.map (·.first)).getD true }

/-- The chain with a segment for every returned item that has none left. -/
def rebuildChain (l : List Item) (chain : List ChainSeg) : List ChainSeg :=
  let lostPos := ((l.map (·.seg)).dedup).filter fun p => chain.all fun s => s.pos ≠ p
  (lostPos.map (bareSeg l)) ++ chain

/-- Returned items take their old places at the head, and a mark behind them moves to the first
(R676). An ABORTED end that the consumer was owed stands behind the last of them again. -/
def returnItems (l : List Item) (q : Queue) : Queue :=
  match l.head? with
  | none => q
  | some i => { q with
      items := (if q.owedEnd then closeRun l else l) ++ q.items
      retained := q.retained.filter fun r => l.all fun x => x.seq ≠ r.seq
      owedEnd := false
      inPkt := !i.first
      chain := rebuildChain l q.chain }

/-- The oldest unpopped items are discarded by overwrite: counted, and the consumer is owed the end of a packet it is
in (R60, R61). What stays of a packet whose first items went begins a further packet. -/
def loseItems (n : Nat) (q : Queue) : Queue :=
  let gone := q.items.take n
  if gone.isEmpty then q
  else
    let cut := !endsPacket gone
    let rest := match q.items.drop n with
      | j :: js => if cut then { j with first := true } :: js else j :: js
      | [] => []
    { q with
      items := rest
      lost := (q.lost + gone.length) % 2 ^ 32
      owedEnd := q.owedEnd || q.inPkt
      inPkt := false
      headCut := q.headCut || (cut && rest.isEmpty && q.openCount ≠ 0) }

/-- The oldest unit of storage is discarded by overwrite (R59 to R61, R82): with QTE_OVR_UNIT 1 the oldest whole packet
of what is stored, retained or not, and one item when it holds none. The discard of the marked item releases all
retained items. None when nothing is left. -/
def overwriteUnit (q : Queue) : Option Queue :=
  let stored := storedItems q
  if stored.isEmpty then none
  else
    let s := splitPacket stored
    let unit := if q.cfg.ovrPacket && endsPacket s.1 then s.1.length else 1
    some (loseItems (unit - q.retained.length)
      { q with retained := [], mark := false, stMarkLost := q.stMarkLost || q.mark })

/-- A reset by commit (R90): items, mark, lock, counts and sticky bits go; an open packet is aborted. -/
def resetQueue (q : Queue) : Queue :=
  let f := flushQueue q
  { f with lost := 0, underruns := 0, drops := 0, stUnderrun := false, stCtUnderrun := false
           stDamaged := false, stUnsealed := false, stMarkLost := false, mustPop := 0 }

/-! ### Deep programs waiting (R332, R333) -/

/-- Where a program of a chain segment stands. -/
def setProg (pos : Nat) (st : ProgState) (q : Queue) : Queue :=
  { q with chain := q.chain.map fun s => if s.pos = pos then { s with prog := st } else s }

/-- Queues a chain segment for a deep program. -/
def queueProgram (qid pos : Nat) (d : Dev) : Dev :=
  onQueue qid (setProg pos .queued) { d with tier.progQ := d.tier.progQ ++ [{ what := .spill qid pos }] }

/-- A near-only chain segment without a program. -/
def nearOnly (s : ChainSeg) : Bool := s.near.isSome && s.deep.isNone && s.loan.isNone && s.prog == .none

/-- The oldest near-only middle segment (R332). -/
def spillCandidate (q : Queue) : Option ChainSeg := (q.chain.drop 1).dropLast.find? nearOnly

/-- Segments of a queue whose near copies count as released: a program is queued or has started that will let go of
them (R332). -/
def going (q : Queue) : List ChainSeg :=
  q.chain.filter fun s => s.near.isSome && (s.prog == .queued || s.prog == .started) && letGo q s.pos

/-- The condition of R332. The pool counts what the going segments of every queue return to it (log entry 97). -/
def needsSpill (d : Dev) (q : Queue) : Bool :=
  let back := (d.queues.map fun e => ((going e.2).filter fun s => !s.resvd).length).sum
  q.cfg.valid && q.cfg.tier = 1 &&
    (decide (q.cfg.nearQuota ≤ nearCopies q - (going q).length) ||
      (nearPool d + back = 0 && q.resvFree.isEmpty && !(going q).any (·.resvd)))

/-- Programs of a SPILL queue as long as the condition of R332 holds: the spill policy is the firmware's (R28). -/
def spillCheck : Nat → Nat → Dev → Dev
  | 0, _, d => d
  | n + 1, qid, d =>
    let q := queueOf d qid
    if fwExec d && needsSpill d q then
      match spillCandidate q with
      | some s => spillCheck n qid (queueProgram qid s.pos d)
      | none => d
    else d

/-- The same for every queue: an empty pool calls on all SPILL queues, in ascending local QID (log entry 97). -/
def spillAll (d : Dev) : Dev := d.queues.foldl (fun d e => if e.2.cfg.tier = 1 then spillCheck 512 e.1 d else d) d

/-- Every place of a segment has been written. -/
def segFull (q : Queue) (s : ChainSeg) : Bool := decide (segItems q.cfg.ew ≤ s.used)

/-- The tail can take an item, or is full: it has a near copy (R363). -/
def tailReady (q : Queue) : Bool :=
  match q.chain.getLast? with
  | some s => s.near.isSome || segFull q s
  | none => true

/-- Reads of deep copies the head needs, and the segment after it (R335), and the tail (R363). -/
def readCheck (qid : Nat) (d : Dev) : Dev :=
  let q := queueOf d qid
  match q.items.head? with
  | none => d
  | some i =>
    let ahead := q.chain.dropWhile fun s => s.pos ≠ i.seg
    -- near segments that the head's own read and reads under way will take come before the segment after the head
    let coming := (q.chain.filter fun s => s.near.isNone && (s.reading || s.pos = i.seg)).length
    let cand := ahead.take (if nearCopies q + coming < q.cfg.nearQuota then 2 else 1)
    let cand := match q.chain.getLast? with
      | some t => if tailReady q || cand.any (fun s => s.pos = t.pos) then cand else cand ++ [t]
      | none => cand
    cand.foldl (fun d s =>
      if s.near.isNone && !s.reading && !s.hole && (s.deep.isSome || s.loan.isSome) then
        let d := onQueue qid (fun q => { q with
          chain := q.chain.map fun t => if t.pos = s.pos then { t with reading := true } else t }) d
        match s.deep, s.loan with
        | none, some l =>
          -- only the sectors that hold unpopped or retained items (R338)
          let n := ((q.retained ++ q.items).filter fun x => x.seg = s.pos).length
          let first := (s.used - n) * ewBytes q.cfg.ew / 32
          let last := (s.used * ewBytes q.cfg.ew - 1) / 32
          sendSeq l.node 8 (segPayload 6 l.handle false first (last - first) qid []) d
        | _, _ => d
      else d) d

/-! ### Admission -/

/-- A new tail segment for the queue; the old tail of a DEEP_PREFERRED queue is queued for a program
(R333). -/
def addTail (qid : Nat) (d : Dev) : Dev :=
  match takeNear qid d with
  | none => d
  | some (n, resvd, d) =>
    let q := queueOf d qid
    let seg : ChainSeg := { pos := q.nextPos, near := some n, resvd, begins := q.openCount = 0 || q.headCut }
    let old := q.chain.getLast?
    let d := putQueue qid { q with chain := q.chain ++ [seg], nextPos := q.nextPos + 1 } d
    match old with
    | some o => if q.cfg.tier = 2 && nearOnly o then queueProgram qid o.pos d else d
    | none => d

/-- The near word that holds byte `off` of a segment's data, as segment × 512 + word. -/
def nearAddr (n off : Nat) : Nat := n * 512 + off / 8

/-- A deep copy of the tail does not hold what is written now: it is released (log entry 46). -/
def dropTailCopy (qid : Nat) (d : Dev) : Dev :=
  let q := queueOf d qid
  match q.chain.getLast? with
  | some t =>
    (match t.deep with
     | some r => freeDeep qid r.seg (r.named || q.cfg.persist)
         (putQueue qid { q with chain := q.chain.dropLast ++ [{ t with deep := none }] } d)
     | none => d)
  | none => d

/-- Admits one item at the tail: its word is written whole, which ends any error in it (R66, R372). -/
def admitItem (qid : Nat) (i : Item) (d : Dev) : Dev :=
  let d := if segsNeeded (queueOf d qid) 1 = 0 then dropTailCopy qid d else addTail qid d
  let q := queueOf d qid
  match q.chain.getLast? with
  | none => d
  | some t =>
    let i := { i with seg := t.pos, first := q.openCount = 0 || q.headCut, aborted := false, seq := q.nextSeq }
    let n := q.openCount + 1
    let reached := q.openAvail || (q.cfg.ctThr ≠ 0 && decide (q.cfg.ctThr ≤ n))
    let addr := nearAddr (t.near.getD 512) (t.used * ewBytes q.cfg.ew)
    putQueue qid { q with
        items := q.items ++ [i]
        openCount := if i.bound then 0 else n
        openAvail := !i.bound && reached
        headCut := false
        nextSeq := q.nextSeq + 1
        chain := q.chain.dropLast ++ [{ t with used := t.used + 1, all := t.all ++ [i] }] }
      { d with
        rep.upset := tblErase d.rep.upset addr
        rep.reported := d.rep.reported.filter (· ≠ addr) }

/-- A burst fits: capacity, and any segment it needs (R58). -/
def burstFits (d : Dev) (q : Queue) (n : Nat) : Bool :=
  decide (occupancy q + n ≤ q.cfg.cap) && (segsNeeded q n = 0 || canTakeNear d q)

/-- Makes room by overwrite, as often as needed; none when the burst must wait (R59, R337). -/
def makeRoom : Nat → Nat → Nat → Dev → Dev
  | 0, _, _, d => d
  | fuel + 1, qid, n, d =>
    let q := queueOf d qid
    if burstFits d q n then d
    else if decide (occupancy q + n ≤ q.cfg.cap) && releaseComing q then d
    else match overwriteUnit q with
      | none => d
      | some q' => makeRoom fuel qid n (releaseUnused qid (putQueue qid q' d))

end Sys2Proof.Machine
end

