-- ==== Sys2Proof/Machine/KeyOps.lean ====
section
/-!
DEFINITION. The key slots as the rest of the device uses them: key records, use counts, the deferred rewrite
(13_identity_and_keys.md, R533 to R552).
-/

namespace Sys2Proof.Machine

/-- A key slot by number. -/
def slotOf (d : Dev) (slot : Nat) : KeySlot := tblGet {} d.keys.slots slot

/-- Stores a key slot. -/
def putSlot (slot : Nat) (k : KeySlot) (d : Dev) : Dev := { d with keys.slots := tblSet {} d.keys.slots slot k }

/-- A queue bound to the slot may program the deep tier: slot 0 stores plain sectors, any other needs a key
(R541, R549). -/
def slotUsable (d : Dev) (slot : Nat) : Bool := slot == 0 || (slotOf d slot).installed.isSome

/-- The key a queue's slot encrypts under; slot 0 stores plain (R541). -/
def slotKey (d : Dev) (slot : Nat) : Option KeyVal := if slot = 0 then none else (slotOf d slot).installed

/-- Installed generation; 0 when the slot is empty or derived (R540, R550). -/
def slotGen (d : Dev) (slot : Nat) : Nat := ((slotOf d slot).installed.map (·.gen)).getD 0

/-- A deep copy encrypted under this generation reads as it was written (R540). -/
def copyReads (d : Dev) (slot gen : Nat) : Bool := slotUsable d slot && slotGen d slot == gen

/-- What the key record keeps of a slot (R543). -/
def persisted (k : KeySlot) : KeySlot :=
  { installed := k.installed.filter (·.persist), pending := k.pending.filter (·.persist), counter := k.counter }

/-- The key record of the present slots. -/
def keyRecord (d : Dev) : Tbl KeySlot :=
  d.keys.slots.foldl (fun t e => tblSet {} t e.1 (persisted e.2)) []

/-- Keys in a key record. -/
def recordKeys (t : Tbl KeySlot) : Nat := (t.map fun e => e.2.installed.toList.length + e.2.pending.toList.length).sum

/-- So many random IVs (R543, log entry 3). -/
def drawIvs : Nat → Dev → List (BitVec 96) × Dev
  | 0, d => ([], d)
  | n + 1, d =>
    let f := takeFree d
    let r := drawIvs n f.2
    (f.1.setWidth 96 :: r.1, r.2)

/-- The key record of the present slots, each key wrapped under slot 0 with a random IV (R543). -/
def newRecord (d : Dev) : KeyRec × Dev :=
  let t := keyRecord d
  let x := drawIvs (recordKeys t) d
  ({ slots := t, under := d.keys.slot0, ivs := x.1 }, x.2)

/-- Writes the key record into the copy not written last (R543): segment 8482 or 8483 (log entry 38). -/
def writeKeyRecord (d : Dev) : Dev :=
  let x := newRecord d
  if d.keys.seqA ≤ d.keys.seqB then
    countProgram 8482 { x.2 with keys.recA := x.1, keys.seqA := d.keys.seqB + 1 }
  else countProgram 8483 { x.2 with keys.recB := x.1, keys.seqB := d.keys.seqA + 1 }

/-- Chain segments of live valid queues bound to a slot. -/
def boundSegs (d : Dev) (slot : Nat) : Nat :=
  (d.queues.map fun e => if e.2.cfg.valid && e.2.cfg.slot.toNat == slot then e.2.chain.length else 0).sum

/-- Crypto operations in progress under a slot: programs and reads. -/
def cryptoOps (d : Dev) (slot : Nat) : Nat :=
  (d.tier.active.filter fun p => p.slot = slot && (match p.what with
    | .lent _ _ _ _ _ => false
    | _ => true)).length +
    (d.queues.map fun e =>
      if e.2.cfg.slot.toNat = slot then (e.2.chain.filter (·.reading)).length else 0).sum

/-- The use count of a slot. -/
def useCount (d : Dev) (slot : Nat) : Nat := boundSegs d slot + cryptoOps d slot

/-- Installs the pending key of a slot whose use count is 0 (R539, R552). -/
def settleKey (slot : Nat) (d : Dev) : Dev :=
  let k := slotOf d slot
  match k.pending with
  | some p =>
    if useCount d slot = 0 && d.epoch.eraseFence ≠ some slot then
      writeKeyRecord (putSlot slot { k with installed := some p, pending := none } d)
    else d
  | none => d

/-- All slots. -/
def settleKeys (d : Dev) : Dev := d.keys.slots.foldl (fun d e => settleKey e.1 d) d

end Sys2Proof.Machine
end

