-- ==== Sys2Proof/Machine/RingOps.lean ====
section
/-!
DEFINITION. Shared operations of the fill and drain rings: descriptor and data reads, bursts, the end of
a fill descriptor, drain readiness and arbitration (R133, R196, R236, R246 to R270).
-/

namespace Sys2Proof.Machine

/-! ### Packet aborts -/

/-- Latches a packet abort for a producer at a local queue (R94). -/
def requestAbort (qid : Nat) (p : Producer) (d : Dev) : Dev :=
  onQueue qid (fun q => if p ∈ q.ctl.aborts then q else { q with ctl.aborts := q.ctl.aborts ++ [p] }) d

/-- Changes what is kept for one peer. -/
def onPeer (node : Nat) (f : Peer → Peer) (d : Dev) : Dev :=
  { d with cas.peers := tblAdjust d.cas.peers node f }

/-- A PUSH that carries only a packet abort (R430), with a credit (R432): the sender discards the rest
itself, which END says (log entry 33). -/
def sendAbort (node qid : Nat) (d : Dev) : Dev :=
  let p := tblGet {} d.cas.peers node
  if p.credits = 0 then onPeer node (fun x => { x with abortQ := x.abortQ ++ [qid] }) d
  else
    sendSeq node 4 (pushPayload qid false true true false p.epoch [])
      (onPeer node (fun x => { x with credits := x.credits - 1 }) d)

/-- A producer's packets toward a peer are aborted: it discards the rest of each packet aborted here or before (R69,
R182). -/
def dropAfterAbort (p : Producer) (x : Peer) : List (Nat × Producer) :=
  x.dropQ ++ (x.openQ.filter (·.2 = p)).filter fun o => o ∉ x.dropQ

/-- Aborts every open packet of a producer: at local queues in their next rounds, at peer queues by
ABORT (R56, R213, R250). -/
def abortOwned (p : Producer) (d : Dev) : Dev :=
  let d := d.queues.foldl (fun d e => if e.2.lock = some p then requestAbort e.1 p d else d) d
  d.cas.peers.foldl (fun d e =>
    (e.2.openQ.filter (·.2 = p)).foldl (fun d o => sendAbort e.1 o.1 d)
      (onPeer e.1 (fun x => { x with openQ := x.openQ.filter (·.2 ≠ p), dropQ := dropAfterAbort p x }) d)) d

/-- A producer that no longer exists leaves no tail discard behind. -/
def forgetDiscards (p : Producer) (d : Dev) : Dev :=
  { d with
    queues := tblMap {} (fun q => { q with discards := q.discards.filter fun x => x.prod ≠ some p }) d.queues
    cas.peers := tblMap {} (fun x => { x with dropQ := x.dropQ.filter (·.2 ≠ p) }) d.cas.peers }

/-- A producer still exists: a deleted ring or a node that is not present leaves no tail discard. -/
def producerLive (d : Dev) : Producer → Bool
  | .port _ => true
  | .ring f => (tblFind d.rings.fills f).isSome
  | .node n => (tblGet {} d.cas.peers n).st == .present

/-! ### Element widths -/

/-- Whether a global QID names a queue of this node (R5). -/
def isLocal (d : Dev) (qid : Nat) : Bool := qid / 4096 == ownNode d

/-- Element width of the queue a global QID names: of a peer's queue, as EPOCH_CHECK last read it (R300). -/
def ewOf (d : Dev) (qid : Nat) : BitVec 2 :=
  if isLocal d qid then (queueOf d (qid % 4096)).cfg.ew else tblGet 0 d.epoch.peerEw qid

/-! ### Reads for rings -/

/-- Puts a fill ring back. -/
def putFill (f : Nat) (r : FillRing) (d : Dev) : Dev := { d with rings.fills := tblPut d.rings.fills f r }

/-- Puts a drain ring back. -/
def putDrain (n : Nat) (r : DrainRing) (d : Dev) : Dev := { d with rings.drains := tblPut d.rings.drains n r }

/-- A read for this purpose is outstanding. -/
def reading (d : Dev) (w : ReadFor) : Bool := d.link.reads.any fun r => r.what = w

/-- Fetches the next descriptor of a fill ring: one ahead of the descriptor in progress (log entry 34).
New descriptors wait for the firmware (R29), for a slot (R246) and for the link (R198). -/
def fetchFill (f : Nat) (d : Dev) : Dev :=
  match tblFind d.rings.fills f with
  | none => d
  | some r =>
    if !r.halted && r.tail ≠ r.issued && r.arrived.isEmpty && !reading d (.fillDesc f) && !cqFull d r.cq &&
        fwExec d && canIssue d && readRoom d 1 then
      memReadOne (.fillDesc f) (r.base + 32 * (r.issued.toNat % 2 ^ r.log2)) 32
        (putFill f { r with issued := r.issued + 1 } d)
    else d

/-- Issues data reads of the fill descriptor in progress, at most 4 KiB ahead of what is admitted; none while its
completion ring is full (R246). -/
def readFill : Nat → Nat → Dev → Dev
  | 0, _, d => d
  | n + 1, f, d =>
    match tblFind d.rings.fills f with
    | none => d
    | some r =>
      match r.cur with
      | none => d
      | some c =>
        if c.asked < c.len && decide (c.asked < c.admitted + 4096) && !cqFull d r.cq && canIssue d &&
            readRoom d 1 then
          let k := pieceLen (min 512 d.link.mrrs) (c.addr + c.asked) (c.len - c.asked)
          readFill n f (memReadOne (.fillData f) (c.addr + c.asked) k
            (putFill f { r with cur := some { c with asked := c.asked + k } } d))
        else d

/-- Fetches drain descriptors, two buffers ahead (log entry 34). -/
def fetchDrain (n : Nat) (d : Dev) : Dev :=
  match tblFind d.rings.drains n with
  | none => d
  | some r =>
    if !r.halted && r.tail ≠ r.issued && r.arrived.isEmpty && decide (r.bufs.length < 2) &&
        !reading d (.drainDesc n) && !cqFull d r.cq && fwExec d && canIssue d && readRoom d 1 then
      memReadOne (.drainDesc n) (r.base + 32 * (r.issued.toNat % 2 ^ r.log2)) 32
        (putDrain n { r with issued := r.issued + 1 } d)
    else d

/-- Builds the next burst of a fill descriptor from the data that has arrived (R252, R253, R257). -/
def latchFill (f : Nat) (d : Dev) : Dev :=
  match tblFind d.rings.fills f with
  | none => d
  | some r =>
    match r.cur, r.latched with
    | some c, none =>
      let left := c.len - c.admitted
      let k := min 64 left
      if k = 0 || c.data.length < k then d
      else
        let items := itemsOf (ewOf d c.qid) (c.data.take k) (c.eop && decide (k = left)) false
        let b : Burst := { prod := .ring f, qid := c.qid, items, stamp := c.stamp, sop := c.sop && !c.begun }
        putFill f { r with cur := some { c with data := c.data.drop k, begun := true }, latched := some b } d
    | _, _ => d

/-- Issues what the rings can ask for, fills before drains, each in ascending ring number. -/
def pumpRings (d : Dev) : Dev :=
  let d := d.rings.fills.foldl (fun d e => latchFill e.1 (readFill 32 e.1 (fetchFill e.1 d))) d
  d.rings.drains.foldl (fun d e => fetchDrain e.1 d) d

/-- Issues what the rings can ask for, or asks for the link to do so (R205). -/
def pump (d : Dev) : Dev := askLink pumpRings d

/-! ### The end of a fill descriptor -/

/-- CE_LEN and CE_STATUS (R266). -/
def ceWord (len status : Nat) : Nat := len % 2 ^ 24 + status * 2 ^ 24

/-- The reads of a descriptor that has completed now bring late results (R268, R568). -/
def orphanReads (w : ReadFor) (cookie : Nat) (d : Dev) : Dev :=
  { d with
    link.reads := (d.link.reads.filter fun r => r.what ≠ w || r.got.isNone).map fun r =>
      if r.what = w then { r with what := .late cookie } else r }

/-- A cascade retry toward a node that is not this one is in progress, or the ring trains (R413, R422). -/
def linkRetries (d : Dev) (node : Nat) : Bool :=
  node ≠ ownNode d && (d.cas.training || (tblGet {} d.cas.peers node).retrying)

/-- As `linkRetries`, for a retry whose flits carry items of fill ring `f` (R269). -/
def itemRetries (d : Dev) (f node : Nat) : Bool :=
  node ≠ ownNode d && (d.cas.training ||
    ((tblGet {} d.cas.peers node).retrying && (tblGet {} d.cas.peers node).unacked.any (·.src = some (.ring f))))

/-- Upper timers that a halt or a cascade retry pauses now, and the retry timers while the ring trains (R269, R413,
R448, R567, R582). -/
def pausedNow (d : Dev) (t : TimerId) : Bool :=
  match t with
  | .admin => d.jtag.halted || (match d.adm.run with
    | some { kind := .relay n _ _, .. } => linkRetries d n
    | _ => false)
  | .desc f => d.jtag.halted || (match (tblFind d.rings.fills f).bind (·.cur) with
    | some c => itemRetries d f (c.qid / 4096)
    | none => false)
  | .retry _ => d.cas.training
  | _ => false

/-- Pauses the timers that have to be, and resumes the others. -/
def settlePauses (d : Dev) : Dev := resumeTimers (fun t => !pausedNow d t) (pauseTimers (pausedNow d) d)

/-- Payload of a TRAIN flit (R417). -/
def trainPayload : Bytes := [0x00, 0xFF, 0x55, 0xAA, 0x0F, 0xF0, 0x33, 0xCC, 0x69, 0x96]

/-- Every expected node is present (R412). -/
def allExpected (d : Dev) : Bool :=
  [1, 2, 3].all fun n => !d.regs.casNodes.getLsbD n || (tblGet {} d.cas.peers n).st == .present

/-- Node 0 begins to train the ring (R412, R413). -/
def startTraining (d : Dev) : Dev :=
  if ownNode d = 0 && d.regs.casEn && fwRunning d && !d.err.fatal then
    settlePauses (emitCast 0 trainPayload { d with
      cas.up := false
      cas.training := true
      cas.trainSeen := 0
      cas.fast := allExpected d
      cas.trainings := sat16 d.cas.trainings 1 })
  else d

/-- The timeout of a fill descriptor runs from when it is the oldest unfinished one that has been fetched
(R268). -/
def armDesc (f : Nat) (d : Dev) : Dev :=
  match tblFind d.rings.fills f with
  | none => d
  | some r =>
    if r.timeout ≠ 0 && (r.cur.isSome || !r.arrived.isEmpty) && !timerOn d (.desc f) then
      settlePauses (startTimer (.desc f) d)
    else d

/-- Completes the descriptor in progress of a fill ring (R257, R266), once (R285). CE_LEN is 0 when its queue is not
valid any more (R255). -/
def finishFill (f status : Nat) (ragged : Bool) (d : Dev) : Dev :=
  match tblFind d.rings.fills f with
  | none => d
  | some r =>
    match r.cur with
    | none => d
    | some c =>
      let cnt := if status = 0x3E ∨ status = 0x3F then { r.cnt with stragglers := sat16 r.cnt.stragglers 1 }
        else if status = 0x75 then { r.cnt with invalid := sat16 r.cnt.invalid 1 }
        else if status = 0x72 then { r.cnt with timeouts := sat16 r.cnt.timeouts 1 }
        else if status = 0x74 then { r.cnt with dmaFaults := sat16 r.cnt.dmaFaults 1 }
        else r.cnt
      let d := stopTimer (.desc f) (putFill f { r with cur := none, latched := none, cnt } d)
      let d := orphanReads (.fillData f) (c.cookie.toNat % 2 ^ 32) d
      let d := postCe r.cq c.cookie.toNat (ceWord (if status = 0x75 then 0 else c.admitted) status)
        (c.qid + f * 2 ^ 16 + flagAt (status == 0 && c.eop) 22 + flagAt (status == 0 && ragged) 26) d
      pump (armDesc f d)

/-- Bytes of a fill descriptor that a burst of `k` bytes has admitted; the descriptor completes with its
last item (R257). -/
def fillAdmitted (f k : Nat) (ragged : Bool) (d : Dev) : Dev :=
  match tblFind d.rings.fills f with
  | none => d
  | some r =>
    match r.cur with
    | none => putFill f { r with latched := none } d
    | some c =>
      let n := min c.len (c.admitted + k)
      let d := putFill f { r with latched := none, cur := some { c with admitted := n } } d
      if n = c.len then finishFill f 0 ragged d else pump d

/-- The open packets of a ring on one queue are aborted (R200, R268). -/
def abortRingOn (f qid : Nat) (d : Dev) : Dev :=
  if isLocal d qid then
    if (queueOf d (qid % 4096)).lock = some (.ring f) then requestAbort (qid % 4096) (.ring f) d else d
  else
    let node := qid / 4096
    let p := tblGet {} d.cas.peers node
    if (qid % 4096, Producer.ring f) ∈ p.openQ then
      sendAbort node (qid % 4096)
        (onPeer node (fun x => { x with
          openQ := x.openQ.filter (· ≠ (qid % 4096, .ring f))
          dropQ := if (qid % 4096, .ring f) ∈ x.dropQ then x.dropQ else x.dropQ ++ [(qid % 4096, .ring f)] }) d)
    else d

/-! ### Drain readiness and arbitration (R133, R261, R262) -/

/-- The loop of R133 from binding index `b` with `g` grants made there: the binding granted next and where
the loop then stands. The bindings are in ascending index. -/
def arbNext (bs : List BindEnt) (b g : Nat) (ready : BindEnt → Bool) : Option (BindEnt × Nat × Nat) :=
  let here := bs.find? fun e => e.index = b && decide (g < e.weight) && ready e
  match here with
  | some e => some (e, b, g + 1)
  | none =>
    let cyc := (bs.filter fun e => b < e.index) ++ (bs.filter fun e => e.index ≤ b)
    (cyc.find? fun e => decide (0 < e.weight) && ready e).map fun e => (e, e.index, 1)

/-- An ABORTED end is pending for the consumer with every item before it available (R262). -/
def endPending (q : Queue) : Bool := q.owedEnd || (availItems q).any (·.aborted)

/-- A queue is drain-ready (R262): `packed`, drain minimum, RC_DRAIN_WAIT and length of the next buffer. -/
def drainReady (q : Queue) (packed : Bool) (dmin wait len : Nat) : Bool :=
  let n := available q
  q.cfg.valid &&
    ((decide (0 < n) && decide (min dmin len ≤ n * ewBytes q.cfg.ew)) ||
      (!packed && (availItems q).any (·.bound)) || endPending q ||
      (wait ≠ 0 && q.waited && decide (0 < n)))

/-- The drain binding that serves a queue, with W at least 1. -/
def drainBindOf (d : Dev) (qid : Nat) : Option BindEnt :=
  d.bind.drain.find? fun e => e.qid = qid && decide (0 < e.weight)

/-- RC_DRAIN_WAIT for a local queue: of the live ring bound to it, or of a peer's arming (R262, R437). -/
def drainWaitOf (d : Dev) (qid : Nat) : Nat :=
  match (queueOf d qid).armed with
  | some a => a.2.2.1
  | none =>
    match drainBindOf d (ownNode d * 4096 + qid) with
    | some e => (match tblFind d.rings.drains e.target with
      | some r => r.wait
      | none => 0)
    | none => 0

/-- The wait of R262 runs while an item is available and a ring with RC_DRAIN_WAIT serves the queue. -/
def drainWaitCheck (qid : Nat) (d : Dev) : Dev :=
  let q := queueOf d qid
  if available q = 0 || drainWaitOf d qid = 0 then
    if q.waited || timerOn d (.drainWait qid) then
      stopTimer (.drainWait qid) (putQueue qid { q with waited := false } d)
    else d
  else if !q.waited && !timerOn d (.drainWait qid) then startTimer (.drainWait qid) d
  else d

/-- What of the available items a transfer takes in one pop: up to 64 bytes and the buffer's room, to a
boundary item unless packed, and to an ABORTED end (R263). -/
def takePlan (packed : Bool) : Nat → List Item → List Item
  | 0, _ => []
  | _, [] => []
  | n + 1, i :: is => if i.aborted || (i.bound && !packed) then [i] else i :: takePlan packed n is

/-- Items whose segment has a near copy, from the head on: a pop waits for the others (R336). -/
def nearItems (q : Queue) : List Item :=
  (availItems q).takeWhile fun i => q.chain.any fun s => s.pos = i.seg && s.near.isSome

end Sys2Proof.Machine
end

