-- ==== Sys2Proof/Machine/Integrity.lean ====
section
/-!
DEFINITION. Stored-data integrity and self-repair of the tiers (R368 to R398): the near code, suspect
lists, remap entries, retirement, and what an uncorrectable read does to items.
-/

namespace Sys2Proof.Machine

/-! ### The near code (R368, R369) -/

/-- The masks M[0] to M[7]. -/
def nearMasks : List (BitVec 64) :=
  [0xAB55555556AAAD5B, 0xCD9999999B33366D, 0xF1E1E1E1E3C3C78E, 0x01FE01FE03FC07F0,
   0x01FFFE0003FFF800, 0x01FFFFFFFC000000, 0xFE00000000000000, 0x972CD2D32DA65CB7]

/-- The check byte of a word (R368). -/
def nearCheck (w : BitVec 64) : BitVec 8 :=
  BitVec.ofNat 8 ((nearMasks.zipIdx.map fun m => flagAt (parity64 (w &&& m.1)) m.2).sum)

/-- The complementary pair of cells that holds a valid bit (R370, R371). -/
def validPair (v : Bool) : Nat := if v == Config.validHigh then 2 else 1

/-- A power of two. -/
def isPow2 (n : Nat) : Bool := (List.range 8).any fun k => n = 2 ^ k

/-- Codeword positions p(0) to p(63): the integers from 3 to 71 that are no power of two. -/
def nearPositions : List Nat := ((List.range 72).filter fun n => decide (3 ≤ n) && !isPow2 n)

/-- What the near decoder makes of a word: syndrome with P in bit 7, class (0 clean, 1 corrected, 3
uncorrectable), and data and check byte after it. -/
structure NearDecode where
  synd : Nat
  cls : Nat
  data : BitVec 64
  check : BitVec 8
deriving DecidableEq, Repr

/-- Parity of all 72 stored bits. -/
def nearParity (w : BitVec 64) (c : BitVec 8) : Bool := parity64 w ^^ parity64 (c.setWidth 64)

/-- The decoder of R369. -/
def decodeNear (w : BitVec 64) (c : BitVec 8) : NearDecode :=
  let s := (nearCheck w ^^^ c).toNat % 128
  let p := nearParity w c
  let synd := s + flagAt p 7
  if !p then
    if s = 0 then { synd, cls := 0, data := w, check := c } else { synd, cls := 3, data := w, check := c }
  else if s = 0 then { synd, cls := 1, data := w, check := c ^^^ 0x80 }
  else if isPow2 s then { synd, cls := 1, data := w, check := c ^^^ BitVec.ofNat 8 s }
  else
    match nearPositions.findIdx? (· = s) with
    | some j => { synd, cls := 1, data := w ^^^ (1 <<< j), check := c }
    | none => { synd, cls := 3, data := w, check := c }

/-- The decoder on an error pattern: the code is linear, so this is what it makes of any stored word that
carries the pattern, as a difference from the word. -/
def decodeUpset (e : BitVec 74) : NearDecode := decodeNear (e.setWidth 64) ((e >>> 64).setWidth 8)

/-- What a read of a word with an error pattern meets (R369, R371): 0 clean, 1 corrected, 3 uncorrectable, also for a
valid pair of two equal cells, 4 a pair that shows a clear valid bit. -/
def upsetClass (e : BitVec 74) : Nat :=
  match (e >>> 72).toNat with
  | 0 => (decodeUpset e).cls
  | 3 => 4
  | _ => 3

/-- Error patterns that have come upon near words since the last step (log entry 37). -/
def addUpsets (us : List (Nat × BitVec 74)) (d : Dev) : Dev :=
  if awake d then
    { d with rep.upset := us.foldl (fun t u => tblModify 0 t (u.1 % 262144) fun e => e ^^^ u.2) d.rep.upset }
  else d

/-! ### Suspects and hard faults (R386 to R394) -/

/-- Enters an address in a suspect list of 16, the oldest replaced first (R386). -/
def addSuspect (a : Nat) (l : List Suspect) : List Suspect :=
  let l := (l.filter fun s => s.addr ≠ a) ++ [{ addr := a }]
  l.drop (l.length - 16)

/-- The lowest free index of a remap table. -/
def freeSpare (n : Nat) (l : List Remap) : Option Nat := (List.range n).find? fun i => l.all fun r => r.spare ≠ i

/-- Enters a redirection (R389); one that stands for the address is replaced. -/
def addRemap (a i : Nat) (l : List Remap) : List Remap :=
  let l := l.filter fun r => r.addr ≠ a
  (l.filter fun r => r.spare < i) ++ [{ addr := a, spare := i }] ++ (l.filter fun r => i < r.spare)

/-- Retires a near segment: a free one at once; one that holds data is moved first, or waits (R393). -/
def retireNearSeg (n : Nat) (d : Dev) : Dev :=
  let owner := d.queues.find? fun e => e.2.chain.any fun s => s.near = some n
  match owner with
  | none =>
    let d := { d with queues := tblMap {} (fun q => { q with resvFree := q.resvFree.filter (· ≠ n) }) d.queues }
    let d := retireNear n d
    settleShorts (d.queues.foldl (fun d e => noteShort e.1 d) d)
  | some (qid, q) =>
    let dst := match q.resvFree with
      | g :: _ => some g
      | [] => if d.tier.shorts.isEmpty then nearFree d else none
    match dst with
    | none =>
      if n ∈ d.tier.nearPending then d else { d with tier.nearPending := d.tier.nearPending ++ [n] }
    | some g =>
      let fromResv := !q.resvFree.isEmpty
      let q := { q with
        resvFree := q.resvFree.filter (· ≠ g)
        chain := q.chain.map fun s =>
          if s.near = some n then { s with near := some g, resvd := fromResv } else s }
      settleShorts (noteShort qid (retireNear n (wipeNear n (putQueue qid q d))))

/-- A near hard fault (R388): remapped, or the segment is retired. A retire-pending segment is served by
correction alone (R393). -/
def hardFaultNear (a : Nat) (d : Dev) : Dev :=
  let seg := a / 512
  if seg ∈ d.tier.nearPending then d
  else
    let d := { d with rep.nearSuspects := d.rep.nearSuspects.filter fun s => s.addr ≠ a }
    let d := writeRepair { d with rep.hardLog := d.rep.hardLog ++ [a] }
    if 4 ≤ (d.rep.nearRemap.filter fun r => r.addr / 512 = seg).length then retireNearSeg seg d
    else match freeSpare 32 d.rep.nearRemap with
      | none => retireNearSeg seg d
      | some i => { d with rep.nearRemap := addRemap a i d.rep.nearRemap }

/-- A near hard fault is found: its bookkeeping is the firmware's and waits for it (R28). -/
def faultFound (a : Nat) (d : Dev) : Dev :=
  if fwExec d then hardFaultNear a d
  else if a ∈ d.rep.faultsDue then d
  else { d with rep.faultsDue := d.rep.faultsDue ++ [a] }

/-- A near correction: counted, written back, and judged by the suspect list (R373, R386, R387). -/
def correctedNear (a : Nat) (d : Dev) : Dev :=
  let d := { d with rep.nearCorr := sat32 d.rep.nearCorr 1, rep.upset := tblErase d.rep.upset a }
  if d.rep.nearSuspects.any fun s => s.addr = a then faultFound a d
  else { d with rep.nearSuspects := addSuspect a d.rep.nearSuspects }

/-- The firmware takes up what waited for it: releases, shortfalls, hard faults (R28, R29, R330). -/
def firmwareResumes (d : Dev) : Dev :=
  if !fwExec d then d
  else
    let due := d.rep.faultsDue
    let d := due.foldl (fun d a => hardFaultNear a d) { d with rep.faultsDue := [] }
    settleShorts (d.queues.foldl (fun d e => spillCheck 512 e.1 (releaseUnused e.1 d)) d)

/-! ### Items of a word (R396) -/

/-- Byte offset of each stored item of a queue in its segment, beside the item. Items leave a segment
from its front, so the last one stored is the last one written. -/
def itemOffsets (q : Queue) (l : List Item) : List (Nat × Item) :=
  l.mapIdx fun i it =>
    let later := (l.drop i).filter fun x => x.seg = it.seg
    let used := ((q.chain.find? fun s => s.pos = it.seg).map (·.used)).getD 0
    ((used - later.length) * ewBytes q.cfg.ew, it)

/-- Changes the items of one stored list that lie in bytes [lo, hi) of a chain segment. -/
def mapItems (pos lo hi : Nat) (f : Nat → Item → Item) (q : Queue) : Queue :=
  let l := (itemOffsets q (storedItems q)).map fun e =>
    if e.2.seg = pos ∧ lo ≤ e.1 ∧ e.1 < hi then f (e.1 - lo) e.2 else e.2
  { q with retained := l.take q.retained.length, items := l.drop q.retained.length }

/-- Marks the items in those bytes damaged (R396). -/
def damageBytes (pos lo hi : Nat) (q : Queue) : Queue :=
  { mapItems pos lo hi (fun _ i => { i with damaged := true }) q with stDamaged := true }

/-- Changes the data of the items in one word by what the decoder left of an error pattern: nothing when
it corrected the error, a change when the pattern had more errors than the code corrects. -/
def residue (pos off : Nat) (r : BitVec 64) (q : Queue) : Queue :=
  if r = 0 then q
  else mapItems pos off (off + 8) (fun k i =>
    { i with data := i.data ^^^ ((r >>> (8 * k)) &&& BitVec.ofNat 64 (2 ^ (8 * ewBytes q.cfg.ew) - 1)) }) q

/-- The chain segment that a near segment holds, with its queue. -/
def nearOwner (d : Dev) (n : Nat) : Option (Nat × ChainSeg) :=
  d.queues.findSome? fun e => (e.2.chain.find? fun s => s.near = some n).map fun s => (e.1, s)

/-- A read of one near word of a queue (R369, R373, R396). -/
def readNear (a : Nat) (d : Dev) : Dev :=
  match tblFind d.rep.upset a with
  | none => d
  | some e =>
    let r := decodeUpset e
    let cls := upsetClass e
    let off := a % 512 * 8
    match nearOwner d (a / 512) with
    | none => d
    | some (qid, s) =>
      -- a word that has not been written has no valid bit and is not read (R370, R381)
      if s.used * ewBytes (queueOf d qid).cfg.ew ≤ off then d
      else if cls = 4 then onQueue qid (mapItems s.pos off (off + 8) fun _ i => { i with data := 0 }) d
      else if cls = 0 then onQueue qid (residue s.pos off r.data) { d with rep.upset := tblErase d.rep.upset a }
      else if cls = 1 then onQueue qid (residue s.pos off r.data) (correctedNear a d)
      else
        let d := { d with rep.nearUncorr := sat32 d.rep.nearUncorr 1 }
        let d := if a ∈ d.rep.reported then d
          else recordErr 0x44 4 a { d with rep.reported := d.rep.reported ++ [a] }
        onQueue qid (damageBytes s.pos off (off + 8)) d

/-- The tail's last word holds items and is about to be rewritten with more (R372): it is read first, and what the code
cannot correct counts as a hard fault at it (R398). -/
def readTail (qid : Nat) (d : Dev) : Dev :=
  let q := queueOf d qid
  match q.chain.getLast? with
  | none => d
  | some t =>
    let off := t.used * ewBytes q.cfg.ew
    if off % 8 = 0 || segFull q t then d
    else match t.near with
      | none => d
      | some n =>
        let a := nearAddr n off
        match tblFind d.rep.upset a with
        | some e => if upsetClass e = 3 then faultFound a (readNear a d) else readNear a d
        | none => d

/-- The near words that hold the first `n` items of a queue. -/
def wordsOf (q : Queue) (n : Nat) : List Nat :=
  let l := (itemOffsets q (storedItems q)).drop q.retained.length
  ((l.take n).filterMap fun e =>
    (q.chain.find? fun s => s.pos = e.2.seg).bind fun s => s.near.map fun g => nearAddr g e.1).dedup

/-- Reads the near words of the first `n` items before they are popped. -/
def readForPop (qid n : Nat) (d : Dev) : Dev :=
  if d.rep.upset.isEmpty then d else (wordsOf (queueOf d qid) n).foldl (fun d a => readNear a d) d

end Sys2Proof.Machine
end

