-- ==== Sys2Proof/Machine/PortOps.lean ====
section
/-!
DEFINITION. Shared operations of the stream ports: which port is which, beats into bursts, items into the
ESB and out of it, the flag states that cross to the pins, stall timers, internal events (R98 to R182).
-/

namespace Sys2Proof.Machine

/-! ### Ports by number -/

/-- Ingress port `i`. -/
def iport (d : Dev) (i : Nat) : IPort := if i = 0 then d.ports.i0 else d.ports.i1

/-- Stores ingress port `i`. -/
def putI (i : Nat) (p : IPort) (d : Dev) : Dev :=
  if i = 0 then { d with ports.i0 := p } else { d with ports.i1 := p }

/-- Egress port `e`: 0 for E0, 1 for E1. -/
def eport (d : Dev) (e : Nat) : EPort := if e = 0 then d.ports.e0 else d.ports.e1

/-- Stores an egress port. -/
def putE (e : Nat) (p : EPort) (d : Dev) : Dev :=
  if e = 0 then { d with ports.e0 := p } else { d with ports.e1 := p }

/-- Port pair `n`. -/
def pairOf (d : Dev) (n : Nat) : PairSt := if n = 0 then d.ports.p0 else d.ports.p1

/-- Stores a port pair. -/
def putPair (n : Nat) (p : PairSt) (d : Dev) : Dev :=
  if n = 0 then { d with ports.p0 := p } else { d with ports.p1 := p }

/-- The runtime part of port `k` in the index of the PCE. -/
def runOf (d : Dev) (k : Nat) : PceRun := if k < 2 then (iport d k).run else (eport d (k - 2)).run

/-- Stores it. -/
def putRun (k : Nat) (r : PceRun) (d : Dev) : Dev :=
  if k < 2 then putI k { iport d k with run := r } d else putE (k - 2) { eport d (k - 2) with run := r } d

/-- The PCE in force at port `k`. -/
def pceOf (d : Dev) (k : Nat) : Pce := if k < 2 then (iport d k).pce else (eport d (k - 2)).pce

/-- The internal events of port `k` that have not taken effect yet. -/
def evOf (d : Dev) (k : Nat) : List PortEv := if k < 2 then (iport d k).ev else (eport d (k - 2)).ev

/-- Stores it. -/
def putEv (k : Nat) (e : List PortEv) (d : Dev) : Dev :=
  if k < 2 then putI k { iport d k with ev := e } d else putE (k - 2) { eport d (k - 2) with ev := e } d

/-- The event crossing of port `k`. -/
def xingOf (d : Dev) (k : Nat) : EventXing := if k < 2 then (iport d k).xing else (eport d (k - 2)).xing

/-- Stores it. -/
def putXing (k : Nat) (x : EventXing) (d : Dev) : Dev :=
  if k < 2 then putI k { iport d k with xing := x } d else putE (k - 2) { eport d (k - 2) with xing := x } d

/-- The live PCE of port `k`: what the last commit set. -/
def liveOf (d : Dev) (k : Nat) : Pce := liveHeld d k (pceOf d k) (evOf d k)

/-- The port is OPEN and not PARKED. -/
def portOpen (d : Dev) (k : Nat) : Bool := (runOf d k).isOpen && !(runOf d k).parked

/-- The kind of an internal event. -/
def evKind : PortEv → Nat
  | .commit _ _ _ => 0
  | .arm => 1
  | .cut _ => 2

/-- An event that replaces an earlier one of its kind carries every change of it (R168). -/
def mergeEv (old new : PortEv) : PortEv :=
  match old, new with
  | .commit p r st, .commit p' r' st' => .commit (p'.orElse fun _ => p) (r || r') (st.orElse fun _ => st')
  | .cut l, .cut l' => .cut (l ++ l')
  | _, e => e

/-- Issues an internal event to a port (R167): it takes its turn behind those issued before, in place of an earlier
one of its kind (R168). -/
def issueEv (k : Nat) (e : PortEv) (d : Dev) : Dev :=
  let same := (evOf d k).find? fun o => evKind o = evKind e
  putEv k ((evOf d k).filter (fun o => evKind o ≠ evKind e) ++ [(same.map fun o => mergeEv o e).getD e]) d

/-- An arming that has not taken effect is called off. -/
def cancelArm (k : Nat) (d : Dev) : Dev := putEv k ((evOf d k).filter (· ≠ .arm)) d

/-- Place in the commit sequence of what is in force at a port while a commit's event has not taken effect. -/
def evStamp (ev : List PortEv) : Option Nat := ev.findSome? fun e => match e with
  | .commit _ _ st => st
  | _ => none

/-- The ESB discards on their way to a port. -/
def evCuts (ev : List PortEv) : List (Nat × EsbCut) := ev.flatMap fun e => match e with
  | .cut l => l
  | _ => []

/-- A pair's configuration is one that R146 allows. -/
def pairRuns (i e : Pce) : Bool := i.en && e.en && e.push && !e.clksrc

/-! ### Selvedge switches (R637) -/

/-- An instruction of R575 is in force: IR holds it and boot allows it to act. -/
def boundaryActs (d : Dev) : Bool :=
  awake d && (d.jtag.ir == .extest || d.jtag.ir == .clamp || d.jtag.ir == .highz) &&
    (match d.boot.status with
     | .fwRunning | .loading | .verifying | .fwStarting => false
     | _ => true)

/-- The switches of a through-path pair conduct (R146, R637). -/
def switchConducts (d : Dev) (n : Nat) : Bool :=
  let p := pairOf d n
  p.ball &&
    (if !d.pwr.vin then true
     else if boundaryActs d then false
     else if d.pwr.standby || d.err.fatal then true
     else if fwRunning d then p.strap && !p.handed
     else match d.boot.status with
       | .powerUp | .hold => true
       | _ => p.strap)

/-- A strapped pair that is not handed gone captures and drives nothing (R146). -/
def inBypass (d : Dev) (n : Nat) : Bool := (pairOf d n).strap && !(pairOf d n).handed

/-! ### Ingress -/

/-- Places of an ISB at a port width (R104): 1 KiB of beat data. -/
def isbPlaces (w : BitVec 2) : Nat := 8192 / portBits w

/-- Beats that occupy ISB places: until their burst is admitted or discarded. -/
def isbCount (p : IPort) : Nat :=
  (p.isb.filter fun e => match e with
    | .beat _ _ _ _ _ _ => true
    | _ => false).length + p.asmBeats + ((p.latched.map (·.beats)).getD 0)

/-- The stamp that a beat or a tag takes at a port: the place in the commit sequence of the PCE in force
there (R310). -/
def portStamp (d : Dev) (i : Nat) : Nat :=
  (evStamp (iport d i).ev).getD d.epoch.seq

/-- The queue that a tag of a port maps to. -/
def tagLookup (l : List TagEnt) (port tag : Nat) : Option Nat :=
  (l.find? fun t => t.port = port ∧ t.tag = tag).map (·.qid)

/-- Items that one beat completes for a partial item of `have_` bits: the items and the partial item after
it (R113, R114). -/
def beatItems (ew : BitVec 2) (pb : Nat) (data have_ : Nat) (beat : BitVec 16) (eop : Bool) : List Item × Nat × Nat :=
  let eb := 8 * ewBytes ew
  let v := beat.toNat % 2 ^ pb
  if eb ≤ pb then
    let n := pb / eb
    ((List.range n).map fun i =>
      { data := BitVec.ofNat 64 (bitsOf v (i * eb) eb), bound := eop && decide (i + 1 = n) }, 0, 0)
  else
    let acc := data + v * 2 ^ have_
    let got := have_ + pb
    if got = eb then ([{ data := BitVec.ofNat 64 acc, bound := eop }], 0, 0)
    else if eop then ([{ data := BitVec.ofNat 64 acc, bound := true, ragged := true }], 0, 0)
    else ([], acc, got)

/-- The last of a list of items ends a burst: a boundary item does. -/
def burstEnds (is : List Item) : Bool :=
  match is.getLast? with
  | some i => i.bound
  | none => false

/-- Drops a partial item. -/
def clearAsm (p : IPort) : IPort := { p with asmData := 0, asmBits := 0, asmBeats := 0, asmKey := none }

/-- Takes visible entries off the ISB into one burst: up to 64 bytes, one queue, tag and stamp, to a
boundary item (R54, R111, R113). Answers the port, the burst so far, and whether a closing flush point was
reached. `ewf` gives a queue's element width. -/
def gather (ewf : Nat → BitVec 2) (port : Nat) : Nat → IPort → Option Burst → IPort × Option Burst × Bool
  | 0, p, b => (p, b, false)
  | fuel + 1, p, b =>
    if p.vis = 0 then (p, b, false)
    else match p.isb with
      | [] => (p, b, false)
      | .cut :: rest => gather ewf port fuel { clearAsm p with isb := rest, vis := p.vis - 1 } b
      | .close :: rest =>
        if b.isSome then (p, b, false) else ({ clearAsm p with isb := rest, vis := p.vis - 1 }, b, true)
      | .beat dat eop qid tag stamp w :: rest =>
        let ew := ewf qid
        let key := (qid, tag, stamp, w, ew)
        let same := match p.asmKey with
          | some k => k.1 = qid && k.2.1 = tag && k.2.2.2 = (w, ew)
          | none => false
        let p := if p.asmBits = 0 || same then p else clearAsm p
        let st := match p.asmKey with
          | some k => k.2.2.1
          | none => stamp
        let r := beatItems ew (portBits w) p.asmData p.asmBits dat eop
        let joins := match b with
          | some b => b.qid = qid && b.tag = tag && b.stamp = st &&
              decide ((b.items.length + r.1.length) * ewBytes ew ≤ 64)
          | none => true
        if r.1.isEmpty then
          gather ewf port fuel { p with
            isb := rest, vis := p.vis - 1, asmData := r.2.1, asmBits := r.2.2
            asmBeats := p.asmBeats + 1, asmKey := some (key.1, key.2.1, st, w, ew) } b
        else if !joins then (p, b, false)
        else
          let n := p.asmBeats + 1
          let b' : Burst := match b with
            | some b => { b with items := b.items ++ r.1, beats := b.beats + n }
            | none => { prod := .port port, qid, items := r.1, stamp := st, tag, beats := n }
          let p := { clearAsm p with isb := rest, vis := p.vis - 1 }
          if burstEnds r.1 then (p, some b', false) else gather ewf port fuel p (some b')

/-- Builds the next burst of a port from what the Weave sees (R32, R33). At a closing flush point an open
packet that the port owns is aborted (R101). -/
def portAssemble (i : Nat) (d : Dev) : Dev :=
  let p := iport d i
  if p.latched.isSome || p.vis = 0 then d
  else
    let r := gather (ewOf d) i (p.isb.length + 1) p none
    let d := putI i { r.1 with latched := r.2.1 } d
    if r.2.2 then abortOwned (.port i) d else d

/-! ### Egress: the pins (R115 to R125) -/

/-- Status bits of a status beat (R118). -/
def statusBits (aborted ragged pad : Bool) : BitVec 16 :=
  BitVec.ofNat 16 (flagAt aborted 0 + flagAt ragged 1 + flagAt pad 2)

/-- A beat at the pins with what it changes: E_D, E_EOP, E_TAGV, the port after it. -/
structure Driven where
  d : BitVec 16
  eop : Bool
  tagv : Bool
  port : EPort
deriving DecidableEq, Repr

/-- Takes the first entry off the ESB. -/
def popEntry (p : EPort) : EPort := { p with esb := p.esb.drop 1, visible := p.visible - 1, driven := 0 }

/-- A padded or ragged end is announced when PCE_STATUS is 1 (R118); the status beat of an ABORTED end
carries PAD and RAGGED of the packet's last beat (log entry 41). -/
def announce (p : EPort) (qid : Nat) (i : Item) (pad : Bool) : EPort :=
  match p.esb with
  | .status q true r pd :: rest =>
    if q = qid && !i.bound then { p with esb := .status q true (r || i.ragged) (pd || pad) :: rest } else p
  | _ =>
    if p.pce.status && i.bound && (i.ragged || pad) then
      { p with esb := .status qid false i.ragged pad :: p.esb, visible := p.visible + 1 }
    else p

/-- The last beat of an item of a queue: the item is the last one driven for its queue (R125), and the port stays in
its packet unless the item ends it or the rest was discarded (R120). -/
def endItem (qid : Nat) (v : DWord) (ew : BitVec 2) (bound : Bool) (p : EPort) : EPort :=
  { p with last := tblPut p.last qid (v, ew), midPkt := !bound && !p.cutAfter, cutAfter := false }

/-- The next beat of the entries the port side sees; none while no complete beat is there (R115, R123).
`cfg` gives a queue's configuration, for the substitution of R397. -/
def nextBeat (cfg : Nat → QCfg) (p : EPort) : Option Driven :=
  let pb := portBits p.pce.width
  match p.esb.take p.visible with
  | [] => none
  | .tag qid tag :: _ =>
    let p := { p with begun := some qid, midPkt := !p.cutAfter }
    let v := BitVec.ofNat 16 (bitsOf (tag % 4096) p.driven pb)
    some { d := v, eop := false, tagv := true,
           port := if 12 ≤ p.driven + pb then { popEntry p with cutAfter := false }
             else { p with driven := p.driven + pb } }
  | .status _ a r pd :: _ =>
    some { d := statusBits a r pd, eop := true, tagv := true,
           port := { popEntry p with midPkt := false, cutAfter := false } }
  | .item qid i ew :: rest =>
    let it := delivered (cfg qid) i
    let eb := 8 * ewBytes ew
    let lo := it.data.toNat % 2 ^ eb
    let p := { p with begun := some qid, midPkt := !p.cutAfter }
    if pb ≤ eb || 0 < p.driven then
      let v := BitVec.ofNat 16 (bitsOf lo p.driven pb)
      if p.driven + pb < eb then some { d := v, eop := false, tagv := false, port := { p with driven := p.driven + pb } }
      else some { d := v, eop := i.bound, tagv := false,
                  port := announce (endItem qid it.data ew i.bound (popEntry p)) qid i (decide (eb < p.driven + pb)) }
    else
      let single : Driven :=
        { d := BitVec.ofNat 16 lo, eop := i.bound, tagv := false,
          port := announce (endItem qid it.data ew i.bound (popEntry p)) qid i true }
      if i.bound || i.aborted then some single
      else match rest with
        | .item q2 i2 e2 :: _ =>
          if q2 = qid && e2 = ew then
            let it2 := delivered (cfg qid) i2
            some { d := BitVec.ofNat 16 (lo + it2.data.toNat % 2 ^ eb * 2 ^ eb), eop := i2.bound, tagv := false,
                   port := announce (endItem qid it2.data ew i2.bound (popEntry (popEntry p))) qid i2 false }
          else some single
        | _ :: _ => some single
        | [] => none

/-- The queue that an underrun at the port falls on: on a fixed port PCE_QID, or the queue whose packet it
is in; on a tagged port only the latter (R124, R126, R131). After a stream grant that ended without a boundary item
the port is still in that packet (DESIGN CHOICE, log entry 85). -/
def underQueue (p : EPort) : Option Nat :=
  if p.midPkt then p.begun else if p.pce.tagged then none else some p.pce.qid.toNat

/-- The empty item of a queue at a port (R62, R63, R124, R125). -/
def emptyItem (c : QCfg) (qid : Nat) (p : EPort) : EmptyItem :=
  if c.idleMode then { v := c.idleItem, ew := c.ew }
  else match tblFind p.last qid with
    | some l => { v := l.1, ew := l.2 }
    | none => { v := 0, ew := c.ew }

/-- The next beat of an empty item at a port width, and what is left of it (R124). -/
def emptyBeat (w : BitVec 2) (u : EmptyItem) : BitVec 16 × Option EmptyItem :=
  let eb := 8 * ewBytes u.ew
  let after := u.done + portBits w
  (BitVec.ofNat 16 (bitsOf (u.v.toNat % 2 ^ eb) u.done (portBits w)), if after < eb then some { u with done := after } else none)

/-- Bytes of the ESB in use. -/
def esbBytes (p : EPort) : Nat :=
  let pb := portBits p.pce.width
  (p.esb.map fun e => match e with
    | .tag _ _ => (11 + pb) / pb * pb / 8
    | .item _ _ ew => ewBytes ew
    | .status _ _ _ _ => pb / 8).sum

/-! ### ESB discards (R72, R81, R100, R120) -/

/-- The entry belongs to a queue. -/
def entryOf (qid : Nat) : EsbEntry → Bool
  | .tag q _ => q = qid
  | .item q _ _ => q = qid
  | .status q _ _ _ => q = qid

/-- The entry ends a packet at the pins. -/
def entryEnds : EsbEntry → Bool
  | .tag _ _ => false
  | .item _ i _ => i.bound
  | .status _ _ _ _ => true

/-- Entries of a queue after its last packet end in the ESB, and everything else, in order. -/
def openTail (qid : Nat) (es : List EsbEntry) : List EsbEntry :=
  let mine := es.filter (entryOf qid)
  let tailLen := (mine.reverse.takeWhile fun e => !entryEnds e).length
  let keep := mine.length - tailLen
  -- the entries kept: those of other queues, and the first `keep` of this queue
  (es.foldl (fun (acc : List EsbEntry × Nat) e =>
    if entryOf qid e then (if acc.2 < keep then (acc.1 ++ [e], acc.2 + 1) else acc) else (acc.1 ++ [e], acc.2))
    ([], 0)).1

/-- A status beat that announces a RAGGED or PAD end: the packet's last data beat has been driven (R118). -/
def isAnnouncement : EsbEntry → Bool
  | .status _ a _ _ => !a
  | _ => false

/-- How many entries at the front of the ESB are being completed at the pins: one partly driven (R72), or the status
beat that follows a last data beat. -/
def headStays (p : EPort) : Nat := if 0 < p.driven || (p.esb.head?.map isAnnouncement).getD false then 1 else 0

/-- The entries without a queue's items and tags; its ABORTED ends stay while none of its items stands before them. -/
def keepLone (qid : Nat) : Bool → List EsbEntry → List EsbEntry
  | _, [] => []
  | seen, x :: xs =>
    if !entryOf qid x then x :: keepLone qid seen xs
    else match x with
      | .status _ true _ _ => if seen then keepLone qid seen xs else x :: keepLone qid seen xs
      | .status _ false _ _ => keepLone qid seen xs
      | _ => keepLone qid true xs

/-- Removes the undelivered entries of a queue from an ESB; what is being completed at the pins is completed
first (R72, R118). -/
def cutEsb (qid : Nat) (why : EsbCut) (owed : Bool) (p : EPort) : EPort :=
  let head := p.esb.take (headStays p)
  let body := p.esb.drop (headStays p)
  let body' := match why with
    | .drop => openTail qid body
    | .rewindKeep => keepLone qid false body
    | _ => body.filter fun e => !entryOf qid e
  let endsHere (l : List EsbEntry) : Bool := l.any fun e => entryOf qid e && entryEnds e
  -- the packet at the pins has lost its end
  let mid := p.midPkt && p.begun = some qid && !endsHere head && !endsHere body'
  -- a flush that takes away the end of the packet at the pins leaves it an ABORTED end (R71)
  let ends := if why = .flush && mid && !owed then [EsbEntry.status qid true false false] else []
  let esb := head ++ ends ++ body'
  let gone := mid && why ≠ .flush
  { p with esb, visible := min esb.length p.visible, midPkt := p.midPkt && !gone
           cutAfter := p.cutAfter || (gone && decide (0 < p.driven)) }

/-! ### Grants of an egress port (R132 to R135) -/

/-- The egress bindings of a port, in ascending index. -/
def egressBinds (d : Dev) (e : Nat) : List BindEnt := d.bind.egress.filter fun b => b.target = e + 2

/-- A queue is deliverable (R134), or owes its consumer an ABORTED end (R119). -/
def deliverable (d : Dev) (gq : Nat) : Bool :=
  let q := queueOf d (gq % 4096)
  isLocal d gq && q.cfg.valid && (decide (0 < available q) || q.owedEnd)

/-- The grant under which an egress port serves a queue now: the binding it starts, if it starts one. None
when it does not serve the queue (R132, R133, R135). A port that a commit's fence or a commit's event concerns begins
no packet (R302, R304); one that it has begun goes on (R317). -/
def egressGrant (d : Dev) (e gq : Nat) : Option (Option (BindEnt × Nat × Nat)) :=
  let p := eport d e
  if !portOpen d (e + 2) || inBypass d e || decide (1024 < esbBytes p + 64) ||
      (evCuts p.ev).any (fun x => x.1 = gq) then none
  else match p.cur with
    | some q => if q = gq then some none else none
    | none =>
      if (e + 2) ∈ d.epoch.fencedPorts || p.ev.any (fun v => evKind v = 0) then none
      else if p.pce.tagged then
        match arbNext (egressBinds d e) p.arbB p.arbG fun b => deliverable d b.qid with
        | some g => if g.1.qid = gq then some (some g) else none
        | none => none
      else if p.pce.qid.toNat = gq then some none else none

/-- The loop of R133 has left a binding whose queue is not deliverable when its packet is gone: it comes back to it
with a fresh count. -/
def leaveArb (e : Nat) (d : Dev) : Dev :=
  let p := eport d e
  if p.pce.tagged && p.cur.isNone &&
      ((egressBinds d e).find? fun b => b.index = p.arbB).any (fun b => !deliverable d b.qid) then
    putE e { p with arbG := 16 } d
  else d

/-- Items that the pop request latched at a queue's turnstile will take (R175): an egress port that serves the queue
and has room, or a drain transfer of the queue, asks for up to 64 bytes. -/
def latchedPop (d : Dev) (qid : Nat) : Nat :=
  let gq := ownNode d * 4096 + qid
  let q := queueOf d qid
  let asked := (egressGrant d 0 gq).isSome || (egressGrant d 1 gq).isSome || q.ptx.isSome ||
    d.rings.drains.any fun e => (e.2.xfer.map fun x => x.qid = gq && !x.ended && x.remote.isNone).getD false
  if asked then (takePlan false (64 / ewBytes q.cfg.ew) (nearItems q)).length else 0

/-! ### Flags toward the pins (R136, R137, R173 to R177) -/

/-- Items of latched push bursts for a local queue (R175). -/
def latchedItems (d : Dev) (qid : Nat) : Nat :=
  let of (b : Option Burst) : Nat := match b with
    | some b => if b.qid = ownNode d * 4096 + qid then b.items.length else 0
    | none => 0
  of d.ports.i0.latched + of d.ports.i1.latched + (d.rings.fills.map fun e => of e.2.latched).sum +
    (d.cas.peers.map fun e => of e.2.rib.head?).sum

/-- Almost-full for the crossing (R175, R176). A queue on a peer never asserts: its level is not known here (DESIGN
CHOICE, log entry 86). -/
def crossAf (d : Dev) (qid : Nat) : Bool :=
  let q := queueOf d (qid % 4096)
  isLocal d qid && q.cfg.valid && (q.fAf || decide (q.cfg.aft ≤ occupancy q + latchedItems d (qid % 4096)))

/-- Almost-empty for the crossing (R175, R176). -/
def crossAe (d : Dev) (qid : Nat) : Bool :=
  let q := queueOf d (qid % 4096)
  isLocal d qid && q.cfg.valid && (q.fAe || decide (available q - latchedPop d (qid % 4096) ≤ q.cfg.aet))

/-- A queue takes part in an aggregate flag (R137); a peer's does not (DESIGN CHOICE, log entry 86). -/
def takesPart (d : Dev) (qid : Nat) : Bool := isLocal d qid && (queueOf d (qid % 4096)).cfg.valid

/-- The flag state of a port: AF# of an ingress port, AE# of an egress port (R136, R137). -/
def portFlag (d : Dev) (k : Nat) : Bool :=
  let p := pceOf d k
  if k < 2 then
    if p.flagAgg then (iport d k).map.any fun t => crossAf d t.qid
    else crossAf d p.qid.toNat
  else if p.flagAgg then
    d.bind.egress.all fun b => !(b.target = k && decide (0 < b.weight) && takesPart d b.qid) || crossAe d b.qid
  else crossAe d p.qid.toNat

/-- The holding register takes a new value (R174); a new assertion stays in it until the port side accepts it, even
when the pin still shows an earlier one (R176). -/
def holdValue (v : Bool) (c : Crossing) : Crossing := { c with next := v, hold := c.hold || (v && !c.next) }

/-- The port side accepts (R173): a held assertion first, else the newest value. -/
def acceptValue (c : Crossing) : Crossing :=
  if c.hold then { c with pin := true, hold := false } else { c with pin := c.next }

/-- The flag states of all four ports are computed anew. -/
def refreshFlags (d : Dev) : Dev :=
  let i0 := d.ports.i0
  let i1 := d.ports.i1
  let e0 := d.ports.e0
  let e1 := d.ports.e1
  let f := portFlag d
  { d with ports := { d.ports with
      i0 := { i0 with af := holdValue (f 0) i0.af }
      i1 := { i1 with af := holdValue (f 1) i1.af }
      e0 := { e0 with ae := holdValue (f 2) e0.ae }
      e1 := { e1 with ae := holdValue (f 3) e1.ae } } }

/-! ### Stall timers (R178, R179) -/

/-- An ingress port holds a packet lock on some queue. -/
def holdsLock (d : Dev) (i : Nat) : Bool :=
  (d.queues.any fun e => e.2.lock = some (.port i)) ||
    d.cas.peers.any fun e => e.2.openQ.any fun o => o.2 = .port i

/-- Configuration of the queue that a global QID names. -/
def cfgOf (d : Dev) (gq : Nat) : QCfg := (queueOf d (gq % 4096)).cfg

/-- An ESB holds at least one undelivered beat, seen by the port side or not. -/
def holdsBeat (d : Dev) (p : EPort) : Bool :=
  p.under.isSome || (nextBeat (cfgOf d) { p with visible := p.esb.length }).isSome

/-- A port waits on its clock (R178). -/
def portWaits (d : Dev) (k : Nat) : Bool :=
  portOpen d k && (if k < 2 then holdsLock d k else holdsBeat d (eport d (k - 2)))

/-- Keeps the stall timer of a port as R178 says. -/
def stallCheck (k : Nat) (d : Dev) : Dev :=
  if portWaits d k then (if timerOn d (.stall k) then d else startTimer (.stall k) d)
  else if timerOn d (.stall k) then stopTimer (.stall k) d else d

/-- All four. -/
def stallChecks (d : Dev) : Dev := stallCheck 3 (stallCheck 2 (stallCheck 1 (stallCheck 0 d)))

/-- An observed edge restarts the stall timer (R179). -/
def edgeSeen (k : Nat) (d : Dev) : Dev := if timerOn d (.stall k) then startTimer (.stall k) d else d

/-- The rings move on, and the flags toward the pins count what they have latched (R175). -/
def pumpFlags (d : Dev) : Dev := refreshFlags (pump d)

end Sys2Proof.Machine
end

