-- ==== Sys2Proof/Machine/AdmOps.lean ====
section
/-!
DEFINITION. The course of an admin command: fetch, target node, BUSY, execution, record, completion, log;
and the same for a command a peer executes for node 0 (R230, R271 to R278, R446, R447).
-/

namespace Sys2Proof.Machine

/-- The status a command ends with, and nothing else. -/
def failWith (st : Nat) : AdmRes := { status := st }

/-- OK with two results. -/
def okWith (r0 r1 : Nat) : AdmRes := { status := 0, r0, r1 }

/-- The bytes behind an RSP header: status, the two results, the record (R447; layout by log entry 42). -/
def rspBody (r : AdmRes) : Bytes :=
  natLe 1 r.status ++ natLe 4 r.r0 ++ natLe 4 r.r1 ++ ((r.record.map (·.2)).getD [])

/-- Payload of an RSP flit (R417). -/
def rspPayload (tag : Nat) (passed : Bool) (body : Bytes) : Bytes :=
  natLe 2 tag ++ natLe 4 body.length ++ natLe 1 (flagAt passed 0) ++ List.replicate 3 0 ++ body

/-- Payload of a CMD flit (R417): the 64-byte command and its buffer follow. -/
def cmdPayload (tag : Nat) (abandon : Bool) (body : Bytes) : Bytes :=
  natLe 2 tag ++ natLe 4 body.length ++ natLe 1 (flagAt abandon 0) ++ List.replicate 3 0 ++ body

/-- Log record of a command whose outcome the log keeps (R564). -/
def logOutcome (r : AdmRun) (res : AdmRes) (d : Dev) : Dev :=
  if loggedOpcode r.opcode then logRec 2 res.status res.r0 r.cid.toNat r.opcode res.r1 d else d

/-- EPOCH_COMMIT and KEY_ERASE, which a peer may have brought past their instant (R449). -/
def hasInstant (op : Nat) : Bool := op = 0x19 || op = 0x41

/-- A peer answers node 0 (R447); the answer of a command with an instant is kept for an ABANDON that comes after
it (R449). -/
def answerRing (op node tag : Nat) (res : AdmRes) (d : Dev) : Dev :=
  sendSeq node 10 (rspPayload tag false (rspBody res))
    { d with cas.lastRsp := if hasInstant op then some (tag, rspBody res) else d.cas.lastRsp }

/-- A command has ended: its outcome is logged, its record is written, and its completion after it. -/
def deliver (r : AdmRun) (res : AdmRes) (d : Dev) : Dev :=
  let d := logOutcome r res d
  match r.origin with
  | .host =>
    let d := match res.record with
      | some (addr, bs) => memWrite addr bs false d
      | none => d
    postAce r.cid res.status res.r0 res.r1 d
  | .ring node tag => answerRing r.opcode node tag res (stopTimer .admin d)

/-- Ends the first command that goes on after a host-link reset and whose kind a condition accepts: it is only logged
(R213). -/
def finishBg (p : RunKind → Bool) (res : AdmRes) (d : Dev) : Dev :=
  match d.adm.bg.find? fun b => p b.kind with
  | some b => logOutcome b res { d with adm.bg := d.adm.bg.eraseP fun b => p b.kind }
  | none => d

/-- Ends the command in execution whose kind a condition accepts, or one that goes on after a host-link reset (R213). -/
def finishRun (p : RunKind → Bool) (res : AdmRes) (d : Dev) : Dev :=
  match d.adm.run with
  | some r => if p r.kind then deliver r res { d with adm.run := none } else finishBg p res d
  | none => finishBg p res d

/-- A body that runs on: the command waits for `kind`. -/
def runsOn (r : AdmRun) (kind : RunKind) (d : Dev) : Dev × Option AdmRes :=
  ({ d with adm.run := some { r with kind } }, none)

/-- A body that ends at once. -/
def ends (res : AdmRes) (d : Dev) : Dev × Option AdmRes := (d, some res)

/-- AC_ADDR is 8-byte aligned and AC_LEN at most 1 MiB (R271). EPOCH_DISCARD completes with OK whatever they hold
(R309). -/
def cmdShape (c : AdmCmd) : Bool := c.addr.toNat % 8 == 0 && decide (c.len.toNat ≤ 1048576)

/-- Runs a body and, when it ends at once, completes the command. -/
def runBody (r : AdmRun) (body : AdmRun → Dev → Dev × Option AdmRes) (d : Dev) : Dev :=
  let x := body r d
  match x.2 with
  | some res => deliver r res x.1
  | none => x.1

/-- A commit fence, a SEAL or a key erase is in progress (R273). -/
def busyNow (d : Dev) : Bool := d.epoch.fence || d.tier.sealRun.isSome || d.epoch.eraseFence.isSome

/-- EPOCH_COMMIT, SEAL, KEY_ERASE and POWER_REQUEST STANDBY conflict with what `busyNow` names (R273); the
conflict is judged before the command's own checks (log entry 43). -/
def unlessBusy (body : AdmRun → Dev → Dev × Option AdmRes) (r : AdmRun) (d : Dev) : Dev × Option AdmRes :=
  if busyNow d then ends (failWith 0x08) d else body r d

/-- Opcodes that HIF_ADMIN_TIMEOUT does not time (R278). -/
def untimed (op : Nat) : Bool := op = 0x30 || op = 0x61

/-- Opcodes that always act on node 0 (R446). -/
def nodeZeroOnly (op : Nat) : Bool := op = 0x01 || op = 0x02 || op = 0x60 || op = 0x61

/-- The command carries a QID (R274, R446). -/
def carriesQid (op : Nat) (c : AdmCmd) : Bool :=
  (decide (0x20 ≤ op) && decide (op ≤ 0x23)) || (op = 0x24 && bitsOf c.flags.toNat 1 2 = 0)

/-- The node a command acts on; none when AC_FLAGS[7:6] and the QID disagree (R446). -/
def targetNode (op : Nat) (c : AdmCmd) : Option Nat :=
  let f := bitsOf c.flags.toNat 6 2
  if nodeZeroOnly op then some 0
  else if carriesQid op c then
    let n := bitsOf c.arg0.toNat 12 2
    if f = 0 || f = n then some n else none
  else some f

/-- Node 0 relays a command: PEER_LOST at once when the node is not present, else a CMD flit with the
command and its buffer (R447). -/
def relay (op node : Nat) (c : AdmCmd) (buf : Bytes) (r : AdmRun) (d : Dev) : Dev × Option AdmRes :=
  if (tblGet {} d.cas.peers node).st ≠ .present then ends (failWith 0x71) d
  else
    let tag := d.cas.nextTag % 65536
    let d := sendSeq node 9 (cmdPayload tag false (cmdBytes op c ++ buf)) { d with cas.nextTag := tag + 1 }
    let x := runsOn r (.relay node tag false) d
    (settlePauses x.1, x.2)

/-- A host's admin command arrives: the fetch outstanding brings it (R230), HIF_ADMIN_TIMEOUT runs on unless the
opcode is not timed (R278), and it is executed here or relayed. -/
def admin (op : Nat) (c : AdmCmd) (buf : Bytes) (body : AdmRun → Dev → Dev × Option AdmRes) (d : Dev) : Dev :=
  match d.adm.fetch with
  | none => d
  | some tag =>
    if !fwExec d then d
    else
      let d := dropRead tag { d with adm.fetch := none, adm.fetched := d.adm.fetched + 1 }
      let d := if untimed op then stopTimer .admin d else d
      let r : AdmRun := { opcode := op, cid := c.cid, addr := c.addr.toNat, len := c.len.toNat,
                          origin := .host, kind := .commit }
      match targetNode op c with
      | none => deliver r (failWith 0x02) d
      | some n =>
        if !cmdShape c && op ≠ 0x1A then deliver r (failWith 0x02) d
        else if n = ownNode d then runBody r body d else runBody r (relay op n c buf) d

/-- The record of a report, truncated to AC_LEN; ACE_RESULT0 is the bytes written (R364, R405, R456). -/
def reportBody (c : AdmCmd) (min_ : Nat) (record : Dev → Bytes) (_ : AdmRun) (d : Dev) : Dev × Option AdmRes :=
  if c.len.toNat < min_ then ends (failWith 0x02) d
  else
    let bs := (record d).take c.len.toNat
    ends { status := 0, r0 := bs.length, r1 := 0, record := some (c.addr.toNat, bs) } d

end Sys2Proof.Machine
end

