-- ==== Sys2Proof/Machine/Turnstile.lean ====
section
/-!
DEFINITION. TURNSTILE_ROUND: one round of one queue's turnstile, in the order control requests, pop,
pushes, end of round (R49 to R97, R311 to R319, R326 to R337, R675, R676, R678); and the hand-over of
bursts for a peer's queue to the ring (R430 to R435).
-/

namespace Sys2Proof.Machine

/-! ### Stamps (R311, R431, R678) -/

/-- How many commits back a ring stamp lies; none when it names a value not yet reached, or one 2^31 or
more commits back. -/
def ringBack (seq : Nat) (now w : Word) : Option Nat :=
  let back := if w = 0 then seq
    else (now.toNat + (2 ^ 32 - 1) - w.toNat) % (2 ^ 32 - 1)
  if (w ≠ 0 && decide (seq ≤ back)) || decide (2 ^ 31 ≤ back) then none else some back

/-- The producer still resolves to the burst's queue: the PCE_QID of a fixed-queue port, the tag map of a
tagged one. Rings and nodes name their queue themselves (R311). -/
def mapsHere (d : Dev) (b : Burst) : Bool :=
  match b.prod with
  | .port i =>
    (match b.tag with
     | none => !(liveOf d i).tagged && (liveOf d i).qid.toNat == b.qid
     | some t => (liveOf d i).tagged && tagLookup d.bind.tags i t == some b.qid)
  | _ => true

/-- The rule that a burst fails at its re-check, if any (R311). -/
def recheck (d : Dev) (b : Burst) : Option Nat :=
  if b.stamp < d.epoch.seq && !mapsHere d b then some 0x3E
  else if !isLocal d b.qid then none
  else
    let fmt := (queueOf d (b.qid % 4096)).fmtSeq
    match b.ringStamp with
    | none => if b.stamp < fmt then some 0x3F else none
    | some w =>
      match ringBack d.epoch.seq d.epoch.now w with
      | none => some 0x3F
      | some back => if d.epoch.seq - back < fmt then some 0x3F else none

/-! ### What becomes of a burst -/

/-- The burst of a producer that waits for a queue. -/
def latchedOf (d : Dev) (gq : Nat) (p : Producer) : Option Burst :=
  let pick (b : Option Burst) : Option Burst := b.filter fun b => b.qid = gq
  match p with
  | .port i => pick (iport d i).latched
  | .ring f => pick ((tblFind d.rings.fills f).bind (·.latched))
  | .node n => pick (((tblFind d.cas.peers n).map (·.rib)).getD []).head?

/-- Producers in the order of admission of R50. -/
def producers (d : Dev) : List Producer :=
  [.port 0, .port 1] ++ (d.rings.fills.map fun e => .ring e.1) ++ (d.cas.peers.map fun e => .node e.1)

/-- Bytes a burst carries in its descriptor: a ragged last item carries fewer than EW. -/
def burstBytes (ew : BitVec 2) (left : Nat) (b : Burst) : Nat := min left (b.items.length * ewBytes ew)

/-- The last item of a burst is ragged. -/
def burstRagged (b : Burst) : Bool :=
  match b.items.getLast? with
  | some i => i.ragged
  | none => false

/-- A burst has left its latch, admitted or discarded under a tail discard: its ISB places, its
descriptor's bytes or its credit come free (R104, R257, R432). -/
def takeBurst (b : Burst) (d : Dev) : Dev :=
  match b.prod with
  | .port i => portAssemble i (putI i { iport d i with latched := none } d)
  | .ring f =>
    let left := match (tblFind d.rings.fills f).bind (·.cur) with
      | some c => c.len - c.admitted
      | none => 0
    fillAdmitted f (burstBytes (ewOf d b.qid) left b) (burstRagged b) d
  | .node n => onPeer n (fun x => { x with rib := x.rib.drop 1, owedCredits := x.owedCredits + 1, ackDue := true }) d

/-- A burst is discarded at admission with a code: it counts against its producer (R52, R111, R255, R313,
R431). -/
def discardBurst (code : Nat) (b : Burst) (d : Dev) : Dev :=
  match b.prod with
  | .port i =>
    let p := iport d i
    let run := if code = 0x75 then { p.run with unmapped := sat16 p.run.unmapped b.beats }
      else { p.run with stragglers := sat16 p.run.stragglers 1 }
    let d := putI i { p with latched := none, run } d
    portAssemble i (if code = 0x75 && isLocal d b.qid then recordErr 0x75 1 i d else d)
  | .ring f => finishFill f code false d
  | .node n =>
    onPeer n (fun x => { x with ribDiscards := sat16 x.ribDiscards 1, rib := x.rib.drop 1,
                                owedCredits := x.owedCredits + 1, ackDue := true }) d

/-- A tail discard runs for items of this producer (R69, R77). -/
def discarding (p : Producer) (q : Queue) : Bool := q.discards.any fun x => x.prod = some p || x.prod = none

/-- A boundary item that a tail discard takes ends the discard; the lock that a dropped packet still holds goes
with it (R69, R77). Without a tail discard nothing changes: a lock goes only by R56. -/
def endDiscard (p : Producer) (b : Burst) (q : Queue) : Queue :=
  if burstEnds b.items && discarding p q then
    let q := { q with discards := q.discards.filter fun x => !(x.prod = some p || x.prod = none) }
    if q.lock = some p then { q with lock := none, openCount := 0, openAvail := false, headCut := false } else q
  else q

/-- Admits the items of a burst that fits, one after another, and takes or releases the lock (R54 to R57). -/
def admitBurst (qid : Nat) (b : Burst) (d : Dev) : Dev :=
  let d := b.items.foldl (fun d i => admitItem qid i d) (readTail qid d)
  onQueue qid (fun q =>
    if q.cfg.pkt then
      if burstEnds b.items then { q with lock := none } else { q with lock := some b.prod }
    else { q with lock := none }) d

/-- The burst needs a segment beyond those assigned to the queue, and the firmware does not run (R29, R330). -/
def waitsForFirmware (d : Dev) (q : Queue) (n : Nat) : Bool :=
  segsNeeded q n ≠ 0 && q.resvFree.isEmpty && !fwExec d

/-- Admits a burst when packet lock and full behaviour allow it; otherwise it waits (R55, R58, R59, R337).
With `retain`, the items are part of a dropped packet and go behind the mark (R75, R77); when the overwrite that makes
room for them has discarded the mark, they are discarded like the others of that packet. -/
def tryAdmit (qid : Nat) (b : Burst) (retain : Bool) (d : Dev) : Dev :=
  let q := queueOf d qid
  let n := b.items.length
  if (q.cfg.pkt && q.lock.isSome && q.lock ≠ some b.prod) || !tailReady q then d
  else
    let d1 := if q.cfg.overwrite && !waitsForFirmware d q n then makeRoom (occupancy q + 1) qid n d else d
    let q1 := queueOf d1 qid
    if retain && !q1.mark then takeBurst b (putQueue qid (endDiscard b.prod b q1) d1)
    else if burstFits d1 q1 n && !waitsForFirmware d1 q1 n then
      let d2 := admitBurst qid b d1
      let d2 := if retain then
          onQueue qid (fun q => { endDiscard b.prod b q with
            items := q.items.take (q.items.length - n)
            retained := q.retained ++ q.items.drop (q.items.length - n) }) d2
        else d2
      takeBurst b d2
    else d1

/-- One latched push (R51 to R59, R69, R77, R311 to R314). -/
def pushOne (gq : Nat) (p : Producer) (d : Dev) : Dev :=
  let qid := gq % 4096
  match latchedOf d gq p with
  | none => d
  | some b =>
    if b.abort then
      takeBurst b (onQueue qid (fun q => { q with discards := q.discards.filter fun x => x.prod ≠ some p }) d)
    else match recheck d b with
    | some code =>
      let q := queueOf d qid
      let q := if q.cfg.pkt && q.lock ≠ some p && !burstEnds b.items && q.discards.all (fun x => x.prod ≠ some p) then
          { q with discards := q.discards ++ [{ prod := some p, drop := false }] }
        else endDiscard p b q
      discardBurst code b (putQueue qid q d)
    | none =>
      let q := queueOf d qid
      if !q.cfg.valid then discardBurst 0x75 b (putQueue qid (endDiscard p b q) d)
      else
        let d := if b.sop && q.cfg.pkt then
            onQueue qid (fun q => { q with discards := q.discards.filter fun x => x.prod ≠ some p }) d
          else d
        let q := queueOf d qid
        let mine := q.discards.filter fun x => x.prod = some p || x.prod = none
        if mine.isEmpty then tryAdmit qid b false d
        else if q.mark && mine.all (·.drop) then tryAdmit qid b true d
        else takeBurst b (putQueue qid (endDiscard p b q) d)

/-! ### Control requests -/

/-- Producers whose open packet on this queue is aborted in this round: by request, by a failed re-check
(R314), by FD_SOP = 1 (R256), by a PUSH with ABORT (R94, R430). -/
def abortsNow (gq : Nat) (d : Dev) : List Producer :=
  let q := queueOf d (gq % 4096)
  q.ctl.aborts ++ (producers d).filter fun p =>
    match latchedOf d gq p with
    | some b => b.abort || (recheck d b).isSome || b.sop
    | none => false

/-- Serves the packet aborts of a round (R56, R69). -/
def serveAborts (aborts : List Producer) (live : Producer → Bool) (q : Queue) : Queue :=
  aborts.foldl (fun q p =>
    if q.cfg.pkt && q.lock = some p then
      let q := abortPacket q
      if live p then q else { q with discards := q.discards.filter fun x => x.prod ≠ some p }
    else q) q

/-- Serves the control requests on one queue, in the order of R94. A set and a release of the mark, which R94 gives one
place, are served in that order (DESIGN CHOICE, log entry 88). -/
def controls (aborts : List Producer) (live : Producer → Bool) (q : Queue) : Queue :=
  let c := q.ctl
  let q := if c.flush.isEmpty then q else flushQueue q
  let q := serveAborts aborts live q
  let q := if c.rtx.isEmpty || !q.mark then q else rewind q
  let q := if c.mark.isEmpty then q else setMark q
  let q := if c.release.isEmpty then q else clearMark q
  if c.drop.isEmpty then q else dropRest q

/-- An ESB holds something of a queue that a discard takes away, or its port is in a packet of that queue. -/
def cutReaches (p : EPort) (gq : Nat) : Bool := p.esb.any (entryOf gq) || (p.midPkt && p.begun = some gq)

/-- What a discard leaves to an egress port on the pop side: a flush and a retransmit leave it in its packet (R71,
R135), a drop ends that packet (R135). After a retransmit the packet that comes back has its own tag sequence. -/
def cutServed (gq : Nat) (why : EsbCut) (p : EPort) : EPort :=
  if p.cur ≠ some gq then p
  else match why with
    | .flush => p
    | .drop => { p with cur := none, grantBytes := 0, retag := false }
    | _ => { p with grantBytes := 0, retag := p.pce.tagged }

/-- Items of a transfer up to the last that ends a packet. -/
def endedLen (l : List Item) : Nat := l.length - (l.reverse.takeWhile fun i => !(i.bound || i.aborted)).length

/-- How many of the items a transfer has popped are delivered when a discard ends it (R81, R286): `k` of them had been
written by then, and a drop takes only those of the open packet. -/
def cutKeep (why : EsbCut) (k : Nat) (l : List Item) : Nat :=
  match why with
  | .drop => min l.length (max k (endedLen l))
  | _ => min l.length k

/-- A transfer that loses its last items ends ABORTED only when that end is still to come with it: a retransmit brings
an end back that stands behind a replayed item, and a flush that cuts a packet gives it one (R71). -/
def cutAborted (why : EsbCut) (owed : Bool) (keep : Nat) (l : List Item) (aborted : Bool) : Bool :=
  match why with
  | .flush => aborted || (!owed && decide (keep < l.length) && decide (0 < keep) && !endsPacket (l.take keep))
  | .rewind => aborted && decide (keep = l.length)
  | _ => aborted

/-- A discard ends a drain transfer with the items delivered (R81, R286); `k` of them had been written by then. -/
def cutXfer (why : EsbCut) (owed : Bool) (k : Nat) (x : Xfer) : Xfer :=
  let keep := cutKeep why k x.items
  { x with ended := true, items := x.items.take keep, aborted := cutAborted why owed keep x.items x.aborted }

/-- The same for a transfer of node 0. -/
def cutPeerPop (why : EsbCut) (owed : Bool) (k : Nat) (t : PeerPop) : PeerPop :=
  let keep := cutKeep why k t.items
  { t with ended := true, items := t.items.take keep, aborted := cutAborted why owed keep t.items t.aborted }

/-- How many items of `n` a transfer had written when a discard ended it: any number of them (log entry 80). -/
def writtenOf (f : BitVec 256) (n : Nat) : Nat := f.toNat % (n + 1)

/-- Cuts what the consumer of a queue still holds undelivered (R72, R81, R286): an ESB discard on its way,
a drain transfer that ends. -/
def cutConsumers (gq : Nat) (why : EsbCut) (d : Dev) : Dev :=
  let cut (e : Nat) (d : Dev) : Dev :=
    let d := if cutReaches (eport d e) gq then issueEv (e + 2) (.cut [(gq, why)]) d else d
    putE e (cutServed gq why (eport d e)) d
  let d := cut 1 (cut 0 d)
  let q := queueOf d (gq % 4096)
  let holds (x : Xfer) : Bool := x.qid = gq && x.remote.isNone
  if q.ptx.isNone && d.rings.drains.all (fun e => !(e.2.xfer.map holds).getD false) then d
  else
    let f := takeFree d
    let d := { f.2 with rings.drains := f.2.rings.drains.map fun e =>
      match e.2.xfer with
      | some x => if holds x then (e.1, { e.2 with xfer := some (cutXfer why q.owedEnd (writtenOf f.1 x.items.length) x) }) else e
      | none => e }
    onQueue (gq % 4096) (fun q => { q with
      ptx := q.ptx.map fun t => cutPeerPop why q.owedEnd (writtenOf f.1 t.items.length) t }) d

/-- Keeps the first `keep` items of a list of held transfers. -/
def trimHeld : Nat → List (Nat × List Item) → List (Nat × List Item)
  | _, [] => []
  | k, (t, is) :: rest => (t, is.take k) :: trimHeld (k - is.length) rest

/-- A retransmit brings the last `n` popped items back (R81): a transfer that holds them no longer returns
them (R213, R439). -/
def noteRewound (gq n : Nat) (d : Dev) : Dev :=
  let d := { d with rings.drains := d.rings.drains.map fun e =>
    match e.2.xfer with
    | some x => if x.qid = gq && x.remote.isNone then
        (e.1, { e.2 with xfer := some { x with returns := some (min (x.returns.getD x.items.length) (x.items.length - n)) } }) else e
    | none => e }
  onQueue (gq % 4096) (fun q =>
    let now := (q.ptx.map (·.items.length)).getD 0
    let total := (q.held.map (·.2.length)).sum
    { q with
      held := trimHeld (total - (n - now)) q.held
      ptx := q.ptx.map fun t => { t with returns := some (min (t.returns.getD now) (now - n)) } }) d

/-- A drop-remainder that has effect (R76). -/
def dropActs (q : Queue) : Bool := q.inPkt && !q.owedEnd

/-- The queue as the drop of a round meets it: after its other control requests. -/
def beforeDrop (aborts : List Producer) (live : Producer → Bool) (q : Queue) : Queue :=
  controls aborts live { q with ctl := { q.ctl with drop := [] } }

/-- MARK_LOST of an RT pin, one record for each port that asked (R83). -/
def rtFails (srcs : List CtlSrc) (d : Dev) : Dev :=
  srcs.foldl (fun d s => match s with
    | .port i => recordErr 0x16 1 i d
    | .admin => d) d

/-- The status of the admin control request that this round serves. -/
def ctlStatus (q : Queue) : Nat :=
  if !q.cfg.valid then 0x75
  else if CtlSrc.admin ∈ q.ctl.rtx && !(if q.ctl.flush.isEmpty then q.mark else false) then 0x16
  else 0

/-- An admin control request waits at this queue. -/
def ctlAdmin (c : Ctl) : Bool :=
  CtlSrc.admin ∈ c.flush || CtlSrc.admin ∈ c.rtx || CtlSrc.admin ∈ c.mark || CtlSrc.admin ∈ c.release ||
    CtlSrc.admin ∈ c.drop

/-- How a retransmit cuts the consumer: an ABORTED end that does not come back with a replayed item stays where it
stands alone (R81, R119). -/
def rewindCut (q : Queue) : EsbCut := if q.retained.any (·.aborted) then .rewind else .rewindKeep

/-- The control phase of a round (R53, R94). On a queue that is not in service only packet aborts act: R53 takes the
other requests, and the abort of a FLUSH pulse, away. -/
def controlPhase (gq : Nat) (d : Dev) : Dev :=
  let qid := gq % 4096
  let q := queueOf d qid
  let c := q.ctl
  let aborts := abortsNow gq d
  let live := producerLive d
  if !q.cfg.valid then putQueue qid { serveAborts aborts live q with ctl := { read := c.read } } d
  else
    let q1 := controls aborts live q
    let atRtx := serveAborts aborts live (if c.flush.isEmpty then q else flushQueue q)
    let dropped := !c.drop.isEmpty && dropActs (beforeDrop aborts live q)
    let d := putQueue qid { q1 with ctl := { read := c.read } } d
    let d := if c.flush.isEmpty then d else cutConsumers gq .flush d
    let d := if c.rtx.isEmpty then d
      else if atRtx.mark then cutConsumers gq (rewindCut atRtx) (noteRewound gq atRtx.retained.length d)
      else rtFails c.rtx d
    let d := if dropped then cutConsumers gq .drop d else d
    releaseUnused qid d

/-! ### The pop -/

/-- Requests of a consumer that had to take an item and found none are counted in this round (R52, R62 to R64, R67,
R336). -/
def emptyPops (qid : Nat) (d : Dev) : Dev :=
  let q := queueOf d qid
  if q.mustPop = 0 then d
  else if !q.cfg.valid then putQueue qid { q with mustPop := 0 } d
  else putQueue qid { q with
    mustPop := 0
    underruns := sat16 q.underruns q.mustPop
    stUnderrun := true
    stCtUnderrun := q.stCtUnderrun || (q.inPkt && q.cfg.pkt && available q = 0) } d

/-- The tag sequence ahead of what a tagged port takes now: at a new grant, and after a retransmit (R81, R117). -/
def tagAhead (gq : Nat) (g : Option (BindEnt × Nat × Nat)) (p : EPort) : List EsbEntry :=
  match g with
  | some g => [.tag gq g.1.tag]
  | none => if p.retag then [.tag gq p.curTag] else []

/-- What a port keeps of its grant. -/
def noteGrant (g : Option (BindEnt × Nat × Nat)) (p : EPort) : EPort :=
  match g with
  | some g => { p with arbB := g.2.1, arbG := g.2.2, curTag := g.1.tag, retag := false }
  | none => { p with retag := false }

/-- An egress port pops up to 64 bytes of a queue into its ESB (R49, R61, R100, R117, R119, R134). A stream grant on a
tagged port whose available items run out goes on with that queue until a boundary item or 256 bytes (DESIGN CHOICE,
log entry 85). -/
def popEgress (e gq : Nat) (g : Option (BindEnt × Nat × Nat)) (d : Dev) : Dev :=
  let qid := gq % 4096
  let q := queueOf d qid
  let p := eport d e
  if q.owedEnd then
    putE e { noteGrant g p with
      esb := p.esb ++ tagAhead gq g p ++ [.status gq true false false], cur := none, grantBytes := 0 }
      (putQueue qid { q with owedEnd := false, inPkt := false } d)
  else
    let ew := ewBytes q.cfg.ew
    let room := if p.pce.tagged && !q.cfg.pkt then (256 - p.grantBytes) / ew else 64
    let n := (takePlan false (min (64 / ew) room) (nearItems q)).length
    if n = 0 then d
    else
      let d := readForPop qid n d
      let q := queueOf d qid
      let t := q.items.take n
      let d := releaseUnused qid (putQueue qid (takeItems n q) d)
      let p := eport d e
      let aborted := match t.getLast? with
        | some i => i.aborted
        | none => false
      let st := if aborted then [EsbEntry.status gq true false false] else []
      let bytes := p.grantBytes + n * ew
      let filled := p.pce.tagged && !q.cfg.pkt && decide (256 ≤ bytes)
      let done := endsPacket t || filled
      putE e { noteGrant g p with
        esb := p.esb ++ tagAhead gq g p ++ (t.map fun i => EsbEntry.item gq i q.cfg.ew) ++ st
        cur := if done then none else some gq
        grantBytes := if done then 0 else bytes } d

/-- What one pop of a transfer takes and how it leaves the transfer (R263, R266): the items, and whether it
has ended, ABORTED, or at a cut-through underrun. -/
structure Taken where
  items : List Item
  ended : Bool
  aborted : Bool
  under : Bool
deriving DecidableEq, Repr

/-- One pop of a transfer with `used` bytes of a buffer of `len` written. It goes on under the QTE of its grant (R317):
a queue that has another EW since held no item of the old one, so the transfer ends. -/
def takeXfer (q : Queue) (was : BitVec 2) (packed : Bool) (len used : Nat) : Taken :=
  let ew := ewBytes q.cfg.ew
  let room := (len - used) / ew
  if q.owedEnd then { items := [], ended := true, aborted := true, under := false }
  else if was ≠ q.cfg.ew then { items := [], ended := true, aborted := false, under := false }
  else
    let t := takePlan packed (min (64 / ew) room) (nearItems q)
    let aborted := match t.getLast? with
      | some i => i.aborted
      | none => false
    let bound := match t.getLast? with
      | some i => i.bound && !packed
      | none => false
    let dry := available q = 0
    { items := t, ended := aborted || bound || decide (room ≤ t.length) || dry, aborted,
      under := dry && q.inPkt && q.cfg.pkt }

/-- A queue after one pop of a transfer. -/
def afterTake (t : Taken) (q : Queue) : Queue :=
  if t.items.isEmpty then
    if t.aborted then { q with owedEnd := false, inPkt := false } else q
  else takeItems t.items.length q

/-- A drain transfer pops up to 64 bytes (R260, R263). -/
def popDrain (n gq : Nat) (d : Dev) : Dev :=
  let qid := gq % 4096
  match tblFind d.rings.drains n with
  | none => d
  | some r =>
    match r.xfer with
    | none => d
    | some x =>
      if x.ended || x.remote.isSome || x.qid ≠ gq then d
      else
        let used := x.items.length * ewBytes x.ew
        let k := (takeXfer (queueOf d qid) x.ew r.packed x.buf.len used).items.length
        let d := readForPop qid k d
        let q := queueOf d qid
        let t := takeXfer q x.ew r.packed x.buf.len used
        let d := putQueue qid (afterTake t q) d
        let d := putDrain n { r with xfer := some { x with
          items := x.items ++ t.items, ended := t.ended, aborted := t.aborted, ctUnderrun := t.under } } d
        releaseUnused qid d

/-- Flags of a POP_RSP: SOP, EOP, ABORTED, CT_UNDERRUN, RAGGED, DAMAGED, READY (R417). -/
def rspFlags (t : PeerPop) (ready : Bool) : BitVec 7 :=
  let last := t.items.getLast?
  BitVec.ofNat 7 (flagAt ((t.items.head?.map (·.first)).getD false) 0 +
    flagAt ((last.map (·.bound)).getD false) 1 + flagAt t.aborted 2 + flagAt t.ctUnderrun 3 +
    flagAt ((last.map (·.ragged)).getD false) 4 + flagAt (t.items.any (·.damaged)) 5 + flagAt ready 6)

/-- A transfer for node 0 pops up to 64 bytes; at its end the peer answers and holds the items (R438, R439). -/
def popPeer (qid : Nat) (d : Dev) : Dev :=
  let q := queueOf d qid
  match q.ptx with
  | none => d
  | some t =>
    let used := t.items.length * ewBytes t.ew
    let k := if t.ended then 0 else (takeXfer q t.ew t.packed t.limit used).items.length
    let d := readForPop qid k d
    let q := queueOf d qid
    let tk := if t.ended then { items := [], ended := true, aborted := t.aborted, under := t.ctUnderrun }
      else takeXfer q t.ew t.packed t.limit used
    let t := { t with items := t.items ++ tk.items, ended := tk.ended, aborted := tk.aborted, ctUnderrun := tk.under }
    let q := if t.ended && tk.items.isEmpty && !tk.aborted then q else afterTake tk q
    if t.ended then
      let hold := t.items.take (t.returns.getD t.items.length)
      -- an ABORTED end behind the items comes back with them; alone, it is held as a transfer without items
      let cut := t.aborted && t.returns.isNone
      let hold := if cut then endAborted hold else hold
      let q := { q with ptx := none, held := if hold.isEmpty && !cut then q.held else q.held ++ [(t.tag, hold)] }
      sendSeq 0 7 (popRspPayload qid t.tag (rspFlags t false) (streamBytes { q.cfg with ew := t.ew } t.items)) (putQueue qid q d)
    else putQueue qid { q with ptx := some t } d

/-- The grant under which an egress port serves a queue in this round. From a queue that is not in service it takes
nothing (R52), but a packet that it has begun goes on to its end (R317). -/
def portGrant (d : Dev) (e gq : Nat) : Option (Option (BindEnt × Nat × Nat)) :=
  if (queueOf d (gq % 4096)).cfg.valid || (eport d e).cur = some gq then egressGrant d e gq else none

/-- A drain ring whose transfer of a local queue goes on. -/
def drainServing (d : Dev) (gq : Nat) : Option Nat :=
  (d.rings.drains.find? fun e => (e.2.xfer.map fun x => x.qid = gq && !x.ended && x.remote.isNone).getD false).map (·.1)

/-- The pop phase: one consumer, one pop request (R51, R61 to R68). A transfer that was granted before its queue went
out of service completes (R317). -/
def popPhase (gq : Nat) (d : Dev) : Dev :=
  let qid := gq % 4096
  let d := emptyPops qid d
  match portGrant d 0 gq with
  | some g => popEgress 0 gq g d
  | none =>
    match portGrant d 1 gq with
    | some g => popEgress 1 gq g d
    | none =>
      match drainServing d gq with
      | some n => popDrain n gq d
      | none => popPeer qid d

/-! ### The end of a round -/

/-- Wake sources at the end of a round (R86, R218). The pressure source fires again only once the count has
risen by 16 (R218); a fall while it is disabled disarms it (log entry 44). -/
def wakeRound (qid : Nat) (was : Bool) (d : Dev) : Dev :=
  let q := queueOf d qid
  let free := freeSegments d
  let falls := d.regs.pressureArmed && decide (free < d.regs.wakeFree)
  let d := { d with regs.pressureArmed :=
    if falls then false else d.regs.pressureArmed || decide (d.regs.wakeFree + 16 ≤ free) }
  wakeFire falls (if q.cfg.wake && q.fAf && !was then some qid else none) d

/-- QUEUE_READ_COUNTERS reads and clears at the end of the round (R91). -/
def readCounters (qid : Nat) (d : Dev) : Dev :=
  let q := queueOf d qid
  match q.ctl.read with
  | none => d
  | some (addr, clear) =>
    let rec_ := qteBytes q
    let q := { q with ctl := { q.ctl with read := none } }
    let q := if clear then { q with underruns := 0, drops := 0, stUnderrun := false, stCtUnderrun := false,
                                    stMarkLost := false } else q
    finishRun (· = .round qid) { status := 0, record := some (addr, rec_) } (putQueue qid q d)

/-- A peer's queue that node 0 has armed has become drain-ready (R437). -/
def readyCheck (qid : Nat) (d : Dev) : Dev :=
  let q := queueOf d qid
  match q.armed with
  | some a =>
    if drainReady q a.1 a.2.1 a.2.2.1 0xFFFFFF then
      sendSeq 0 7 (popRspPayload qid a.2.2.2 64 []) (putQueue qid { q with armed := none } d)
    else d
  | none => d

/-- A turnstile starts no round now (R303, R353, R464, R546, R571); nor before firmware runs. -/
def roundBlocked (d : Dev) (qid : Nat) : Bool :=
  let q := queueOf d qid
  !fwRunning d || d.err.fatal || d.epoch.allFence || d.pwr.standby ||
    (d.epoch.fence && decide (qid ∈ d.epoch.fenced)) ||
    (d.epoch.sealFence && q.cfg.valid && q.cfg.persist) ||
    (match d.epoch.eraseFence with
     | some s => q.cfg.slot.toNat == s
     | none => false)

/-- A binding of a drain ring can be granted the next buffer (R261, R262, R437). -/
def bindReady (d : Dev) (r : DrainRing) (b : BindEnt) : Bool :=
  let len := (r.bufs.head?.map (·.len)).getD 0
  if isLocal d b.qid then
    !roundBlocked d (b.qid % 4096) && drainReady (queueOf d (b.qid % 4096)) r.packed r.dmin r.wait len
  else decide (b.qid ∈ r.ready)

/-- The loop of R133 has left a drain binding whose queue is not drain-ready when its buffer is done (R261). -/
def leaveDrains (d : Dev) : Dev :=
  { d with rings.drains := d.rings.drains.map fun e =>
      if e.2.xfer.isNone && !e.2.bufs.isEmpty &&
          (d.bind.drain.find? fun b => b.target = e.1 && b.index = e.2.arbB).any (fun b => !bindReady d e.2 b) then
        (e.1, { e.2 with arbG := 16 })
      else e }

/-- The end of a round: flags, wakes, spills, reads, mirror (R85, R218, R282, R332, R335, R437). -/
def endRound (qid : Nat) (was : Bool) (d : Dev) : Dev :=
  let d := readCheck qid (spillAll (spillCheck 512 qid (settleBare 512 qid d)))
  let d := onQueue qid (setFlags d) d
  let d := wakeRound qid was d
  let d := drainWaitCheck qid d
  let d := readyCheck qid d
  let d := mirrorUpdate qid (readCounters qid d)
  stallChecks (refreshFlags (leaveDrains (leaveArb 1 (leaveArb 0 d))))

/-- What a round does to a queue: controls, pop, pushes. -/
def roundBody (gq : Nat) (d : Dev) : Dev :=
  (producers d).foldl (fun d p => pushOne gq p d) (popPhase gq (controlPhase gq d))

/-- What of a queue a change in the sense of R358 touches: an admitted push, a pop, a control request that
has effect. -/
def sealedPart (q : Queue) : Queue :=
  { items := q.items, retained := q.retained, mark := q.mark, lock := q.lock, discards := q.discards,
    inPkt := q.inPkt, owedEnd := q.owedEnd }

/-- One round of a local queue. The first change to a PERSISTENT queue after a seal record writes the unseal
record first, and the round waits for it (R358); the journal is the firmware's to write (R28). -/
def localRound (gq : Nat) (d : Dev) : Dev :=
  let qid := gq % 4096
  if roundBlocked d qid then d
  else
    let q := queueOf d qid
    let st := ctlStatus q
    let adm := ctlAdmin q.ctl
    let d1 := roundBody gq d
    let breaks := q.cfg.valid && q.cfg.persist && journalSealed d &&
      decide (sealedPart (queueOf d1 qid) ≠ sealedPart q)
    -- an unseal record that cannot be written any more (R395) holds the round for ever
    if breaks && (d.tier.exhausted || !fwExec d) then d
    else
      let d1 := if breaks then roundBody gq (writeUnseal d) else d1
      let d1 := endRound qid q.fAf d1
      let d1 := if adm then finishRun (· = .round qid) (failWith st) d1 else d1
      settleKeys (pumpFlags d1)

/-! ### Bursts for a peer's queue (R430 to R435) -/

/-- Hands one burst to the ring. -/
def sendBurst (gq : Nat) (b : Burst) (d : Dev) : Dev :=
  let node := gq / 4096
  let qid := gq % 4096
  let p := tblGet {} d.cas.peers node
  let ew := ewOf d gq
  let opens := (qid, b.prod) ∉ p.openQ
  let ends := burstEnds b.items
  let data := b.items.flatMap fun i => itemBytes ew i
  let openQ := p.openQ.filter fun o => o ≠ (qid, b.prod)
  let d := onPeer node (fun x => { x with
    credits := x.credits - 1
    openQ := if ends then openQ else openQ ++ [(qid, b.prod)] }) d
  takeBurst b (sendItems (some b.prod) node 4 (pushPayload qid opens ends false (burstRagged b) p.epoch data) d)

/-- One producer's burst for a peer's queue (R431, R434, R435). -/
def pushRemote (gq : Nat) (pr : Producer) (d : Dev) : Dev :=
  let node := gq / 4096
  let qid := gq % 4096
  match latchedOf d gq pr with
  | none => d
  | some b =>
    let p := tblGet {} d.cas.peers node
    let mine := (qid, pr)
    if p.st ≠ .present then discardBurst 0x75 b d
    else match recheck d b with
    | some code =>
      let d := if mine ∈ p.openQ then
          sendAbort node qid (onPeer node (fun x => { x with openQ := x.openQ.filter (· ≠ mine) }) d) else d
      let d := onPeer node (fun x => { x with
        dropQ := if burstEnds b.items then x.dropQ.filter (· ≠ mine)
          else if mine ∈ x.dropQ then x.dropQ else x.dropQ ++ [mine] }) d
      discardBurst code b d
    | none =>
      if b.sop && decide (mine ∈ p.openQ) then
        sendAbort node qid (onPeer node (fun x => { x with openQ := x.openQ.filter (· ≠ mine) }) d)
      else
        let d := if b.sop then onPeer node (fun x => { x with dropQ := x.dropQ.filter (· ≠ mine) }) d else d
        let p := tblGet {} d.cas.peers node
        if mine ∈ p.dropQ then
          takeBurst b (if burstEnds b.items then
            onPeer node (fun x => { x with dropQ := x.dropQ.filter (· ≠ mine) }) d else d)
        else if p.credits = 0 || qid ∈ p.abortQ || p.openQ.any (fun o => o.1 = qid && o.2 ≠ pr) then d
        else sendBurst gq b d

/-- The turnstile of a peer's queue is the peer's; here its bursts go to the ring. -/
def remoteRound (gq : Nat) (d : Dev) : Dev :=
  if !fwRunning d || d.err.fatal || d.epoch.allFence || d.pwr.standby then d
  else
    let ps := (producers d).filter fun p => match p with
      | .node _ => false
      | _ => true
    stallChecks (pumpFlags (ps.foldl (fun d p => pushRemote gq p d) d))

/-- TURNSTILE_ROUND of the queue that a global QID names. `upsets` are error patterns that have come upon
near words (log entry 37). -/
def turnstileRound (gq : Nat) (upsets : List (Nat × BitVec 74)) (d : Dev) : Dev :=
  let d := addUpsets upsets d
  if isLocal d gq then localRound gq d else remoteRound gq d

end Sys2Proof.Machine
end

