-- ==== Sys2Proof/Machine/Ports.lean ====
section
/-!
DEFINITION. The commands of the stream ports and their crossings: beats, pulses, events, values, reads,
stall, reopening, hand-over (R98 to R182, R628 to R651, R677).
-/

namespace Sys2Proof.Machine

/-! ### Ingress beats (R102 to R112) -/

/-- One tag beat: the partial tag after it, and whether the sequence is complete (R107). -/
def tagStep (w : BitVec 2) (acc n v : Nat) : Nat × Nat × Bool :=
  if w = 2 then (v % 4096, 1, true)
  else if w = 1 then
    if n = 0 then (v % 256, 1, false) else (acc + v % 16 * 256, 2, true)
  else (acc + v % 16 * 16 ^ n, n + 1, decide (2 ≤ n))

/-- Drops a partial tag sequence. -/
def clearTag (p : IPort) : IPort := { p with tagAcc := 0, tagBeats := 0 }

/-- A tag beat at an OPEN tagged port (R107, R108, R112). -/
def tagBeat (i : Nat) (v : Nat) (d : Dev) : Dev :=
  let p := iport d i
  let r := tagStep p.pce.width p.tagAcc p.tagBeats v
  if r.2.2 then
    let p := clearTag { p with tag := some r.1, tagQid := tagLookup p.map i r.1, tagStamp := portStamp d i }
    if p.partBits = 0 then putI i p d
    else putI i { p with isb := p.isb ++ [.cut], partBits := 0,
                         run := { p.run with tagErr := sat16 p.run.tagErr 1 } } d
  else putI i { p with tagAcc := r.1, tagBeats := r.2.1 } d

/-- An accepted data beat is stored in the ISB (R102, R104, R310). -/
def storeBeat (i qid : Nat) (tag : Option Nat) (stamp : Nat) (eop : Bool) (v : BitVec 16) (d : Dev) : Dev :=
  let p := iport d i
  let pb := portBits p.pce.width
  let eb := 8 * ewBytes (ewOf d qid)
  let n := p.partBits + pb
  putI i { p with
    isb := p.isb ++ [.beat (BitVec.ofNat 16 (v.toNat % 2 ^ pb)) eop qid tag stamp p.pce.width]
    known := p.known + 1
    partBits := if eop || decide (eb ≤ n) then 0 else n } d

/-- A data beat at an OPEN port (R103, R106, R109, R110). -/
def dataBeat (i : Nat) (eop : Bool) (v : BitVec 16) (d : Dev) : Dev :=
  let p := iport d i
  if p.ff then putI i { p with run := { p.run with ovf := sat16 p.run.ovf 1 } } d
  else if !p.pce.tagged then storeBeat i p.pce.qid.toNat none (portStamp d i) eop v d
  else
    let d := if p.tagBeats = 0 then d
      else recordErr 0x63 1 i (putI i { clearTag p with run := { p.run with tagErr := sat16 p.run.tagErr 1 } } d)
    let p := iport d i
    match p.tag, p.tagQid with
    | some t, some q => storeBeat i q (some t) p.tagStamp eop v d
    | _, _ => recordErr 0x61 1 i (putI i { p with run := { p.run with unmapped := sat16 p.run.unmapped 1 } } d)

/-- FF# after an edge: asserted while every place of the ISB is taken, as far as the port knows (R104). A beat that was
taken under an earlier PCE_WIDTH counts as one place of the width in force (DESIGN CHOICE, log entry 89). -/
def settleFf (p : IPort) : IPort := { p with ff := decide (isbPlaces p.pce.width ≤ p.known) }

/-- The sampler watches without capturing (R148): tags are tracked, idle edges counted. -/
def watch (i : Nat) (en tag eop : Bool) (v : BitVec 16) (d : Dev) : PairSt :=
  let p := iport d i
  let s := pairOf d i
  let isTag := p.pce.tagged && tag
  let s := { s with idle := if en then 0 else s.idle + 1 }
  let s := if !en then s
    else if isTag then
      let r := tagStep p.pce.width s.trackAcc s.trackBeats v.toNat
      if r.2.2 then { s with trackTag := some r.1, trackAcc := 0, trackBeats := 0 }
      else { s with trackAcc := r.1, trackBeats := r.2.1 }
    else { s with trackAcc := 0, trackBeats := 0 }
  { s with pointB := (en && eop && !isTag) || decide (8 ≤ s.idle) }

/-- A closed ingress port: FF# and AF# asserted (R99). -/
def closedFlags (p : IPort) : IPort := { p with ff := true, af := { pin := true, hold := false, next := p.af.next } }

/-! ### Stall and park (R142, R143, R178 to R181) -/

/-- The stall timer of a port reaches PORT_STALL_TO (R142, R143, R179). An armed hand-over is cancelled. -/
def portStall (k : Nat) (d : Dev) : Dev :=
  if !portWaits d k || !timerDue d (.stall k) d.regs.stallTo then d
  else
    let r := runOf d k
    let d := stopTimer (.stall k) (putRun k { r with parked := true, parks := sat16 r.parks 1 } d)
    let d := if k < 2 then abortOwned (.port k) (putI k (closedFlags (iport d k)) d)
      else putE (k - 2) { eport d (k - 2) with pEn := false } d
    let s := pairOf d (k % 2)
    let d := if s.armed then
        stopTimer (.noClock (k % 2)) (stopTimer (.handover (k % 2)) (putPair (k % 2) { s with armed := false, pointB := false } d))
      else d
    refreshFlags (recordErr 0x62 1 k d)

/-- PORT_CLOCK_STALL. -/
def execPortClockStall (port : Fin 4) (s : State) : Host.Outcome State Fault Refusal :=
  actBacklog (portStall port.val) s

/-! ### One edge of I_CLK -/

/-- What an edge samples at an OPEN port that captures (R102, R104). -/
def captureBeat (i : Nat) (en tag eop : Bool) (v : BitVec 16) (d : Dev) : Dev :=
  let d := if !en then d
    else if (iport d i).pce.tagged && tag then tagBeat i v.toNat d
    else dataBeat i eop v d
  putI i (settleFf (iport d i)) d

/-- The watch over a pair that returns to bypass: the first hand-over point at which the egress port is between packets
(R151). -/
def watchReturn (i : Nat) (en tag eop : Bool) (v : BitVec 16) (d : Dev) : Dev :=
  let s := pairOf d i
  if s.returning && !s.pointB then
    let w := watch i en tag eop v d
    let e := eport d i
    putPair i { w with pointB := w.pointB && !e.midPkt && e.esb.isEmpty && e.under.isNone } d
  else d

/-- The stall timer of a port has run out, and an edge comes at the same moment: the Weave arbitrates (R188). -/
def raceLost (i : Nat) (d : Dev) : Bool := portWaits d i && timerDue d (.stall i) d.regs.stallTo

/-- One rising edge of I_CLK with what it samples. A beat that the switches carry is not captured (R155). At an edge
that races the expiry of the stall timer a free bit arbitrates: the timer restarts, or the port parks and keeps the
beat (R188; log entry 83). -/
def ingressBeat (i : Nat) (en tag eop : Bool) (v : BitVec 16) (d : Dev) : Dev :=
  let d := stopTimer (.noClock i) (if switchConducts d i then emit (.through i en v eop tag) d else d)
  let s := pairOf d i
  if s.armed then
    let d := edgeSeen i d
    if s.pointB then d else putPair i (watch i en tag eop v d) d
  else
    let d := watchReturn i en tag eop v d
    if !portOpen d i || inBypass d i || switchConducts d i then edgeSeen i d
    else if raceLost i d then
      let f := takeFree d
      let d := captureBeat i en tag eop v f.2
      if f.1.getLsbD 0 then portStall i d else stallCheck i (edgeSeen i d)
    else stallCheck i (captureBeat i en tag eop v (edgeSeen i d))

/-- INGRESS_BEAT. -/
def execIngressBeat (port : Fin 2) (en tag eop : Bool) (v : BitVec 16) (s : State) :
    Host.Outcome State Fault Refusal := actBacklog (ingressBeat port.val en tag eop v) s

/-! ### Pulse pins and the event crossing toward the Weave (R158 to R166) -/

/-- A rising edge that samples FLUSH (R139, R158, R159). -/
def flushPulse (i : Nat) (level : Bool) (d : Dev) : Dev :=
  if !portOpen d i || inBypass d i then d
  else
    let d := edgeSeen i d
    let p := iport d i
    let event := level && p.flushPrev = some false
    let p := { p with flushPrev := some level }
    if !event then putI i p d
    else
      let x := p.xing
      let merged := x.busy && x.pRt.isSome
      let x := if !x.busy then { x with busy := true, latched := false, rt := some 0 }
        else { x with pRt := some 0 }
      putI i { clearTag p with
        isb := p.isb ++ [.cut], partBits := 0, xing := x
        run := if merged then { p.run with merges := sat16 p.run.merges 1 } else p.run } d

/-- FLUSH_PULSE. -/
def execFlushPulse (port : Fin 2) (level : Bool) (s : State) : Host.Outcome State Fault Refusal :=
  act (flushPulse port.val level) s

/-- The pulse pins of an egress port. -/
inductive PulsePin where
  | rt
  | mrk
  | drop
deriving DecidableEq, Repr

/-- The queue a pulse acts on (R140, R166). -/
def pulseQueue (p : EPort) : Option Nat := if p.pce.tagged then p.begun else some p.pce.qid.toNat

/-- The carried bit of a pin. -/
def carriedBit (x : EventXing) : PulsePin → Option Nat
  | .rt => x.rt
  | .mrk => x.mrk
  | .drop => x.drop

/-- Sets it. -/
def setCarried (x : EventXing) (q : Nat) : PulsePin → EventXing
  | .rt => { x with rt := some q }
  | .mrk => { x with mrk := some q }
  | .drop => { x with drop := some q }

/-- The pending bit of a pin. -/
def pendingBit (x : EventXing) : PulsePin → Option Nat
  | .rt => x.pRt
  | .mrk => x.pMrk
  | .drop => x.pDrop

/-- Sets it. -/
def setPending (x : EventXing) (q : Nat) : PulsePin → EventXing
  | .rt => { x with pRt := some q }
  | .mrk => { x with pMrk := some q }
  | .drop => { x with pDrop := some q }

/-- The next edge: nothing is sampled at it yet (log entry 45). -/
def newEdge (p : EPort) : EPort := { p with smpRt := false, smpMrk := false, smpDrop := false, fresh := false }

/-- Marks a pin sampled; a pin sampled a second time begins the next edge (log entry 45). -/
def samplePin (pin : PulsePin) (p : EPort) : EPort :=
  let again := match pin with
    | .rt => p.smpRt
    | .mrk => p.smpMrk
    | .drop => p.smpDrop
  let p := if again then newEdge p else p
  match pin with
  | .rt => { p with smpRt := true }
  | .mrk => { p with smpMrk := true }
  | .drop => { p with smpDrop := true }

/-- Records a sample and answers whether it is a pulse event (R158). -/
def pulseEvent (pin : PulsePin) (level : Bool) (p : EPort) : Bool × EPort :=
  match pin with
  | .rt => (level && p.rtPrev = some false, { p with rtPrev := some level })
  | .mrk => (level && p.mrkPrev = some false, { p with mrkPrev := some level })
  | .drop => (level && p.dropPrev = some false, { p with dropPrev := some level })

/-- An event merges into a bit that is set already (R163). -/
def mergeCount (b : Bool) (p : EPort) : EPort :=
  if b then { p with run := { p.run with merges := sat16 p.run.merges 1 } } else p

/-- A rising edge that samples RT, MRK or DROP (R140, R158, R160, R163, R166). Events of one edge are
carried in one set (R164). -/
def outPulse (e : Nat) (pin : PulsePin) (level : Bool) (d : Dev) : Dev :=
  if !portOpen d (e + 2) || inBypass d e then d
  else
    let d := edgeSeen (e + 2) d
    let r := pulseEvent pin level (samplePin pin (eport d e))
    let p := r.2
    match r.1, pulseQueue p with
    | true, some q =>
      let x := p.xing
      if !x.busy then
        putE e { p with xing := setCarried { x with busy := true, latched := false } q pin, fresh := true } d
      else if p.fresh && !x.latched then
        putE e (mergeCount (carriedBit x pin).isSome
          { p with xing := if (carriedBit x pin).isSome then x else setCarried x q pin }) d
      else
        putE e (mergeCount (pendingBit x pin).isSome
          { p with xing := if (pendingBit x pin).isSome then x else setPending x q pin }) d
    | _, _ => putE e p d

/-- RT_PULSE. -/
def execRtPulse (port : Fin 2) (level : Bool) (s : State) : Host.Outcome State Fault Refusal :=
  act (outPulse port.val .rt level) s

/-- MRK_PULSE. -/
def execMrkPulse (port : Fin 2) (level : Bool) (s : State) : Host.Outcome State Fault Refusal :=
  act (outPulse port.val .mrk level) s

/-- DROP_PULSE. -/
def execDropPulse (port : Fin 2) (level : Bool) (s : State) : Host.Outcome State Fault Refusal :=
  act (outPulse port.val .drop level) s

/-- Adds a pin's control request at its turnstile (R161). -/
def latchPin (q : Option Nat) (f : Ctl → Ctl) (d : Dev) : Dev :=
  match q with
  | some gq => if isLocal d gq then onQueue (gq % 4096) (fun q => { q with ctl := f q.ctl }) d else d
  | none => d

/-- The FLUSH packet abort of an ingress port reaches every turnstile at which it owns an open packet (R73,
R165); a queue that is not in service it does not touch (R53). -/
def latchAbort (i : Nat) (d : Dev) : Dev :=
  let d := d.queues.foldl (fun d e =>
    if e.2.lock = some (.port i) && e.2.cfg.valid then requestAbort e.1 (.port i) d else d) d
  d.cas.peers.foldl (fun d e =>
    (e.2.openQ.filter (·.2 = .port i)).foldl (fun d o =>
      sendAbort e.1 o.1 (onPeer e.1 (fun x => { x with
        openQ := x.openQ.filter (· ≠ o), dropQ := x.dropQ ++ [o] }) d)) d) d

/-- A carried set is latched at its turnstile (R161, R186). A set on the port side of a PARKED port stays
there (R182). -/
def crossingLatch (k : Nat) (d : Dev) : Dev :=
  let x := xingOf d k
  if !x.busy || x.latched || (runOf d k).parked then d
  else
    let d := putXing k { x with latched := true } d
    if k < 2 then latchAbort k d
    else
      let d := latchPin x.rt (fun c => { c with rtx := c.rtx ++ [.port k] }) d
      let d := latchPin x.mrk (fun c => { c with mark := c.mark ++ [.port k] }) d
      let d := latchPin x.drop (fun c => { c with drop := c.drop ++ [.port k] }) d
      putE (k - 2) { eport d (k - 2) with fresh := false } d

/-- EVENT_CROSSING_LATCH. -/
def execEventCrossingLatch (port : Fin 4) (s : State) : Host.Outcome State Fault Refusal :=
  act (crossingLatch port.val) s

/-- The acknowledge is accepted: the crossing is free, and carries a pending set at that edge (R162, R163). -/
def crossingFree (k : Nat) (d : Dev) : Dev :=
  let x := xingOf d k
  if !x.busy || !x.latched || (runOf d k).parked then d
  else
    let d := edgeSeen k d
    if x.pRt.isNone && x.pMrk.isNone && x.pDrop.isNone then putXing k {} d
    else
      let d := putXing k { busy := true, rt := x.pRt, mrk := x.pMrk, drop := x.pDrop } d
      if k < 2 then d else putE (k - 2) { eport d (k - 2) with fresh := true } d

/-- EVENT_CROSSING_FREE. -/
def execEventCrossingFree (port : Fin 4) (s : State) : Host.Outcome State Fault Refusal :=
  act (crossingFree port.val) s

/-! ### Beats and values across (R170, R173 to R177) -/

/-- Where the Weave's view of the ISB ends after one more beat: past the beat and the flush points behind it
(R165, R170). -/
def visibleAfter (isb : List IsbEntry) (vis : Nat) : Nat :=
  let isBeat (e : IsbEntry) : Bool := match e with
    | .beat _ _ _ _ _ _ => true
    | _ => false
  let rest := isb.drop vis
  let cuts := (rest.takeWhile fun e => !isBeat e).length
  match rest.drop cuts with
  | [] => vis + cuts
  | _ :: more => vis + cuts + 1 + (more.takeWhile fun e => !isBeat e).length

/-- A beat becomes visible to the Weave (R170); at a PARKED port it stays on the port side (R182). -/
def beatVisible (i : Nat) (d : Dev) : Dev :=
  let p := iport d i
  if p.run.parked || !awake d then d
  else pumpFlags (portAssemble i (putI i { p with vis := visibleAfter p.isb p.vis } d))

/-- BEAT_VISIBLE. -/
def execBeatVisible (port : Fin 2) (s : State) : Host.Outcome State Fault Refusal :=
  actBacklog (beatVisible port.val) s

/-- No complete beat is on the port side: EF# is asserted (R123). -/
def noBeat (d : Dev) (p : EPort) : Bool := (nextBeat (cfgOf d) p).isNone

/-- In FWFT mode the next beat stands on the pins while EF# is deasserted (R122). -/
def showFront (d : Dev) (p : EPort) : EPort :=
  if p.pce.fwft && !p.pce.push && p.under.isNone then
    match nextBeat (cfgOf d) p with
    | some r => { p with pD := r.d, pEop := r.eop, pTagv := r.tagv }
    | none => p
  else p

/-- The port side accepts a new pointer or flag value (R173). -/
def valueAccept (k : Nat) (kind : ValueKind) (d : Dev) : Dev :=
  if !portOpen d k then d
  else
    let d := edgeSeen k d
    match kind with
    | .flag =>
      if k < 2 then putI k { iport d k with af := acceptValue (iport d k).af } d
      else putE (k - 2) { eport d (k - 2) with ae := acceptValue (eport d (k - 2)).ae } d
    | .pointer =>
      if k < 2 then
        if inBypass d k then d else putI k (settleFf { iport d k with known := isbCount (iport d k) }) d
      else
        let p := eport d (k - 2)
        let p := { p with visible := p.esb.length }
        putE (k - 2) (showFront d { p with ef := noBeat d p }) d

/-- VALUE_CROSSING_ACCEPT. -/
def execValueCrossingAccept (port : Fin 4) (kind : ValueKind) (s : State) : Host.Outcome State Fault Refusal :=
  act (valueAccept port.val kind) s

/-! ### Egress (R121 to R131) -/

/-- Something is being completed at the pins: an item or an empty item partly driven (R72, R100), or a status beat that
follows a last data beat (R118). -/
def finishing (p : EPort) : Bool := p.under.isSome || decide (0 < headStays p)

/-- An egress port drives beats: OPEN and handed over, or CLOSED with something being completed (R72, R100). -/
def drives (d : Dev) (e : Nat) : Bool :=
  let p := eport d e
  !p.run.parked && !inBypass d e && (p.run.isOpen || finishing p)

/-- The outputs of a port are at high impedance (R99): it is CLOSED and nothing is being completed. The E side of a
handed-over pair stays driven until its switches close (R151). -/
def outputsOff (d : Dev) (e : Nat) (p : EPort) : Bool :=
  !p.run.isOpen && !finishing p && !((pairOf d e).strap && (pairOf d e).handed)

/-- A beat at the pins. -/
def driveBeat (e : Nat) (v : BitVec 16) (eop tagv : Bool) (p : EPort) (d : Dev) : Dev :=
  emit (.beat e v eop tagv) (putE e { p with pD := v, pEop := eop, pTagv := tagv, pEn := p.pce.push } d)

/-- What follows a beat: EF#, the outputs of a port that has closed, and the stall condition. -/
def afterBeat (e : Nat) (d : Dev) : Dev :=
  let p := eport d e
  let off := outputsOff d e p
  let p := { p with ef := noBeat d p, hiZ := off, eclk := if off then .off else p.eclk }
  stallCheck (e + 2) (putE e (showFront d p) d)

/-- A consumer that must take an item has found none; the pop is counted in the next round (R62 to R64). -/
def mustTake (gq : Nat) (d : Dev) : Dev := onQueue (gq % 4096) (fun q => { q with mustPop := q.mustPop + 1 }) d

/-- The next beat of an empty item. -/
def driveUnder (e : Nat) (u : EmptyItem) (p : EPort) (d : Dev) : Dev :=
  let b := emptyBeat p.pce.width u
  afterBeat e (driveBeat e b.1 false false { p with under := b.2 } d)

/-- Starts an empty item of a queue at a port and drives its first beat (R124, R131). -/
def driveEmpty (e gq : Nat) (p : EPort) (d : Dev) : Dev := driveUnder e (emptyItem (cfgOf d gq) gq p) p (mustTake gq d)

/-- A read that takes nothing from any queue: E_D stays, and it counts in PCE_OVF (R52, R126). -/
def readNothing (e : Nat) (p : EPort) (d : Dev) : Dev :=
  putE e { p with pEop := false, pTagv := false, run := { p.run with ovf := sat16 p.run.ovf 1 } } d

/-- A rising edge of E_CLK with E_EN asserted at a pull-mode port (R121 to R126, R157). -/
def egressRead (e : Nat) (d : Dev) : Dev :=
  if !drives d e || (eport d e).pce.push then d
  else
    let d := edgeSeen (e + 2) d
    let p := newEdge (eport d e)
    match p.under with
    | some u => driveUnder e u p d
    | none =>
      match (if p.ef && p.run.isOpen then none else nextBeat (cfgOf d) p) with
      | some r => afterBeat e (driveBeat e r.d r.eop r.tagv r.port d)
      | none =>
        match underQueue p with
        | some gq => if (cfgOf d gq).valid then driveEmpty e gq p d else readNothing e p d
        | none => readNothing e p d

/-- EGRESS_READ. -/
def execEgressRead (port : Fin 2) (s : State) : Host.Outcome State Fault Refusal := act (egressRead port.val) s

/-- HOLD# sampled at a rising edge: how many beats may still go (R129). -/
def sampleHold (hold : Bool) (p : EPort) : EPort :=
  { p with skid := if hold then some (p.skid.getD 2) else none }

/-- What E_CLK of an OPEN push port carries (R127). -/
def clockOf (p : Pce) : EClk := if !p.push then .off else if p.clksrc then .aclk else .iclk

/-- E_CLK of a port by its PCE: forwarded while the port is OPEN and its pair is not in bypass (R127, R149). -/
def setClock (d : Dev) (e : Nat) (p : EPort) : EPort :=
  { p with eclk := if p.run.isOpen && !inBypass d e then clockOf p.pce else .off }

/-- The queue of which a push port that can send nothing must take an item (R67, R131): in continuous mode, where
HOLD# allows a beat. -/
def contQueue (hold : Bool) (p : EPort) : Option Nat :=
  if p.pce.cont && !hold && p.run.isOpen then underQueue p else none

/-- A gated port in the middle of a cut-through packet meets the empty behaviour (R67) without sending anything
(R131): it asks for an item once in each round of the queue (DESIGN CHOICE, log entry 81). -/
def gatedPop (e : Nat) (hold : Bool) (d : Dev) : Dev :=
  let p := eport d e
  match p.cur with
  | some gq =>
    let q := queueOf d (gq % 4096)
    if !p.pce.cont && !hold && p.run.isOpen && p.midPkt && !p.esb.any (entryOf gq) && q.cfg.valid && q.cfg.pkt &&
        q.inPkt && available q = 0 && !q.owedEnd && q.mustPop = 0 then mustTake gq d
    else d
  | none => d

/-- One cycle of the forwarded E_CLK: HOLD# is sampled, then a beat may be launched (R128 to R131). Through closed
switches HOLD# reaches the producer on FF# (R145). -/
def egressPush (e : Nat) (hold : Bool) (d : Dev) : Dev :=
  let d := if switchConducts d e then emit (.throughHold e hold) d else d
  if !drives d e || !(eport d e).pce.push then d
  else
    let d := edgeSeen (e + 2) d
    let p := newEdge (sampleHold hold (eport d e))
    let p := if p.run.isOpen then { p with eclk := clockOf p.pce } else p
    if p.skid = some 0 then putE e { p with pEn := false } d
    else
      let p' := { p with skid := p.skid.map (· - 1) }
      match p.under with
      | some u => driveUnder e u p' d
      | none =>
        match nextBeat (cfgOf d) p' with
        | some r => afterBeat e (driveBeat e r.d r.eop r.tagv r.port d)
        | none =>
          let idle := gatedPop e hold (putE e { p with pEn := false } d)
          match contQueue hold p with
          | some gq =>
            if (cfgOf d gq).valid && available (queueOf d (gq % 4096)) = 0 && !(p.esb.any (entryOf gq)) then
              driveEmpty e gq p' d
            else idle
          | none => idle

/-- EGRESS_PUSH_BEAT. -/
def execEgressPushBeat (port : Fin 2) (hold : Bool) (s : State) : Host.Outcome State Fault Refusal :=
  act (egressPush port.val hold) s

/-! ### Internal events take effect (R98 to R101, R148, R167, R306, R307) -/

/-- A new PCE at an ingress port. -/
def applyIngress (np : Pce) (p : IPort) : IPort :=
  if p.pce.en && !np.en then
    closedFlags { clearTag p with
      pce := np, isb := p.isb ++ [.close], partBits := 0, tag := none, tagQid := none
      run := { p.run with isOpen := false, parked := false, unparkPend := false } }
  else if !p.pce.en && np.en then
    { clearTag p with
      pce := np, ff := true, partBits := 0, tag := none, tagQid := none, flushPrev := none
      known := isbCount p, run := { p.run with isOpen := true } }
  else
    let changed := p.pce.width ≠ np.width || p.pce.tagged ≠ np.tagged
    let q := if changed then clearTag { p with partBits := 0 } else p
    { q with pce := np
             tag := if p.pce.tagged ≠ np.tagged then none else p.tag
             tagQid := if p.pce.tagged ≠ np.tagged then none else p.tagQid }

/-- The new tag map at an ingress port: its current tag is resolved again (R307). -/
def applyMap (i : Nat) (d : Dev) (p : IPort) : IPort :=
  let map := d.bind.tags.filter fun t => t.port = i
  { p with map, tagQid := p.tag.bind fun t => tagLookup map i t
           tagStamp := if p.tag.isSome then d.epoch.seq else p.tagStamp }

/-- Queues with undelivered entries in an ESB, each once. -/
def esbQueues (es : List EsbEntry) : List Nat :=
  (es.map fun e => match e with
    | .tag q _ => q
    | .item q _ _ => q
    | .status q _ _ _ => q).dedup

/-- What of an ESB returns to a queue, in order: its items, and whether an ABORTED end stood before the first of them.
An ABORTED end behind items stands behind the last of them again (R61, R676). -/
def returnPlan (gq : Nat) (es : List EsbEntry) : Bool × List Item :=
  es.foldl (fun a x => match x with
    | .item q i _ => if q = gq then (a.1, a.2 ++ [i]) else a
    | .status q true _ _ => if q ≠ gq then a else if a.2.isEmpty then (true, a.2) else (a.1, closeRun a.2)
    | _ => a) (false, [])

/-- Items and an ABORTED end come back to the head of a queue (R100, R676). -/
def takeBack (r : Bool × List Item) (q : Queue) : Queue :=
  let q := returnItems r.2 q
  { q with owedEnd := q.owedEnd || r.1 }

/-- How many entries a closing port completes: an item partly driven, or the status beat behind a last data beat. A tag
sequence partly driven ends with the beat in progress (R100). -/
def closingKeep (p : EPort) : Nat :=
  match p.esb with
  | .tag _ _ :: _ => 0
  | _ => headStays p

/-- A closing egress port returns its undelivered items to the heads of their queues (R100, R676), and completes what
it has begun. An ABORTED end that stands alone is owed again. -/
def returnEsb (e : Nat) (d : Dev) : Dev :=
  let p := eport d e
  let keep := closingKeep p
  let back := p.esb.drop keep
  let d := putE e { p with esb := p.esb.take keep, visible := keep, driven := if keep = 0 then 0 else p.driven
                           cur := none, grantBytes := 0, retag := false, midPkt := false, cutAfter := true
                           begun := none } d
  (esbQueues back).foldl (fun d gq => onQueue (gq % 4096) (takeBack (returnPlan gq back)) d) d

/-- The PCE of a closing port, with the width and the direction under which it completes what it has begun. -/
def closingPce (np : Pce) (p : EPort) : Pce :=
  if finishing p then { np with width := p.pce.width, push := p.pce.push, status := p.pce.status } else np

/-- An egress port closes. -/
def closeEgress (e : Nat) (np : Pce) (d : Dev) : Dev :=
  let d := returnEsb e d
  let p := eport d e
  let p := { p with run := { p.run with isOpen := false, parked := false, unparkPend := false } }
  let off := outputsOff d e p
  putE e { p with pce := closingPce np p, ef := !finishing p, pEn := false, hiZ := off
                  eclk := if off then .off else p.eclk } d

/-- An egress port opens. What it was still completing when it closed comes first (R100). -/
def openEgress (e : Nat) (np : Pce) (d : Dev) : Dev :=
  let p := eport d e
  let keep := headStays p
  let p := { p with
    pce := np, esb := p.esb.take keep, visible := keep, driven := if keep = 0 then 0 else p.driven, last := []
    begun := none, midPkt := false, cutAfter := decide (0 < keep), cur := none, grantBytes := 0, arbB := 0, arbG := 0
    retag := false, skid := none
    pD := if keep = 0 then 0 else p.pD, pEop := false, pTagv := false, pEn := false, hiZ := inBypass d e
    rtPrev := none, mrkPrev := none, dropPrev := none
    smpRt := false, smpMrk := false, smpDrop := false, fresh := false
    run := { p.run with isOpen := true } }
  let p := setClock d e { p with ef := noBeat d p }
  putE e (showFront d p) d

/-- Entries that a port of this PCE sends: a fixed-queue port sends no tag sequences. -/
def keepsTags (np : Pce) (p : EPort) : EPort :=
  if np.tagged then p
  else
    let isTag (x : EsbEntry) : Bool := match x with
      | .tag _ _ => true
      | _ => false
    { p with esb := p.esb.filter (fun x => !isTag x)
             visible := ((p.esb.take p.visible).filter fun x => !isTag x).length
             driven := if (p.esb.head?.map isTag).getD false then 0 else p.driven }

/-- A PCE that leaves an egress port OPEN: later beats leave under it, those of an item or a tag sequence partly driven
among them (R156, R677; log entry 82). A PARKED port holds its outputs (R143). -/
def changeEgress (e : Nat) (np : Pce) (d : Dev) : Dev :=
  let p := keepsTags np { eport d e with pce := np }
  if p.run.parked then putE e p d
  else
    let p := setClock d e { p with ef := p.ef || noBeat d p, pEn := p.pEn && np.push }
    putE e (if p.ef then p else showFront d p) d

/-- A new PCE at an egress port. -/
def applyEgress (e : Nat) (np : Pce) (d : Dev) : Dev :=
  let p := eport d e
  if p.pce.en && !np.en then closeEgress e np d
  else if !p.pce.en && np.en then openEgress e np d
  else if np.en then changeEgress e np d
  else putE e { p with pce := closingPce np p } d

/-- The ESB discards of an event, oldest first (R72, R81, R166). In FWFT mode the beat that comes to the front goes to
the pins (R122); a PARKED port holds its outputs (R143). -/
def applyCuts (e : Nat) (cuts : List (Nat × EsbCut)) (d : Dev) : Dev :=
  cuts.foldl (fun d c =>
    let p := cutEsb c.1 c.2 (queueOf d (c.1 % 4096)).owedEnd (eport d e)
    if p.run.parked then putE e p d
    else
      let p := { p with ef := p.ef || noBeat d p }
      putE e (if p.ef then p else showFront d p) d) d

/-- Arms the hand-over of a strapped pair (R148, R150) that is in bypass with both ports OPEN (R146). -/
def armPair (n : Nat) (d : Dev) : Dev :=
  let s := pairOf d n
  if !inBypass d n || !portOpen d n || !portOpen d (n + 2) then d
  else
    startTimer (.noClock n) (startTimer (.handover n)
      (putPair n { s with armed := true, idle := 0, pointB := false, trackAcc := 0, trackBeats := 0, trackTag := none } d))

/-- The egress port has opened behind the ingress port: the arming that came before it is issued again (R148). -/
def armOpened (n : Nat) (d : Dev) : Dev :=
  if inBypass d n && !(pairOf d n).armed && portOpen d n && portOpen d (n + 2) &&
      pairRuns (liveOf d n) (liveOf d (n + 2)) then issueEv n .arm d
  else d

/-- One internal event takes effect at its port (R167). -/
def applyEvent (k : Nat) (ev : PortEv) (d : Dev) : Dev :=
  match ev with
  | .commit pce remap _ =>
    if k < 2 then
      let p := match pce with
        | some np => applyIngress np (iport d k)
        | none => iport d k
      putI k (if remap then applyMap k d p else p) d
    else match pce with
      | some np => armOpened (k - 2) (applyEgress (k - 2) np d)
      | none => d
  | .arm => armPair (k % 2) d
  | .cut l => if k < 2 then d else applyCuts (k - 2) l d

/-- The oldest internal event under way takes effect at its port (R167, R168), at an edge of the port's clock. -/
def portEventEffect (k : Nat) (d : Dev) : Dev :=
  match evOf d k with
  | [] => d
  | ev :: rest => stallChecks (pumpFlags (applyEvent k ev (edgeSeen k (putEv k rest d))))

/-- PORT_EVENT_EFFECT. -/
def execPortEventEffect (port : Fin 4) (s : State) : Host.Outcome State Fault Refusal :=
  actBacklog (portEventEffect port.val) s

/-! ### Reopening (R144, R158, R169, R182) -/

/-- The egress side of a reopening: the pins follow the ESB again, and pulse pins are sampled anew (R144, R158). -/
def reopenEgress (e : Nat) (d : Dev) : Dev :=
  let p := eport d e
  let p := { p with rtPrev := none, mrkPrev := none, dropPrev := none, ef := noBeat d p }
  putE e (showFront d (setClock d e p)) d

/-- The first rising edge after PORT_UNPARK reopens the port (R144, R158, R169, R182). -/
def portReopen (k : Nat) (d : Dev) : Dev :=
  let r := runOf d k
  if !r.parked || !r.unparkPend then d
  else
    let d := putRun k { r with parked := false, unparkPend := false } d
    let d := if k < 2 then putI k { iport d k with flushPrev := none } d else reopenEgress (k - 2) d
    let n := k % 2
    stallChecks (refreshFlags (if (pairOf d n).armed then d else armPair n d))

/-- PORT_REOPEN. -/
def execPortReopen (port : Fin 4) (s : State) : Host.Outcome State Fault Refusal :=
  actBacklog (portReopen port.val) s

/-! ### Through-path (R148 to R151, R637, R651) -/

/-- The pair is handed over: switches open, E-side drivers on, capture from the next edge (R149). `level` is the level
of E_CLK then. PCE_S_TP_FORCED says whether this hand-over, the last, came without a hand-over point within 10,000
ticks: a later one that did not clears it (DESIGN CHOICE, log entry 90). -/
def handOver (n : Nat) (forced level : Bool) (d : Dev) : Dev :=
  let s := pairOf d n
  let d := stopTimer (.noClock n) (stopTimer (.handover n)
    (putPair n { s with armed := false, pointB := false, handed := true, idle := 0 } d))
  let p := iport d n
  let p := { p with tag := s.trackTag, tagQid := s.trackTag.bind fun t => tagLookup p.map n t
                    tagStamp := portStamp d n, flushPrev := none
                    run := { p.run with tpForced := forced } }
  let p := settleFf { p with known := isbCount p }
  let e := eport d n
  refreshFlags (putE n { e with
      hiZ := false, pEn := false, pEop := false, pTagv := false, eclk := .level level
      rtPrev := none, mrkPrev := none, dropPrev := none
      run := { e.run with tpForced := forced } } (putI n p d))

/-- HANDOVER: the low phase after edge B. -/
def execHandover (pair : Fin 2) (s : State) : Host.Outcome State Fault Refusal :=
  act (fun d => let p := pairOf d pair.val
    if p.armed && p.pointB then handOver pair.val false false d else d) s

/-- A hand-over without a hand-over point (R150): at once, with E_CLK at the level of I_CLK (a free bit: the command
carries no level), when no I_CLK edge has come within 16 ticks; else at a falling edge after 10,000. -/
def forceHandOver (n : Nat) (d : Dev) : Dev :=
  if !(pairOf d n).armed then d
  else if timerDue d (.noClock n) 16 then
    let f := takeFree d
    handOver n false (f.1.getLsbD 0) f.2
  else if timerDue d (.handover n) 10000 then handOver n true false d
  else d

/-- HANDOVER_FORCED: no hand-over point within 10,000 ticks, or no I_CLK edge within 16 (R150). -/
def execHandoverForced (pair : Fin 2) (s : State) : Host.Outcome State Fault Refusal := act (forceHandOver pair.val) s

/-- SWITCH_RETURN: the low phase after the hand-over point of R151. -/
def execSwitchReturn (pair : Fin 2) (s : State) : Host.Outcome State Fault Refusal :=
  act (fun d => let n := pair.val
    let p := pairOf d n
    if p.returning && p.pointB then
      putE n { eport d n with hiZ := true, pEn := false, eclk := .off }
        (putPair n { p with handed := false, returning := false, pointB := false, idle := 0 } d)
    else d) s

/-- TP_EN_CHANGE: the ball's level powers the series stage of its pair; the sampled strap is unchanged (R630,
R632, R651). -/
def execTpEnChange (pair : Fin 2) (level : Bool) (s : State) : Host.Outcome State Fault Refusal :=
  act (fun d => putPair pair.val { pairOf d pair.val with ball := level } d) s

end Sys2Proof.Machine
end

