-- ==== Sys2Proof/Machine/Rings.lean ====
section
/-!
DEFINITION. The commands of the rings and doorbells: creation and deletion, sweeps, descriptors, device
reads, drain transfers, completion messages, the count mirror's hold (R196 to R201, R234 to R270, R282,
R437 to R439).
-/

namespace Sys2Proof.Machine

/-! ### Peer queues behind a drain ring (R437 to R439) -/

/-- The drain minimum that an arming carries: RC_DRAIN_MIN rounded up to 64 bytes, in units of 64 bytes
(R417, R437). -/
def armMin (dmin : Nat) : Nat := min ((dmin + 63) / 64) 0xFFFFFF

/-- Arms drain-readiness of one binding to a peer queue (R437). The transfer tag is the ring number. -/
def armBind (b : BindEnt) (d : Dev) : Dev :=
  match tblFind d.rings.drains b.target with
  | some r =>
    if isLocal d b.qid || b.weight = 0 || (tblGet {} d.cas.peers (b.qid / 4096)).st ≠ .present then d
    else sendSeq (b.qid / 4096) 6
      (popReqPayload b.qid 0 b.target (armMin r.dmin) r.wait r.packed true false false) d
  | none => d

/-- Arms every binding of a drain ring to a peer queue. -/
def armRing (n : Nat) (d : Dev) : Dev :=
  (d.bind.drain.filter fun b => b.target = n).foldl (fun d b => armBind b d) d

/-- DONE or RETURN for a transfer (R439). -/
def endPeerXfer (qid tag : Nat) (done ret : Bool) (d : Dev) : Dev :=
  sendSeq (qid / 4096) 6 (popReqPayload qid 0 tag 0 0 false false done ret) d

/-- The waits of R262 on the local queues bound to a drain ring begin or end with the ring (log entry 94). -/
def ringWaits (n : Nat) (d : Dev) : Dev :=
  (d.bind.drain.filter fun b => b.target = n && isLocal d b.qid).foldl
    (fun d b => drainWaitCheck (b.qid % 4096) d) d

/-! ### Ring creation and deletion (R248 to R250) -/

/-- A ring base has the alignment of R248: the ring's size in bytes, or 4 KiB. -/
def baseOk (entry log2 base : Nat) : Bool := base % min (entry * 2 ^ log2) 4096 == 0

/-- The body of RING_CREATE. The failures are judged in the order in which R248 names them. -/
def ringCreate (c : AdmCmd) (_ : AdmRun) (d : Dev) : Dev × Option AdmRes :=
  let fl := c.flags.toNat
  let a0 := c.arg0.toNat
  let kind := bitsOf fl 0 2
  let id := bitsOf a0 0 6
  let log2 := bitsOf a0 8 8
  let cq := bitsOf a0 24 6
  let base := c.addr.toNat
  let gen := c.arg1.setWidth 16
  let a2 := c.arg2.toNat
  let inUse := match kind with
    | 0 => (tblFind d.rings.comps id).isSome
    | 1 => (tblFind d.rings.fills id).isSome
    | _ => (tblFind d.rings.drains id).isSome
  if kind = 3 then ends (failWith 0x02) d
  else if inUse then ends (failWith 0x03) d
  else if kind ≠ 0 && (tblFind d.rings.comps cq).isNone then ends (failWith 0x04) d
  else if log2 < 4 || 16 < log2 || !baseOk (if kind = 0 then 16 else 32) log2 base then ends (failWith 0x02) d
  else
    let d := match kind with
      | 0 =>
        let r : CompRing := { log2, base, gen, vector := bitsOf a0 16 5, irqEn := bitOf fl 3,
                              thr := max 1 (bitsOf a2 0 16), time := c.arg3.toNat }
        { d with rings.comps := tblPut d.rings.comps id r }
      | 1 => putFill id { log2, base, gen, cq, timeout := if a2 = 0 then 0 else max 640 a2 } d
      | _ => ringWaits id (armRing id (putDrain id
          { log2, base, gen, cq, packed := bitOf fl 2, wait := a2, dmin := c.arg3.toNat } d))
    ends (okWith 0 0) (activity d)

/-- RING_CREATE. -/
def execRingCreate (c : AdmCmd) (s : State) : Host.Outcome State Fault Refusal :=
  act (admin 0x01 c [] (ringCreate c)) s

/-- Outstanding reads of one purpose now bring data that nothing waits for. -/
def forsake (w : ReadFor) (d : Dev) : Dev :=
  { d with
    link.reads := (d.link.reads.filter fun r => r.what ≠ w || r.got.isNone).map fun r =>
      if r.what = w then { r with what := .gone } else r }

/-- A fill ring ceases to exist: its open packets are aborted, nothing is completed (R250, R213). -/
def dropFill (f : Nat) (d : Dev) : Dev :=
  let d := { stopTimer (.desc f) (forsake (.fillDesc f) (forsake (.fillData f) d)) with
             rings.fills := tblErase d.rings.fills f }
  forgetDiscards (.ring f) (abortOwned (.ring f) d)

/-- The items of an unfinished transfer of a local queue return to its head, with an ABORTED end that the
transfer had taken behind them (R213, R676). -/
def returnXfer (x : Xfer) (d : Dev) : Dev :=
  match x.remote with
  | some tag => endPeerXfer x.qid tag false true d
  | none =>
    let l := x.items.take (x.returns.getD x.items.length)
    onQueue (x.qid % 4096) (fun q =>
      let q := returnItems l q
      if x.aborted && x.returns.isNone then
        match l.getLast? with
        | some i => if i.aborted then q
          else { q with items := endAborted l ++ q.items.drop l.length }
        | none => { q with owedEnd := true }
      else q) d

/-- A drain ring ceases to exist: the items of its unfinished transfer return (R250, R213). -/
def dropDrain (n : Nat) (d : Dev) : Dev :=
  let x := (tblFind d.rings.drains n).bind (·.xfer)
  let d := ringWaits n { forsake (.drainDesc n) d with rings.drains := tblErase d.rings.drains n }
  match x with
  | some x => returnXfer x d
  | none => d

/-- A completion ring ceases to exist. -/
def dropComp (c : Nat) (d : Dev) : Dev :=
  { stopTimer (.irq c) d with rings.comps := tblErase d.rings.comps c }

/-- The body of RING_DELETE (R250). RESULT0 is RS_CONSUMED; of a completion ring, the entries its host has
consumed. -/
def ringDelete (c : AdmCmd) (_ : AdmRun) (d : Dev) : Dev × Option AdmRes :=
  let id := bitsOf c.arg0.toNat 0 6
  match bitsOf c.flags.toNat 0 2 with
  | 0 =>
    (match tblFind d.rings.comps id with
     | none => ends (failWith 0x04) d
     | some r =>
       if d.rings.fills.any (fun e => e.2.cq = id) || d.rings.drains.any (fun e => e.2.cq = id) then
         ends (failWith 0x03) d
       else ends (okWith r.head.toNat 0) (dropComp id d))
  | 1 =>
    (match tblFind d.rings.fills id with
     | none => ends (failWith 0x04) d
     | some r => ends (okWith r.consumed.toNat 0) (dropFill id d))
  | 2 =>
    (match tblFind d.rings.drains id with
     | none => ends (failWith 0x04) d
     | some r => ends (okWith r.consumed.toNat 0) (dropDrain id d))
  | _ => ends (failWith 0x02) d

/-- RING_DELETE. -/
def execRingDelete (c : AdmCmd) (s : State) : Host.Outcome State Fault Refusal :=
  act (admin 0x02 c [] (ringDelete c)) s

/-! ### Sweeps (R234 to R243) -/

/-- The sweep timer expires: a timed sweep, or one merged into a sweep that runs (R239, R241). -/
def sweepTimer (d : Dev) : Dev :=
  if timerDue d .sweep d.sweep.interval then
    let ran := d.sweep.running
    let d := triggerSweep true false (stopTimer .sweep d)
    if d.sweep.running && !ran then d else armSweep d
  else d

/-- SWEEP_TIMER_EXPIRY. -/
def execSweepTimerExpiry (s : State) : Host.Outcome State Fault Refusal := act sweepTimer s

/-- What a doorbell read means (R235, R236). -/
inductive DbSeen where
  | stale
  | same
  | overrun
  | moved (v : Word)
deriving DecidableEq, Repr

/-- Judges a doorbell: its generation for equality, then the advance against the room for it. -/
def judgeDb (gen : BitVec 16) (last : Word) (room : Nat) (w : DWord) : DbSeen :=
  if dbGen w ≠ gen then .stale
  else
    let adv := (dbIndex w - last).toNat
    if adv = 0 then .same else if room < adv then .overrun else .moved (dbIndex w)

/-- A stale doorbell is counted (R235). -/
def countStale (d : Dev) : Dev := { d with regs.sweepStale := sat16 d.regs.sweepStale 1 }

/-- Compares doorbell `i` with the last value seen; the Boolean says whether a change was found. A halted ring is live
and compared too; it only fetches nothing (R234, R236). -/
def seeDoorbell (i : Nat) (w : DWord) (x : Bool × Dev) : Bool × Dev :=
  let d := x.2
  let n := i % 64
  if i < 2 then
    if !d.adm.en && (i = 0 || (d.adm.run.isNone && d.adm.waiting.isNone)) then x
    else
      let room := if i = 0 then 2 ^ d.adm.sqLog2 - (d.adm.tail - d.adm.fetched).toNat
        else (d.adm.written - d.adm.head).toNat
      match judgeDb d.adm.gen (if i = 0 then d.adm.tail else d.adm.head) room w with
      | .stale => (x.1, countStale d)
      | .same => x
      | .overrun => (x.1, recordErr 0x73 3 (192 + i) { d with adm.halted := true })
      | .moved v => (true, if i = 0 then { d with adm.tail := v } else { d with adm.head := v })
  else if i < 64 then x
  else if i < 128 then
    match tblFind d.rings.fills n with
    | none => x
    | some r =>
      match judgeDb r.gen r.tail (2 ^ r.log2 - (r.tail - r.consumed).toNat) w with
        | .stale => (x.1, countStale d)
        | .same => x
        | .overrun => (x.1, recordErr 0x73 3 (64 + n) (putFill n { r with halted := true } d))
        | .moved v => (true, putFill n { r with tail := v } d)
  else if i < 192 then
    match tblFind d.rings.drains n with
    | none => x
    | some r =>
      match judgeDb r.gen r.tail (2 ^ r.log2 - (r.tail - r.consumed).toNat) w with
        | .stale => (x.1, countStale d)
        | .same => x
        | .overrun => (x.1, recordErr 0x73 3 (128 + n) (putDrain n { r with halted := true } d))
        | .moved v => (true, putDrain n { r with tail := v } d)
  else
    match tblFind d.rings.comps n with
    | none => x
    | some r =>
      match judgeDb r.gen r.head (r.written - r.head).toNat w with
        | .stale => (x.1, countStale d)
        | .same => x
        | .overrun => (x.1, recordErr 0x73 3 n { d with rings.comps := tblPut d.rings.comps n { r with halted := true } })
        | .moved v => (true, { d with rings.comps := tblPut d.rings.comps n { r with head := v } })

/-- Entries that waited for completion slots are written, and the rings move on. -/
def afterHeads (d : Dev) : Dev :=
  let d := d.rings.comps.foldl (fun d e => flushCe (e.2.waiting.length) e.1 d) d
  pump (fetchNext (flushAce d))

/-- A sweep is over: timer, interval and activity by R240 to R242, then the sweep that was merged (R239). -/
def endSweep (changed failed : Bool) (d : Dev) : Dev :=
  let sw := d.sweep
  let d := { d with sweep.running := false, sweep.timed := false, sweep.kicked := false }
  let d := if changed || sw.kicked then activity d
    else if sw.timed then
      armSweep (if failed then d
        else { d with sweep.interval := min (2 * d.sweep.interval) (sweepCeil d) })
    else d
  resumeSweep d

/-- The doorbell block has arrived whole: 256 doorbells, compared in ascending order (R234). -/
def sweepBlock (block : List DWord) (d : Dev) : Dev :=
  if !d.sweep.running then d
  else
    let d := dropReadsFor .doorbells d
    let x := (List.range 256).foldl (fun x i => seeDoorbell i (block.getD i 0) x) (false, d)
    let d := { x.2 with regs.sweepDone := sat16 x.2.regs.sweepDone 1 }
    afterHeads (endSweep x.1 false d)

/-- SWEEP. -/
def execSweep (block : List DWord) (s : State) : Host.Outcome State Fault Refusal := act (sweepBlock block) s

/-! ### Fill descriptors (R251 to R256, R264) -/

/-- Completes a fill descriptor that never became the one in progress; the timeout of one in progress runs on. -/
def refuseFill (f : Nat) (x : FillDesc) (status qid : Nat) (d : Dev) : Dev :=
  match tblFind d.rings.fills f with
  | none => d
  | some r =>
    let cnt := if status = 0x75 then { r.cnt with invalid := sat16 r.cnt.invalid 1 }
      else if status = 0x72 then { r.cnt with timeouts := sat16 r.cnt.timeouts 1 }
      else r.cnt
    let d := putFill f { r with arrived := r.arrived.drop 1, cnt } d
    let d := if r.cur.isNone then stopTimer (.desc f) d else d
    pump (armDesc f (postCe r.cq x.cookie.toNat (ceWord 0 status) (qid + f * 2 ^ 16) d))

/-- The queue of a descriptor takes it: valid, or on a node that is present (R255). -/
def fillQueueOk (d : Dev) (qid : Nat) : Bool :=
  if isLocal d qid then (queueOf d (qid % 4096)).cfg.valid
  else (tblGet {} d.cas.peers (qid / 4096)).st == .present

/-- The firmware checks the next fill descriptor that has arrived, at once (R264), and resolves it when it becomes the
one in progress. -/
def fillFetch (f : Nat) (d : Dev) : Dev :=
  match tblFind d.rings.fills f with
  | none => d
  | some r =>
    match r.arrived, r.cur with
    | bs :: _, none =>
      if !fwExec d || cqFull d r.cq then d
      else
        let x := parseFill bs
        if x.bad then refuseFill f x 0x02 0 d
        else if !fillQueueOk d x.qid then refuseFill f x 0x75 x.qid d
        else if x.len % ewBytes (ewOf d x.qid) ≠ 0 && !x.eop then refuseFill f x 0x02 x.qid d
        else
          let c : FillRun := { addr := x.addr, len := x.len, qid := x.qid, sop := x.sop, eop := x.eop,
                               cookie := x.cookie, stamp := d.epoch.seq }
          pumpFlags (armDesc f (putFill f { r with arrived := r.arrived.drop 1, cur := some c } d))
    | bs :: _, some _ =>
      if fwExec d && !cqFull d r.cq && (parseFill bs).bad then refuseFill f (parseFill bs) 0x02 0 d else d
    | [], _ => d

/-- FILL_DESCRIPTOR_FETCH. -/
def execFillDescriptorFetch (ring : BitVec 6) (s : State) : Host.Outcome State Fault Refusal :=
  act (fillFetch ring.toNat) s

/-- A fill descriptor has not completed in RC_TIMEOUT ticks (R268). -/
def descTimeout (f : Nat) (d : Dev) : Dev :=
  match tblFind d.rings.fills f with
  | none => d
  | some r =>
    if !timerDue d (.desc f) r.timeout then d
    else match r.cur, r.arrived with
      | some c, _ => finishFill f 0x72 false (abortRingOn f c.qid d)
      | none, bs :: _ =>
        let x := parseFill bs
        refuseFill f x 0x72 (if x.bad then 0 else x.qid) (if x.bad then d else abortRingOn f x.qid d)
      | none, [] => stopTimer (.desc f) d

/-- DESC_TIMEOUT. -/
def execDescTimeout (ring : BitVec 6) (s : State) : Host.Outcome State Fault Refusal :=
  act (descTimeout ring.toNat) s

/-! ### Device reads (R199, R200, R209, R210, R225) -/

/-- One descriptor of a ring could not be read: it completes with HOST_DMA_FAULT and cookie 0, and an open packet of a
fill ring is aborted. -/
def descLost (drain : Bool) (n : Nat) (d : Dev) : Dev :=
  let d := recordErr 0x74 3 ((if drain then 128 else 64) + n) d
  if drain then
    match tblFind d.rings.drains n with
    | none => d
    | some r => pump (postCe r.cq 0 (ceWord 0 0x74) (2 ^ 14 + n * 2 ^ 16) (putDrain n { r with
        consumed := r.consumed + 1, cnt := { r.cnt with dmaFaults := sat16 r.cnt.dmaFaults 1 } } d))
  else
    match tblFind d.rings.fills n with
    | none => d
    | some r => pump (armDesc n (postCe r.cq 0 (ceWord 0 0x74) (n * 2 ^ 16) (putFill n { r with
        consumed := r.consumed + 1, cnt := { r.cnt with dmaFaults := sat16 r.cnt.dmaFaults 1 } }
        (abortOwned (.ring n) d))))

/-- A device read fails with HOST_DMA_FAULT (R200). The other reads of a failed sweep stay outstanding, and what they
bring is not compared. -/
def readFailed (r : ReadReq) (d : Dev) : Dev :=
  match r.what with
  | .doorbells =>
    endSweep false true (recordErr 0x74 0 0 (dropRead r.tag (forsake .doorbells d)))
  | .admin =>
    let d := recordErr 0x74 3 192 (dropRead r.tag { d with adm.fetch := none, adm.fetched := d.adm.fetched + 1 })
    let x := takeFree d
    { x.2 with adm.run := some (unreadRun x.1) }
  | .fillDesc f => descLost false f (dropRead r.tag d)
  | .drainDesc n => descLost true n (dropRead r.tag d)
  | .fillData f =>
    finishFill f 0x74 false (abortOwned (.ring f) (recordErr 0x74 3 (64 + f) (dropRead r.tag d)))
  | .late _ => dropRead r.tag d
  | .gone => dropRead r.tag d

/-- Hands the data of a descriptor on in the order of its addresses, as far as it has arrived. -/
def deliverFill : Nat → Nat → Dev → Dev
  | 0, _, d => d
  | n + 1, f, d =>
    match d.link.reads.find? fun r => r.what = .fillData f with
    | none => d
    | some r =>
      match r.got with
      | none => d
      | some bs =>
        let d := { d with link.reads := d.link.reads.filter fun x => x.tag ≠ r.tag }
        match tblFind d.rings.fills f with
        | none => deliverFill n f d
        | some g => deliverFill n f (putFill f { g with cur := g.cur.map fun c => { c with data := c.data ++ bs } } d)

/-- Data of an outstanding read arrives. The doorbells take theirs with the sweep, an admin command with its
own row. -/
def readArrived (r : ReadReq) (data : Bytes) (d : Dev) : Dev :=
  let bs := sliceBytes data 0 r.len
  match r.what with
  | .doorbells => dropRead r.tag d
  | .admin => d
  | .fillDesc f =>
    let d := dropRead r.tag d
    (match tblFind d.rings.fills f with
     | none => d
     | some g => pump (armDesc f (putFill f { g with arrived := g.arrived ++ [bs], consumed := g.consumed + 1 } d)))
  | .drainDesc n =>
    let d := dropRead r.tag d
    (match tblFind d.rings.drains n with
     | none => d
     | some g => pump (putDrain n { g with arrived := g.arrived ++ [bs], consumed := g.consumed + 1 } d))
  | .fillData f =>
    let d := stopTimer (.read r.tag) { d with
      link.reads := d.link.reads.map fun x => if x.tag = r.tag then { x with got := some bs } else x }
    pump (deliverFill 32 f d)
  | .late cookie => pump (lateSuccess 0 0 cookie (dropRead r.tag d))
  | .gone => pump (dropRead r.tag d)

/-- An outstanding read by its tag, not yet completed. -/
def readOf (d : Dev) (tag : Nat) : Option ReadReq := d.link.reads.find? fun r => r.tag = tag && r.got.isNone

/-- What follows a read that is over: there is room for the sweep that waits, for the rings and for the next command
(R196, R239). -/
def afterRead (d : Dev) : Dev := refreshFlags (fetchNext (pump (resumeSweep d)))

/-- A completion for a device read arrives (R200, R209, R210); one that matches no request is discarded
(R225). -/
def readCompletion (tag : Nat) (st : CplStatus) (data : Bytes) (d : Dev) : Dev :=
  if !d.link.up || d.pwr.perst then d
  else match readOf d tag with
    | none => aerSet .unexpectedCompletion d
    | some r =>
      afterRead (match st with
        | .ok => readArrived r data d
        | .unsupported => readFailed r { d with link.masterAbort := true }
        | .completerAbort => readFailed r { d with link.targetAbort := true }
        | .poisoned => readFailed r (aerSet .poisonedTlp d))

/-- DMA_READ_COMPLETION. -/
def execDmaReadCompletion (tag : Nat) (status : CplStatus) (data : Bytes) (s : State) :
    Host.Outcome State Fault Refusal := act (readCompletion tag status data) s

/-- The Completion Timeout in ticks (R199); at least 160 µs at 2.5 GT/s (R566). -/
def ctoTicks (d : Dev) : Nat :=
  let t := match d.link.ctoVal.toNat with
    | 1 => 80
    | 2 => 5000
    | 5 => 30000
    | 6 => 120000
    | _ => 30000
  if d.link.rate = .gt25 then max 160 t else t

/-- A device read has not completed in time (R199, R209). -/
def completionTimeout (tag : Nat) (d : Dev) : Dev :=
  match readOf d tag with
  | none => d
  | some r =>
    if d.link.ctoDis || !timerDue d (.read tag) (ctoTicks d) then d
    else afterRead (readFailed r (aerSet .completionTimeout d))

/-- COMPLETION_TIMEOUT. -/
def execCompletionTimeout (tag : Nat) (s : State) : Host.Outcome State Fault Refusal :=
  act (completionTimeout tag) s

/-! ### Drain rings (R259 to R267) -/

/-- The firmware checks the next drain descriptor that has arrived (R264). -/
def drainFetch (n : Nat) (d : Dev) : Dev :=
  match tblFind d.rings.drains n with
  | none => d
  | some r =>
    match r.arrived with
    | [] => d
    | bs :: rest =>
      if !fwExec d || cqFull d r.cq then d
      else
        let x := parseDrain bs
        if x.2 then
          pump (postCe r.cq x.1.cookie.toNat (ceWord 0 0x02) (2 ^ 14 + n * 2 ^ 16)
            (putDrain n { r with arrived := rest } d))
        else pump (putDrain n { r with arrived := rest, bufs := r.bufs ++ [x.1] } d)

/-- DRAIN_DESCRIPTOR_FETCH. -/
def execDrainDescriptorFetch (ring : BitVec 6) (s : State) : Host.Outcome State Fault Refusal :=
  act (drainFetch ring.toNat) s

/-- A drain ring grants its next buffer (R260, R261, R438), unless the fence of a commit stands on it (R302). -/
def drainGrant (n : Nat) (d : Dev) : Dev :=
  match tblFind d.rings.drains n with
  | none => d
  | some r =>
    match r.bufs, r.xfer with
    | buf :: _, none =>
      if !dmaAllowed d || !fwRunning d || cqFull d r.cq || n ∈ d.epoch.fencedRings then d
      else match arbNext (d.bind.drain.filter fun b => b.target = n) r.arbB r.arbG (bindReady d r) with
        | none => d
        | some (b, ab, ag) =>
          let loc := isLocal d b.qid
          let x : Xfer := { qid := b.qid, buf, ew := ewOf d b.qid,
                            remote := if loc then none else some n }
          let d := putDrain n { r with xfer := some x, arbB := ab, arbG := ag, ready := r.ready.filter (· ≠ b.qid) } d
          if loc then startWork d
          else sendSeq (b.qid / 4096) 6
            (popReqPayload b.qid buf.len n 0 0 r.packed false false false) (startWork d)
    | _, _ => d

/-- DRAIN_GRANT. -/
def execDrainGrant (ring : BitVec 6) (s : State) : Host.Outcome State Fault Refusal :=
  act (drainGrant ring.toNat) s

/-- An item has been available for RC_DRAIN_WAIT ticks (R262). -/
def drainWaitExpiry (qid : Nat) (d : Dev) : Dev :=
  if timerDue d (.drainWait qid) (drainWaitOf d qid) then
    readyCheck qid (stopTimer (.drainWait qid) (onQueue qid (fun q => { q with waited := true }) d))
  else d

/-- DRAIN_WAIT_EXPIRY. -/
def execDrainWaitExpiry (qid : BitVec 12) (s : State) : Host.Outcome State Fault Refusal :=
  act (drainWaitExpiry qid.toNat) s

/-- Flags of a drain completion above CE_RING: EOP, SOP, ABORTED, CT_UNDERRUN, RAGGED, DAMAGED (R266). -/
def xferFlags (x : Xfer) : Nat :=
  match x.remote with
  | some _ =>
    let f := x.remoteFlags.toNat
    flagAt (bitOf f 1) 22 + flagAt (bitOf f 0) 23 + flagAt (bitOf f 2) 24 + flagAt (bitOf f 3) 25 +
      flagAt (bitOf f 4) 26 + flagAt (bitOf f 5) 27
  | none =>
    let last := x.items.getLast?
    flagAt ((last.map (·.bound)).getD false) 22 + flagAt ((x.items.head?.map (·.first)).getD false) 23 +
      flagAt x.aborted 24 + flagAt x.ctUnderrun 25 + flagAt ((last.map (·.ragged)).getD false) 26 +
      flagAt (x.items.any (·.damaged)) 27

/-- The bytes of a transfer. -/
def xferBytes (d : Dev) (x : Xfer) : Bytes :=
  match x.remote with
  | some _ => x.bytes
  | none => streamBytes { (queueOf d (x.qid % 4096)).cfg with ew := x.ew } x.items

/-- A transfer has ended: its data writes, then its completion (R197, R263, R267, R286). In L1.2 the device asks for
the link first (R205), and the transfer stays unfinished until then (R213). -/
def drainEnd (n : Nat) (d : Dev) : Dev :=
  match tblFind d.rings.drains n with
  | none => d
  | some r =>
    match r.xfer with
    | none => d
    | some x =>
      if !x.ended || !dmaAllowed d || cqFull d r.cq then d
      else if !canIssue d then { d with link.clkreq := true }
      else
        let bs := xferBytes d x
        let d := memWrite x.buf.addr bs true d
        let d := putDrain n { r with xfer := none, bufs := r.bufs.drop 1 } d
        let d := postCe r.cq x.buf.cookie.toNat (ceWord bs.length x.status.toNat)
          (x.qid + 2 ^ 14 + n * 2 ^ 16 + xferFlags x) d
        let d := match x.remote with
          | some tag =>
            let d := endPeerXfer x.qid tag true false d
            (match d.bind.drain.find? fun b => b.target = n && b.qid = x.qid with
             | some b => armBind b d
             | none => d)
          | none => releaseUnused (x.qid % 4096) d
        pump d

/-- DRAIN_TRANSFER_END. -/
def execDrainTransferEnd (ring : BitVec 6) (s : State) : Host.Outcome State Fault Refusal :=
  act (drainEnd ring.toNat) s

/-! ### Messages and the mirror -/

/-- RC_IRQ_TIME has passed since the first unreported entry (R247). -/
def irqTimer (c : Nat) (d : Dev) : Dev :=
  match tblFind d.rings.comps c with
  | none => d
  | some r =>
    if timerDue d (.irq c) r.time then
      msix r.vector (stopTimer (.irq c) { d with rings.comps := tblPut d.rings.comps c { r with unreported := 0 } })
    else d

/-- COMPLETION_IRQ_TIMER. -/
def execCompletionIrqTimer (ring : BitVec 6) (s : State) : Host.Outcome State Fault Refusal :=
  act (irqTimer ring.toNat) s

/-- HIF_MIRROR_HOLD has passed for an entry whose counts changed (R282). -/
def mirrorHold (qid : Nat) (d : Dev) : Dev :=
  if (queueOf d qid).mirrorHeld && timerDue d (.mirror qid) d.regs.mirrorHold && mirrorOn d then
    if (queueOf d qid).eor = (queueOf d qid).mirror then onQueue qid (fun q => { q with mirrorHeld := false }) d
    else mirrorWrite qid d
  else d

/-- MIRROR_HOLD_EXPIRY. -/
def execMirrorHoldExpiry (qid : BitVec 12) (s : State) : Host.Outcome State Fault Refusal :=
  act (mirrorHold qid.toNat) s

end Sys2Proof.Machine
end

