-- ==== Sys2Proof/Machine/AdminCmds.lean ====
section
/-!
DEFINITION. The admin commands on queues, ports, rings and the log, the end of a command by its timer, and
the enables of the admin pair and of the count mirror (R53, R70 to R91, R144, R227 to R231, R273, R277,
R278, R283, R447 to R449, R565, R603, R605).
-/

namespace Sys2Proof.Machine

/-! ### Queue control (R53, R70, R75, R79, R81) -/

/-- Latches a control request of the admin ring at a queue; the round that serves it ends the command. -/
def queueCtl (f : Ctl → Ctl) (c : AdmCmd) (r : AdmRun) (d : Dev) : Dev × Option AdmRes :=
  let qid := bitsOf c.arg0.toNat 0 12
  let q := queueOf d qid
  if !q.cfg.valid then ends (failWith 0x75) d
  else runsOn r (.round qid) (putQueue qid { q with ctl := f q.ctl } d)

/-- The body of QUEUE_FLUSH. -/
def flushBody (c : AdmCmd) : AdmRun → Dev → Dev × Option AdmRes :=
  queueCtl (fun x => { x with flush := x.flush ++ [.admin] }) c

/-- QUEUE_FLUSH. -/
def execQueueFlush (c : AdmCmd) (s : State) : Host.Outcome State Fault Refusal :=
  act (admin 0x20 c [] (flushBody c)) s

/-- The body of QUEUE_DROP_PACKET. -/
def dropBody (c : AdmCmd) : AdmRun → Dev → Dev × Option AdmRes :=
  queueCtl (fun x => { x with drop := x.drop ++ [.admin] }) c

/-- QUEUE_DROP_PACKET. -/
def execQueueDropPacket (c : AdmCmd) (s : State) : Host.Outcome State Fault Refusal :=
  act (admin 0x21 c [] (dropBody c)) s

/-- The body of QUEUE_MARK; AC_FLAGS[0] releases the mark (R80). -/
def markBody (c : AdmCmd) : AdmRun → Dev → Dev × Option AdmRes :=
  queueCtl (fun x => if c.flags.getLsbD 0 then { x with release := x.release ++ [.admin] }
    else { x with mark := x.mark ++ [.admin] }) c

/-- QUEUE_MARK. -/
def execQueueMark (c : AdmCmd) (s : State) : Host.Outcome State Fault Refusal :=
  act (admin 0x22 c [] (markBody c)) s

/-- The body of QUEUE_RETRANSMIT. -/
def rtxBody (c : AdmCmd) : AdmRun → Dev → Dev × Option AdmRes :=
  queueCtl (fun x => { x with rtx := x.rtx ++ [.admin] }) c

/-- QUEUE_RETRANSMIT. -/
def execQueueRetransmit (c : AdmCmd) (s : State) : Host.Outcome State Fault Refusal :=
  act (admin 0x23 c [] (rtxBody c)) s

/-! ### Counters (R91, R153, R277) -/

/-- The 16-byte ring record (R277). -/
def ringBytes (n : RingCnt) (consumed : Word) (halted stalled : Bool) : Bytes :=
  natLe 4 (n.stragglers + n.invalid * 2 ^ 16) ++ natLe 4 (n.timeouts + n.dmaFaults * 2 ^ 16) ++
    natLe 4 consumed.toNat ++ natLe 4 (flagAt halted 0 + flagAt stalled 1)

/-- The ring form: the record, and the device with the counters cleared if asked. -/
def ringRecord (kind id : Nat) (clear : Bool) (d : Dev) : Option (Bytes × Dev) :=
  match kind with
  | 0 => (tblFind d.rings.comps id).map fun r => (ringBytes {} r.head r.halted (compFull r), d)
  | 1 => (tblFind d.rings.fills id).map fun r =>
      (ringBytes r.cnt r.consumed r.halted (cqFull d r.cq), if clear then putFill id { r with cnt := {} } d else d)
  | 2 => (tblFind d.rings.drains id).map fun r =>
      (ringBytes r.cnt r.consumed r.halted (cqFull d r.cq), if clear then putDrain id { r with cnt := {} } d else d)
  | _ => none

/-- The port form: the live PCE, cleared of its counters if asked, in one step (R153). -/
def portRecord (k : Nat) (clear : Bool) (d : Dev) : Bytes × Dev :=
  let r := runOf d k
  (pceBytes (liveOf d k) r (inBypass d (k % 2)),
   if clear then putRun k { r with stragglers := 0, unmapped := 0, ovf := 0, tagErr := 0, merges := 0, parks := 0,
                                   tpForced := false } d else d)

/-- The body of QUEUE_READ_COUNTERS. The queue form is served by a round of the queue, valid or not (R53,
R91). -/
def countersBody (c : AdmCmd) (r : AdmRun) (d : Dev) : Dev × Option AdmRes :=
  let clear := c.flags.getLsbD 0
  let a0 := c.arg0.toNat
  let addr := c.addr.toNat
  match bitsOf c.flags.toNat 1 2 with
  | 0 =>
    let qid := bitsOf a0 0 12
    runsOn r (.round qid) (onQueue qid (fun q => { q with ctl := { q.ctl with read := some (addr, clear) } }) d)
  | 1 =>
    if 3 < a0 then ends (failWith 0x02) d
    else
      let x := portRecord a0 clear d
      ends { status := 0, record := some (addr, x.1) } x.2
  | 2 =>
    if 3 ≤ bitsOf a0 6 2 then ends (failWith 0x02) d
    else match ringRecord (bitsOf a0 6 2) (bitsOf a0 0 6) clear d with
      | none => ends (failWith 0x04) d
      | some x => ends { status := 0, record := some (addr, x.1) } x.2
  | _ => ends (failWith 0x02) d

/-- QUEUE_READ_COUNTERS. -/
def execQueueReadCounters (c : AdmCmd) (s : State) : Host.Outcome State Fault Refusal :=
  act (admin 0x24 c [] (countersBody c)) s

/-- The body of PORT_UNPARK (R144). -/
def unparkBody (c : AdmCmd) (_ : AdmRun) (d : Dev) : Dev × Option AdmRes :=
  let k := bitsOf c.arg0.toNat 0 2
  let r := runOf d k
  if r.parked then ends (okWith 0 0) (putRun k { r with unparkPend := true } d) else ends (failWith 0x64) d

/-- PORT_UNPARK. -/
def execPortUnpark (c : AdmCmd) (s : State) : Host.Outcome State Fault Refusal :=
  act (admin 0x25 c [] (unparkBody c)) s

/-! ### Log (R565) -/

/-- The records LOG_READ writes: from a sequence number on, at most `n`. -/
def logFrom (first n : Nat) (l : List LogRec) : List LogRec := (l.filter fun r => first ≤ r.seq).take n

/-- The body of LOG_READ. -/
def logBody (c : AdmCmd) (_ : AdmRun) (d : Dev) : Dev × Option AdmRes :=
  if c.len.toNat < 32 then ends (failWith 0x02) d
  else
    let l := logFrom c.arg0.toNat (c.len.toNat / 32) d.err.log
    let next := match l.getLast? with
      | some r => (r.seq + 1) % 2 ^ 32
      | none => d.err.logSeq
    ends { status := 0, r0 := l.length, r1 := next,
           record := if l.isEmpty then none else some (c.addr.toNat, l.flatMap logBytes) } d

/-- LOG_READ. -/
def execLogRead (c : AdmCmd) (s : State) : Host.Outcome State Fault Refusal :=
  act (admin 0x70 c [] (logBody c)) s

/-! ### Commands without a body here (R273, R446, R447) -/

/-- The opcodes of R274. -/
def opcodes : List Nat :=
  [0x01, 0x02, 0x10, 0x11, 0x12, 0x18, 0x19, 0x1A, 0x20, 0x21, 0x22, 0x23, 0x24, 0x25, 0x30, 0x31, 0x40, 0x41,
   0x42, 0x50, 0x51, 0x52, 0x60, 0x61, 0x70]

/-- The body of an unknown opcode (R273). -/
def invalidBody (_ : AdmRun) (d : Dev) : Dev × Option AdmRes := ends (failWith 0x01) d

/-- A command with an opcode that R274 does not list; it is refused before its other fields are looked at. -/
def invalidOpcode (op : Nat) (c : AdmCmd) (d : Dev) : Dev :=
  if op ∈ opcodes then d
  else admin op { c with flags := 0, addr := 0, len := 0 } [] invalidBody d

/-- INVALID_OPCODE. -/
def execInvalidOpcode (opcode : BitVec 8) (c : AdmCmd) (s : State) : Host.Outcome State Fault Refusal :=
  act (invalidOpcode opcode.toNat c) s

/-- Node 0 relays a command for another node (R447); a command for the own node is none of this row. -/
def relayedCommand (op : Nat) (c : AdmCmd) (buf : Bytes) (d : Dev) : Dev :=
  if op ∈ opcodes && targetNode op c ≠ some (ownNode d) then admin op c buf invalidBody d else d

/-- RELAYED_ADMIN_COMMAND. -/
def execRelayedAdminCommand (opcode : BitVec 8) (c : AdmCmd) (buf : Bytes) (s : State) :
    Host.Outcome State Fault Refusal := act (relayedCommand opcode.toNat c buf) s

/-! ### Abandoned commands (R213, R278, R449) -/

/-- Takes back a control request of the admin ring. -/
def unlatch (c : Ctl) : Ctl :=
  { c with flush := c.flush.filter (· ≠ .admin), rtx := c.rtx.filter (· ≠ .admin), mark := c.mark.filter (· ≠ .admin),
           release := c.release.filter (· ≠ .admin), drop := c.drop.filter (· ≠ .admin), read := none }

/-- Undoes what an abandoned command had begun: its latched request, the fence of a commit before its
instant, the fence of an erase before its effect. -/
def abandon (k : RunKind) (d : Dev) : Dev :=
  match k with
  | .round qid => onQueue qid (fun q => { q with ctl := unlatch q.ctl }) d
  | .commit => { d with
    epoch.fence := false, epoch.fenced := [], epoch.fencedPorts := [], epoch.fencedRings := [], epoch.taken := none
    epoch.during := {} }
  | .erase _ => { d with epoch.eraseFence := none }
  | .relay node tag _ =>
    sendSeq node 9 (cmdPayload tag true []) d
  | _ => d

/-- HIF_ADMIN_TIMEOUT expires (R278, R449); a command that is still being read is not known yet (log entry 28). -/
def adminTimeout (d : Dev) : Dev :=
  if !timerDue d .admin d.regs.adminTimeout then d
  else match d.adm.run with
    | none => match d.adm.fetch with
      | none => d
      | some _ =>
        let x := takeFree (forsake .admin { d with adm.fetch := none, adm.fetched := d.adm.fetched + 1 })
        deliver (unreadRun x.1) (failWith 0x07) x.2
    | some r =>
      match r.kind with
      | .sealing => d
      | .relayFw => d
      | .relay node tag sent =>
        if hasInstant r.opcode then
          if sent then d
          else
            let d := abandon r.kind (stopTimer .admin d)
            { d with adm.run := some { r with kind := .relay node tag true } }
        else deliver r (failWith 0x07) (abandon r.kind { d with adm.run := none })
      | k => deliver r (failWith 0x07) (abandon k { d with adm.run := none })

/-- ADMIN_TIMEOUT. -/
def execAdminTimeout (s : State) : Host.Outcome State Fault Refusal := act adminTimeout s

/-! ### Enables (R227 to R231, R283, R603, R605) -/

/-- The low 12 bits of a base count as 0 (R228). -/
def pageOf (b : DWord) : Nat := b.toNat / 4096 * 4096

/-- The enabling write of HIF_ADM_EN. Before firmware runs, its activity takes effect when it does (R230). -/
def adminEnable (d : Dev) : Dev :=
  if d.adm.en then d
  else if d.regs.sqLog2 < 4 || 16 < d.regs.sqLog2 || d.regs.cqLog2 < 4 || 16 < d.regs.cqLog2 then
    { d with adm.cfgErr := true }
  else
    let a := { d.adm with
      en := true, halted := false, cfgErr := false
      sqBase := pageOf d.regs.sqBase, cqBase := pageOf d.regs.cqBase
      sqLog2 := d.regs.sqLog2, cqLog2 := d.regs.cqLog2, gen := d.regs.admGen
      dbBase := pageOf d.regs.dbBase, mirrorBase := pageOf d.regs.mirrorBase
      tail := 0, head := 0, fetched := 0, written := 0, phase := true }
    let d := { d with adm := a }
    mirrorFull (if fwRunning d then activity d else d)

/-- ADMIN_ENABLE: a write of 1 to HIF_ADM_EN by the host. -/
def execAdminEnable (s : State) : Host.Outcome State Fault Refusal :=
  act (fun d => if hostReach d then adminEnable d else d) s

/-- A write of 0 to HIF_ADM_EN: the command in execution goes on, a fetch under way is dropped (R231). -/
def adminDisable (d : Dev) : Dev :=
  let d := { d with adm.en := false, adm.halted := false, adm.mirrorOwed := false }
  match d.adm.fetch with
  | some _ => stopTimer .admin (forsake .admin { d with adm.fetch := none })
  | none => d

/-- ADMIN_DISABLE. -/
def execAdminDisable (s : State) : Host.Outcome State Fault Refusal :=
  act (fun d => if hostReach d then adminDisable d else d) s

/-- HIF_MIRROR_EN takes a value (R283, R605). -/
def setMirrorEn (v : Bool) (d : Dev) : Dev :=
  if v && !d.regs.mirrorEn then mirrorFull { d with regs.mirrorEn := true }
  else { d with regs.mirrorEn := v, adm.mirrorOwed := d.adm.mirrorOwed && v }

/-- HIF_MIRROR_EN_WRITE. -/
def execHifMirrorEnWrite (v : Bool) (s : State) : Host.Outcome State Fault Refusal :=
  act (fun d => if hostReach d then setMirrorEn v d else d) s

end Sys2Proof.Machine
end

