-- ==== Sys2Proof/Machine/Epoch.lean ====
section
/-!
DEFINITION. Staging, the check, the commit and its instant (R15, R87, R287 to R310, R316 to R319, R326, R679).
-/

namespace Sys2Proof.Machine

/-! ### Staging (R287 to R292, R309) -/

/-- A change of the staging area. While a commit runs, what it brings stays for the following commit (R15). -/
def staged (f : Stage → Stage) (d : Dev) : Dev :=
  { d with stage := f d.stage, epoch.during := if d.epoch.taken.isSome then f d.epoch.during else d.epoch.during }

/-- Stages consecutive QTEs. -/
def stageQtes (first : Nat) : List QCfg → Tbl QCfg → Tbl QCfg
  | [], t => t
  | c :: cs, t => stageQtes (first + 1) cs (tblPut t first c)

/-- The body of STAGE_QUEUES. -/
def stageQueues (c : AdmCmd) (buf : Bytes) (_ : AdmRun) (d : Dev) : Dev × Option AdmRes :=
  let first := bitsOf c.arg0.toNat 0 12
  let n := c.arg1.toNat
  if n = 0 || 1024 < n || 4096 < first + n || c.len.toNat ≠ n * 64 then ends (failWith 0x02) d
  else
    let l := (List.range n).map fun i => parseQte (sliceBytes buf (64 * i) 64)
    let t := stageQtes first l d.stage.qtes
    if 1024 < t.length then ends (failWith 0x09) d
    else ends (okWith t.length 0) (staged (fun s => { s with qtes := stageQtes first l s.qtes }) d)

/-- STAGE_QUEUES. -/
def execStageQueues (c : AdmCmd) (buf : Bytes) (s : State) : Host.Outcome State Fault Refusal :=
  act (admin 0x10 c buf (stageQueues c buf)) s

/-- The body of STAGE_PORTS. -/
def stagePorts (c : AdmCmd) (buf : Bytes) (_ : AdmRun) (d : Dev) : Dev × Option AdmRes :=
  let mask := bitsOf c.arg0.toNat 0 4
  let ports := (List.range 4).filter fun k => bitOf mask k
  if mask = 0 || c.len.toNat ≠ 32 * ports.length then ends (failWith 0x02) d
  else ends (okWith 0 0) (staged (fun s => { s with
    pces := ports.zipIdx.foldl (fun t p => tblPut t p.1 (parsePce (sliceBytes buf (32 * p.2) 32))) s.pces }) d)

/-- STAGE_PORTS. -/
def execStagePorts (c : AdmCmd) (buf : Bytes) (s : State) : Host.Outcome State Fault Refusal :=
  act (admin 0x11 c buf (stagePorts c buf)) s

/-- Key of a tag map entry, and its place in a tag map. -/
def tagKey (t : TagEnt) : Nat := t.port * 4096 + t.tag

/-- Puts a tag map entry in its place. -/
def putTag (t : TagEnt) (l : List TagEnt) : List TagEnt :=
  l.filter (fun x => tagKey x < tagKey t) ++ [t] ++ l.filter (fun x => tagKey t < tagKey x)

/-- Key of an egress or drain binding. -/
def bindKey (b : BindEnt) : Nat := b.target * 256 + b.index

/-- Puts a binding in its place. -/
def putBind (b : BindEnt) (l : List BindEnt) : List BindEnt :=
  l.filter (fun x => bindKey x < bindKey b) ++ [b] ++ l.filter (fun x => bindKey b < bindKey x)

/-- An egress or drain entry as a binding. -/
def bindEnt (w : BindWord) : BindEnt :=
  { target := w.target, index := w.index, qid := w.qid, tag := w.tag, weight := w.weight }

/-- Applies one entry (R276, R290); none when it would exceed a capacity (R291). -/
def applyEntry (b : Bindings) (w : BindWord) : Option Bindings :=
  if w.kind = 1 then
    let t : TagEnt := { port := w.target, tag := w.tag, qid := w.qid }
    if w.remove then some { b with tags := b.tags.filter fun x => tagKey x ≠ tagKey t }
    else
      let l := putTag t b.tags
      if 256 < (l.filter fun x => x.port = w.target).length then none else some { b with tags := l }
  else if w.kind = 2 then
    if w.remove then some { b with egress := b.egress.filter fun x => bindKey x ≠ bindKey (bindEnt w) }
    else
      let l := putBind (bindEnt w) b.egress
      if 256 < (l.filter fun x => x.target = w.target).length then none else some { b with egress := l }
  else
    if w.remove then some { b with drain := b.drain.filter fun x => bindKey x ≠ bindKey (bindEnt w) }
    else
      let l := putBind (bindEnt w) b.drain
      if 1024 < l.length then none else some { b with drain := l }

/-- Applies entries in command order; the first that fails gives its code and its index (R291, R292).
`have_` entries were received before this command. -/
def applyEntries (have_ : Nat) : Nat → List BindWord → Bindings → Bindings ⊕ (Nat × Nat)
  | _, [], b => .inl b
  | i, w :: ws, b =>
    if w.rsvd || w.kind = 0 || 3 < w.kind then .inr (0x02, i)
    else if 16384 ≤ have_ + i then .inr (0x09, i)
    else match applyEntry b w with
      | none => .inr (0x09, i)
      | some b' => applyEntries have_ (i + 1) ws b'

/-- Entries of a staged binding copy. -/
def bindCount (b : Bindings) : Nat := b.tags.length + b.egress.length + b.drain.length

/-- The body of STAGE_BINDINGS: whole or not at all. -/
def stageBindings (c : AdmCmd) (buf : Bytes) (_ : AdmRun) (d : Dev) : Dev × Option AdmRes :=
  let n := c.arg1.toNat
  if n = 0 || 2048 < n || c.len.toNat ≠ 8 * n then ends (failWith 0x02) d
  else
    let ws := parseBinds (sliceBytes buf 0 (8 * n)) n
    match applyEntries d.stage.entries.length 0 ws (d.stage.bind.getD d.bind) with
    | .inr (code, i) => ends { status := code, r0 := i } d
    | .inl b => ends (okWith (bindCount b) 0)
        (staged (fun s => { s with bind := some b, entries := s.entries ++ ws }) d)

/-- STAGE_BINDINGS. -/
def execStageBindings (c : AdmCmd) (buf : Bytes) (s : State) : Host.Outcome State Fault Refusal :=
  act (admin 0x12 c buf (stageBindings c buf)) s

/-- The body of EPOCH_DISCARD (R309). -/
def discardBody (_ : AdmRun) (d : Dev) : Dev × Option AdmRes := ends (okWith 0 0) (staged (fun _ => {}) d)

/-- EPOCH_DISCARD. -/
def execEpochDiscard (c : AdmCmd) (s : State) : Host.Outcome State Fault Refusal :=
  act (admin 0x1A c [] discardBody) s

/-! ### The check (R295 to R300) -/

/-- What a check judges: the objects under the object rules, and the resulting set. -/
structure CheckSet where
  /-- QTEs judged, ascending. -/
  qids : List Nat
  /-- QTEs of the resulting set that may differ from the live ones. -/
  qtes : Tbl QCfg
  /-- PCEs judged, ascending, and those that may differ from the live ones. -/
  ports : List Nat
  pces : Tbl Pce
  bind : Bindings
  /-- Binding entries judged, with their index. -/
  added : List (Nat × BindWord)
  /-- Element widths that peers answered (R300). -/
  ew : List (Nat × BitVec 2)
  /-- The check of epoch 0 (R321): the restored format is the stored one. -/
  boot : Bool := false

/-- Two entries have one key (R276). -/
def sameKey (a b : BindWord) : Bool :=
  a.kind = b.kind && a.target = b.target && (if a.kind = 1 then a.tag = b.tag else a.index = b.index)

/-- Entries added or replaced and still there, with their index (R292, R296). -/
def addedEntries : Nat → List BindWord → List (Nat × BindWord)
  | _, [] => []
  | i, w :: ws =>
    if w.remove || ws.any (sameKey w) then addedEntries (i + 1) ws else (i, w) :: addedEntries (i + 1) ws

/-- The set a staging area gives. -/
def stagedSet (d : Dev) (st : Stage) (ew : List (Nat × BitVec 2)) : CheckSet :=
  { qids := tblKeys st.qtes, qtes := st.qtes, ports := tblKeys st.pces, pces := st.pces
    bind := st.bind.getD d.bind, added := addedEntries 0 st.entries, ew }

/-- A QTE of the resulting set. -/
def resQ (d : Dev) (c : CheckSet) (qid : Nat) : QCfg := (tblFind c.qtes qid).getD (queueOf d qid).cfg

/-- A PCE of the resulting set. -/
def resP (d : Dev) (c : CheckSet) (k : Nat) : Pce := (tblFind c.pces k).getD (liveOf d k)

/-- A node is present (R297, R300). -/
def nodePresent (d : Dev) (n : Nat) : Bool := n == ownNode d || (tblGet {} d.cas.peers n).st == .present

/-- The element width of a queue by global QID: of a local queue of the resulting set, whatever its QTE_VALID (log
entry 96, DESIGN CHOICE), or as its peer answered (R300). -/
def ewRes (d : Dev) (c : CheckSet) (gq : Nat) : Option (BitVec 2) :=
  if isLocal d gq then some (resQ d c (gq % 4096)).ew
  else (c.ew.find? fun e => e.1 = gq).map (·.2)

/-- Queues that the ports and maps of 4-bit ports name (R116, R297). -/
def namedOn4 (d : Dev) (c : CheckSet) (k : Nat) : List Nat :=
  let p := resP d c k
  if p.width ≠ 0 then []
  else
    (if p.en && !p.tagged then [p.qid.toNat] else []) ++
      (if k < 2 then (c.bind.tags.filter fun t => t.port = k).map (·.qid)
       else (c.bind.egress.filter fun b => b.target = k).map (·.qid))

/-- An object rule fails for a staged QTE. The relations that R87 lists for a valid QTE, and no others, look at QTE_VALID;
0x21 judges any staged QTE, as 0x20 and 0x22 do (log entry 95, DESIGN CHOICE). -/
def qteFails (d : Dev) (c : CheckSet) (code qid : Nat) : Bool :=
  let s := resQ d c qid
  let q := queueOf d qid
  let bytes := s.cap * ewBytes s.ew
  match code with
  | 0x20 => s.rsvd || s.tier == 3
  | 0x21 => !c.boot && !s.reset && !q.items.isEmpty && (s.ew ≠ q.cfg.ew || s.pkt ≠ q.cfg.pkt)
  | 0x22 => !c.boot && !s.reset && occupancy q ≠ 0 && s.slot ≠ q.cfg.slot
  | 0x23 => s.valid && decide (bytes < 64)
  | 0x24 => s.valid && decide (s.nearQuota + s.deepQuota + s.peerQuota = 0 ∨
      (s.nearQuota + s.deepQuota + s.peerQuota - 1) * 4096 < bytes)
  | 0x25 => s.valid && (decide (s.nearQuota < 2) || decide (512 < s.nearQuota) || decide (s.nearQuota < s.nearRsv))
  | 0x26 => s.valid && (s.aft == 0 || decide (s.cap ≤ s.aft) || decide (s.cap ≤ s.aet))
  | 0x27 => s.valid && s.tier == 0 && (s.deepQuota ≠ 0 || s.peerQuota ≠ 0)
  | 0x28 => (decide (deepInService d < s.deepQuota) || decide (8192 < s.peerQuota))
  | 0x29 => s.persist && (s.tier == 0 || decide (s.deepQuota < s.nearQuota))
  | 0x2A => s.valid && s.slot == 1
  | 0x2B => decide (2 ≤ s.slot.toNat) && (tblGet {} d.keys.slots s.slot.toNat).installed.isNone
  | 0x2C => s.peerQuota ≠ 0 && s.peerNode.toNat == ownNode d
  | 0x33 => s.ew == 3 &&
      (List.range 4).any fun k => decide ((ownNode d * 4096 + qid) ∈ namedOn4 d c k)
  | 0x3C => s.peerQuota ≠ 0 && !nodePresent d s.peerNode.toNat
  | _ => false

/-- An object rule fails for a staged PCE. -/
def pceFails (d : Dev) (c : CheckSet) (code k : Nat) : Bool :=
  let p := resP d c k
  let fixed := p.en && !p.tagged
  match code with
  | 0x30 => p.rsvd || p.width == 3
  | 0x31 => decide (2 ≤ k) && ((p.push && p.fwft) || (!p.push && p.cont))
  | 0x32 => decide (2 ≤ k) && fixed && !isLocal d p.qid.toNat
  | 0x33 => (namedOn4 d c k).any fun q => ewRes d c q = some 3
  | 0x3C => (p.en && !nodePresent d (p.qid.toNat / 4096)) || (namedOn4 d c k).any fun q => (ewRes d c q).isNone
  | _ => false

/-- An object rule fails for a binding entry. -/
def bindFails (d : Dev) (c : CheckSet) (code : Nat) (w : BindWord) : Bool :=
  let onPort := (w.kind = 1 && w.target < 2) || (w.kind = 2 && (w.target = 2 || w.target = 3))
  let on4 := onPort && (resP d c w.target).width == 0
  match code with
  | 0x33 => on4 && ewRes d c w.qid = some 3
  | 0x38 => (w.kind = 1 || w.kind = 2) && !onPort
  | 0x39 => w.kind = 2 && !isLocal d w.qid
  | 0x3C => !nodePresent d (w.qid / 4096) || (on4 && (ewRes d c w.qid).isNone)
  | _ => false

/-- ACE_RESULT0 of an object (R275). -/
def objOf (kind n : Nat) : Nat := n + kind * 65536

/-- The first object, in the order of R296, for which a rule fails. -/
def objectFail (d : Dev) (c : CheckSet) (code : Nat) : Option Nat :=
  match c.qids.find? (qteFails d c code) with
  | some q => some (objOf 0 q)
  | none =>
    match c.ports.find? (pceFails d c code) with
    | some k => some (objOf 1 k)
    | none => (c.added.find? fun e => bindFails d c code e.2).map fun e => objOf 2 e.1

/-- The smallest of a list of objects. -/
def lowest (l : List Nat) : Option Nat := l.foldl (fun m x => match m with
  | none => some x
  | some y => some (min x y)) none

/-- The object a set rule reports (R297): the lowest staged one that takes part, else the lowest valid QTE
that does, else `dflt`. -/
def reportOf (d : Dev) (c : CheckSet) (staged qids : List Nat) (dflt : Nat) : Nat :=
  match lowest staged with
  | some o => o
  | none => ((lowest (qids.filter fun q => (resQ d c q).valid)).map (objOf 0)).getD dflt

/-- Valid queues of the resulting set with their QTEs. -/
def validQueues (d : Dev) (c : CheckSet) : List (Nat × QCfg) :=
  let live := (d.queues.filter fun e => (tblFind c.qtes e.1).isNone).map fun e => (e.1, e.2.cfg)
  (live ++ c.qtes).filter fun e => e.2.valid

/-- The index of a tag map entry among the judged ones. -/
def tagIndex (c : CheckSet) (t : TagEnt) : Option Nat :=
  (c.added.find? fun e => e.2.kind = 1 && e.2.target = t.port && e.2.tag = t.tag).map (·.1)

/-- The index of an egress (2) or drain (3) binding among the judged ones. -/
def bindIndex (c : CheckSet) (kind : Nat) (b : BindEnt) : Option Nat :=
  (c.added.find? fun e => e.2.kind = kind && e.2.target = b.target && e.2.index = b.index).map (·.1)

/-- Tag map entries of one port that name one queue twice. -/
def dupTags (b : Bindings) : List TagEnt :=
  b.tags.filter fun t => b.tags.any fun u => u.port = t.port && u.qid = t.qid && u.tag ≠ t.tag

/-- Egress bindings of one port with one tag or one queue twice. -/
def dupEgress (b : Bindings) : List BindEnt :=
  b.egress.filter fun t => b.egress.any fun u =>
    u.target = t.target && u.index ≠ t.index && (u.qid = t.qid || u.tag = t.tag)

/-- A consumer claim (R298): its queue, and its object when it is staged. -/
def claims (d : Dev) (c : CheckSet) : List (Nat × Option Nat) :=
  (([2, 3] : List Nat).flatMap fun k =>
    let p := resP d c k
    if !p.en then []
    else if !p.tagged then [(p.qid.toNat, if k ∈ c.ports then some (objOf 1 k) else none)]
    else (c.bind.egress.filter fun b => b.target = k && 0 < b.weight).map fun b =>
      (b.qid, (bindIndex c 2 b).map (objOf 2))) ++
  (c.bind.drain.filter fun b => 0 < b.weight).map fun b => (b.qid, (bindIndex c 3 b).map (objOf 2))

/-- TP_PAIR fails for a pair. -/
def pairFails (d : Dev) (c : CheckSet) (n : Nat) : Bool :=
  let i := resP d c n
  let e := resP d c (n + 2)
  (pairOf d n).strap && !((!i.en && !e.en) || pairRuns i e)

/-- Staged QTEs among local QIDs, as objects. -/
def stagedQtes (c : CheckSet) (qids : List Nat) : List Nat := (qids.filter fun q => decide (q ∈ c.qids)).map (objOf 0)

/-- A set rule fails, with the object it reports. -/
def setFail (d : Dev) (c : CheckSet) (code : Nat) : Option Nat :=
  match code with
  | 0x2D =>
    let vs := validQueues d c
    if (vs.map fun e => e.2.nearRsv).sum ≤ nearInService d then none
    else
      let qs := (vs.filter fun e => 0 < e.2.nearRsv).map (·.1)
      some (reportOf d c (stagedQtes c qs) qs 0)
  | 0x34 =>
    match [0, 1].find? (pairFails d c) with
    | none => none
    | some n => some (reportOf d c (([n, n + 2].filter fun k => decide (k ∈ c.ports)).map (objOf 1)) [] (objOf 1 n))
  | 0x3A =>
    let ts := dupTags c.bind
    let es := dupEgress c.bind
    if ts.isEmpty && es.isEmpty then none
    else
      let gs := ((ts.map (·.qid) ++ es.map (·.qid)).filter (isLocal d)).map (· % 4096)
      some (reportOf d c (stagedQtes c gs ++ (ts.filterMap (tagIndex c) ++ es.filterMap (bindIndex c 2)).map (objOf 2))
        gs 0)
  | 0x3B =>
    let cs := claims d c
    let bad := cs.filter fun x => decide (1 < (cs.filter fun y => y.1 = x.1).length)
    if bad.isEmpty then none
    else
      let gs := ((bad.map (·.1)).filter (isLocal d)).map (· % 4096)
      some (reportOf d c (stagedQtes c gs ++ bad.filterMap (·.2)) gs 0)
  | _ => none

/-- The rules in ascending code. -/
def checkCodes : List Nat :=
  [0x20, 0x21, 0x22, 0x23, 0x24, 0x25, 0x26, 0x27, 0x28, 0x29, 0x2A, 0x2B, 0x2C, 0x2D, 0x30, 0x31, 0x32, 0x33, 0x34,
   0x38, 0x39, 0x3A, 0x3B, 0x3C]

/-- The set rules. -/
def isSetRule (code : Nat) : Bool := code = 0x2D || code = 0x34 || code = 0x3A || code = 0x3B

/-- The first failure: code and object (R295). -/
def firstFail (d : Dev) (c : CheckSet) : Option (Nat × Nat) :=
  checkCodes.findSome? fun code =>
    ((if isSetRule code then setFail d c code else objectFail d c code)).map fun o => (code, o)

/-- Nothing is staged. -/
def nothingStaged (st : Stage) : Bool := st.qtes.isEmpty && st.pces.isEmpty && st.bind.isNone

/-- The check of a staging area (R295). -/
def checkStage (d : Dev) (ew : List (Nat × BitVec 2)) : Option (Nat × Nat) :=
  if nothingStaged d.stage then none else firstFail d (stagedSet d d.stage ew)

/-- The outcome of a check. -/
def checkRes (d : Dev) (x : Option (Nat × Nat)) : AdmRes :=
  match x with
  | none => { status := 0, r0 := 0, r1 := d.epoch.now.toNat }
  | some (code, o) => { status := code, r0 := o, r1 := d.epoch.now.toNat }

/-- The body of EPOCH_CHECK; `ew` is what peers answered (R300). -/
def checkBody (ew : List (Nat × BitVec 2)) (_ : AdmRun) (d : Dev) : Dev × Option AdmRes :=
  ends (checkRes d (checkStage d ew)) d

/-- EPOCH_CHECK. -/
def execEpochCheck (c : AdmCmd) (peerEw : List (Nat × BitVec 2)) (s : State) :
    Host.Outcome State Fault Refusal := act (admin 0x18 c [] (checkBody peerEw)) s

/-! ### The commit (R301 to R308) -/

/-- Queues of bindings that differ between two lists. -/
def changedQids (a b : Bindings) : List Nat :=
  ((a.tags.filter fun t => t ∉ b.tags) ++ (b.tags.filter fun t => t ∉ a.tags)).map (·.qid) ++
  ((a.egress.filter fun t => t ∉ b.egress) ++ (b.egress.filter fun t => t ∉ a.egress) ++
   (a.drain.filter fun t => t ∉ b.drain) ++ (b.drain.filter fun t => t ∉ a.drain)).map (·.qid)

/-- The turnstiles a commit affects (R302), by local QID. -/
def affected (d : Dev) (st : Stage) : List Nat :=
  (tblKeys st.qtes ++ ((changedQids d.bind (st.bind.getD d.bind)).filter (isLocal d)).map (· % 4096)).dedup

/-- The tag map entries or egress bindings of a port differ between two lists. -/
def portRebound (a b : Bindings) (k : Nat) : Bool :=
  if k < 2 then decide ((a.tags.filter fun t => t.port = k) ≠ (b.tags.filter fun t => t.port = k))
  else decide ((a.egress.filter fun t => t.target = k) ≠ (b.egress.filter fun t => t.target = k))

/-- The ports a commit affects (R302). -/
def affectedPorts (d : Dev) (st : Stage) : List Nat :=
  (List.range 4).filter fun k => (tblFind st.pces k).isSome || portRebound d.bind (st.bind.getD d.bind) k

/-- The drain rings a commit affects (R302). -/
def affectedRings (d : Dev) (st : Stage) : List Nat :=
  let a := d.bind.drain
  let b := (st.bind.getD d.bind).drain
  (((a.filter fun t => t ∉ b) ++ (b.filter fun t => t ∉ a)).map (·.target)).dedup

/-- The body of EPOCH_COMMIT up to the raised fence (R301, R302). -/
def commitBody (ew : List (Nat × BitVec 2)) (r : AdmRun) (d : Dev) : Dev × Option AdmRes :=
  match checkStage d ew with
  | some x => ends (checkRes d (some x)) d
  | none =>
    runsOn r .commit { d with
      epoch.fence := true
      epoch.fenced := affected d d.stage
      epoch.fencedPorts := affectedPorts d d.stage
      epoch.fencedRings := affectedRings d d.stage
      epoch.taken := some d.stage
      epoch.during := {}
      epoch.peerEw := ew.foldl (fun t e => tblSet 0 t e.1 e.2) d.epoch.peerEw }

/-- EPOCH_COMMIT. -/
def execEpochCommit (c : AdmCmd) (peerEw : List (Nat × BitVec 2)) (s : State) :
    Host.Outcome State Fault Refusal := act (admin 0x19 c [] (unlessBusy (commitBody peerEw))) s

/-- EPOCH_NOW after one commit (R305). -/
def nextEpoch (e : Word) : Word := if e = 0xFFFFFFFF then 1 else e + 1

/-- The reservation of a queue after a commit: surplus segments that hold data stay unreserved, unused ones
go; those that hold data count first (R679). -/
def trimReserve (q : Queue) : Queue :=
  let goal := resvGoal q
  let used := (q.chain.filter (·.resvd)).length
  let keep := goal - used
  let chain := (q.chain.foldl (fun (acc : List ChainSeg × Nat) s =>
    if s.resvd then
      if acc.2 < goal then (acc.1 ++ [s], acc.2 + 1) else (acc.1 ++ [{ s with resvd := false }], acc.2)
    else (acc.1 ++ [s], acc.2)) ([], 0)).1
  { q with chain, resvFree := q.resvFree.take keep }

/-- A queue takes its staged QTE (R66, R90, R305, R311): what depends on the queue alone. -/
def takeCfg (cfg : QCfg) (now : Word) (seq : Nat) (q : Queue) : Queue :=
  let fmt := q.cfg.ew ≠ cfg.ew || q.cfg.pkt ≠ cfg.pkt || cfg.reset
  let q := if cfg.reset then resetQueue q else q
  let q := if fmt then { q with fmtSeq := seq, openCount := 0, openAvail := false } else q
  let q := { q with cfg, epoch := now }
  { q with openAvail := q.openAvail || (cfg.ctThr ≠ 0 && decide (cfg.ctThr ≤ q.openCount)) }

/-- HOLD mode forgets the items of a queue whose QTE a commit stages (R125). -/
def forgetLast (gq : Nat) (p : EPort) : EPort := { p with last := tblErase p.last gq }

/-- One staged QTE becomes live. -/
def commitQte (qid : Nat) (cfg : QCfg) (now : Word) (seq : Nat) (d : Dev) : Dev :=
  let gq := ownNode d * 4096 + qid
  let d := if cfg.reset then cutConsumers gq .flush d else d
  let q := takeCfg cfg now seq (queueOf d qid)
  let d := settleShorts (noteShort qid (putQueue qid (trimReserve q) d))
  let d := releaseUnused qid d
  { d with ports := { d.ports with e0 := forgetLast gq d.ports.e0, e1 := forgetLast gq d.ports.e1 } }

/-- What a commit leaves to a through-path pair (R146, R148, R151). A pair of which a port is PARKED stays in bypass; an
arming on its way goes with the configuration. -/
def commitPair (staged : List Nat) (n : Nat) (d : Dev) : Dev :=
  let s := pairOf d n
  let runs := pairRuns (liveOf d n) (liveOf d (n + 2))
  if !s.strap then d
  else if runs then
    if s.handed then putPair n { s with returning := false } d
    else if (!s.armed || n ∈ staged || (n + 2) ∈ staged) && !(runOf d n).parked && !(runOf d (n + 2)).parked then
      issueEv n .arm d
    else d
  else if s.handed then putPair n { s with returning := true, pointB := false, idle := 0 } d
  else
    let d := cancelArm n d
    if s.armed then
      stopTimer (.noClock n) (stopTimer (.handover n) (putPair n { s with armed := false, pointB := false } d))
    else d

/-- The staging area after a commit: what was staged while it ran stays for the following one (R15, R294). -/
def stageAfter (during : Stage) (live : Bindings) : Stage :=
  { during with
    bind := if during.entries.isEmpty then none
      else some (during.entries.foldl (fun b w => (applyEntry b w).getD b) live) }

/-- Ports take their new PCEs and maps at their own instants (R306, R307); arbitration starts anew (R308). -/
def commitPorts (st : Stage) (old : Bindings) (stamp : Nat) (d : Dev) : Dev :=
  let new := st.bind.getD old
  let port (k : Nat) (d : Dev) : Dev :=
    let rebound := portRebound old new k
    let np := tblFind st.pces k
    let remap := decide (k < 2) && rebound
    let d := if np.isSome || remap then issueEv k (.commit np remap (some stamp)) d else d
    if 2 ≤ k && (rebound || np.isSome) then putE (k - 2) { eport d (k - 2) with arbB := 0, arbG := 0 } d else d
  port 3 (port 2 (port 1 (port 0 d)))

/-- Drain rings whose bindings change start a new cycle and arm their peer queues (R308, R437). -/
def commitDrains (old new : Bindings) (d : Dev) : Dev :=
  d.rings.drains.foldl (fun d e =>
    let a := old.drain.filter fun b => b.target = e.1
    let b := new.drain.filter fun b => b.target = e.1
    if a = b then d
    else
      let d := putDrain e.1 { e.2 with
        arbB := 0, arbG := 0, ready := e.2.ready.filter fun q => b.any fun x => x.qid = q } d
      (b.filter fun x => x ∉ a).foldl (fun d x => armBind x d) d) d

/-- The commit instant (R304 to R308, R15, R85, R284, R326, R358). While a STANDBY request is pending no queue
changes (R465, R492), so it waits. -/
def commitInstant (d : Dev) : Dev :=
  match d.epoch.fence && !d.epoch.allFence, d.epoch.taken with
  | true, some st =>
    let persists := st.qtes.any fun e => (e.2.valid && e.2.persist) ||
      ((queueOf d e.1).cfg.valid && (queueOf d e.1).cfg.persist)
    let d := if persists then writeUnseal d else d
    let now := nextEpoch d.epoch.now
    let stamp := d.epoch.seq
    let old := d.bind
    let new := st.bind.getD old
    let was := st.qtes.map fun e => (e.1, (queueOf d e.1).fAf)
    let d := { d with
      bind := new
      stage := stageAfter d.epoch.during new
      epoch := { d.epoch with now, seq := stamp + 1, fence := false, fenced := [], fencedPorts := [], fencedRings := []
                              taken := none, during := {}, cfgChanged := true } }
    let d := st.qtes.foldl (fun d e => commitQte e.1 e.2 now (stamp + 1) d) d
    let d := commitDrains old new (commitPorts st old stamp d)
    let d := commitPair (tblKeys st.pces) 1 (commitPair (tblKeys st.pces) 0 d)
    let d := (old.drain ++ new.drain).foldl (fun d b =>
      if isLocal d b.qid then drainWaitCheck (b.qid % 4096) d else d) d
    let d := was.foldl (fun d e =>
      let d := onQueue e.1 (setFlags d) (readCheck e.1 (spillCheck 512 e.1 d))
      let d := drainWaitCheck e.1 (wakeRound e.1 e.2 d)
      if mirrorOn d then mirrorWrite e.1 d else d) d
    let d := finishRun (· = .commit) { status := 0, r0 := 0, r1 := now.toNat } d
    settleKeys (pumpFlags (stallChecks d))
  | _, _ => d

/-- COMMIT_INSTANT. -/
def execCommitInstant (s : State) : Host.Outcome State Fault Refusal :=
  actBacklog commitInstant s

end Sys2Proof.Machine
end

