-- ==== Sys2Proof/Machine/Tiers.lean ====
section
/-!
DEFINITION. Deep programs, deep reads, the governor's burst, the journal's timer, SEAL and WEAR_REPORT
(R326 to R367, R386 to R393, R540, R541, R680).
-/

namespace Sys2Proof.Machine

/-! ### What a segment stores (R338, R541) -/

/-- A chain segment by position. -/
def segAt (q : Queue) (pos : Nat) : Option ChainSeg := q.chain.find? fun s => s.pos = pos

/-- Changes a chain segment. -/
def onSeg (qid pos : Nat) (f : ChainSeg → ChainSeg) (d : Dev) : Dev :=
  onQueue qid (fun q => { q with chain := q.chain.map fun s => if s.pos = pos then f s else s }) d

/-- The items that a program of a segment stores: the popped ones as they were, the stored ones as they are. -/
def progItems (q : Queue) (s : ChainSeg) : List Item :=
  let now := (storedItems q).filter fun i => i.seg = s.pos
  s.all.take (s.used - now.length) ++ now

/-- The near copy is read through its code before it is programmed (R369). -/
def readNearSeg (n : Nat) (d : Dev) : Dev :=
  (d.rep.upset.filter fun e => e.1 / 512 = n).foldl (fun d e => readNear e.1 d) d

/-- The 4 KiB of a segment: items from its start on, zeros behind them. -/
def segBytes (ew : BitVec 2) (is : List Item) : Bytes := sliceBytes (is.flatMap fun i => itemBytes ew i) 0 4096

/-- The tweak of sector `k` (R541). -/
def tweak (node s k : Nat) : BitVec 128 := BitVec.ofNat 128 (node * 2 ^ 24 + s * 128 + k)

/-- Passes sectors from `first` on through the engine under a slot; slot 0 stores them plain (R541). -/
def cipher (f : List Byte → BitVec 128 → BitVec 256 → BitVec 256) (key : Option KeyVal) (node s first : Nat)
    (bs : Bytes) : Bytes :=
  match key with
  | none => bs
  | some k => (List.range (bs.length / 32)).flatMap fun i =>
      natLe 32 (f k.key (tweak node s (first + i)) (BitVec.ofNat 256 (leAt bs (32 * i) 32))).toNat

/-! ### Hard faults of the deep tier (R387 to R393) -/

/-- Queues a relocation into a segment of R328, or answers that none can be had (R384, R393). -/
def queueRelocation (seg : Nat) (d : Dev) : Option Dev :=
  match takeDeep d with
  | none => none
  | some n => some { d with
      tier.deep := tblPut d.tier.deep n .busy
      tier.progQ := d.tier.progQ ++ [{ what := .relocate seg, seg := some n }] }

/-- A relocation of this segment waits or runs. -/
def relocating (d : Dev) (seg : Nat) : Bool :=
  (d.tier.progQ ++ d.tier.active).any fun p => p.what = .relocate seg

/-- Retires a deep segment: one that holds nothing, or is being programmed, at once; one that holds data is
moved first, and waits for that (R392, R393). -/
def retireDeepSeg (seg : Nat) (d : Dev) : Dev :=
  match tblFind d.tier.deep seg with
  | some (.copy _ _ _ _ _) | some (.lent _) =>
    let d := if seg ∈ d.tier.deepPending then d else { d with tier.deepPending := d.tier.deepPending ++ [seg] }
    if relocating d seg then d else (queueRelocation seg d).getD d
  | _ => retireDeep seg d

/-- A deep hard fault (R388): remapped, or the segment is retired. -/
def hardFaultDeep (a : Nat) (d : Dev) : Dev :=
  let seg := a / 128
  if seg ∈ d.tier.deepPending || seg ∈ d.tier.deepRetired then d
  else
    let d := { d with rep.deepSuspects := d.rep.deepSuspects.filter fun s => s.addr ≠ a }
    if 4 ≤ (d.rep.deepRemap.filter fun r => r.addr / 128 = seg).length then retireDeepSeg seg d
    else match freeSpare 64 d.rep.deepRemap with
      | none => retireDeepSeg seg d
      | some i => writeRepair { d with rep.deepRemap := addRemap a i d.rep.deepRemap }

/-- A sector has shown a two-bit correction (R386, R387): counted, and suspect or a hard fault. Answers
whether it was a hard fault. -/
def twoBit (a : Nat) (d : Dev) : Bool × Dev :=
  let d := { d with rep.deepCorr2 := sat32 d.rep.deepCorr2 1 }
  if d.rep.deepSuspects.any fun s => s.addr = a && s.reprogrammed then (true, hardFaultDeep a d)
  else if d.rep.deepSuspects.any fun s => s.addr = a then (false, d)
  else (false, { d with rep.deepSuspects := addSuspect a d.rep.deepSuspects })

/-- An uncorrectable deep sector of queue data: counted, and reported once until it is rewritten (R396,
R406). -/
def deepLost (a : Nat) (d : Dev) : Dev :=
  let d := { d with rep.deepUncorr := sat32 d.rep.deepUncorr 1 }
  if a ∈ d.rep.reportedDeep then d
  else recordErr 0x44 5 a { d with rep.reportedDeep := d.rep.reportedDeep ++ [a] }

/-! ### The start of a program (R328, R334, R339, R343, R345) -/

/-- One debit of the bucket (R343). -/
def debit (d : Dev) : Dev :=
  { d with
    tier.level := d.tier.level - 4096
    tier.minLevel := min d.tier.minLevel (d.tier.level - 4096)
    tier.debited := d.tier.debited + 4096 }

/-- A program of a segment begins: counted (R340), its sectors are rewritten (R387, R396). -/
def beginProgram (p : Prog) (seg : Nat) (d : Dev) : Dev :=
  countProgram seg { d with
    tier.active := d.tier.active ++ [{ p with seg := some seg }]
    rep.deepSuspects := d.rep.deepSuspects.map fun s => if s.addr / 128 = seg then { s with reprogrammed := true } else s
    rep.reportedDeep := d.rep.reportedDeep.filter fun a => a / 128 ≠ seg }

/-- The segment is in use by a program. -/
def claimSeg (seg : Nat) (d : Dev) : Dev := { d with tier.deep := tblPut d.tier.deep seg .busy }

/-- What becomes of a waiting program when its turn comes. -/
inductive Start where
  | begun (d : Dev)
  /-- It leaves the line. -/
  | dropped (d : Dev)
  /-- It keeps its place, and the next one is looked at. -/
  | waits (d : Dev)
  /-- It and all behind it wait for the level (R345). -/
  | blocked

/-- Borrowed segments that a queue has asked for and does not hold yet. -/
def askedLoans (d : Dev) (qid : Nat) : Nat :=
  (d.tier.active.filter fun p => match p.what with
    | .borrow i _ _ _ _ => decide (i = qid)
    | _ => false).length

/-- The head's cached deep copy is released when the quota is used up (R334). -/
def dropCached (qid : Nat) (d : Dev) : Dev :=
  let q := queueOf d qid
  if deepCopies d qid q < q.cfg.deepQuota then d
  else match q.chain.head? with
    | some s =>
      (match s.near, s.deep with
       | some _, some r => freeDeep qid r.seg (r.named || q.cfg.persist) (onSeg qid s.pos (fun s => { s with deep := none }) d)
       | _, _ => d)
    | none => d

/-- SEAL ends (R353, R356): its fence goes, and the command completes. A program that it had put in the place of one of
R332 or R333 waits as that one again. -/
def endSeal (status : Nat) (d : Dev) : Dev :=
  match d.tier.sealRun with
  | none => d
  | some run =>
    let mine (p : Prog) : Bool := match p.what with
      | .seal _ _ => true
      | _ => false
    let d := (d.tier.progQ.filter mine).foldl (fun d p => match p.what with
      | .seal qid pos => onQueue qid (setProg pos (if p.spills then .queued else .none)) d
      | _ => d) d
    let back (p : Prog) : Option Prog := match p.what with
      | .seal qid pos => if p.spills then some { p with what := .spill qid pos, spills := false } else none
      | _ => some p
    finishRun (· = .sealing) { status, r0 := run.done, r1 := int32 (levelKib d.tier.level) }
      { d with tier.progQ := d.tier.progQ.filterMap back, tier.sealRun := none, epoch.sealFence := false }

/-- Starts a program of a chain segment: into the own tier by R328 or, for SEAL, R354; else borrowed (R441);
else it stays near-only (R334). -/
def startChain (p : Prog) (isSeal : Bool) (qid pos : Nat) (d : Dev) : Start :=
  let gone : Start := .dropped (onQueue qid (setProg pos .none) d)
  match segAt (queueOf d qid) pos with
  | none => gone
  | some s =>
    match s.near with
    | none => gone
    | some n =>
      if s.deep.isSome || s.loan.isSome || !(queueOf d qid).cfg.valid then gone
      else
        let d := if isSeal then d else dropCached qid d
        let q := queueOf d qid
        let slot := q.cfg.slot.toNat
        let own := if !slotUsable d slot then none
          else if isSeal then chooseDeep d
          else if deepCopies d qid q < q.cfg.deepQuota then takeDeep d else none
        let filled (d : Dev) : Prog := { p with slot, gen := slotGen d slot, items := progItems (queueOf d qid) s }
        match own with
        | some g =>
          if !isSeal && decide (d.tier.level < 4096) then .blocked
          else
            let d := readNearSeg n d
            let d := if p.again then d else debit d
            let st : ProgState := if isSeal && !p.spills then .kept true else .started
            .begun (beginProgram (filled d) g (claimSeg g (onQueue qid (setProg pos st) d)))
        | none =>
          let node := q.cfg.peerNode.toNat
          if isSeal then .dropped (endSeal 0x48 (onQueue qid (setProg pos .none) d))
          else if slotUsable d slot && decide (loanCopies q + askedLoans d qid < q.cfg.peerQuota) &&
              (tblGet {} d.cas.peers node).st == .present then
            let d := readNearSeg n d
            .begun (sendSeq node 8 (segPayload 0 0 q.cfg.persist 0 0 qid [])
              { d with tier.active := d.tier.active ++
                  [{ filled d with what := .borrow qid pos node (slotGen d slot) none }] })
          else if q.cfg.tier = 2 then .waits d
          else .dropped (onQueue qid (setProg pos .none) d)

/-- The items, slot and generation that a relocated segment carries. -/
def relocItems (d : Dev) (from_ : Nat) : Nat × Nat × List Item :=
  match tblFind d.tier.deep from_ with
  | some (.copy _ _ slot gen is) => (slot, gen, is)
  | _ => (0, 0, [])

/-- Starts one waiting program. -/
def startOne (p : Prog) (d : Dev) : Start :=
  match p.what with
  | .seal qid pos => if d.tier.sealRun.isNone then .dropped d else startChain p true qid pos d
  | .spill qid pos => startChain p false qid pos d
  | .lent h node _ _ _ =>
    match tblFind d.tier.loans h with
    | none => .dropped d
    | some l =>
      if d.tier.level < 4096 then .blocked
      else
        let pr := tblGet {} d.cas.peers node
        let d := if pr.spared = 0 then debit d else onPeer node (fun x => { x with spared := x.spared - 1 }) d
        .begun (beginProgram p l.seg d)
  | .relocate from_ =>
    let live := match tblFind d.tier.deep from_ with
      | some (.copy _ _ _ _ _) | some (.lent _) => true
      | _ => false
    -- a segment that was released before its relocation: the relocation is abandoned
    if !live then
      .dropped (match p.seg with
        | some n => freeDeep 0 n false d
        | none => d)
    else match p.seg.orElse fun _ => takeDeep d with
      | none => .dropped { d with rep.deepDeferred := sat32 d.rep.deepDeferred 1 }
      | some n =>
        let x := relocItems d from_
        .begun (beginProgram { p with slot := x.1, gen := x.2.1, items := x.2.2 } n
          (claimSeg n { d with rep.deepRewrites := sat32 d.rep.deepRewrites 1 }))
  | .borrow _ _ _ _ _ => .dropped d

/-- Order of the kinds of programs: SEAL's, relocations, queue data (R355). -/
def progRank (p : Prog) : Nat := match p.what with
  | .seal _ _ => 0
  | .relocate _ => 1
  | _ => 2

/-- Looks at the waiting programs in order until one starts. A SEAL that has ended has no programs left. -/
def scanProgs : List Prog → List Prog → Dev → Dev
  | kept, [], d => { d with tier.progQ := kept }
  | kept, p :: ps, d =>
    match startOne p d with
    | .begun d' =>
      -- the charge pump serves a fuse burn or a deep program, one at a time
      if d.fuse.burn.isSome && tierBusy d' then scanProgs (kept ++ [p]) ps d else { d' with tier.progQ := kept ++ ps }
    | .dropped d => scanProgs kept ps d
    | .waits d => scanProgs (kept ++ [p]) ps d
    | .blocked => { d with tier.progQ := kept ++ p :: ps }

/-- The line of programs in the order of their turns. -/
def progLine (d : Dev) : List Prog :=
  (d.tier.progQ.filter fun p => progRank p = 0) ++ (d.tier.progQ.filter fun p => progRank p = 1) ++
    d.tier.progQ.filter fun p => progRank p = 2

/-- DEEP_PROGRAM_START: the next program starts. It is the firmware's work (R29, R330). -/
def programStart (d : Dev) : Dev :=
  if !fwExec d || tierBusy d then d else scanProgs [] (progLine d) d

/-- DEEP_PROGRAM_START. -/
def execDeepProgramStart (s : State) : Host.Outcome State Fault Refusal := actBacklog programStart s

/-! ### The end of a program (R332, R333, R339, R350, R384, R444) -/

/-- A queue as the seal record holds it: near copies are gone; what no deep copy holds is damaged (R353,
R549). -/
def sealedForm (q : Queue) : Queue :=
  let bare (s : ChainSeg) : Bool := s.deep.isNone && s.loan.isNone
  let hurt (i : Item) : Item := if q.chain.any fun s => s.pos = i.seg && bare s then { i with damaged := true } else i
  { q with
    items := q.items.map hurt
    retained := q.retained.map hurt
    stDamaged := q.stDamaged || (storedItems q).any fun i => q.chain.any fun s => s.pos = i.seg && bare s
    chain := (q.chain.filter fun s => !bare s || (storedItems q).any fun i => i.seg = s.pos).map fun s =>
      { s with near := none, resvd := false, prog := .none, reading := false } }

/-- Steps 4 and 5 of SEAL (R353), once its last program is verified. -/
def sealCheck (d : Dev) : Dev :=
  match d.tier.sealRun with
  | none => d
  | some run =>
    if !run.left.isEmpty then d
    else if d.tier.exhausted then endSeal 0x48 d
    else
      let qs := d.queues.filterMap fun e =>
        if e.2.cfg.valid && e.2.cfg.persist then some { qid := e.1, q := sealedForm e.2 : SealedQ } else none
      endSeal 0 (flushJournal (addRecord (.sealed qs d.tier.level d.tb.now) d))

/-- A program of a segment that SEAL waits for is verified. -/
def sealProgress (qid pos : Nat) (counts : Bool) (d : Dev) : Dev :=
  match d.tier.sealRun with
  | none => d
  | some run =>
    if (qid, pos) ∈ run.left then
      let next : SealRun :=
        { left := run.left.filter (· ≠ (qid, pos)), done := run.done + (if counts then 1 else 0) }
      sealCheck { d with tier.sealRun := some next }
    else d

/-- The near copy of a chain segment is released (R332, R333, R444). -/
def releaseNear (qid pos : Nat) (d : Dev) : Dev :=
  match (segAt (queueOf d qid) pos).bind (·.near) with
  | some n => giveNear qid n (onSeg qid pos (fun s => { s with near := none, resvd := false }) d)
  | none => d

/-- The cells of a segment take its 4 KiB as the engine gives them under the slot's key (R338, R541). -/
def writeCells (seg slot : Nat) (ew : BitVec 2) (is : List Item) (d : Dev) : Dev :=
  { d with
    tier.cells := tblPut d.tier.cells seg
      (cipher Config.xtsEncrypt (slotKey d slot) (ownNode d) seg 0 (segBytes ew is)) }

/-- A chain segment has its verified deep copy. -/
def verifiedChain (p : Prog) (isSeal : Bool) (qid pos seg : Nat) (d : Dev) : Dev :=
  let q := queueOf d qid
  match segAt q pos with
  | none => freeDeep qid seg false d
  | some s =>
    let r : DeepRef := { seg, gen := p.gen, named := q.cfg.persist }
    let d := onSeg qid pos (fun s => { s with deep := some r, prog := .none }) d
    let d := writeCells seg p.slot q.cfg.ew p.items
      { d with tier.deep := tblPut d.tier.deep seg (.copy qid pos p.slot p.gen p.items) }
    let d := if q.cfg.persist then addRecord (.add qid { pos, seg, begins := s.begins }) d else d
    let d := if (!isSeal || p.spills) && letGo q pos then releaseNear qid pos d else d
    sealProgress qid pos isSeal d

/-- A lent segment is verified: journalled first when its loan has PERSIST = 1 (R444). -/
def verifiedLoan (h node seg : Nat) (data : Bytes) (d : Dev) : Dev :=
  match tblFind d.tier.loans h with
  | none => freeDeep 0 seg false d
  | some l =>
    let l := { l with data }
    let d := { d with tier.loans := tblPut d.tier.loans h l, tier.cells := tblPut d.tier.cells seg data }
    let d := if l.persist then flushJournal (addRecord (.lend h l) d) else d
    sendSeq node 8 (segPayload 4 h l.persist 0 0 l.borrower []) d

/-- A relocated segment is verified: its chain or its loan moves to it, and the old one is released (R384, R445). A copy
whose generation no longer matches moves without decryption (R542). -/
def verifiedMove (p : Prog) (from_ seg : Nat) (d : Dev) : Dev :=
  match tblFind d.tier.deep from_ with
  | some (.copy qid pos slot gen is) =>
    let q := queueOf d qid
    match (segAt q pos).filter fun s => (s.deep.map (·.seg)) = some from_ with
    | none => freeDeep qid seg false d
    | some s =>
      let named := q.cfg.persist || (s.deep.map (·.named)).getD false
      let d := onSeg qid pos (fun s => { s with deep := s.deep.map fun r => { r with seg } }) d
      let d := { d with tier.deep := tblPut d.tier.deep seg (.copy qid pos slot gen is) }
      let d := if copyReads d slot gen then writeCells seg slot q.cfg.ew is d
        else { d with tier.cells := tblPut d.tier.cells seg (tblGet [] d.tier.cells from_) }
      let d := if named then addRecord (.add qid { pos, seg, begins := s.begins }) d else d
      freeDeep qid from_ named d
  | some (.lent h) =>
    match tblFind d.tier.loans h with
    | none => freeDeep 0 seg false d
    | some l =>
      let l := { l with seg }
      let d := { d with
        tier.loans := tblPut d.tier.loans h l, tier.deep := tblPut d.tier.deep seg (.lent h)
        tier.cells := tblPut d.tier.cells seg l.data }
      let d := if l.persist then addRecord (.lend h l) d else d
      freeDeep 0 from_ l.persist d
  | _ => freeDeep p.slot seg false d

/-- A program has failed all its pulses (R339, R387 to R389): a sector of it is a hard fault, and its data goes
into another segment without a second debit. Which sector failed is free (log entry 3). A lender answers
VERIFY_FAIL instead (R444). -/
def programFailed (p : Prog) (seg : Nat) (d : Dev) : Dev :=
  let f := takeFree d
  let d := f.2
  let bad := f.1.toNat % 128
  match p.what with
  | .lent h node borrower persist _ =>
    let d := { d with tier.loans := tblErase d.tier.loans h, tier.deep := tblErase d.tier.deep seg }
    let d := onPeer node (fun x => { x with spared := x.spared + 1 }) (hardFaultDeep (seg * 128 + bad) d)
    sendSeq node 8 (segPayload 5 h persist 0 0 borrower []) d
  | what =>
    let d := hardFaultDeep (seg * 128 + bad) { d with tier.deep := tblErase d.tier.deep seg }
    let d := match what with
      | .spill qid pos => onQueue qid (setProg pos .queued) d
      | .seal qid pos => onQueue qid (setProg pos (if p.spills then .queued else .kept false)) d
      | _ => d
    -- a program that SEAL waits for takes its next segment by R354
    let what := match what with
      | .spill qid pos => if (d.tier.sealRun.map fun r => decide ((qid, pos) ∈ r.left)).getD false then
          ProgFor.seal qid pos else .spill qid pos
      | w => w
    let spills := p.spills || (match p.what with
      | .spill _ _ => what ≠ p.what
      | _ => false)
    { d with tier.progQ := { what, again := true, spills : Prog } :: d.tier.progQ }

/-- DEEP_PROGRAM_VERIFIED of a segment, or its failure. -/
def programVerified (seg : Nat) (ok : Bool) (d : Dev) : Dev :=
  match d.tier.active.find? fun p => p.seg = some seg with
  | none => d
  | some p =>
    let d := { d with tier.active := d.tier.active.filter fun x => x.seg ≠ some seg }
    let d := if !ok then programFailed p seg d
      else match p.what with
        | .spill qid pos => verifiedChain p false qid pos seg d
        | .seal qid pos => verifiedChain p true qid pos seg d
        | .lent h node _ _ data => verifiedLoan h node seg data d
        | .relocate from_ => verifiedMove p from_ seg d
        | .borrow _ _ _ _ _ => d
    settleKeys d

/-- DEEP_PROGRAM_VERIFIED. -/
def execDeepProgramVerified (seg : BitVec 14) (ok : Bool) (s : State) : Host.Outcome State Fault Refusal :=
  actBacklog (programVerified seg.toNat ok) s

/-! ### Reads back (R335, R338, R396, R540) -/

/-- Sectors of a segment that hold unpopped or retained items (R338). -/
def sectorsOf (q : Queue) (pos : Nat) : List Nat :=
  (((itemOffsets q (storedItems q)).filter fun e => e.2.seg = pos).map fun e => e.1 / 32).dedup

/-- What the code found in one sector of a queue's copy. -/
def readSector (qid pos seg k : Nat) (r : DeepRead) (d : Dev) : Dev :=
  match r with
  | .clean => d
  | .one => { d with rep.deepCorr1 := sat32 d.rep.deepCorr1 1 }
  | .two => (twoBit (seg * 128 + k) d).2
  | .uncorrectable => onQueue qid (damageBytes pos (32 * k) (32 * k + 32)) (deepLost (seg * 128 + k) d)

/-- A segment arrives in a near segment. -/
def arriveNear (qid pos : Nat) (gen : Nat) (f : Dev → Dev) (d : Dev) : Dev :=
  match takeNear qid d with
  | none => d
  | some (n, resvd, d) =>
    let d := f (onSeg qid pos (fun s => { s with near := some n, resvd, reading := false }) d)
    let q := queueOf d qid
    let d := if copyReads d q.cfg.slot.toNat gen then d else onQueue qid (damageBytes pos 0 4096) d
    settleKeys d

/-- DEEP_READ_COMPLETE: the read of a chain segment's own deep copy ends. It waits while no near segment can be
had. -/
def deepRead (qid pos : Nat) (reads : List DeepRead) (d : Dev) : Dev :=
  let q := queueOf d qid
  if !fwExec d then d
  else match segAt q pos with
    | none => d
    | some s =>
      match s.deep with
      | none => d
      | some r =>
        if !s.reading || s.near.isSome then d
        else arriveNear qid pos r.gen (fun d =>
          (sectorsOf q pos).foldl (fun d k => readSector qid pos r.seg k (reads.getD k .clean) d) d) d

/-- DEEP_READ_COMPLETE. -/
def execDeepReadComplete (qid : BitVec 12) (seg : Nat) (reads : List DeepRead) (s : State) :
    Host.Outcome State Fault Refusal := actBacklog (deepRead qid.toNat seg reads) s

/-! ### Journal timer, burst -/

/-- 1,000,000 ticks have passed since the first gathered record (R350); the journal is the firmware's (R28). -/
def journalTimer (d : Dev) : Dev := if fwExec d && timerDue d .journal 1000000 then flushJournal d else d

/-- JOURNAL_TIMER_EXPIRY. -/
def execJournalTimerExpiry (s : State) : Host.Outcome State Fault Refusal := act journalTimer s

/-- TIER_SPILL_BURST takes a value (R346, R347, R595). -/
def setBurst (v : Nat) (d : Dev) : Dev :=
  let b := clampTo 1 1048576 v
  let level := min d.tier.level (Int.ofNat (b * 2 ^ 20))
  { d with regs.spillBurst := b, tier.level := level, tier.minLevel := min d.tier.minLevel level }

/-- TIER_SPILL_BURST_WRITE. -/
def execTierSpillBurstWrite (v : BitVec 21) (s : State) : Host.Outcome State Fault Refusal :=
  act (fun d => if hostReach d then setBurst v.toNat d else d) s

/-! ### SEAL (R353 to R357) -/

/-- Segments of the valid PERSISTENT queues that SEAL deals with: near-only, with an unpopped or retained item,
and a key to program them under (R353, R549). -/
def sealWork (d : Dev) : List (Nat × ChainSeg) :=
  d.queues.flatMap fun e =>
    if e.2.cfg.valid && e.2.cfg.persist && slotUsable d e.2.cfg.slot.toNat then
      (e.2.chain.filter fun s => s.near.isSome && s.deep.isNone && s.loan.isNone &&
        (storedItems e.2).any fun i => i.seg = s.pos).map fun s => (e.1, s)
    else []

/-- Steps 1 and 2 of SEAL, and the programs of step 3. -/
def sealStart (d : Dev) : Dev :=
  let d := writeWearCopy d
  let d := if d.epoch.cfgChanged then writeImage d else d
  let work := sealWork d
  let new := work.filter fun x => !inFlight x.2.prog
  let mine (p : Prog) : Bool := new.any fun x => p.what = .spill x.1 x.2.pos
  let took (x : Nat × ChainSeg) : Bool := x.2.prog == .queued
  let d := new.foldl (fun d x => onQueue x.1 (setProg x.2.pos (if took x then .queued else .kept false)) d) d
  let asked (p : Prog) : Bool := new.any fun x => match p.what with
    | .borrow qid pos _ _ none => decide (qid = x.1 ∧ pos = x.2.pos)
    | _ => false
  sealCheck { d with
    epoch.sealFence := true
    tier.active := d.tier.active.filter fun p => !asked p
    tier.progQ := (new.map fun x => ({ what := .seal x.1 x.2.pos, spills := took x } : Prog)) ++ d.tier.progQ.filter fun p => !mine p
    tier.sealRun := some { left := work.map fun x => (x.1, x.2.pos) } }

/-- The body of SEAL. -/
def sealBody (r : AdmRun) (d : Dev) : Dev × Option AdmRes :=
  let level := int32 (levelKib d.tier.level)
  if d.tier.exhausted then ends { status := 0x48, r0 := 0, r1 := level } d
  else if journalSealed d && !d.epoch.cfgChanged then ends (okWith 0 level) d
  else (sealStart { d with adm.run := some { r with kind := .sealing } }, none)

/-- SEAL. -/
def execSealCmd (c : AdmCmd) (s : State) : Host.Outcome State Fault Refusal :=
  actBacklog (admin 0x30 c [] (unlessBusy sealBody)) s

/-! ### WEAR_REPORT (R364) -/

/-- Wear counts of the in-service user segments. -/
def userWear (d : Dev) : List Nat :=
  (List.range 8192).filterMap fun n => if n ∈ d.tier.deepRetired then none else some (wearOf d n)

/-- The record of WEAR_REPORT. -/
def wearRecord (d : Dev) : Bytes :=
  let ws := userWear d
  let mean := ws.sum / ws.length
  natLe 2 1 ++ natLe 2 64 ++ natLe 4 8704 ++ natLe 2 (deepInService d) ++ natLe 2 d.tier.spares ++
    natLe 2 (nearInService d) ++ natLe 2 (nearPool d) ++ natLe 2 (deepPool d) ++
    natLe 2 (min (sealNeed d) (deepPool d)) ++ natLe 4 ((lowest ws).getD 0) ++
    natLe 4 (ws.foldl max 0) ++ natLe 4 mean ++ natLe 8 (d.tier.debited / 1024) ++
    natLe 4 (int32 (levelKib d.tier.level)) ++ natLe 4 (int32 (levelKib d.tier.minLevel)) ++
    natLe 4 (min (d.tier.throttle / 1000) 0xFFFFFFFF) ++
    natLe 4 (mean * 1000 / 100000000 % 65536 + flagAt d.tier.estimated 16) ++ natLe 8 0 ++
    (List.range 8704).flatMap fun s => natLe 4 (if s ∈ d.tier.deepRetired then 0xFFFFFFFF else wearOf d s)

/-- WEAR_REPORT. -/
def execWearReport (c : AdmCmd) (s : State) : Host.Outcome State Fault Refusal :=
  act (admin 0x50 c [] (reportBody c 64 wearRecord)) s

end Sys2Proof.Machine
end

