-- ==== Sys2Proof/Machine/Scrub.lean ====
section
/-!
DEFINITION. The scrubber, its reports, and the checker test mode (R375 to R385, R399, R405, R611, R612).
-/

namespace Sys2Proof.Machine

/-! ### Near walk (R380 to R383) -/

/-- A group of this walk may start: firmware schedules it, its gap has passed (R382). -/
def groupDue (d : Dev) (en : Bool) (id : TimerId) (gap : Nat) : Bool :=
  fwExec d && en && (!timerOn d id || timerDue d id gap)

/-- Ticks that a lap has taken. -/
def lapTicks (d : Dev) (id : TimerId) : Nat :=
  ((timerOf d id).map (timerRan d)).getD 0 / 512 % 2 ^ 32

/-- The first group at or after `n` in a segment that is in service. -/
def nearGroupFrom (d : Dev) (n : Nat) : Option Nat :=
  ((List.range 512).find? fun s => n < 64 * (s + 1) && s ∉ d.tier.nearRetired).map fun s => max n (64 * s)

/-- One near group: 8 words read through the code, corrections written back. -/
def nearGroup (g : Nat) (d : Dev) : Dev :=
  let hit := d.rep.upset.filter fun e => e.1 / 8 = g
  hit.foldl (fun d e => readNear e.1 d) d

/-- SCRUB_NEAR_GROUP. `upsets` are error patterns that have come upon near words (log entry 37). -/
def scrubNear (upsets : List (Nat × BitVec 74)) (d : Dev) : Dev :=
  let d := addUpsets upsets d
  if !groupDue d d.regs.scrubNearEn .scrubNear d.regs.nearGap then d
  else
    let d := startTimer .scrubNear d
    let d := if timerOn d .lapNear then d else startTimer .lapNear d
    match nearGroupFrom d d.rep.nearPos with
    | none => { d with rep.nearPos := 0 }
    | some g =>
      let d := nearGroup g d
      match nearGroupFrom d (g + 1) with
      | some _ => { d with rep.nearPos := g + 1 }
      | none =>
        let t := lapTicks d .lapNear
        stopTimer .lapNear { d with
          rep.nearPos := 0
          rep.nearLaps := (d.rep.nearLaps + 1) % 2 ^ 32
          rep.nearLapTicks := t }

/-- SCRUB_NEAR_GROUP. -/
def execScrubNearGroup (upsets : List (Nat × BitVec 74)) (s : State) : Host.Outcome State Fault Refusal :=
  act (scrubNear upsets) s

/-! ### Deep walk (R381 to R385) -/

/-- A deep segment is walked: it holds a copy, or reserved metadata, spares in use included. -/
def walked (d : Dev) (s : Nat) : Bool :=
  if s < 8192 then
    match tblFind d.tier.deep s with
    | some (.copy _ _ _ _ _) | some (.lent _) => true
    | _ => false
  else decide (s < 8492 + (212 - d.tier.spares)) && s ∉ d.tier.deepRetired

/-- The lowest walked segment at or after `n`. -/
def walkFrom (d : Dev) (n : Nat) : Option Nat :=
  match lowest ((tblKeys d.tier.deep).filter fun s => n ≤ s && walked d s) with
  | some s => some s
  | none => ((List.range 512).find? fun i => n ≤ 8192 + i && walked d (8192 + i)).map (8192 + ·)

/-- The next sector of the walk at or after `a`. -/
def sectorFrom (d : Dev) (a : Nat) : Option Nat := (walkFrom d (a / 128)).map fun s => max a (128 * s)

/-- A relocation that finds no segment, or a fence, waits for the next visit (R385). -/
def deferMove (d : Dev) : Dev := { d with rep.deepDeferred := sat32 d.rep.deepDeferred 1 }

/-- What the scrubber does about a two-bit sector that is no hard fault (R384, R385). -/
def moveAway (seg : Nat) (d : Dev) : Dev :=
  let move : Dev := if relocating d seg then d else (queueRelocation seg d).getD (deferMove d)
  match tblFind d.tier.deep seg with
  | some (.copy qid pos _ _ _) =>
    let q := queueOf d qid
    match segAt q pos with
    | none => d
    | some s =>
      if s.near.isSome then
        match s.deep with
        | some r => freeDeep qid seg (r.named || q.cfg.persist) (onSeg qid pos (fun s => { s with deep := none })
            { d with rep.deepRewrites := sat32 d.rep.deepRewrites 1 })
        | none => d
      else if d.epoch.sealFence && q.cfg.valid && q.cfg.persist then deferMove d
      else move
  | some (.lent _) => move
  | _ => d

/-- An uncorrectable sector under the scrubber: queue data without a near copy is damaged (R396); a reserved
copy is rewritten from its duplicate, as a hard fault (R398, R399). -/
def scrubLost (a : Nat) (d : Dev) : Dev :=
  let seg := a / 128
  let k := a % 128
  match tblFind d.tier.deep seg with
  | some (.copy qid pos _ _ _) =>
    let d := deepLost a d
    (match segAt (queueOf d qid) pos with
     | some s => if s.near.isSome then d else onQueue qid (damageBytes pos (32 * k) (32 * k + 32)) d
     | none => d)
  | some (.lent _) => deepLost a d
  | _ => countProgram seg (hardFaultDeep a { d with rep.deepUncorr := sat32 d.rep.deepUncorr 1 })

/-- What the code found in the sector of a deep group. -/
def deepGroup (a : Nat) (r : DeepRead) (d : Dev) : Dev :=
  match r with
  | .clean => d
  | .one => { d with rep.deepCorr1 := sat32 d.rep.deepCorr1 1 }
  | .two =>
    let x := twoBit a d
    if x.1 then x.2 else moveAway (a / 128) x.2
  | .uncorrectable => scrubLost a d

/-- SCRUB_DEEP_GROUP: the next sector of the walk, as the code finds it. -/
def scrubDeep (r : DeepRead) (d : Dev) : Dev :=
  if !groupDue d d.regs.scrubDeepEn .scrubDeep d.regs.deepGap then d
  else
    let d := startTimer .scrubDeep d
    let d := if timerOn d .lapDeep then d else startTimer .lapDeep d
    match sectorFrom d d.rep.deepPos with
    | none => { d with rep.deepPos := 0 }
    | some a =>
      let d := deepGroup a r d
      match sectorFrom d (a + 1) with
      | some _ => settleKeys { d with rep.deepPos := a + 1 }
      | none =>
        let t := lapTicks d .lapDeep
        settleKeys (stopTimer .lapDeep { d with
          rep.deepPos := 0
          rep.deepLaps := (d.rep.deepLaps + 1) % 2 ^ 32
          rep.deepLapTicks := t })

/-- SCRUB_DEEP_GROUP. -/
def execScrubDeepGroup (r : DeepRead) (s : State) : Host.Outcome State Fault Refusal :=
  actBacklog (scrubDeep r) s

/-! ### Reports (R405) -/

/-- The record of SCRUB_REPORT. -/
def scrubRecord (d : Dev) : Bytes :=
  let r := d.rep
  natLe 2 1 ++ natLe 2 64 ++ natLe 4 r.nearLaps ++ natLe 4 r.nearLapTicks ++ natLe 4 r.deepLaps ++
    natLe 4 r.deepLapTicks ++ natLe 4 r.nearCorr ++ natLe 4 r.nearUncorr ++ natLe 4 r.deepCorr1 ++
    natLe 4 r.deepCorr2 ++ natLe 4 r.deepUncorr ++ natLe 4 r.deepRewrites ++ natLe 4 r.deepDeferred ++
    natLe 4 r.sramCorr ++ natLe 4 r.sramUncorr ++ natLe 2 r.nearSuspects.length ++
    natLe 2 r.deepSuspects.length ++ natLe 4 0

/-- SCRUB_REPORT. -/
def execScrubReport (c : AdmCmd) (s : State) : Host.Outcome State Fault Refusal :=
  act (admin 0x51 c [] (reportBody c 64 scrubRecord)) s

/-- One entry of a remap table in the report. -/
def remapEntry (l : List Remap) (i : Nat) : Nat :=
  match l.find? fun r => r.spare = i with
  | some r => r.addr + i * 2 ^ 24 + 2 ^ 31
  | none => 0

/-- Groups whose spare holds a lane of the list. -/
def groupsOf (l : List Lane) : Nat := (l.map (·.group)).dedup.length

/-- Entries of the retired list: near, then deep, then what is retire-pending. -/
def retiredEntries (d : Dev) : List Nat :=
  d.tier.nearRetired ++ d.tier.deepRetired.map (· + 2 ^ 15) ++ d.tier.nearPending.map (· + 2 ^ 16) ++
    d.tier.deepPending.map (· + 2 ^ 15 + 2 ^ 16)

/-- The record of REMAP_REPORT. -/
def remapRecord (d : Dev) : Bytes :=
  let r := d.rep
  natLe 2 1 ++ natLe 2 64 ++
    natLe 4 (r.nearRemap.length + r.deepRemap.length * 2 ^ 8 + (retiredEntries d).length * 2 ^ 16) ++
    natLe 2 r.factoryNear.length ++ natLe 2 r.factoryDeep.length ++ natLe 2 (groupsOf r.lanesFactory) ++
    natLe 2 (groupsOf r.lanesField) ++
    natLe 4 (flagAt r.core 0 + flagAt r.core0Fail 1 + flagAt r.core1Fail 2 + flagAt (!r.lanePend.isEmpty) 3) ++
    List.replicate 44 0 ++
    ((List.range 32).flatMap fun i => natLe 8 (remapEntry r.nearRemap i)) ++
    ((List.range 64).flatMap fun i => natLe 8 (remapEntry r.deepRemap i)) ++
    (retiredEntries d).flatMap fun e => natLe 4 e

/-- REMAP_REPORT. -/
def execRemapReport (c : AdmCmd) (s : State) : Host.Outcome State Fault Refusal :=
  act (admin 0x52 c [] (reportBody c 64 remapRecord)) s

/-! ### Checker test mode (R377 to R379, R611, R612) -/

/-- What ECC_TEST_RESULT shows after a READ (R378). -/
structure EccRes where
  raw : BitVec 256
  check : BitVec 20
  valid : BitVec 2
  synd : BitVec 20
  cls : BitVec 3
  corr : BitVec 256

/-- A near test word as the decoder sees it (R369 to R371, R378). -/
def eccNear (t : TestWord) : EccRes :=
  let w : BitVec 64 := t.data.setWidth 64
  let r := decodeNear w (t.check.setWidth 8)
  { raw := w.setWidth 256, check := t.check &&& 0xFF, valid := BitVec.ofNat 2 (validPair t.valid)
    synd := BitVec.ofNat 20 r.synd
    cls := if t.valid then BitVec.ofNat 3 r.cls else 4
    corr := r.data.setWidth 256 }

/-- Bit positions of the 276-bit deep codeword whose error has this syndrome: data bits below 256. The code is
linear (log entry 5). -/
def deepFlip (c : BitVec 256 → BitVec 20) (i : Nat) : BitVec 20 :=
  if i < 256 then c (1 <<< i) else 1 <<< (i - 256)

/-- The error of weight 1 or 2 that a syndrome names (R374). -/
def deepError (c : BitVec 256 → BitVec 20) (s : BitVec 20) : Option (List Nat) :=
  match (List.range 276).find? fun i => deepFlip c i = s with
  | some i => some [i]
  | none =>
    ((List.range 276).findSome? fun i =>
      ((List.range i).find? fun j => deepFlip c i ^^^ deepFlip c j = s).map fun j => [j, i])

/-- A deep test sector as the code sees it (R374, R378). -/
def eccDeep (t : TestWord) : EccRes :=
  let s := Config.deepCheck t.data ^^^ t.check
  let base : EccRes := { raw := t.data, check := t.check, valid := 0, synd := s, cls := 0, corr := t.data }
  if s = 0 then base
  else match deepError Config.deepCheck s with
    | none => { base with cls := 3 }
    | some e => { base with
        cls := BitVec.ofNat 3 e.length
        corr := e.foldl (fun d i => if i < 256 then d ^^^ (1 <<< i) else d) t.data }

/-- A GO of ECC_TEST_CTL with the fields of its write, which are stored in any case (R377, R611, R612). WRITE and PROGRAM act on the test
segment; a READ's result is taken and shown when the operation ends. OP 0b11 is reserved: its caller stops. -/
def eccGo (op : Nat) (deep valid : Bool) (index : Nat) (d : Dev) : Dev :=
  let index := if deep then min 127 index else index
  let d := { d with ecc.op := BitVec.ofNat 2 op, ecc.deep := deep, ecc.valid := valid, ecc.index := BitVec.ofNat 9 index }
  if !d.ecc.en || d.ecc.busy || !fwRunning d then d
  else
    let d := { d with ecc.busy := true, ecc.run := if op = 2 then some (deep, BitVec.ofNat 9 index) else none }
    let e := d.ecc
    match op, deep with
    | 0, false =>
      let w : TestWord := { data := (e.data.setWidth 64).setWidth 256, check := e.check &&& 0xFF, valid }
      { d with ecc.nearSeg := tblSet {} e.nearSeg index w }
    | 0, true => { d with ecc.buf := tblPut e.buf index { data := e.data, check := e.check } }
    | 1, true =>
      { d with
        ecc.deepSeg := (List.range 128).map fun k =>
          (k, (tblFind e.buf k).getD { data := 0, check := Config.deepCheck 0 })
        ecc.buf := [] }
    | _, _ => d

/-- The operation in ECC_TEST_CTL ends: BUSY falls, and a READ has its result (R378). -/
def eccDone (d : Dev) : Dev :=
  if !d.ecc.busy then d
  else
    let e := { d.ecc with busy := false, run := none }
    match d.ecc.run with
    | none => { d with ecc := e }
    | some x =>
      let r := if x.1 then eccDeep (tblGet {} e.deepSeg (x.2.toNat % 128))
        else eccNear (tblGet {} e.nearSeg x.2.toNat)
      { d with ecc := { e with raw := r.raw, rawCheck := r.check, rawValid := r.valid, synd := r.synd,
                               cls := r.cls, corr := r.corr } }

/-- A host write of ECC_TEST_CTL that sets GO and leaves EN as it is. -/
def eccCommand (op : Nat) (deep valid : Bool) (index : Nat) (d : Dev) : Dev :=
  if hostReach d then eccGo op deep valid index d else d

/-- ECC_TEST_WRITE. -/
def execEccTestWrite (index : BitVec 9) (deep valid : Bool) (s : State) : Host.Outcome State Fault Refusal :=
  act (eccCommand 0 deep valid index.toNat) s

/-- ECC_TEST_PROGRAM: of the deep tier. -/
def execEccTestProgram (s : State) : Host.Outcome State Fault Refusal := act (eccCommand 1 true false 0) s

/-- ECC_TEST_READ. -/
def execEccTestRead (index : BitVec 9) (deep : Bool) (s : State) : Host.Outcome State Fault Refusal :=
  act (eccCommand 2 deep false index.toNat) s

/-- ECC_TEST_DONE. -/
def execEccTestDone (s : State) : Host.Outcome State Fault Refusal := act eccDone s

end Sys2Proof.Machine
end

