-- ==== Sys2Proof/Machine/Fuse.lean ====
section
/-!
DEFINITION. The fuse array: rows and redirection, the security word, shadows and locks, fuse operations, and
what boot takes from the array (R493 to R522, R614 to R616).
-/

namespace Sys2Proof.Machine

/-! ### The array (R498, R508, R516) -/

/-- Majority of three bits. -/
def maj (a b c : Bool) : Bool := (a && b) || (a && c) || (b && c)

/-- Bitwise majority. -/
def majBits {n : Nat} (a b c : BitVec n) : BitVec n := (a &&& b) ||| (a &&& c) ||| (b &&& c)

/-- A redirection entry as sensed (R493). -/
def redirOf (d : Dev) (s : Nat) : Redir :=
  let e := tblGet ({}, {}, {}) d.fuse.redir s
  { row := majBits e.1.row e.2.1.row e.2.2.row, valid := maj e.1.valid e.2.1.valid e.2.2.valid }

/-- The array row that a row names: its spare, the highest when two entries name it (R517), or itself. -/
def arrayRow (d : Dev) (r : Nat) : Nat :=
  match (List.range 8).reverse.find? fun s => (redirOf d s).valid && (redirOf d s).row.toNat == r with
  | some s => 256 + s
  | none => r

/-- Bits that hold any burn: a MARGIN_LO read. -/
def rowLo (d : Dev) (r : Nat) : BitVec 256 := tblGet 0 d.fuse.lo (arrayRow d r)

/-- Bits fully burned: a MARGIN_HI read. -/
def rowHi (d : Dev) (r : Nat) : BitVec 256 := tblGet 0 d.fuse.hi (arrayRow d r)

/-- A NORMAL read with these free bits for the weak ones (R508). -/
def rowWith (d : Dev) (r : Nat) (f : BitVec 256) : BitVec 256 :=
  if rowLo d r = rowHi d r then rowHi d r else rowHi d r ||| (rowLo d r &&& f)

/-- A NORMAL read now: a weak bit is free (log entry 3). -/
def burnedRow (d : Dev) (r : Nat) : BitVec 256 := rowWith d r (Config.freeBits d.free)

/-- The 32 bytes of a row. -/
def rowBytes (w : BitVec 256) : Bytes := natLe 32 w.toNat

/-- The majority of the three copies of a security word (R498). -/
def secMaj (w : BitVec 256) : BitVec 64 :=
  majBits (w.setWidth 64) ((w >>> 64).setWidth 64) ((w >>> 128).setWidth 64)

/-- The burned security word. -/
def burnedSec (d : Dev) : BitVec 64 := secMaj (burnedRow d 3)

/-- Region of a row, which is its OTP_LOCK bit. -/
def regionOf (r : Nat) : Nat :=
  if r ≤ 2 then 0 else if r = 3 then 1 else if r ≤ 15 then 2 else if r ≤ 23 then 3
  else if r ≤ 95 then 4 else if r ≤ 159 then 5 else if r ≤ 223 then 6 else 7

/-- The region of a row is locked (R500). -/
def rowLocked (d : Dev) (r : Nat) : Bool := d.fuse.otpLock.getLsbD (regionOf r)

/-! ### Effective values (R503 to R505) -/

/-- Overrides of row 3 act (R504). -/
def secOverridden (d : Dev) : Bool := !d.fuse.otpLock.getLsbD 1 && !(burnedSec d).getLsbD 5

/-- The effective security word. -/
def effSec (d : Dev) : BitVec 64 := if secOverridden d then burnedSec d ||| d.fuse.shdSec else burnedSec d

/-- Overrides of rows 160 to 162 act (R504). -/
def custOverridden (d : Dev) : Bool := !d.fuse.otpLock.getLsbD 6 && !(burnedSec d).getLsbD 4

/-- The effective subsystem word: SSVID, SSID, SSID_VALID (R520). -/
def effSsid (d : Dev) : BitVec 33 :=
  let b := (burnedRow d 160).setWidth 33
  if custOverridden d then b ||| d.fuse.shdSsid else b

/-- The burned customer key hash, byte 0 lowest (R520). -/
def burnedKeyHash (d : Dev) : BitVec 384 :=
  (burnedRow d 161).setWidth 384 ||| (((burnedRow d 162).setWidth 128).setWidth 384 <<< 256)

/-- The effective customer key hash. -/
def effKeyHash (d : Dev) : BitVec 384 :=
  if custOverridden d then burnedKeyHash d ||| d.fuse.shdKey else burnedKeyHash d

/-- A security-word field that boot step 3 drove onto its wire (R493, R505). -/
def secBit (d : Dev) (i : Nat) : Bool := d.fuse.secWord.getLsbD i

/-- PRODUCTION (R498). -/
def production (d : Dev) : Bool := secBit d 0 || secBit d 1

/-- DEBUG_LOCK is effectively 1. -/
def debugLocked (d : Dev) : Bool := secBit d 2

/-- CUST_KEY_EN is effectively 1. -/
def custKeyEn (d : Dev) : Bool := secBit d 3

/-- Subsystem IDs of the next configuration-space reset (R190, R505, R520). -/
def takeSsid (d : Dev) : Dev :=
  let w := effSsid d
  if w.getLsbD 32 then { d with link.ssvid := w.setWidth 16, link.ssid := (w >>> 16).setWidth 16 }
  else { d with link.ssvid := 0x1F5E, link.ssid := 0x3401 }

/-! ### Identity material in the array -/

/-- The bytes of rows [a, a + n). -/
def rowsBytes (d : Dev) (a n : Nat) : Bytes := (List.range n).flatMap fun i => rowBytes (burnedRow d (a + i))

/-- Length of the DER object at the start of a byte string. -/
def derLen (bs : Bytes) : Nat :=
  let l := leAt bs 1 1
  if l < 0x80 then 2 + l
  else if l = 0x81 then 3 + leAt bs 2 1
  else 4 + beNat (sliceBytes bs 2 2)

/-- The device certificate, without the zeros behind it (R524). -/
def certBytes (d : Dev) : Bytes :=
  let bs := rowsBytes d 24 72
  bs.take (derLen bs)

/-- Device Serial Number (R190): bytes 40 to 47 of the digest of the certificate, byte 40 highest; byte 0 is the
digest's most significant. -/
def serialNumber (d : Dev) : Nat := (Config.sha384 (certBytes d)).toNat % 2 ^ 64

/-- The identity private key. -/
def idKey (d : Dev) : BitVec 384 := Config.identityKey (rowsBytes d 16 8)

/-! ### Boot step 3 and step 4, step 6 (R493 to R497, R501, R519) -/

/-- ROW_CHECK of a row holds (R494). -/
def rowOk (w : BitVec 256) : Bool := crc16 (sliceBytes (rowBytes w) 0 30) = leAt (rowBytes w) 30 2

/-- Rows with repair entries, in the order in which they take effect (R496). -/
def repairRows : List Nat := [1, 2] ++ (List.range 12).map (· + 4)

/-- The 15 entries of a repair row. -/
def repairEntries (w : BitVec 256) : List Nat := (List.range 15).map fun e => bitsOf w.toNat (16 * e) 16

/-- One repair entry applied to the factory maps (R497). An entry that names no lane group is ignored. -/
def applyRepair (r : Rep) (e : Nat) : Rep :=
  let i := bitsOf e 2 14
  match bitsOf e 0 2 with
  | 1 =>
    if 1152 ≤ i / 8 || r.lanesFactory.any fun l => l.group = i / 8 then r
    else { r with lanesFactory := r.lanesFactory ++ [{ group := i / 8, lane := i % 8 }] }
  | 2 => if r.factoryNear.length < 16 then { r with factoryNear := r.factoryNear ++ [i] } else r
  | 3 => if r.factoryDeep.length < 32 then { r with factoryDeep := r.factoryDeep ++ [i] } else r
  | _ => r

/-- Mid-scale trims: 0x20 for each 6-bit field and 0x200 for TRIM_TICK (R495). -/
def midTrims : BitVec 40 :=
  BitVec.ofNat 40 (0x20 + 0x20 * 2 ^ 6 + 0x20 * 2 ^ 12 + 0x200 * 2 ^ 18 + 0x20 * 2 ^ 28 + 0x20 * 2 ^ 34)

/-- Boot steps 3 and 4: the critical and repair rows are sensed and checked, the trim and security wires take their
values, the factory maps are built (R493 to R497, R505). Weak bits are free. -/
def senseFuses (d : Dev) : Dev :=
  let bad := (0 :: repairRows).filter fun r => !rowOk (burnedRow d r)
  let good := repairRows.filter fun r => r ∉ bad
  let rep := (good.flatMap fun r => repairEntries (burnedRow d r)).foldl applyRepair
    { d.rep with lanesFactory := [], factoryNear := [], factoryDeep := [] }
  { d with
    rep
    fuse.trims := if 0 ∈ bad then midTrims else (burnedRow d 0).setWidth 40
    fuse.trimBad := decide (0 ∈ bad)
    fuse.secWord := effSec d
    fuse.critBad := !bad.isEmpty
    err.badRows := bad
    free := d.free + 1 }

/-- The OTP_LOCK bits that the ROM sets at step 6 (R501). -/
def romLocks (d : Dev) : BitVec 8 :=
  if production d then 0xBD ||| (if secBit d 5 then 0x02 else 0) ||| (if secBit d 4 then 0x40 else 0) else 0

/-- Where a patch entry stands (R518, R519). -/
inductive PatchState where
  | blank
  | loaded
  | skipped
deriving DecidableEq, Repr

/-- What the patch loader makes of one entry. -/
def patchState (bs : Bytes) : PatchState :=
  let w := leAt bs 0 4
  if !bitOf w 16 then .blank
  else if !bitOf w 17 && leAt bs 4 4 = crc32 (sliceBytes bs 0 4 ++ sliceBytes bs 8 24) &&
      decide (bitsOf w 0 14 + bitsOf w 14 2 < 12288) then .loaded
  else .skipped

/-- Step 6: locks and patches (R501, R519). -/
def romStep (d : Dev) : Dev :=
  let rows := (List.range 64).map fun i => (i, burnedRow d (96 + i))
  { d with
    fuse.otpLock := d.fuse.otpLock ||| romLocks d
    fuse.patches := rows.filter fun x => patchState (rowBytes x.2) = .loaded
    fuse.patchSkipped := (rows.filter fun x => patchState (rowBytes x.2) = .skipped).length
    free := d.free + 1 }

/-- A ROM word as the Shuttle fetches it: of the highest patch that covers it, else the ROM's (R519). -/
def romFetch (d : Dev) (w : Nat) : Word :=
  match d.fuse.patches.reverse.findSome? fun x =>
    let bs := rowBytes x.2
    let first := bitsOf (leAt bs 0 4) 0 14
    let n := bitsOf (leAt bs 0 4) 14 2 + 1
    if first ≤ w && w < first + n then some (BitVec.ofNat 32 (leAt bs (8 + 4 * (w - first)) 4)) else none with
  | some v => v
  | none => Config.romWord w

/-! ### Operations (R506 to R517) -/

/-- The device takes a GO (R506). -/
def fuseReady (d : Dev) : Bool := !d.fuse.busy && fwRunning d

/-- The fields of FUSE_CTL as the GO write leaves them. -/
def fuseCtl (op mode word row : Nat) (d : Dev) : Dev :=
  { d with fuse.op := BitVec.ofNat 2 op, fuse.mode := BitVec.ofNat 2 mode, fuse.word := BitVec.ofNat 3 word,
           fuse.row := BitVec.ofNat 8 row }

/-- Words that a BURN pulses for one bit of its mask (R498). -/
def burnWords (row word : Nat) : List Nat := if row = 3 then [word, word + 2, word + 4] else [word]

/-- A BURN as a sequence of bit loops: what becomes of each bit that is not fully burned already, in order
(R498, R509, R510). `tasks` are mask bit and row bit. -/
def planBurn (hi : BitVec 256) : List (Nat × Nat) → List BurnOutcome → List (Nat × BurnOutcome) × Nat × Nat
  | [], _ => ([], 0, 0)
  | t :: ts, os =>
    if hi.getLsbD t.2 then planBurn hi ts os
    else
      let o := os.headD .burned
      match o with
      | .tempRange => ([], 0x89, 0)
      | .failBlank => ([(t.2, o)], 0x8A, t.1)
      | .failWeak => ([(t.2, o)], 0x8A, t.1)
      | _ =>
        let r := planBurn hi ts (os.drop 1)
        ((t.2, o) :: r.1, r.2.1, r.2.2)

/-- A burn that is refused before any pulse: a locked region, a word of row 3 that is no word of copy 0, a bit of
row 3 that PRODUCTION protects (R498 to R500). -/
def burnRefused (d : Dev) (row word : Nat) (mask : Word) : Bool :=
  rowLocked d row || (row = 3 && (decide (2 ≤ word) ||
    (production d && (word ≠ 0 || mask &&& ~~~0x3C#32 ≠ 0))))

/-- GO with OP BURN. -/
def burnStart (row word : Nat) (outcomes : List BurnOutcome) (d : Dev) : Dev :=
  let mask := d.fuse.mask
  let run : BurnRun :=
    if burnRefused d row word mask then { row, word, steps := [], code := 0x88, bit := 0 }
    else
      let tasks := ((List.range 32).filter fun b => mask.getLsbD b).flatMap fun b =>
        (burnWords row word).map fun w => (b, 32 * w + b)
      let p := planBurn (rowHi d row) tasks outcomes
      { row, word, steps := p.1, code := BitVec.ofNat 8 p.2.1, bit := BitVec.ofNat 5 p.2.2 }
  { d with fuse.busy := true, fuse.burn := some run }

/-- One bit of the array after its loop: any burn, and fully burned. -/
def markBit (row : Nat) (x : Nat × BurnOutcome) (d : Dev) : Dev :=
  let a := arrayRow d row
  let on : BitVec 256 := 1 <<< x.1
  let lo := match x.2 with
    | .burned | .weak | .failWeak => on
    | _ => 0
  let hi := match x.2 with
    | .burned => on
    | _ => 0
  { d with fuse.lo := tblModify 0 d.fuse.lo a (· ||| lo), fuse.hi := tblModify 0 d.fuse.hi a (· ||| hi) }

/-- Weak bits of a word of a row. -/
def weakOf (d : Dev) (row word : Nat) : Word := ((rowLo d row ^^^ rowHi d row) >>> (32 * word)).setWidth 32

/-- A BURN ends (R498, R510, R511). -/
def burnEnd (b : BurnRun) (d : Dev) : Dev :=
  let d := b.steps.foldl (fun d x => markBit b.row x d) d
  let weak := (burnWords b.row b.word).foldl (fun w k => w ||| weakOf d b.row k) 0
  let d := { d with fuse.busy := false, fuse.burn := none, fuse.code := b.code }
  if b.code = 0x88 then { d with fuse.weak := false, fuse.bit := 0 }
  else { d with fuse.weak := b.code == 0 && weak ≠ 0, fuse.bit := b.bit, fuse.weakMask := weak }

/-- Sets FUSE_RESULT of an operation without weak bits or a failing bit. -/
def fuseResult (code : Nat) (d : Dev) : Dev :=
  { d with fuse.busy := false, fuse.code := BitVec.ofNat 8 code, fuse.weak := false, fuse.bit := 0 }

/-- A READ ends (R506 to R508). -/
def readEnd (mode : BitVec 2) (row : BitVec 8) (d : Dev) : Dev :=
  let r := row.toNat
  if 16 ≤ r && r ≤ 23 then fuseResult 0x88 { d with fuse.data := 0 }
  else
    let w := if mode = 1 then rowLo d r else if mode = 2 then rowHi d r else burnedRow d r
    fuseResult 0 { d with fuse.data := w, free := d.free + 1 }

/-- A REDIRECT ends (R516, R517). -/
def redirectEnd (row : BitVec 8) (d : Dev) : Dev :=
  let r := row.toNat
  if rowLocked d r then fuseResult 0x88 d
  else match (List.range 8).find? fun s => !(redirOf d s).valid with
    | none => fuseResult 0x8B d
    | some s =>
      let e : Redir := { row, valid := true }
      fuseResult 0 { d with fuse.redir := tblPut d.fuse.redir s (e, e, e) }

/-- FUSE_OP_DONE: the operation under way ends; the firmware carries it out, a BURN without a halt (R506,
R581). -/
def fuseDone (d : Dev) : Dev :=
  if !d.fuse.busy || d.pwr.standby then d
  else match d.fuse.burn with
    | some b => burnEnd b d
    | none =>
      match d.fuse.run with
      | none => d
      | some x =>
        if !fwExec d then d
        else
          let d := { d with fuse.run := none }
          if x.1 = 2 then redirectEnd x.2.2 d else readEnd x.2.1 x.2.2 d

/-- FUSE_OP_DONE. -/
def execFuseOpDone (s : State) : Host.Outcome State Fault Refusal := act fuseDone s

/-- GO of a fuse operation, with the fields of its write, which are stored in any case; without an effect while BUSY
is 1 or before FW_RUNNING (R506). -/
def fuseGo (op mode word row : Nat) (outcomes : List BurnOutcome) (d : Dev) : Dev :=
  let d := fuseCtl op mode word row d
  if !fuseReady d then d
  else if op = 1 then burnStart row word outcomes d
  else { d with fuse.busy := true, fuse.run := some (BitVec.ofNat 2 op, BitVec.ofNat 2 mode, BitVec.ofNat 8 row) }

/-- FUSE_READ; MODE 0b11 is reserved (R614), and the spec gives such a read no effect. -/
def execFuseRead (row : BitVec 8) (mode : BitVec 2) (s : State) : Host.Outcome State Fault Refusal :=
  if hostReach s.dev && fuseReady s.dev && mode = 3 then .fault .reservedOperation
  else act (fun d => if hostReach d then fuseGo 0 mode.toNat d.fuse.word.toNat row.toNat [] d else d) s

/-- FUSE_BURN. The outcomes are those of the bits pulsed, in order. -/
def execFuseBurn (row : BitVec 8) (word : BitVec 3) (outcomes : List BurnOutcome) (s : State) :
    Host.Outcome State Fault Refusal :=
  act (fun d => if hostReach d then fuseGo 1 d.fuse.mode.toNat word.toNat row.toNat outcomes d else d) s

/-- FUSE_REDIRECT. -/
def execFuseRedirect (row : BitVec 8) (s : State) : Host.Outcome State Fault Refusal :=
  act (fun d => if hostReach d then fuseGo 2 d.fuse.mode.toNat d.fuse.word.toNat row.toNat [] d else d) s

/-- What becomes of a bit whose pulse a reset has ended: 0, weak or 1 (R514), free. -/
def cutOutcome (f : BitVec 256) : BurnOutcome :=
  if f.getLsbD 0 then .burned else if f.getLsbD 1 then .weak else .failBlank

/-- A reset of DEVICE scope, or a loss of VIN, during a fuse operation (R514): of a BURN a free number of bits is
done, the next one is 0, weak or 1, and the rest is unchanged. -/
def cutFuse (record : Bool) (d : Dev) : Dev :=
  match d.fuse.burn with
  | some b =>
    let f := takeFree d
    let d := f.2
    let k := (f.1 >>> 8).toNat % (b.steps.length + 1)
    let done := b.steps.take k ++ ((b.steps.drop k).take 1).map fun x => (x.1, cutOutcome f.1)
    let d := done.foldl (fun d x => markBit b.row x d) d
    let d := { d with fuse.burn := none, fuse.busy := false }
    if record then { d with fuse.intrRow := BitVec.ofNat 8 b.row, fuse.intrWord := BitVec.ofNat 3 b.word, fuse.intrValid := true }
    else d
  | none => { d with fuse.busy := false, fuse.run := none }

/-! ### Locks and overrides (R500, R503) -/

/-- A write of OTP_LOCK: bits are only set. -/
def setLock (v : BitVec 8) (d : Dev) : Dev := { d with fuse.otpLock := d.fuse.otpLock ||| v }

/-- OTP_LOCK_WRITE. -/
def execOtpLockWrite (v : BitVec 8) (s : State) : Host.Outcome State Fault Refusal :=
  act (fun d => if hostReach d then setLock v d else d) s

/-- A write of a shadow register ORs into its override; one of a locked region is ignored (R500, R503). -/
def setShadow (off : Nat) (v : Word) (d : Dev) : Dev :=
  let sec := d.fuse.otpLock.getLsbD 1
  let cust := d.fuse.otpLock.getLsbD 6
  if off = 0x0540 ∨ off = 0x0544 then
    if sec then d else { d with fuse.shdSec := d.fuse.shdSec ||| (v.setWidth 64 <<< (8 * (off - 0x0540))) }
  else if off = 0x0548 then
    if cust then d else { d with fuse.shdSsid := d.fuse.shdSsid ||| v.setWidth 33 }
  else if off = 0x054C then
    if cust then d else { d with fuse.shdSsid := d.fuse.shdSsid ||| ((v &&& 1).setWidth 33 <<< 32) }
  else if 0x0550 ≤ off ∧ off ≤ 0x057C ∧ off % 4 = 0 then
    if cust then d else { d with fuse.shdKey := d.fuse.shdKey ||| (v.setWidth 384 <<< (8 * (off - 0x0550))) }
  else d

/-- SHADOW_OVERRIDE_WRITE. -/
def execShadowOverrideWrite (off : BitVec 13) (v : Word) (s : State) : Host.Outcome State Fault Refusal :=
  act (fun d => if hostReach d then setShadow off.toNat v d else d) s

end Sys2Proof.Machine
end

