-- ==== Sys2Proof/Machine/Keys.lean ====
section
/-!
DEFINITION. KEY_LOAD, KEY_ERASE and its instant, the deferred rewrite, KEY_STATUS (R533 to R550).
-/

namespace Sys2Proof.Machine

/-- The bytes of an ASCII text. -/
def asciiBytes (s : String) : Bytes := s.toList.map fun c => BitVec.ofNat 8 c.toNat

/-- A curve point of 96 bytes, X then Y, each most significant byte first. -/
def pointOf (bs : Bytes) : BitVec 768 := BitVec.ofNat 768 (beNat bs)

/-- A P-384 signature as 96 bytes: r then s. -/
def sigOf (bs : Bytes) : BitVec 768 := BitVec.ofNat 768 (beNat bs)

/-- The prime of P-384's field (FIPS 186-5, log entry 4). -/
def p384 : Nat := 2 ^ 384 - 2 ^ 128 - 2 ^ 96 + 2 ^ 32 - 1

/-- The coefficient b of P-384. -/
def p384b : Nat :=
  0xB3312FA7E23EE7E4988E056BE3F82D19181D9C6EFE8141120314088F5013875AC656398D8A2ED19D2A85C8EDD3EC2AEF

/-- The order n of P-384. -/
def p384n : Nat :=
  0xFFFFFFFFFFFFFFFFFFFFFFFFFFFFFFFFFFFFFFFFFFFFFFFFC7634D81F4372DDF581A0DB248B0A77AECEC196ACCC52973

/-- The point, X then Y, lies on P-384 (R531, R537): y² = x³ - 3x + b. -/
def onCurve (pt : BitVec 768) : Bool :=
  let x := pt.toNat / 2 ^ 384
  let y := pt.toNat % 2 ^ 384
  decide (x < p384) && decide (y < p384) && decide ((y * y + 3 * x) % p384 = (x * x * x + p384b) % p384)

/-- r and s lie in 1 to n - 1 (R531). -/
def sigInRange (sig : BitVec 768) : Bool :=
  let r := sig.toNat / 2 ^ 384
  let s := sig.toNat % 2 ^ 384
  decide (1 ≤ r) && decide (r < p384n) && decide (1 ≤ s) && decide (s < p384n)

/-- The signature check of R531. -/
def ecdsaOk (key : BitVec 768) (digest : BitVec 384) (sig : BitVec 768) : Bool :=
  onCurve key && sigInRange sig && Config.ecdsaVerify key digest sig

/-- The key record can be written: its segments are in service, or a spare has taken their place (R395, R537). -/
def keyStoreOk (d : Dev) : Bool :=
  !(d.tier.exhausted && d.tier.deepRetired.any fun s => s = 8482 || s = 8483)

/-! ### KEY_LOAD (R535 to R538) -/

/-- The wrapped key agrees with its format and with the command (R535, R537). -/
def wrapOk (c : AdmCmd) (bs : Bytes) : Bool :=
  let w := leAt bs 4 4
  c.len = 224 && leAt bs 0 4 = 0x4B573334 && bitsOf w 0 8 = 1 && bitsOf w 8 4 = bitsOf c.arg0.toNat 0 4 &&
    bitOf w 12 = bitOf c.flags.toNat 0 && bitsOf w 13 3 = 0 && leAt bs 8 8 = 0

/-- The 64 key bytes of a wrapped key; none when its point is not on the curve or its tag fails (R536, R537). -/
def unwrapKey (d : Dev) (slot gen : Nat) (bs : Bytes) : Option Bytes :=
  if !onCurve (pointOf (sliceBytes bs 0x30 96)) then none
  else match Config.ecdhX (idKey d) (pointOf (sliceBytes bs 0x30 96)) with
  | none => none
  | some z =>
    let info := asciiBytes "QM-34 KEY_LOAD" ++ natLe 8 (serialNumber d) ++ natLe 1 slot ++ natLe 2 gen
    let okm := Config.hkdf (natBe 48 z.toNat) (sliceBytes bs 0x10 32) info 44
    Config.gcmOpen (sliceBytes okm 0 32) (sliceBytes okm 32 12) (sliceBytes bs 0 0x90)
      (sliceBytes bs 0x90 64) (sliceBytes bs 0xD0 16)

/-- The generation after another (R538). -/
def nextGen (g : Nat) : Nat := if g = 0xFFFF then 1 else g + 1

/-- A slot after a new key: installed at once when it is empty, else pending in place of an earlier one (R538). -/
def holdKey (k : KeySlot) (v : KeyVal) : KeySlot :=
  if k.installed.isNone then { k with installed := some v, counter := v.gen }
  else { k with pending := some v, counter := v.gen }

/-- The body of KEY_LOAD: the checks of R537 in order, and R538. -/
def keyLoadBody (c : AdmCmd) (buf : Bytes) (_ : AdmRun) (d : Dev) : Dev × Option AdmRes :=
  let slot := bitsOf c.arg0.toNat 0 4
  let k := slotOf d slot
  if slot < 2 then ends (failWith 0x80) d
  else if !wrapOk c buf then ends (failWith 0x82) d
  else if leAt buf 6 2 ≠ k.counter then ends (failWith 0x84) d
  else match unwrapKey d slot k.counter buf with
    | none => ends (failWith 0x81) d
    | some key =>
      if sliceBytes key 0 32 = sliceBytes key 32 32 then ends (failWith 0x82) d
      else if !keyStoreOk d then ends (failWith 0x85) d
      else
        let gen := nextGen k.counter
        let v : KeyVal := { key, gen, persist := bitOf c.flags.toNat 0 }
        ends (okWith gen 0) (settleKey slot (writeKeyRecord (putSlot slot (holdKey k v) d)))

/-- KEY_LOAD. -/
def execKeyLoad (c : AdmCmd) (buf : Bytes) (s : State) : Host.Outcome State Fault Refusal :=
  act (admin 0x40 c buf (keyLoadBody c buf)) s

/-- KEY_INSTALL_PENDING: the use count of a slot has reached 0 (R539). -/
def execKeyInstallPending (slot : BitVec 4) (s : State) : Host.Outcome State Fault Refusal :=
  act (settleKey slot.toNat) s

/-! ### KEY_ERASE (R546 to R549) -/

/-- A queue is bound to a slot. -/
def boundTo (slot : Nat) (q : Queue) : Bool := q.cfg.valid && q.cfg.slot.toNat == slot

/-- Live valid queues bound to a slot. -/
def boundCount (d : Dev) (slot : Nat) : Nat := (d.queues.filter fun e => boundTo slot e.2).length

/-- The unseal record that an erase of a PERSISTENT queue's key writes first (R358, R546); not while a STANDBY
request is pending (R492). -/
def eraseUnseal (slot : Nat) (d : Dev) : Dev :=
  if !d.epoch.allFence && d.queues.any fun e => boundTo slot e.2 && e.2.cfg.persist then writeUnseal d else d

/-- The body of KEY_ERASE up to its fence (R534, R546). -/
def keyEraseBody (c : AdmCmd) (r : AdmRun) (d : Dev) : Dev × Option AdmRes :=
  let slot := bitsOf c.arg0.toNat 0 4
  if slot < 2 then ends (failWith 0x80) d
  else if (slotOf d slot).installed.isNone then ends (okWith (boundCount d slot) 0) d
  else if !keyStoreOk d then ends (failWith 0x85) d
  else
    runsOn r (.erase slot) { eraseUnseal slot d with epoch.eraseFence := some slot }

/-- KEY_ERASE. -/
def execKeyErase (c : AdmCmd) (s : State) : Host.Outcome State Fault Refusal :=
  act (admin 0x41 c [] (unlessBusy (keyEraseBody c))) s

/-- What the instant does to a bound queue (R547). -/
def eraseQueue (q : Queue) : Queue :=
  let hurt (i : Item) : Item := { i with damaged := true }
  abortPacket { q with items := q.items.map hurt, retained := q.retained.map hurt, stDamaged := true }

/-- A queue's near copies lose their valid bits: an error in them means nothing any more (R370, R547). -/
def eraseNear (q : Queue) (d : Dev) : Dev := (q.chain.filterMap (·.near)).foldl (fun d n => wipeNear n d) d

/-- The descriptor of a fill ring that is in progress for a bound queue (R548). -/
def eraseFill (slot : Nat) (e : Nat × FillRing) (d : Dev) : Dev :=
  match e.2.cur with
  | some c =>
    if isLocal d c.qid && boundTo slot (queueOf d (c.qid % 4096)) then
      finishFill e.1 0x83 false (abortRingOn e.1 c.qid d)
    else d
  | none => d

/-- A drain transfer of a bound queue ends (R548). -/
def eraseXfer (d : Dev) (slot : Nat) (r : DrainRing) : DrainRing :=
  match r.xfer with
  | some x =>
    if x.remote.isNone && boundTo slot (queueOf d (x.qid % 4096)) then
      { r with xfer := some { x with ended := true, status := 0x83 } }
    else r
  | none => r

/-- A segment on its way to a lender under the slot goes back (R548). -/
def eraseBorrow (slot : Nat) (p : Prog) (d : Dev) : Dev :=
  match p.what with
  | .borrow qid pos node _ h =>
    if p.slot ≠ slot then d
    else
      let d := onQueue qid (setProg pos .none) { d with tier.active := d.tier.active.filter (· ≠ p) }
      (match h with
       | some h => sendSeq node 8 (segPayload 8 h false 0 0 qid []) d
       | none => d)
  | _ => d

/-- A program under the slot ends: its segment goes back, and the items stay in the near tier, damaged (R547, R548). -/
def eraseProg (slot : Nat) (p : Prog) (d : Dev) : Dev :=
  match p.what, p.seg with
  | .spill qid pos, some seg =>
    if p.slot ≠ slot then d
    else
      let d := { d with tier.active := d.tier.active.filter (· ≠ p) }
      freeDeep qid seg false (onQueue qid (setProg pos .none) d)
  | _, _ => d

/-- The instant of effect of KEY_ERASE, the second copy, and the end of the fence (R546, R547, R548). -/
def eraseInstant (d : Dev) : Dev :=
  match d.epoch.eraseFence with
  | none => d
  | some slot =>
    if d.epoch.allFence then d else
    let d := eraseUnseal slot d
    let n := boundCount d slot
    let bound := d.queues.filter fun e => boundTo slot e.2
    let d := writeKeyRecord (putSlot slot { counter := (slotOf d slot).counter } d)
    let d := bound.foldl (fun d e => onQueue e.1 eraseQueue (eraseNear e.2 d)) d
    let d := { d with
      rings.drains := d.rings.drains.map fun (e : Nat × DrainRing) => (e.1, eraseXfer d slot e.2) }
    let d := d.rings.fills.foldl (fun d e => eraseFill slot e d) d
    let d := d.tier.active.foldl (fun d p => eraseProg slot p (eraseBorrow slot p d)) d
    let d := writeKeyRecord d
    finishRun (· = .erase slot) (okWith n 0) { d with epoch.eraseFence := none }

/-- KEY_ERASE_EFFECT: the first key-record copy is verified. -/
def execKeyEraseEffect (s : State) : Host.Outcome State Fault Refusal :=
  act (fun d => if d.pwr.standby then d else eraseInstant d) s

/-! ### KEY_STATUS (R550) -/

/-- The entry of one slot. -/
def keyEntry (d : Dev) (slot : Nat) : Nat :=
  let k := slotOf d slot
  let use_ := min (useCount d slot) 0xFFFF
  if slot < 2 then 2
  else
    flagAt k.installed.isSome 0 + flagAt ((k.installed.map (·.persist)).getD false) 2 +
      flagAt k.pending.isSome 3 + flagAt ((k.pending.map (·.persist)).getD false) 4 +
      ((k.installed.map (·.gen)).getD 0) * 2 ^ 16 + ((k.pending.map (·.gen)).getD 0) * 2 ^ 32 + use_ * 2 ^ 48

/-- The record of KEY_STATUS. -/
def keyStatusRecord (d : Dev) : Bytes := (List.range 16).flatMap fun s => natLe 8 (keyEntry d s)

/-- The body of KEY_STATUS: it has no result word (R274). -/
def keyStatusBody (c : AdmCmd) (_ : AdmRun) (d : Dev) : Dev × Option AdmRes :=
  if c.len.toNat < 128 then ends (failWith 0x02) d
  else ends { status := 0, record := some (c.addr.toNat, keyStatusRecord d) } d

/-- KEY_STATUS. -/
def execKeyStatus (c : AdmCmd) (s : State) : Host.Outcome State Fault Refusal :=
  act (admin 0x42 c [] (keyStatusBody c)) s

/-! ### Keys at boot (R533, R543 to R545) -/

/-- A key that the crypto engine derives from the unique secret, with salt 48 zero bytes (R533). -/
def deriveKey (info : String) (len : Nat) (d : Dev) : Bytes :=
  Config.hkdf (Config.uniqueSecret (rowsBytes d 16 8)) (List.replicate 48 0) (asciiBytes info) len

/-- The keys of slots 0 and 1 (R533). -/
def deriveKeys (d : Dev) : Dev :=
  { d with keys.slot0 := deriveKey "QM-34 SLOT0" 32 d, keys.slot1 := deriveKey "QM-34 SLOT1" 64 d }

/-- A copy of the key record has been written and opens under the key of slot 0 (R543, R545). -/
def recOpens (d : Dev) (seq : Nat) (r : KeyRec) : Bool := seq ≠ 0 && r.under == d.keys.slot0

/-- The valid copy of the key record with the higher sequence number (R543). -/
def storedKeys (d : Dev) : Option KeyRec :=
  let a := recOpens d d.keys.seqA d.keys.recA
  let b := recOpens d d.keys.seqB d.keys.recB
  if b && (!a || decide (d.keys.seqA < d.keys.seqB)) then some d.keys.recB else if a then some d.keys.recA else none

/-- The data slots after a reset of DEVICE scope (R544). A record that fails its tag in both copies leaves them empty,
their counters at 0, and is logged as KEY_STORE_FAIL (R545); the record's kind and object are free (log entry 55). A part
that has never written one has empty slots. -/
def restoreKeys (lost : Bool) (d : Dev) : Dev :=
  if d.keys.seqA = 0 && d.keys.seqB = 0 && !lost then { d with keys.slots := [] }
  else match storedKeys d, lost with
    | some r, false => { d with keys.slots := r.slots }
    | _, _ =>
      let f := takeFree d
      logRec (f.1.toNat % 256) 0x85 (f.1.toNat / 256 % 2 ^ 32) 0 0 0
        { f.2 with keys.slots := [], keys.recA := {}, keys.recB := {} }

end Sys2Proof.Machine
end

