-- ==== Sys2Proof/Machine/Restore.lean ====
section
/-!
DEFINITION. Boot step 9: keys, repair tables, queues and configuration come back from the deep tier, and epoch 0
is applied (R320, R321, R342, R348, R359 to R363, R391, R440, R455, R481, R681).
-/

namespace Sys2Proof.Machine

/-! ### Repair tables (R391, R393) -/

/-- One record of the hard-fault log, with the rule of R388 applied again; the near tier is empty. -/
def replayFault (a : Nat) (d : Dev) : Dev :=
  let seg := a / 512
  if seg ∈ d.tier.nearRetired then d
  else if 4 ≤ (d.rep.nearRemap.filter fun r => r.addr / 512 = seg).length then retireNear seg d
  else match freeSpare 32 d.rep.nearRemap with
    | none => retireNear seg d
    | some i => { d with rep.nearRemap := addRemap a i d.rep.nearRemap }

/-- The near remap table of a boot. -/
def rebuildRemap (d : Dev) : Dev :=
  d.rep.hardLog.foldl (fun d a => replayFault a d) { d with rep.nearRemap := [], tier.nearPending := [] }

/-! ### The journal replayed (R350 to R352) -/

/-- What the image and the journal after it give. -/
structure Replay where
  maps : Tbl (List MapSeg) := []
  loans : Tbl Loan := []
  /-- The newest seal record: queues, level, time base at the seal. -/
  sealed : Option (List SealedQ × Int × Nat) := none
deriving DecidableEq, Repr

/-- Puts a segment into a chain map, in place of one at its position. -/
def putMapSeg (m : MapSeg) (l : List MapSeg) : List MapSeg :=
  (l.filter fun x => x.pos < m.pos) ++ [m] ++ l.filter fun x => m.pos < x.pos

/-- One verified record. -/
def replayRec (x : Replay) (r : JRec) : Replay :=
  match r with
  | .add qid m => { x with maps := tblSet [] x.maps qid (putMapSeg m (tblGet [] x.maps qid)) }
  | .release qid seg =>
    { x with maps := tblSet [] x.maps qid ((tblGet [] x.maps qid).filter fun m => m.loan.isSome || m.seg ≠ seg) }
  | .giveBack qid node h =>
    { x with maps := tblSet [] x.maps qid ((tblGet [] x.maps qid).filter fun m =>
        (m.loan.map fun l => (l.node, l.handle)) ≠ some (node, h)) }
  | .sealed qs level t => { x with sealed := some (qs, level, t) }
  | .unseal => x
  | .lend h l => { x with loans := tblPut x.loans h l }
  | .unlend h => { x with loans := tblErase x.loans h }

/-- The stored chain maps, loans and seal record. -/
def replay (d : Dev) : Replay :=
  match d.tier.image with
  | none => {}
  | some im => d.tier.journal.foldl replayRec { maps := im.maps, loans := im.loans }

/-- Generation and items of a journalled deep copy. -/
def copyOf (d : Dev) (seg : Nat) : Nat × List Item :=
  match tblFind d.tier.deep seg with
  | some (.copy _ _ _ gen is) => (gen, is)
  | some (.released (.copy _ _ _ gen is)) => (gen, is)
  | _ => (0, [])

/-! ### Queues (R359 to R362, R681) -/

/-- A chain segment from its map entry. A borrowed copy stands behind a hole until it is reclaimed (R453). -/
def mapChain (d : Dev) (m : MapSeg) : ChainSeg :=
  match m.loan with
  | some l => { pos := m.pos, used := m.items.length, loan := some l, hole := true, begins := m.begins, all := m.items }
  | none =>
    let c := copyOf d m.seg
    { pos := m.pos, used := c.2.length, deep := some { seg := m.seg, gen := c.1, named := true },
      begins := m.begins, all := c.2 }

/-- The segments after the last gap of a chain, and those before it (R360). -/
def lastRun : List ChainSeg → List ChainSeg × List ChainSeg
  | [] => ([], [])
  | s :: ss =>
    let r := lastRun ss
    match r.2.head? with
    | none => ([], s :: r.2)
    | some t => if r.1.isEmpty && t.pos = s.pos + 1 then ([], s :: r.2) else (s :: r.1, r.2)

/-- Items from the first packet start of a run on (R361). -/
def fromStart (begins : Nat → Bool) : Option Nat → List Item → List Item
  | _, [] => []
  | p, i :: is =>
    if p ≠ some i.seg && begins i.seg then i :: is
    else if i.bound || i.aborted then is
    else fromStart begins (some i.seg) is

/-- Items up to the last that ends a packet (R361). -/
def toEnd (l : List Item) : List Item := (l.reverse.dropWhile fun i => !(i.bound || i.aborted)).reverse

/-- Items behind the last boundary item. -/
def trailing (l : List Item) : Nat := (l.reverse.takeWhile fun i => !i.bound).length

/-- A PERSISTENT queue after an unclean restore (R360, R361, R681). ST_DAMAGED and QTE_LOST go on from the newest seal
record (R92). What else that record holds of the queue's runtime state is of an older time: the counters QTE_UNDERRUNS and
QTE_DROPS, the mark and the other sticky bits start anew (DESIGN CHOICE, log entry 98). -/
def uncleanQueue (d : Dev) (cfg : QCfg) (ms : List MapSeg) (lost0 : Nat) (damaged0 : Bool) : Queue :=
  let r := lastRun (ms.map (mapChain d))
  let run := r.2.flatMap (·.all)
  let begins (pos : Nat) : Bool := r.2.any fun s => s.pos = pos && s.begins
  let items := if cfg.pkt then toEnd (fromStart begins none run) else run
  let gone := (r.1.map (·.all.length)).sum + (run.length - items.length)
  { cfg, items, lost := (lost0 + gone) % 2 ^ 32, chain := r.2
    nextPos := ((r.2.getLast?.map (·.pos + 1)).getD 0)
    stUnsealed := true, stDamaged := damaged0 || items.any (·.damaged)
    openCount := if cfg.pkt then 0 else trailing items }

/-- A PERSISTENT queue as the seal record holds it (R359, R362, R367): an open packet is aborted, and its
consumer stands between packets. -/
def cleanQueue (d : Dev) (cfg : QCfg) (ms : List MapSeg) (q : Queue) : Queue :=
  let q := abortPacket q
  { cfg, items := q.items, retained := q.retained, lost := q.lost, underruns := q.underruns, drops := q.drops
    mark := q.mark, stUnderrun := q.stUnderrun, stCtUnderrun := q.stCtUnderrun, stDamaged := q.stDamaged
    stUnsealed := q.stUnsealed, stMarkLost := q.stMarkLost, openCount := q.openCount, nextPos := q.nextPos
    chain := q.chain.map fun s => match ms.find? fun m => m.pos = s.pos with
      | some m => { s with deep := (mapChain d m).deep, loan := (mapChain d m).loan, hole := m.loan.isSome }
      | none => s }

/-- The QTEs of the image with what is restored behind them. -/
def restoredQueue (d : Dev) (x : Replay) (clean : Bool) (e : Nat × QCfg) : Nat × Queue :=
  let ms := tblGet [] x.maps e.1
  let held := (x.sealed.map (·.1)).getD [] |>.find? fun s => s.qid = e.1
  if !(e.2.valid && e.2.persist) then (e.1, { cfg := e.2 })
  else match clean, held with
    | true, some s => (e.1, cleanQueue d e.2 ms s.q)
    | true, none => (e.1, { cfg := e.2 })
    | false, h => (e.1, uncleanQueue d e.2 ms ((h.map (·.q.lost)).getD 0) ((h.map (·.q.stDamaged)).getD false))

/-- Deep segments that the restored chains and loans hold. -/
def keptDeep (qs : Tbl Queue) (loans : Tbl Loan) : List Nat :=
  (qs.flatMap fun e => e.2.chain.filterMap fun s => s.deep.map (·.seg)) ++ loans.map fun e => e.2.seg

/-- A deep segment's use without a release that was not journalled. -/
def liveUse (u : DeepUse) : DeepUse :=
  match u with
  | .released was => was
  | u => u

/-- Every chain segment without a copy gets an empty near copy: its items are damaged (R353, R549). -/
def backNear (d : Dev) : Dev :=
  d.queues.foldl (fun d e =>
    (e.2.chain.filter fun s => s.deep.isNone && s.loan.isNone).foldl (fun d s =>
      match nearFree d with
      | some n => onQueue e.1 (fun q => { q with
          chain := q.chain.map fun t => if t.pos = s.pos then { t with near := some n } else t }) d
      | none => d) d) d

/-- Segments that the journal names and no restored chain holds are released (R329, R359, R360). -/
def releaseMapped (x : Replay) (kept : List Nat) (d : Dev) : Dev :=
  x.maps.foldl (fun d e =>
    (e.2.filter fun m => m.loan.isNone && m.seg ∉ kept).foldl (fun d m => freeDeep e.1 m.seg true d) d) d

/-- Loans that no restored chain holds any more go back to their lenders. -/
def releaseLoans (x : Replay) (d : Dev) : Dev :=
  x.maps.foldl (fun d e =>
    let mine := (queueOf d e.1).chain.filterMap (·.loan)
    (e.2.filterMap (·.loan)).foldl (fun d l => if l ∈ mine then d else giveLoan e.1 true true l d) d) d

/-- Queues, chains, deep segments and loans. -/
def restoreTier (x : Replay) (clean : Bool) (d : Dev) : Dev :=
  let qs := ((d.tier.image.map (·.qtes)).getD []).map (restoredQueue d x clean)
  let loans := x.loans.filter fun e => e.2.persist
  let kept := keptDeep qs loans
  let named := x.maps.flatMap fun e => (e.2.filter fun m => m.loan.isNone).map (·.seg)
  let d := { d with
    queues := qs.filter fun e => e.2 ≠ {}
    tier.loans := loans
    tier.deep := (d.tier.deep.filter fun e => e.1 ∈ kept || e.1 ∈ named).map fun e => (e.1, liveUse e.2) }
  let d := backNear (releaseLoans x (releaseMapped x kept d))
  let d := d.queues.foldl (fun d e => releaseUnused e.1 d) d
  let pend := d.tier.deepPending
  let d := pend.foldl (fun d s => retireDeepSeg s d) { d with tier.deepPending := [] }
  (List.range 4).foldl (fun d n =>
    if d.queues.any fun e => e.2.chain.any fun s => s.hole && (s.loan.map (·.node)) = some n then
      startTimer (.hole n) d else d) d

/-! ### Wear and level (R342, R348) -/

/-- Wear counts at a restore; `lost` when neither written copy can be read. -/
def restoreWear (lost clean : Bool) (d : Dev) : Dev :=
  match d.tier.wearCopy with
  | none => { d with tier.wear := [], tier.wearSince := 0, tier.estimated := false }
  | some w =>
    if lost then { d with tier.wear := [], tier.wearSince := 0, tier.estimated := true }
    else if clean then { d with tier.wear := w, tier.wearSince := 0, tier.estimated := false }
    else
      let n := deepInService d
      let more := (65536 + n - 1) / n
      let wear := (List.range 8704).foldl (fun t s =>
        if s ∈ d.tier.deepRetired then t else tblSet 0 t s (sat32 (tblGet 0 w s) more)) w
      { d with tier.wear := wear, tier.wearSince := 0, tier.estimated := true }

/-- The bucket level at a restore. -/
def restoreLevel (x : Replay) (clean : Bool) (d : Dev) : Dev :=
  let cap : Int := Int.ofNat (d.regs.spillBurst * 2 ^ 20)
  let lv : Int := match d.tier.image, x.sealed with
    | none, _ => cap
    | some _, some (_, level, t) => if clean then (refill d.regs.spillRate cap level 0 (d.tb.now - t)).1 else 0
    | some _, none => 0
  { d with tier.level := lv, tier.frac := 0, tier.minLevel := min d.tier.minLevel lv }

/-! ### Epoch 0 (R320, R321) -/

/-- The binding entries of an image, each with its index. -/
def imageEntries (b : Bindings) : List (Nat × BindWord) :=
  let tag (t : TagEnt) : BindWord :=
    { kind := 1, remove := false, index := 0, target := t.port, tag := t.tag, qid := t.qid, weight := 0, rsvd := false }
  let bind (kind : Nat) (e : BindEnt) : BindWord :=
    { kind, remove := false, index := e.index, target := e.target, tag := e.tag, qid := e.qid, weight := e.weight, rsvd := false }
  (b.tags.map tag ++ b.egress.map (bind 2) ++ b.drain.map (bind 3)).zipIdx.map fun x => (x.2, x.1)

/-- The restored set, judged whole. -/
def imageSet (im : Image) : CheckSet :=
  { qids := tblKeys im.qtes, qtes := im.qtes, ports := [0, 1, 2, 3], pces := im.pces, bind := im.bind
    added := imageEntries im.bind, ew := [], boot := true }

/-- One object in its disabled form (R321). -/
def disableObj (o : Nat) (c : CheckSet) : CheckSet :=
  let n := o % 65536
  match o / 65536 with
  | 0 => { c with qids := c.qids.filter (· ≠ n), qtes := tblAdjust c.qtes n fun q => { q with valid := false } }
  | 1 => { c with ports := c.ports.filter (· ≠ n), pces := tblAdjust c.pces n fun p => { p with en := false } }
  | _ =>
    match c.added.find? fun e => e.1 = n with
    | some e => { c with
        added := c.added.filter fun x => x.1 ≠ n
        bind := (applyEntry c.bind { e.2 with remove := true }).getD c.bind }
    | none => c

/-- Judges the restored set until no object fails; one log record for each that did. -/
def settleSet : Nat → CheckSet → Dev → CheckSet × Dev
  | 0, c, d => (c, d)
  | n + 1, c, d =>
    match firstFail d c with
    | none => (c, d)
    | some (code, o) => settleSet n (disableObj o c) (logRec 1 code o 0 0 0 d)

/-- A port takes its PCE of epoch 0 (R306, R481). -/
def bootPort (k : Nat) (p : Pce) (d : Dev) : Dev :=
  if k < 2 then
    putI k { applyIngress p (iport d k) with map := d.bind.tags.filter fun t => t.port = k } d
  else applyEgress (k - 2) p d

/-- Arms the hand-over of a strapped pair that runs (R148, R481). -/
def bootPair (n : Nat) (d : Dev) : Dev :=
  if (pairOf d n).strap && pairRuns (pceOf d n) (pceOf d (n + 2)) then armPair n d else d

/-- A queue enters epoch 0: reservation, reads, programs, flags. -/
def bootQueue (qid : Nat) (d : Dev) : Dev :=
  drainWaitCheck qid (onQueue qid (setFlags d) (readCheck qid (spillCheck 512 qid d)))

/-- Epoch 0. -/
def applyEpoch0 (d : Dev) : Dev :=
  match d.tier.image with
  | none => { d with epoch := {} }
  | some im =>
    let c0 := imageSet im
    let r := settleSet (c0.qids.length + 4 + c0.added.length) c0 { d with epoch := {} }
    let c := r.1
    let changed := c.qtes ≠ im.qtes || c.pces ≠ im.pces || c.bind ≠ im.bind
    let d := { r.2 with bind := c.bind, epoch.cfgChanged := changed }
    let d := c.qtes.foldl (fun d e => onQueue e.1 (fun q => { q with cfg := e.2 }) d) d
    let d := settleShorts (c.qtes.foldl (fun d e => noteShort e.1 d) d)
    let d := c.pces.foldl (fun d e => bootPort e.1 e.2 d) d
    let d := c.qtes.foldl (fun d e => bootQueue e.1 d) d
    refreshFlags (bootPair 1 (bootPair 0 d))

/-! ### Step 9 -/

/-- The lineage: kept in the image, or new from the random source (R440). -/
def restoreLineage (d : Dev) : Dev :=
  match d.tier.image with
  | some im => { d with tier.lineage := im.lineage }
  | none =>
    let f := takeFree d
    { f.2 with tier.lineage := f.1.setWidth 32, tier.journal := [] }

/-- A table image of which neither copy can be read is absent (R320, R399). -/
def restoreImage (lost : Bool) (d : Dev) : Dev := if lost then { d with tier.image := none } else d

/-- The firmware's restore: keys, repair tables, wear, queues, level, lineage (R359). -/
def restore (lost : Unread) (d : Dev) : Dev :=
  let d := restoreImage lost.image (rebuildRemap (restoreKeys lost.keys (deriveKeys d)))
  let clean := d.tier.image.isSome && journalSealed d
  let x := replay d
  let d := restoreWear lost.wear clean (restoreLineage d)
  let d := restoreTier x clean (restoreLevel x clean d)
  { d with tier.boots := (d.tier.boots + 1) % 256 }

/-- Step 9 of the boot: restore, epoch 0, then FW_RUNNING (R481, R491), with which an earlier enabling of the admin ring
takes effect (R230), and the records of rows found bad (R495). -/
def bootFirmware (lost : Unread) (d : Dev) : Dev :=
  let d := settleKeys (applyEpoch0 (restore lost (setBoot .fwStarting d)))
  let d := setBoot .fwRunning { d with pwr.listenOk := true }
  let d := if d.adm.en then activity d else d
  let d := d.err.badRows.foldl (fun d r => recordErr 0x8C 8 r d) d
  stopOscIfListening (stallChecks { d with err.badRows := [] })

end Sys2Proof.Machine
end

