-- ==== Sys2Proof/Machine/Spdm.lean ====
section
/-!
DEFINITION. The DOE mailbox and the SPDM 1.2 responder (R211, R523 to R529). Message layouts are those of the
published standards that the spec names (log entry 48).
-/

namespace Sys2Proof.Machine

/-! ### DOE (R211) -/

/-- Whole DWs of a byte string. -/
def padDw (bs : Bytes) : Bytes := bs ++ List.replicate ((4 - bs.length % 4) % 4) 0

/-- A DOE data object of the PCI-SIG vendor: type, length in DW, content. -/
def doeObject (type : Nat) (bs : Bytes) : Bytes :=
  let body := padDw bs
  natLe 2 1 ++ natLe 2 type ++ natLe 4 (2 + body.length / 4) ++ body

/-- A data object is ready for the host, with its interrupt (R202, R211). -/
def doeReply (type : Nat) (bs : Bytes) (d : Dev) : Dev :=
  msix 0 (emit (.doe (doeObject type bs)) { d with spdm.doeBusy := false })

/-- Content of a Discovery response: vendor, type, next index. -/
def discoveryBytes (index : Nat) : Bytes :=
  match index with
  | 0 => natLe 4 (1 + 0 * 2 ^ 16 + 1 * 2 ^ 24)
  | 1 => natLe 4 (1 + 1 * 2 ^ 16 + 0 * 2 ^ 24)
  | _ => natLe 4 0xFFFF

/-! ### SPDM messages (R525 to R527) -/

/-- An SPDM 1.2 message header. -/
def spdmHdr (code p1 p2 : Nat) : Bytes := natLe 1 0x12 ++ natLe 1 code ++ natLe 1 p1 ++ natLe 1 p2

/-- ERROR with its code and data. -/
def spdmError (code data : Nat) : Bytes := spdmHdr 0x7F code data

/-- VERSION with the single entry 1.2. -/
def versionMsg : Bytes := natLe 1 0x10 ++ natLe 1 0x04 ++ natLe 2 0 ++ natLe 1 0 ++ natLe 1 1 ++ natLe 2 0x1200

/-- CAPABILITIES: CTExponent 16; CERT_CAP, CHAL_CAP, MEAS_CAP 0b10; the two sizes are free. -/
def capsMsg (sizes : Nat) : Bytes :=
  spdmHdr 0x61 0 0 ++ natLe 1 0 ++ natLe 1 16 ++ natLe 2 0 ++ natLe 4 0x16 ++ natLe 8 sizes

/-- ALGORITHMS: DMTF, SHA-384 measurements, ECDSA P-384, SHA-384. -/
def algsMsg : Bytes :=
  spdmHdr 0x63 0 0 ++ natLe 2 36 ++ natLe 1 1 ++ natLe 1 0 ++ natLe 4 4 ++ natLe 4 0x80 ++ natLe 4 2 ++
    List.replicate 12 0 ++ natLe 4 0

/-- The 48 bytes of a digest. -/
def digestBytes (h : BitVec 384) : Bytes := natBe 48 h.toNat

/-- The certificate chain of slot 0 (R525). -/
def certChain (d : Dev) : Bytes :=
  let body := digestBytes Config.rootHash ++ Config.deviceCaCert ++ certBytes d
  natLe 2 (4 + body.length) ++ natLe 2 0 ++ body

/-- Digest of the chain. -/
def chainHash (d : Dev) : Bytes := digestBytes (Config.sha384 (certChain d))

/-- The bytes of the boot ROM (R527). -/
def romBytes : Bytes := (List.range 12288).flatMap fun i => natLe 4 (Config.romWord i).toNat

/-- Bytes of the patch entries that were loaded, in ascending i (R527). -/
def patchBytes (d : Dev) : Bytes := d.fuse.patches.flatMap fun x => rowBytes x.2

/-- A measurement block: index, specification DMTF, value type, value. -/
def measBlock (index type : Nat) (v : Bytes) : Bytes :=
  natLe 1 index ++ natLe 1 1 ++ natLe 2 (3 + v.length) ++ natLe 1 type ++ natLe 2 v.length ++ v

/-- The measurement blocks there are now (R527, R528): index 3 once firmware runs. -/
def measBlocks (d : Dev) : List (Nat × Bytes) :=
  [(1, measBlock 1 0x00 (digestBytes (Config.sha384 romBytes))),
   (2, measBlock 2 0x01 (digestBytes (Config.sha384 (patchBytes d))))] ++
  (if fwRunning d then
    match d.boot.measured with
    | some h => [(3, measBlock 3 0x01 (digestBytes h))]
    | none => []
   else []) ++
  [(4, measBlock 4 0x82 (natLe 8 (effSec d).toNat ++ natLe 1 d.fuse.otpLock.toNat ++
    natLe 1 (if d.rep.core then 1 else 0) ++ List.replicate 6 0))]

/-- Signs a transcript with d in the way of SPDM 1.2 (R523). -/
def spdmSign (context : String) (transcript : Bytes) (d : Dev) : Bytes × Dev :=
  let ctx := asciiBytes context
  let pre := (List.range 4).flatMap fun _ => asciiBytes "dmtf-spdm-v1.2.*"
  let m := pre ++ List.replicate (36 - ctx.length) 0 ++ ctx ++ digestBytes (Config.sha384 transcript)
  (natBe 96 (Config.ecdsaSign (idKey d) (Config.sha384 m) d.free).toNat, { d with free := d.free + 1 })

/-- 32 bytes from the random bit generator. -/
def nonceBytes (d : Dev) : Bytes × Dev :=
  let f := takeFree d
  (natLe 32 f.1.toNat, f.2)

/-! ### The responder -/

/-- Answers with an SPDM message. -/
def spdmReply (bs : Bytes) (d : Dev) : Dev := doeReply 1 bs d

/-- GET_VERSION begins a connection. -/
def onVersion (d : Dev) : Dev :=
  spdmReply versionMsg { d with spdm := { version := true, vca := natLe 4 0x8410 ++ versionMsg } }

/-- GET_CAPABILITIES. -/
def onCapabilities (d : Dev) : Dev :=
  if !d.spdm.version then spdmReply (spdmError 0x04 0) d
  else
    let f := takeFree d
    let m := capsMsg (f.1.toNat % 2 ^ 64)
    let d := f.2
    spdmReply m { d with spdm.caps := true, spdm.vca := d.spdm.vca ++ spdmHdr 0xE1 0 0 ++ m }

/-- NEGOTIATE_ALGORITHMS. -/
def onAlgorithms (d : Dev) : Dev :=
  if !d.spdm.caps then spdmReply (spdmError 0x04 0) d
  else spdmReply algsMsg { d with spdm.algs := true, spdm.vca := d.spdm.vca ++ spdmHdr 0xE3 0 0 ++ algsMsg }

/-- A request before the algorithms are agreed is unexpected. -/
def afterAlgs (f : Dev → Dev) (d : Dev) : Dev :=
  if d.spdm.algs then f d else spdmReply (spdmError 0x04 0) d

/-- GET_DIGESTS. -/
def onDigests (d : Dev) : Dev :=
  let m := spdmHdr 0x01 0 1 ++ chainHash d
  spdmReply m { d with spdm.certs := d.spdm.certs ++ spdmHdr 0x81 0 0 ++ m, spdm.meas := [] }

/-- GET_CERTIFICATE. -/
def onCertificate (slot off len : Nat) (d : Dev) : Dev :=
  let c := certChain d
  if slot ≠ 0 || c.length ≤ off then spdmReply (spdmError 0x01 0) d
  else
    let p := (c.drop off).take len
    let m := spdmHdr 0x02 0 0 ++ natLe 2 p.length ++ natLe 2 (c.length - off - p.length) ++ p
    let q := spdmHdr 0x82 slot 0 ++ natLe 2 off ++ natLe 2 len
    spdmReply m { d with spdm.certs := d.spdm.certs ++ q ++ m, spdm.meas := [] }

/-- The measurement summary of CHALLENGE_AUTH; which components a TCB summary covers is free. -/
def summaryBytes (summary : Nat) (d : Dev) : Bytes × Dev :=
  if summary = 0 then ([], d)
  else if summary = 1 then
    let a := nonceBytes d
    let b := nonceBytes a.2
    (a.1 ++ b.1.take 16, b.2)
  else (digestBytes (Config.sha384 ((measBlocks d).flatMap (·.2))), d)

/-- CHALLENGE. -/
def onChallenge (slot summary : Nat) (nonce : BitVec 256) (d : Dev) : Dev :=
  if slot ≠ 0 || (summary ≠ 0 && summary ≠ 1 && summary ≠ 0xFF) then spdmReply (spdmError 0x01 0) d
  else
    let n := nonceBytes d
    let s := summaryBytes summary n.2
    let d := s.2
    let q := spdmHdr 0x83 slot summary ++ natLe 32 nonce.toNat
    let m := spdmHdr 0x03 0 1 ++ chainHash d ++ n.1 ++ s.1 ++ natLe 2 0
    let g := spdmSign "responder-challenge_auth signing" (d.spdm.vca ++ d.spdm.certs ++ q ++ m) d
    let d := g.2
    spdmReply (m ++ g.1) { d with spdm.certs := [], spdm.meas := [] }

/-- GET_MEASUREMENTS. -/
def onMeasurements (index : Nat) (sign : Bool) (nonce : BitVec 256) (d : Dev) : Dev :=
  let all := measBlocks d
  let pick := if index = 0 then [] else if index = 0xFF then all else all.filter fun b => b.1 = index
  if pick.isEmpty && index ≠ 0 then spdmReply (spdmError 0x01 0) d
  else
    let n := nonceBytes d
    let d := n.2
    let rec_ := pick.flatMap (·.2)
    let q := spdmHdr 0xE0 (if sign then 1 else 0) index ++ (if sign then natLe 32 nonce.toNat ++ natLe 1 0 else [])
    let m := spdmHdr 0x60 (if index = 0 then all.length else 0) 0 ++ natLe 1 pick.length ++
      natLe 3 rec_.length ++ rec_ ++ n.1 ++ natLe 2 0
    if sign then
      let g := spdmSign "responder-measurements signing" (d.spdm.vca ++ d.spdm.meas ++ q ++ m) d
      let d := g.2
      spdmReply (m ++ g.1) { d with spdm.meas := [] }
    else spdmReply m { d with spdm.meas := d.spdm.meas ++ q ++ m }

/-- What the responder makes of a request. -/
def spdmAnswer (i : Instr) (d : Dev) : Dev :=
  match i with
  | .getVersion => onVersion d
  | .getCapabilities => onCapabilities d
  | .negotiateAlgorithms => onAlgorithms d
  | .getDigests => afterAlgs onDigests d
  | .getCertificate slot off len => afterAlgs (onCertificate slot.toNat off.toNat len.toNat) d
  | .challenge slot summary nonce => afterAlgs (onChallenge slot.toNat summary.toNat nonce) d
  | .getMeasurements index sign nonce => afterAlgs (onMeasurements index.toNat sign nonce) d
  | .doeDiscovery index => doeReply 0 (discoveryBytes index.toNat) d
  | .spdmUnsupportedRequest r => spdmReply (spdmError 0x07 r.code.toNat) d
  | _ => d

/-- A DOE Discovery request, which needs no core. -/
def isDiscovery (i : Instr) : Bool :=
  match i with
  | .doeDiscovery _ => true
  | _ => false

/-- A data object above 2048 DW (R211). -/
def oversize (i : Instr) : Bool :=
  match i with
  | .spdmUnsupportedRequest r => decide (2048 < r.dwords)
  | _ => false

/-- The mailbox holds a request with DOE Busy set. -/
def holdDoe (i : Instr) (d : Dev) : Dev := { d with spdm.doeBusy := true, spdm.held := some i }

/-- A data object arrives in the mailbox (R528); one that is too large sets DOE Error (R211). While the Shuttle is
stopped, the request waits for it. -/
def doeRequest (i : Instr) (d : Dev) : Dev :=
  if !d.link.up || d.pwr.perst || !awake d || d.spdm.doeBusy then d
  else if oversize i then { d with link.doeError := true }
  else match d.boot.status with
    | .powerUp | .hold | .bist | .rom => holdDoe i d
    | .waitImage | .loading => if d.jtag.halted then holdDoe i d else spdmAnswer i d
    | .verifying | .fwStarting => if isDiscovery i then spdmAnswer i d else spdmReply (spdmError 0x03 0) d
    | .fwRunning => if fwExec d then spdmAnswer i d else holdDoe i d
    | .failed =>
      if d.boot.err = 0x96 then
        if isDiscovery i then spdmAnswer i d else { d with link.doeError := true }
      else spdmAnswer i d

/-- The firmware starts: the ROM's connection ends, and a request that the ROM has not answered receives ERROR
RequestResynch (R529). -/
def endRomSpdm (d : Dev) : Dev :=
  match d.spdm.held with
  | some _ => spdmReply (spdmError 0x43 0) { d with spdm := {} }
  | none => { d with spdm := {} }

/-- A held request is answered (R528). -/
def flushDoe (d : Dev) : Dev :=
  match d.spdm.held with
  | some i => doeRequest i { d with spdm.doeBusy := false, spdm.held := none }
  | none => d

/-- GET_VERSION. -/
def execGetVersion (s : State) : Host.Outcome State Fault Refusal := act (doeRequest .getVersion) s

/-- GET_CAPABILITIES. -/
def execGetCapabilities (s : State) : Host.Outcome State Fault Refusal := act (doeRequest .getCapabilities) s

/-- NEGOTIATE_ALGORITHMS. -/
def execNegotiateAlgorithms (s : State) : Host.Outcome State Fault Refusal := act (doeRequest .negotiateAlgorithms) s

/-- GET_DIGESTS. -/
def execGetDigests (s : State) : Host.Outcome State Fault Refusal := act (doeRequest .getDigests) s

/-- GET_CERTIFICATE. -/
def execGetCertificate (slot : BitVec 4) (off len : BitVec 16) (s : State) : Host.Outcome State Fault Refusal :=
  act (doeRequest (.getCertificate slot off len)) s

/-- CHALLENGE. -/
def execChallenge (slot : BitVec 4) (summary : BitVec 8) (nonce : BitVec 256) (s : State) :
    Host.Outcome State Fault Refusal := act (doeRequest (.challenge slot summary nonce)) s

/-- GET_MEASUREMENTS. -/
def execGetMeasurements (index : BitVec 8) (sign : Bool) (nonce : BitVec 256) (s : State) :
    Host.Outcome State Fault Refusal := act (doeRequest (.getMeasurements index sign nonce)) s

/-- DOE_DISCOVERY. -/
def execDoeDiscovery (index : BitVec 8) (s : State) : Host.Outcome State Fault Refusal :=
  act (doeRequest (.doeDiscovery index)) s

/-- SPDM_UNSUPPORTED_REQUEST of so many DW. -/
def execSpdmUnsupportedRequest (r : SpdmOther) (s : State) : Host.Outcome State Fault Refusal :=
  act (doeRequest (.spdmUnsupportedRequest r)) s

end Sys2Proof.Machine
end

