-- ==== Sys2Proof/Machine/Boot.lean ====
section
/-!
DEFINITION. Resets of both scopes, the power states, the boot order, the firmware download, the fatal condition and
the Weave watchdog (R212, R213, R215 to R223, R400 to R404, R460 to R492, R570 to R572, R597 to R599, R619 to
R621, R630, R637, R640).
-/

namespace Sys2Proof.Machine

/-! ### Ports closed and reopened as a whole (R100, R464, R466, R571) -/

/-- Closes port `k` as a commit that clears PCE_EN would. -/
def closePort (k : Nat) (d : Dev) : Dev :=
  if (liveOf d k).en then issueEv k (.commit (some { liveOf d k with en := false }) false none) d else d

/-- All four. -/
def closePorts (d : Dev) : Dev := closePort 3 (closePort 2 (closePort 1 (closePort 0 d)))

/-- A pair whose ports close: an armed hand-over is cancelled, a handed-over pair returns to bypass (R151). -/
def closePair (n : Nat) (d : Dev) : Dev :=
  let d := cancelArm n d
  let s := pairOf d n
  if s.handed then putPair n { s with returning := true, pointB := false, idle := 0 } d
  else if s.armed then
    stopTimer (.noClock n) (stopTimer (.handover n) (putPair n { s with armed := false, pointB := false } d))
  else d

/-- The live PCEs of the ports that are enabled. -/
def enabledPces (d : Dev) : Tbl Pce := (livePces d).filter fun e => e.2.en

/-- A pair at a fatal condition: drivers off and switches closed at once (R571, R640, R650). -/
def cutPair (n : Nat) (d : Dev) : Dev :=
  let d := closePair n d
  let s := pairOf d n
  if s.handed then
    putE n { eport d n with hiZ := true, pEn := false, eclk := .off }
      (putPair n { s with handed := false, returning := false, pointB := false, idle := 0 } d)
  else d

/-! ### Fatal condition (R562, R570, R571) -/

/-- A wake while PERST# is asserted (R219, R220). -/
def wakePerst (d : Dev) : Dev :=
  if d.pwr.perst && d.link.pmeEn then { d with link.pmeStatus := true, link.wakePin := true } else d

/-- What a fatal condition does once it is recorded. -/
def goFatal (d : Dev) : Dev :=
  let d := aerSet .uncorrectableInternal d
  let d := cutPair 1 (cutPair 0 (closePorts d))
  let d := { d with err.fatal := true, epoch.allFence := true, cas.switchClosed := true }
  wakePerst (msix 0 d)

/-! ### Reset of host-interface scope (R212, R213, R621) -/

/-- Setup registers that such a reset returns to their reset values. -/
def hostRegs (r : Regs) : Regs :=
  { r with
    ltrActive := 200, ltrIdle := 50000, sqBase := 0, cqBase := 0, sqLog2 := 0, cqLog2 := 0, admGen := 0
    adminTimeout := 100000, dbBase := 0, mirrorBase := 0, mirrorEn := false, mirrorHold := 1000, sweepFast := 2
    sweepSlow := 1000, sweepIdle := 50000, sweepStale := 0, sweepDone := 0 }

/-- What the reset leaves of the command in execution: a commit behind its fence, a SEAL and a firmware relay go on;
any other is abandoned. A command from the ring is not the host's. -/
def resetRun (d : Dev) : Dev :=
  match d.adm.run with
  | none => stopTimer .admin d
  | some r =>
    match r.origin with
    | .ring _ _ => d
    | .host =>
      let d := stopTimer .admin { d with adm.run := none }
      match r.kind with
      | .commit => { d with adm.bg := d.adm.bg ++ [r] }
      | .sealing => { d with adm.bg := d.adm.bg ++ [r] }
      | .relayFw => { d with adm.bg := d.adm.bg ++ [r] }
      | k => abandon k d

/-- Timers of the host interface. -/
def hostTimer (t : TimerId) : Bool :=
  match t with
  | .sweep | .idle | .desc _ | .irq _ | .mirror _ | .read _ => true
  | _ => false

/-- The configuration space and what depends on it, reset. -/
def resetLink (l : Link) : Link := { nextTag := l.nextTag, clkreq := l.clkreq, wakePin := l.wakePin }

/-- A reset of host-interface scope; the link is left down. -/
def hostReset (d : Dev) : Dev :=
  let d := d.rings.drains.foldl (fun d e => dropDrain e.1 d) d
  let d := d.rings.fills.foldl (fun d e => dropFill e.1 d) d
  let d := d.rings.comps.foldl (fun d e => dropComp e.1 d) d
  let d := resetRun d
  stallChecks (refreshFlags (takeSsid { d with
    tb.timers := d.tb.timers.filter fun t => !hostTimer t.id
    adm := { run := d.adm.run, bg := d.adm.bg }
    regs := hostRegs d.regs
    link := resetLink d.link
    sweep := {}
    spdm := {} }))

/-- HOST_INTERFACE_RESET: FLR keeps the link up; a hot reset and a link that went down train it again. -/
def hostInterfaceReset (r : HostReset) (d : Dev) : Dev :=
  if !d.link.up || d.pwr.perst || !awake d then d
  else
    let d' := hostReset d
    match r with
    | .flr => { d' with link.up := true, link.rate := d.link.rate, link.twoLanes := d.link.twoLanes }
    | .hotReset => { d' with link.training := true }
    | .linkDown => { d' with link.training := true }

/-- HOST_INTERFACE_RESET. -/
def execHostInterfaceReset (r : HostReset) (s : State) : Host.Outcome State Fault Refusal :=
  act (hostInterfaceReset r) s

/-! ### Reset of DEVICE scope (R484, R621) -/

/-- The three columns of R484 with DEVICE scope. -/
inductive ResetKind where
  | por
  | perst
  | soft
deriving DecidableEq, Repr

/-- The setup registers. -/
def resetRegs (k : ResetKind) (r : Regs) : Regs :=
  match k with
  | .soft =>
    { perstLink := r.perstLink, wakeEnPressure := r.wakeEnPressure, wakeEnQueue := r.wakeEnQueue, wakeFree := r.wakeFree
      wakeSrcPressure := r.wakeSrcPressure, wakeSrcQueue := r.wakeSrcQueue, wakeQid := r.wakeQid
      wakeQidValid := r.wakeQidValid, pressureArmed := r.pressureArmed, ltrActive := r.ltrActive, ltrIdle := r.ltrIdle }
  | _ => {}

/-- The tiers: what is stored in the deep tier stays. The level is set at the restore (R348). A cold reset has no
time base that a seal could be measured against (log entry 49). -/
def resetTier (k : ResetKind) (t : Tier) : Tier :=
  let cold := k == .por
  { nearRetired := t.nearRetired, deepRetired := t.deepRetired, deepPending := t.deepPending, deep := t.deep
    cells := t.cells, wear := t.wear, debited := t.debited, jSegs := t.jSegs, jPos := t.jPos, imageB := t.imageB, wearB := t.wearB
    image := t.image, wearCopy := t.wearCopy, lineage := t.lineage, boots := t.boots, loans := t.loans
    spares := t.spares, exhausted := t.exhausted
    journal := if cold then t.journal.map fun r => match r with
        | .sealed qs l _ => .sealed qs l 0
        | r => r
      else t.journal
    minLevel := if cold then 274877906944 else t.minLevel
    throttle := if cold then 0 else t.throttle }

/-- Scrub and repair: lap counts and counters count since POR; the lists in SRAM and the error patterns of the near
tier go. -/
def resetRep (k : ResetKind) (r : Rep) : Rep :=
  match k with
  | .por =>
    { hardLog := r.hardLog, deepRemap := r.deepRemap, reportedDeep := r.reportedDeep, fieldMap := r.fieldMap
      core0Fail := r.core0Fail, core1Fail := r.core1Fail }
  | _ => { r with nearSuspects := [], deepSuspects := [], faultsDue := [], nearPos := 0, deepPos := 0, upset := [], reported := [] }

/-- The fuse registers; the array stays. -/
def resetFuse (k : ResetKind) (f : Fuse) : Fuse :=
  let g : Fuse := { lo := f.lo, hi := f.hi, redir := f.redir }
  match k with
  | .por => g
  | _ => { g with
      intrRow := f.intrRow, intrWord := f.intrWord, intrValid := f.intrValid, otpLock := f.otpLock
      shdSec := f.shdSec, shdSsid := f.shdSsid, shdKey := f.shdKey }

/-- One peer: a node that was present is lost; its counters count since POR (R456). -/
def resetPeer (k : ResetKind) (p : Peer) : Peer :=
  match k with
  | .por => {}
  | _ => { st := if p.st = .absent then .absent else .lost, ribDiscards := p.ribDiscards, flitsSent := p.flitsSent
           resends := p.resends, exhausted := p.exhausted, losses := p.losses, late := p.late, returned := p.returned }

/-- The cascade interface. -/
def resetCas (k : ResetKind) (c : Cas) : Cas :=
  let g : Cas := { node := c.node, peers := (c.peers.map fun e => (e.1, resetPeer k e.2)).filter fun e => e.2 ≠ {} }
  match k with
  | .por => g
  | _ => { g with trainings := c.trainings, crcErrors := c.crcErrors }

/-- The error capture; the log is emptied (R563, R564). -/
def resetErr (k : ResetKind) (e : Err) : Err :=
  match k with
  | .por => {}
  | _ => { e with fatal := false, log := [], logSeq := 0, badRows := [] }

/-- JTAG: a halt, an unlock and a challenge end (R583, R587, R588). -/
def resetJtag (k : ResetKind) (j : Jtag) : Jtag :=
  match k with
  | .por => {}
  | _ => { j with halted := false, haltPend := false, unlocked := none, chal := none, fails := 0, core := [] }

/-- Power and PACE. -/
def resetPwr (k : ResetKind) (p : Pwr) : Pwr :=
  { vin := p.vin, perst := p.perst, perstLink := k == .soft && p.perstLink }

/-- The time base (R35, R484). -/
def resetTime (k : ResetKind) (t : TimeBase) : TimeBase :=
  match k with
  | .por => {}
  | _ => { t with timers := [] }

/-- The host interface: kept by a soft reset but for the work in flight. -/
def resetHostLink (k : ResetKind) (l : Link) : Link :=
  match k with
  | .soft => { l with reads := [], heldOut := [], active := false }
  | _ => resetLink { l with clkreq := false, wakePin := false }

/-- Straps and balls of a pair survive; its switches close. -/
def resetPair (p : PairSt) : PairSt := { strap := p.strap, ball := p.ball }

/-- A reset of DEVICE scope, up to the start of its boot. -/
def deviceReset (k : ResetKind) (d : Dev) : Dev :=
  let d := cutFuse (k != .por) d
  { pwr := resetPwr k d.pwr
    tb := resetTime k d.tb
    boot := { err := if k = .por then 0 else d.boot.err }
    regs := resetRegs k d.regs
    link := resetHostLink k d.link
    out := d.out
    ports := { p0 := resetPair d.ports.p0, p1 := resetPair d.ports.p1 }
    tier := resetTier k d.tier
    rep := resetRep k d.rep
    fuse := resetFuse k d.fuse
    keys := { recA := d.keys.recA, recB := d.keys.recB, seqA := d.keys.seqA, seqB := d.keys.seqB }
    err := resetErr k d.err
    jtag := resetJtag k d.jtag
    cas := resetCas k d.cas
    free := d.free }

/-! ### The boot (R401, R404, R471 to R475) -/

/-- Field lanes retired at step 4: the field repair map, then the pending lanes; one spare serves a group (R401). -/
def applyLanes (d : Dev) : Dev :=
  let field := (d.rep.fieldMap ++ d.rep.lanePend).foldl (fun l x =>
    if (d.rep.lanesFactory ++ l).any fun y => y.group = x.group then l else l ++ [x]) ([] : List Lane)
  { d with rep.lanesField := field }

/-- One lane goes into the field repair map. -/
def mapLane (x : Lane) (d : Dev) : Dev :=
  if x ∈ d.rep.fieldMap || d.tier.exhausted then d
  else writeRepair { d with rep.fieldMap := d.rep.fieldMap ++ [x] }

/-- The pending lanes are recorded once the deep tier can be reached, and their entries cleared (R401). -/
def recordLanes (d : Dev) : Dev :=
  let d' := d.rep.lanePend.foldl (fun d x => mapLane x d) d
  { d' with rep.lanePend := [] }

/-- Step 7: the ROM opens BAR2 and answers a request that waits in the DOE mailbox (R471, R528, R620). -/
def openBar2 (d : Dev) : Dev := flushDoe (setBoot .waitImage { d with boot.buf := [] })

/-- Steps 5 and 6: BIST, ROM with its locks and patches; training starts. A link that was kept is in L0 already, and
a peer has no host link to wait for (R489). -/
def bootCores (d : Dev) : Dev :=
  let d := setBoot .bist d
  if d.rep.core0Fail && d.rep.core1Fail then
    setBoot .failed { d with boot.err := 0x96, link.training := !d.link.up }
  else
    let d := romStep { d with rep.core := d.rep.core0Fail }
    let d := setBoot .rom { d with link.training := !d.link.up && ownNode d == 0 }
    if d.link.up || ownNode d ≠ 0 then openBar2 d else d

/-- Holds while PERST# is asserted. -/
def bootOn (d : Dev) : Dev := if d.pwr.perst then setBoot .hold d else bootCores d

/-- Steps 3 and 4. -/
def bootSense (d : Dev) : Dev := applyLanes (senseFuses d)

/-- The straps are sampled (R630). -/
def sampleStraps (d : Dev) : Dev :=
  { d with ports.p0.strap := d.ports.p0.ball, ports.p1.strap := d.ports.p1.ball }

/-- A boot from step 1 or 2. -/
def bootFull (d : Dev) : Dev :=
  bootOn (takeSsid (bootSense (sampleStraps { d with link.clkreq := !d.pwr.perst })))

/-- A soft reset: from step 3. -/
def softReset (d : Dev) : Dev := bootOn (bootSense (deviceReset .soft d))

/-! ### Power states (R460 to R470, R490) -/

/-- The PHY LDO follows LISTEN, and so does the tick oscillator (R38, R461). -/
def followListen (d : Dev) : Dev := stopOscIfListening { d with pwr.phyLdo := awake d && !listening d }

/-- STANDBY is entered (R467); the tick oscillator stops (R469). -/
def enterStandby (d : Dev) : Dev :=
  let d := endDiscipline (deviceReset .perst d)
  { d with
    pwr.standby := true
    pwr.vcoreLdo := false
    pwr.phyLdo := false
    tb.tickRun := false
    jtag := {}
    link.clkreq := false
    boot.status := .powerUp }

/-- STANDBY is left: a boot from step 2 (R468). -/
def leaveStandby (d : Dev) : Dev := bootFull { d with pwr.standby := false, pwr.vcoreLdo := true, pwr.phyLdo := true }

/-- A pending STANDBY request is cancelled: the fence goes down and the ports reopen (R463, R466). -/
def cancelStandby (d : Dev) : Dev :=
  if !d.pwr.standbyPend then d
  else
    let held := d.pwr.heldPces
    let d := { d with pwr.standbyPend := false, pwr.heldPces := [], epoch.allFence := d.err.fatal, cas.standbyAfterRsp := false }
    let d := held.foldl (fun d e => issueEv e.1 (.commit (some e.2) false none) d) d
    commitPair (tblKeys held) 1 (commitPair (tblKeys held) 0 d)

/-- POWER_REQUEST STANDBY (R464). -/
def standbyBody (r : AdmRun) (d : Dev) : Dev × Option AdmRes :=
  if !journalSealed d then ends (failWith 0x91) d
  else if d.pwr.standbyPend then ends (okWith 2 0) d
  else
    let held := enabledPces d
    let d := closePair 1 (closePair 0 (closePorts d))
    ends (okWith 2 0) { d with
      epoch.allFence := true
      pwr.standbyPend := true
      pwr.heldPces := held
      cas.standbyAfterRsp := match r.origin with
        | .host => false
        | .ring _ _ => true }

/-- POWER_REQUEST by ARG0[1:0] (R463). -/
def powerBody (c : AdmCmd) (r : AdmRun) (d : Dev) : Dev × Option AdmRes :=
  match bitsOf c.arg0.toNat 0 2 with
  | 0 => ends (okWith 0 0) (followListen (cancelStandby { d with pwr.listenOk := false }))
  | 1 => ends (okWith 1 0) (followListen (cancelStandby { d with pwr.listenOk := true }))
  | 2 => unlessBusy standbyBody r d
  | _ => ends (failWith 0x02) d

/-- POWER_REQUEST_ACTIVE. The word in ARG0 decides in all three rows. -/
def execPowerRequestActive (c : AdmCmd) (s : State) : Host.Outcome State Fault Refusal :=
  act (admin 0x31 c [] (powerBody c)) s

/-- POWER_REQUEST_LISTEN. -/
def execPowerRequestListen (c : AdmCmd) (s : State) : Host.Outcome State Fault Refusal :=
  act (admin 0x31 c [] (powerBody c)) s

/-- POWER_REQUEST_STANDBY. -/
def execPowerRequestStandby (c : AdmCmd) (s : State) : Host.Outcome State Fault Refusal :=
  act (admin 0x31 c [] (powerBody c)) s

/-! ### Balls and supply -/

/-- A falling edge of PERST# (R215, R216, R460, R466, R483). -/
def perstAssert (d : Dev) : Dev :=
  if d.pwr.perst then d
  else
    let d := { d with pwr.perst := true, link.clkreq := false }
    if !awake d then d
    else if d.pwr.standbyPend then enterStandby d
    else if !fwRunning d || !d.regs.perstLink then bootFull (deviceReset .perst d)
    else
      let pme := (d.link.pmeEn, d.link.pmeStatus)
      let d := hostReset d
      followListen { d with link.pmeEn := pme.1, link.pmeStatus := pme.2, pwr.perstLink := true }

/-- PERST_ASSERT. -/
def execPerstAssert (s : State) : Host.Outcome State Fault Refusal := act perstAssert s

/-- A rising edge of PERST# (R220, R461, R468, R471, R472). -/
def perstDeassert (d : Dev) : Dev :=
  if !d.pwr.perst then d
  else
    let d := { d with pwr.perst := false, pwr.perstLink := false, link.wakePin := false }
    if !d.pwr.vin then d
    else if d.pwr.standby then leaveStandby d
    else
      let d := { d with link.clkreq := true }
      if d.boot.status = .hold then bootCores d
      else followListen { d with link.training := !d.link.up }

/-- PERST_DEASSERT. -/
def execPerstDeassert (s : State) : Host.Outcome State Fault Refusal := act perstDeassert s

/-- The link reaches L0 at a data rate, on one lane or two (R189, R471 step 7). -/
def linkUp (rate : LinkRate) (twoLanes : Bool) (d : Dev) : Dev :=
  if !d.link.training || d.pwr.perst || !awake d then d
  else
    let d := { d with
      link.training := false, link.up := true, link.lstate := .l0, link.clkreq := true, link.rate := rate
      link.twoLanes := twoLanes }
    if d.boot.status = .rom then openBar2 d else d

/-- LINK_UP. -/
def execLinkUp (l : LinkTrained) (s : State) : Host.Outcome State Fault Refusal :=
  act (linkUp l.rate l.twoLanes) s

/-- VIN falls below the threshold: OFF (R470, R473, R514). -/
def loseVin (d : Dev) : Dev :=
  let d := deviceReset .por d
  { d with pwr.vin := false, pwr.vcoreLdo := false, pwr.phyLdo := false }

/-- VIN_LOSS. -/
def execVinLoss (s : State) : Host.Outcome State Fault Refusal :=
  act (fun d => if d.pwr.vin then loseVin d else d) s

/-- VIN rises: a cold boot (R471), with the levels of the strap balls and what BIST will find of the cores. -/
def coldBoot (node : BitVec 2) (tp0 tp1 c0 c1 : Bool) (d : Dev) : Dev :=
  let d := deviceReset .por d
  bootFull { d with
    pwr.vin := true
    pwr.vcoreLdo := true
    pwr.phyLdo := true
    cas.node := node
    ports.p0.ball := tp0
    ports.p1.ball := tp1
    rep.core0Fail := c0
    rep.core1Fail := c1 }

/-- POR. -/
def execPor (node : BitVec 2) (tpEn0 tpEn1 core0Fail core1Fail : Bool) (s : State) :
    Host.Outcome State Fault Refusal := act (coldBoot node tpEn0 tpEn1 core0Fail core1Fail) s

/-- PWR_SOFT_RESET takes a value (R485). -/
def softResetWrite (v : Nat) (d : Dev) : Dev := if v = 0xA5 then softReset d else d

/-- PWR_SOFT_RESET. -/
def execPwrSoftReset (v : BitVec 8) (s : State) : Host.Outcome State Fault Refusal :=
  act (fun d => if hostReach d then softResetWrite v.toNat d else d) s

/-- A falling edge of KICK# and how long it stays low (R222, R223, R468, R482). Between 50 ns and 200 ns the filter
may or may not see it: free (log entry 3). -/
def kick (low : Nat) (d : Dev) : Dev :=
  let f := takeFree d
  let seen := decide (200 ≤ low) || (decide (50 ≤ low) && f.1.getLsbD 0)
  let d := if d.pwr.vin && decide (50 ≤ low) && decide (low < 200) then f.2 else d
  if !seen || !d.pwr.vin then d
  else if d.pwr.standby then leaveStandby d
  else if !fwRunning d || d.pwr.perst || !d.link.bme then d
  else triggerSweep false true d

/-- KICK. -/
def execKick (lowNs : Nat) (s : State) : Host.Outcome State Fault Refusal := act (kick lowNs) s

/-! ### Weave watchdog (R400, R402, R403, R486, R610) -/

/-- The watchdog's reset: recorded after it, with a wake while PERST# is asserted. -/
def watchdogReset (d : Dev) : Dev :=
  let d := wakePerst (recordErr 0x97 10 0 (deviceReset .soft d))
  bootOn (bootSense d)

/-- A handshake on a lane has waited too long. -/
def laneStall (g l : Nat) (d : Dev) : Dev :=
  if !awake d || 1152 ≤ g then d
  else if (d.rep.lanesFactory ++ d.rep.lanesField).any fun x => x.group = g then
    goFatal (capture true 0x4B 9 (g * 8 + l) d)
  else
    let x : Lane := { group := g, lane := l }
    let d := recordErr 0x49 9 (g * 8 + l) d
    let d := if x ∈ d.rep.lanePend || 4 ≤ d.rep.lanePend.length then d
      else { d with rep.lanePend := d.rep.lanePend ++ [x] }
    let d := if fwRunning d then mapLane x d else d
    if d.regs.wdogRst then watchdogReset d else d

/-- WEAVE_LANE_STALL. -/
def execWeaveLaneStall (group : BitVec 11) (lane : BitVec 3) (s : State) : Host.Outcome State Fault Refusal :=
  act (laneStall group.toNat lane.toNat) s

/-! ### Firmware download (R476 to R480, R597 to R599, R619, R620) -/

/-- The mailbox takes chunks: WAIT_IMAGE or LOADING. -/
def mailbox (d : Dev) : Bool := d.boot.status == .waitImage || d.boot.status == .loading

/-- A memory write to BAR2. -/
def bar2Write (off : Nat) (data : Bytes) (d : Dev) : Dev :=
  if mailbox d && !d.boot.busy then { d with boot.buf := tblWriteBytes d.boot.buf off (data.take (65536 - off)) } else d

/-- BAR2_WRITE. -/
def execBar2Write (off : BitVec 16) (data : Bytes) (s : State) : Host.Outcome State Fault Refusal :=
  act (fun d => if hostReach d then bar2Write off.toNat data d else d) s

/-- BOOT_CHUNK_LEN is a length that a chunk can have (R476, R599). -/
def chunkOk (d : Dev) : Bool :=
  d.boot.off == d.boot.loaded && decide (4 ≤ d.boot.len) && decide (d.boot.len ≤ 65536) && d.boot.len % 4 == 0 &&
    decide (d.boot.loaded + d.boot.len ≤ 98560)

/-- LOAD_CHUNK (R476, R477). -/
def loadChunk (d : Dev) : Dev :=
  if !mailbox d then d
  else if chunkOk d then { d with boot.busy := true }
  else { d with boot.err := 0x93 }

/-- The `n` image bytes from an offset. -/
def imageAt (d : Dev) (off n : Nat) : Bytes := tblReadBytes d.boot.image off n

/-- A field of the image header. -/
def imgField (d : Dev) (off n : Nat) : Nat := leNat (imageAt d off n)

/-- The format and length checks of R478 hold. -/
def formatOk (d : Dev) : Bool :=
  let code := imgField d 0x14 4
  let data := imgField d 0x18 4
  imgField d 0 4 == 0x464D5152 && imgField d 4 2 == 1 && imgField d 6 2 == 64 && imgField d 0x11 1 == 0 &&
    imgField d 0x12 2 == 0x3401 && imgField d 0x21 31 == 0 && decide (imgField d 0x20 1 ≤ 0x11) &&
    imgField d 0x0C 4 == d.boot.loaded && d.boot.loaded == 256 + code + data &&
    code % 4 == 0 && decide (4 ≤ code) && decide (code ≤ 65536) && data % 4 == 0 && decide (data ≤ 32768) &&
    imgField d 0x1C 4 % 4 == 0 && decide (imgField d 0x1C 4 < code)

/-- The key check of R478 holds (R530). -/
def keyOk (d : Dev) : Bool :=
  let h := Config.sha384 (imageAt d 0x40 96)
  match imgField d 0x10 1 with
  | 0 => h == Config.tamoriFwHash
  | 1 => custKeyEn d && digestBytes h == natLe 48 (effKeyHash d).toNat
  | _ => false

/-- The digest that is verified and recorded. -/
def imageHash (d : Dev) : BitVec 384 := Config.sha384 (imageAt d 0 (imgField d 0x0C 4 - 96))

/-- The signature check of R478 holds (R531). -/
def sigOk (d : Dev) : Bool :=
  ecdsaOk (pointOf (imageAt d 0x40 96)) (imageHash d) (sigOf (imageAt d (imgField d 0x0C 4 - 96) 96))

/-- The code with which the checks of R478 end; none when all hold. -/
def imageFault (d : Dev) : Option Nat :=
  if !formatOk d then some 0x93 else if !keyOk d then some 0x94 else if !sigOk d then some 0x92 else none

/-- START (R478): the checks run while BOOT_STATUS is VERIFYING. -/
def bootStart (d : Dev) : Dev := if mailbox d then setBoot .verifying d else d

/-- RESTART (R479, R598). -/
def bootRestart (d : Dev) : Dev :=
  if d.boot.status = .failed && d.boot.err ≠ 0x96 then
    setBoot .waitImage { d with boot.loaded := 0, boot.image := [] }
  else d

/-- BOOT_CTL.BUSY: a chunk copy or a verification is running (R597). -/
def bootBusy (d : Dev) : Bool := d.boot.busy || (d.boot.status == .verifying && !d.cas.verified)

/-- A BOOT_CTL.CMD code: 1 LOAD_CHUNK, 2 START, 3 RESTART; one written while BUSY is 1 is held (R598). -/
def bootCmd (c : Nat) (d : Dev) : Dev :=
  if bootBusy d then { d with boot.held := BitVec.ofNat 2 c }
  else match c with
    | 1 => loadChunk d
    | 2 => bootStart d
    | 3 => bootRestart d
    | _ => d

/-- BOOT_LOAD_CHUNK. -/
def execBootLoadChunk (s : State) : Host.Outcome State Fault Refusal :=
  act (fun d => if hostReach d then bootCmd 1 d else d) s

/-- BOOT_START. -/
def execBootStart (s : State) : Host.Outcome State Fault Refusal :=
  act (fun d => if hostReach d then bootCmd 2 d else d) s

/-- BOOT_RESTART. -/
def execBootRestart (s : State) : Host.Outcome State Fault Refusal :=
  act (fun d => if hostReach d then bootCmd 3 d else d) s

/-- A chunk copy ends: BOOT_LOADED grows, BUSY clears, and a held command runs (R476, R598). -/
def copyDone (d : Dev) : Dev :=
  if !d.boot.busy || d.jtag.halted then d
  else
    let bs := tblReadBytes d.boot.buf 0 d.boot.len
    let held := d.boot.held.toNat
    let d := setBoot .loading { d with
      boot.image := tblWriteBytes d.boot.image d.boot.loaded bs
      boot.loaded := d.boot.loaded + d.boot.len
      boot.busy := false
      boot.held := 0 }
    bootCmd held d

/-- CHUNK_COPY_DONE. -/
def execChunkCopyDone (s : State) : Host.Outcome State Fault Refusal := act copyDone s

/-- Words of a byte string as a table. -/
def wordsTbl (bs : Bytes) : Tbl Word :=
  (List.range (bs.length / 4)).foldl (fun t i => tblSet 0 t i (BitVec.ofNat 32 (leAt bs (4 * i) 4))) []

/-- The verified image goes into the SRAMs, and its measurement is recorded (R479, R480). -/
def loadSram (d : Dev) : Dev :=
  let code := imgField d 0x14 4
  { d with
    boot.fwVersion := BitVec.ofNat 32 (imgField d 8 4)
    boot.measured := some (imageHash d)
    boot.iSram := wordsTbl (imageAt d 0xA0 code)
    boot.dSram := wordsTbl (imageAt d (0xA0 + code) (imgField d 0x18 4)) }

/-- The verified image starts (R479, R481, R529). The cascade switches open (R637); a peer begins its beacons (R423,
R428). -/
def startFirmware (lost : Unread) (d : Dev) : Dev :=
  let d := bootFirmware lost (recordLanes (endRomSpdm { loadSram d with
    boot.held := 0, cas.switchClosed := false, cas.verified := false }))
  if ownNode d ≠ 0 then startTimer .beacon d
  else if d.regs.casEn then startTraining (startTimer .beacon d) else d

/-- Verification ends (R478, R479); `lost` names what the restore that follows cannot read. On a peer a verified image waits for the JOIN (R428). -/
def imageVerified (lost : Unread) (d : Dev) : Dev :=
  if d.boot.status ≠ .verifying || d.jtag.halted then d
  else match imageFault d with
    | some code =>
      bootCmd d.boot.held.toNat (setBoot .failed { d with boot.err := BitVec.ofNat 8 code, boot.held := 0 })
    | none => if ownNode d = 0 then startFirmware lost d else { d with cas.verified := true }

/-- IMAGE_VERIFIED. -/
def execImageVerified (lost : Unread) (s : State) : Host.Outcome State Fault Refusal := act (imageVerified lost) s

end Sys2Proof.Machine
end

