-- ==== Sys2Proof/Machine/HostLink.lean ====
section
/-!
DEFINITION. The host link: MSI-X, bus mastering, link power states, errors the receiver reports, configuration writes
(R194, R196 to R199, R204 to R210, R220, R223).
-/

namespace Sys2Proof.Machine

/-- Configuration space can be reached: it answers in D3hot too. -/
def cfgReach (d : Dev) : Bool := d.link.up && !d.pwr.perst && awake d

/-! ### MSI-X (R204) -/

/-- Sends a vector whose pending bit is set and which nothing masks any more. -/
def sendPending (v : Nat) (d : Dev) : Dev :=
  if d.link.msixEn && !d.link.funcMask && !(msixEntry d v).masked && d.link.pba.getLsbD v then
    msix v { d with link.pba := d.link.pba &&& ~~~(1#32 <<< v) }
  else d

/-- All vectors in ascending order. -/
def sendAllPending (d : Dev) : Dev := (List.range 32).foldl (fun d v => sendPending v d) d

/-- Writes the Mask bit of a vector. -/
def setMask (v : Nat) (masked : Bool) (d : Dev) : Dev :=
  sendPending v { d with link.vectors := tblModify {} d.link.vectors v fun e => { e with masked } }

/-- MSIX_UNMASK of one vector, or of the function. -/
def msixUnmask (u : Unmask) (d : Dev) : Dev :=
  match u with
  | .vector v => if hostReach d then setMask v.toNat false d else d
  | .function => if cfgReach d then sendAllPending { d with link.funcMask := false } else d

/-- MSIX_UNMASK. -/
def execMsixUnmask (u : Unmask) (s : State) : Host.Outcome State Fault Refusal := act (msixUnmask u) s

/-! ### Bus mastering and D-states (R198, R223) -/

/-- Requests go on once they can leave again: what was held, the sweep that waits, the mirror, the rings, the next
admin command. -/
def resumeLink (d : Dev) : Dev :=
  if !canIssue d then d
  else
    let d := resumeSweep (flushHeld d)
    fetchNext (pump (mirrorResync d))

/-- Without Bus Master Enable no kick stays pending (R223); a sweep that something else has asked for too does. -/
def dropKick (d : Dev) : Dev :=
  if d.sweep.pendKick then { d with sweep.pending := d.sweep.pendOther, sweep.pendKick := false } else d

/-- Bus Master Enable and the D-state take these values. -/
def busMaster (bme d3hot : Bool) (d : Dev) : Dev :=
  if !cfgReach d then d
  else
    let d := { d with link.bme := bme, link.d3hot := d3hot }
    resumeLink (if bme then d else dropKick d)

/-- BUS_MASTER_CHANGE. -/
def execBusMasterChange (bme d3hot : Bool) (s : State) : Host.Outcome State Fault Refusal :=
  act (busMaster bme d3hot) s

/-! ### Link power states (R205, R206, R460, R461) -/

/-- Nothing is pending on the device's side of the link. -/
def linkIdle (d : Dev) : Bool := (d.link.reads.filter fun r => r.got.isNone).isEmpty && d.link.heldOut.isEmpty

/-- The L1 substates that are enabled now: those of PCI-PM in D3hot, those of ASPM otherwise (R194, R206). -/
def l11On (d : Dev) : Bool := if d.link.d3hot then d.link.l1ss.pmL11 else d.link.l1ss.aspmL11

/-- L1.2 is enabled. -/
def l12On (d : Dev) : Bool := if d.link.d3hot then d.link.l1ss.pmL12 else d.link.l1ss.aspmL12

/-- ASPM L1 is entered: with a substate enabled CLKREQ# is released, and the link rests in L1.1 when that is enabled
(R205, R206). -/
def l1Entry (d : Dev) : Dev :=
  if d.link.up && !d.pwr.perst && d.link.aspmL1 && d.link.lstate == .l0 && linkIdle d then
    { d with
      link.lstate := if l11On d then .l11 else .l1
      link.clkreq := d.link.clkreq && !(l11On d || l12On d) }
  else d

/-- L1_ENTRY_REQUEST: 16 µs without a pending TLP and without DMA work. -/
def execL1EntryRequest (s : State) : Host.Outcome State Fault Refusal := act l1Entry s

/-- The LTR condition of L1.2 (R206): the latency last reported is no shorter than LTR_L1.2_THRESHOLD, or none has been
reported. It holds back ASPM's L1.2 only (PRESUMED from the PCI Express Base Specification, log entry 99). -/
def ltrCondition (d : Dev) : Bool :=
  d.link.d3hot || (match d.link.ltrSent with
    | some ns => decide (d.link.l1ss.thresholdNs ≤ ns)
    | none => true)

/-- The link may enter L1.2: enabled, in D0 by ASPM L1, and the LTR condition holds (R206). -/
def l12Allowed (d : Dev) : Bool := l12On d && (d.link.d3hot || d.link.aspmL1) && ltrCondition d

/-- The link enters L1.2. -/
def l12Entry (d : Dev) : Dev :=
  if d.link.up && !d.pwr.perst && awake d && d.link.lstate != .l12 && linkIdle d && l12Allowed d then
    followListen { d with link.lstate := .l12, link.clkreq := false }
  else d

/-- L1_2_ENTRY. -/
def execL12Entry (s : State) : Host.Outcome State Fault Refusal := act l12Entry s

/-- The link leaves L1.2: the PHY LDO is on, and what waited for the link goes out. -/
def l12Exit (d : Dev) : Dev :=
  if d.link.up && !d.pwr.perst && d.link.lstate == .l12 then
    resumeLink (followListen { d with link.lstate := .l0, link.clkreq := true })
  else d

/-- L1_2_EXIT. -/
def execL12Exit (s : State) : Host.Outcome State Fault Refusal := act l12Exit s

/-! ### Errors (R209) -/

/-- An error that the receiver finds. -/
def onLink (e : Aer) (d : Dev) : Dev := if d.link.up && !d.pwr.perst then aerSet e d else d

/-- UNSUPPORTED_REQUEST. -/
def execUnsupportedRequest (_ : BadRequest) (s : State) : Host.Outcome State Fault Refusal :=
  act (onLink .unsupportedRequest) s

/-- POISONED_TLP_RECEIVED: a poisoned write is discarded. -/
def execPoisonedTlpReceived (s : State) : Host.Outcome State Fault Refusal := act (onLink .poisonedTlp) s

/-- The AER status bit of a receiver condition. -/
def rxAer : RxError → Aer
  | .receiverError => .receiverError
  | .badTlp => .badTlp
  | .badDllp => .badDllp
  | .replayTimeout => .replayTimeout
  | .replayRollover => .replayRollover
  | .malformedTlp => .malformedTlp
  | .receiverOverflow => .receiverOverflow
  | .flowControl => .flowControl
  | .dataLinkProtocol => .dataLinkProtocol

/-- RECEIVER_ERROR. -/
def execReceiverErrorCmd (e : RxError) (s : State) : Host.Outcome State Fault Refusal := act (onLink (rxAer e)) s

/-! ### Configuration space (R190, R191, R194) -/

/-- What the capabilities of R194 declare beside the fields that State holds. -/
structure Caps where
  noSoftReset : Bool := true
  pmeFromD3 : Bool := true
  msixVectors : Nat := 32
  flr : Bool := true
  maxPayload : Nat := 256
  extendedTag : Bool := true
  l1ExitLatencyNs : Nat × Nat := (4000, 8000)
  powerOnUs : Nat := 40
  commonRestoreUs : Nat := 10
  doeMailboxes : Nat := 1
deriving DecidableEq, Repr

/-- The capabilities of this device. -/
def caps : Caps := {}

/-- Base of a BAR of so many bytes after a write of its low or its high register: the size's bits stay 0 (R191). -/
def barWrite (old : DWord) (size : Nat) (high : Bool) (v : Nat) : DWord :=
  let lo := if high then old.toNat % 2 ^ 32 else v % 2 ^ 32 / size * size
  let hi := if high then v else old.toNat / 2 ^ 32
  BitVec.ofNat 64 (hi * 2 ^ 32 + lo)

/-- A BAR register takes a value; BAR4, BAR5 and the ROM BAR are not there (R191). -/
def setBar (i : Nat) (v : Nat) (d : Dev) : Dev :=
  match i with
  | 0 => { d with link.bar0 := barWrite d.link.bar0 16384 false v }
  | 1 => { d with link.bar0 := barWrite d.link.bar0 16384 true v }
  | 2 => { d with link.bar2 := barWrite d.link.bar2 65536 false v }
  | 3 => { d with link.bar2 := barWrite d.link.bar2 65536 true v }
  | _ => d

/-- A word of the configuration header (R190, R191): a 64-bit, non-prefetchable memory BAR reads 0b0100 in its low
bits. -/
def configHeader (d : Dev) (off : Nat) : Nat :=
  match off with
  | 0x00 => 0x1F5E + 0x3401 * 2 ^ 16
  | 0x08 => 0x11 + 0x058000 * 2 ^ 8
  | 0x10 => d.link.bar0.toNat % 2 ^ 32 + 4
  | 0x14 => d.link.bar0.toNat / 2 ^ 32
  | 0x18 => d.link.bar2.toNat % 2 ^ 32 + 4
  | 0x1C => d.link.bar2.toNat / 2 ^ 32
  | 0x2C => d.link.ssvid.toNat + d.link.ssid.toNat * 2 ^ 16
  | _ => 0

/-- What a memory read of BAR2 returns: it completes with 0 (R192, R619). No row of the table commands one (log entry
100). -/
def bar2Read (_ : Nat) : Nat := 0

/-- Enables or disables an L1 substate (R194, R206). -/
def setL1Sub (which : L1Sub) (v : Bool) (l : L1ss) : L1ss :=
  match which with
  | .aspmL11 => { l with aspmL11 := v }
  | .aspmL12 => { l with aspmL12 := v }
  | .pmL11 => { l with pmL11 := v }
  | .pmL12 => { l with pmL12 := v }

/-- Puts an error into a list or takes it out. -/
def markAer (e : Aer) (v : Bool) (l : List Aer) : List Aer :=
  if v then (if e ∈ l then l else l ++ [e]) else l.filter (· ≠ e)

/-- A write of 1 to an AER status bit: the First Error Pointer is free again when it named that error (R194). -/
def clearAer (e : Aer) (d : Dev) : Dev :=
  { d with
    link.aer := d.link.aer.filter (· ≠ e)
    link.aerCap.first := if d.link.aerCap.first = some e then none else d.link.aerCap.first }

/-! ### Configuration writes -/

/-- What a configuration write changes. -/
def configWrite (w : CfgWrite) (d : Dev) : Dev :=
  match w with
  | .pmeStatusClear => { d with link.pmeStatus := false }
  | .pmeEn v => { d with link.pmeEn := v }
  | .ltrEn v => { d with link.ltrEn := v }
  | .completionTimeout v dis => { d with link.ctoVal := v, link.ctoDis := dis }
  | .relaxedOrdering v => { d with link.roEn := v }
  | .maxPayload c => { d with link.mps := 128 * 2 ^ c.toNat }
  | .maxReadRequest c => { d with link.mrrs := 128 * 2 ^ c.toNat }
  | .aspmL1 v => { d with link.aspmL1 := v }
  | .msixControl en fm => sendAllPending { d with link.msixEn := en, link.funcMask := fm }
  | .bar i v => setBar i.val v.toNat d
  | .l1Substate which v => { d with link.l1ss := setL1Sub which v d.link.l1ss }
  | .ltrThreshold ns => { d with link.l1ss.thresholdNs := ns }
  | .aerClear e => clearAer e d
  | .aerMask e v => { d with link.aerCap.masked := markAer e v d.link.aerCap.masked }
  | .aerSeverity e fatal => { d with link.aerCap.fatal := markAer e fatal d.link.aerCap.fatal }
  | .doeAbort => { d with link.doeError := false }

/-- CONFIG_SPACE_WRITE. -/
def execConfigSpaceWrite (w : CfgWrite) (s : State) : Host.Outcome State Fault Refusal :=
  act (fun d => if cfgReach d then configWrite w d else d) s

end Sys2Proof.Machine
end

