-- ==== Sys2Proof/Machine/Ring.lean ====
section
/-!
DEFINITION. The cascade ring up to its services: routing, acknowledgement and retry, training, presence, peer loss,
holes, PEER_STATUS (R409 to R426, R451 to R459).
-/

namespace Sys2Proof.Machine

/-! ### Common parts -/

/-- The cascade interface takes and sends flits: firmware runs, and on node 0 CAS_CTL.EN is 1 (R410, R418, R571,
R637). -/
def ringOn (d : Dev) : Bool :=
  fwRunning d && awake d && !d.err.fatal && (ownNode d ≠ 0 || d.regs.casEn)

/-- What this node keeps for another. -/
def peerOf (d : Dev) (n : Nat) : Peer := tblGet {} d.cas.peers n

/-- Stores it. -/
def putPeer (n : Nat) (p : Peer) (d : Dev) : Dev := { d with cas.peers := tblSet {} d.cas.peers n p }

/-- The node is present (R424). -/
def isPresent (d : Dev) (n : Nat) : Bool := (peerOf d n).st == .present

/-- Sends what waits for the window, oldest first, as far as it goes (R419). -/
def pumpPeer : Nat → Nat → Dev → Dev
  | 0, _, d => d
  | fuel + 1, n, d =>
    match (peerOf d n).waiting with
    | [] => d
    | f :: fs =>
      let d' := sendItems f.src n f.type f.payload (onPeer n (fun p => { p with waiting := [] }) d)
      if (peerOf d' n).waiting.isEmpty then pumpPeer fuel n (onPeer n (fun p => { p with waiting := fs }) d') else d

/-- Sends the packet aborts that waited for a credit (R432). -/
def sendAborts : Nat → Nat → Dev → Dev
  | 0, _, d => d
  | fuel + 1, n, d =>
    let p := peerOf d n
    match p.abortQ with
    | [] => d
    | q :: qs =>
      if p.credits = 0 then d
      else sendAborts fuel n (sendAbort n q (onPeer n (fun p => { p with abortQ := qs }) d))

/-- Whatever can be sent to one node is sent. -/
def pumpNode (n : Nat) (d : Dev) : Dev :=
  let d := pumpPeer ((peerOf d n).waiting.length) n d
  sendAborts ((peerOf d n).abortQ.length) n d

/-- A relayed STANDBY request takes effect once its RSP has been sent (R490). -/
def standbyCheck (d : Dev) : Dev :=
  if d.cas.standbyAfterRsp && d.pwr.standbyPend && (peerOf d 0).waiting.all (fun f => f.type ≠ 10) then enterStandby d
  else d

/-- A result that comes too late is discarded and counted (R450, R568). -/
def lateResult (n : Nat) (d : Dev) : Dev := lateSuccess 0 0 0 (onPeer n (fun p => { p with late := sat32 p.late 1 }) d)

/-- Queue contents changed outside a round: reads, flags, ports. -/
def resettle (qid : Nat) (d : Dev) : Dev := bootQueue qid d

/-! ### Holes (R452 to R454) -/

/-- A chain segment is borrowed from a node. -/
def borrowedFrom (n : Nat) (s : ChainSeg) : Bool := (s.loan.map (·.node)) == some n

/-- A chain segment stands behind a hole against a node. -/
def holeOf (n : Nat) (s : ChainSeg) : Bool := s.hole && borrowedFrom n s

/-- Splits tagged items after every end of a packet. -/
def packetsOf : List (Bool × Item) → List (List (Bool × Item))
  | [] => []
  | x :: xs =>
    if x.2.bound || x.2.aborted then [x] :: packetsOf xs
    else match packetsOf xs with
      | [] => [[x]]
      | p :: ps => (x :: p) :: ps

/-- The items of a queue in the groups that a hole takes whole: packets of a packet queue, single items otherwise.
The Boolean marks a retained item. -/
def itemGroups (q : Queue) : List (List (Bool × Item)) :=
  let l := q.retained.map (fun i => (true, i)) ++ q.items.map fun i => (false, i)
  if q.cfg.pkt then packetsOf l else l.map fun x => [x]

/-- The items of a queue without those that the discarded segments hold or cut (R454). -/
def discardItems (gone : Nat → Bool) (q : Queue) : Queue :=
  let gs := itemGroups q
  let cut (g : List (Bool × Item)) : Bool := g.any fun x => gone x.2.seg
  let kept := (gs.filter fun g => !cut g).flatten
  let items := (kept.filter fun x => !x.1).map (·.2)
  let retained := (kept.filter fun x => x.1).map (·.2)
  let lost := occupancy q - kept.length
  -- what the consumer takes next went: the rest of the packet it is in
  let headGone := match (gs.filter fun g => g.any fun x => !x.1).head? with
    | some g => cut g
    | none => false
  let tailGone := match gs.getLast? with
    | some g => cut g && !(g.getLast?.map fun x => x.2.bound || x.2.aborted).getD true
    | none => false
  let open_ := q.cfg.pkt && tailGone && q.lock.isSome
  let inPktCut := q.inPkt && (headGone || (q.items.isEmpty && open_))
  { q with
    items, retained
    lost := (q.lost + lost) % 2 ^ 32
    owedEnd := q.owedEnd || inPktCut
    inPkt := q.inPkt && !inPktCut
    lock := if open_ then none else q.lock
    openCount := if open_ then 0 else q.openCount
    openAvail := !open_ && q.openAvail
    discards := if open_ then q.discards ++ [{ prod := q.lock, drop := false }] else q.discards }

/-- Discards the hole segments of a queue that a condition names; with `tell` the lender hears of each (R445,
R453, R454). -/
def discardHole (sel : ChainSeg → Bool) (tell : Bool) (qid : Nat) (d : Dev) : Dev :=
  let q := queueOf d qid
  let segs := q.chain.filter fun s => s.hole && sel s
  if segs.isEmpty then d
  else
    let gone (pos : Nat) : Bool := segs.any fun s => s.pos = pos
    let q' := discardItems gone q
    let d := putQueue qid { q' with chain := q.chain.filter fun s => !(s.hole && sel s) } d
    let d := segs.foldl (fun d s => releaseSeg qid q.cfg.persist { s with hole := !tell } d) d
    resettle qid (releaseUnused qid d)

/-- Discards the holes of every queue. -/
def discardHoles (sel : ChainSeg → Bool) (tell : Bool) (d : Dev) : Dev :=
  d.queues.foldl (fun d e => discardHole sel tell e.1 d) d

/-- Some queue holds a hole against a node. -/
def anyHole (d : Dev) (n : Nat) : Bool := d.queues.any fun e => e.2.chain.any (holeOf n)

/-- Stops the limit of R453 once no hole is left. -/
def holeTimer (n : Nat) (d : Dev) : Dev := if anyHole d n then d else stopTimer (.hole n) d

/-- Copies that are in the near tier too lose a loan that a condition names. -/
def forgetLoans (sel : LoanRef → Bool) (d : Dev) : Dev :=
  d.queues.foldl (fun d e =>
    (e.2.chain.filter fun s => s.near.isSome && (s.loan.map sel).getD false).foldl (fun d s =>
      let d := onSeg e.1 s.pos (fun s => { s with loan := none }) d
      match s.loan with
      | some l => giveLoan e.1 e.2.cfg.persist true l d
      | none => d) d) d

/-- A lost node's copies without a near copy become holes, and its reads end (R451, R452). -/
def makeHoles (n : Nat) (d : Dev) : Dev :=
  d.queues.foldl (fun d e =>
    let hit (s : ChainSeg) : Bool := borrowedFrom n s && s.near.isNone && s.deep.isNone && !s.hole
    if e.2.chain.any hit then
      resettle e.1 (onQueue e.1 (fun q => { q with
        stDamaged := true
        chain := q.chain.map fun s => if hit s then { s with hole := true, reading := false } else s }) d)
    else d) d

/-! ### The lender's side (R329, R442, R444, R445, R455) -/

/-- A loan ends: its segment returns to the pool, after the journal when the journal names it. A program of it that
is in flight completes first. -/
def freeLoan (h : Nat) (d : Dev) : Dev :=
  match tblFind d.tier.loans h with
  | none => d
  | some l =>
    let d := { d with tier.loans := tblErase d.tier.loans h }
    let named := l.persist && !l.data.isEmpty
    let d := if named then addRecord (.unlend h) d else d
    if d.tier.active.any fun p => p.seg = some l.seg then { d with tier.deep := tblPut d.tier.deep l.seg .busy }
    else freeDeep 0 l.seg named d

/-! ### Peer loss (R424, R425, R451) -/

/-- What a lost node leaves of the link to it. -/
def cutLink (p : Peer) : Peer :=
  { p with
    st := .lost, losses := sat32 p.losses 1, unacked := [], waiting := [], attempts := 0, retrying := false
    nakSent := false, ackDue := false, credits := 0, owedCredits := 0, rib := [], openQ := [], dropQ := []
    abortQ := [], listed := [], reclaiming := false }

/-- Segments on their way to a lost lender stay near-only; one that SEAL waits for goes into the own tier (R354,
R451). -/
def endBorrow (p : Prog) (d : Dev) : Dev :=
  match p.what with
  | .borrow qid pos _ _ _ =>
    let d := { d with tier.active := d.tier.active.filter (· ≠ p) }
    if (d.tier.sealRun.map fun r => decide ((qid, pos) ∈ r.left)).getD false then
      onQueue qid (setProg pos .queued) { d with tier.progQ := { what := .seal qid pos, spills := true : Prog } :: d.tier.progQ }
    else onQueue qid (setProg pos .none) d
  | _ => d

/-- A program is a loan of this lender. -/
def borrowsFrom (n : Nat) (p : Prog) : Bool :=
  match p.what with
  | .borrow _ _ node _ _ => node == n
  | _ => false

/-- The transfer of a drain ring from a queue of a lost node ends with PEER_LOST; its queues are no longer ready. -/
def loseDrain (n : Nat) (r : DrainRing) : DrainRing :=
  { r with
    ready := r.ready.filter fun q => q / 4096 ≠ n
    xfer := r.xfer.map fun x =>
      if x.remote.isSome && x.qid / 4096 = n && !x.ended then { x with ended := true, status := 0x71 } else x }

/-- A peer that loses node 0 takes back what it holds for node 0's transfers (log entry 50). -/
def takeBackHeld (d : Dev) : Dev :=
  d.queues.foldl (fun d e =>
    let q := e.2
    if q.held.isEmpty && q.ptx.isNone && q.armed.isNone then d
    else
      let now := match q.ptx with
        | some t => t.items.take (t.returns.getD t.items.length)
        | none => []
      let back := q.held.flatMap (·.2) ++ now
      let owed := q.held.any fun h => h.2.isEmpty
      let q := if back.isEmpty then q else returnItems back q
      resettle e.1 (putQueue e.1 { q with held := [], ptx := none, armed := none, owedEnd := q.owedEnd || owed } d)) d

/-- A node is declared lost. -/
def declareLost (n : Nat) (d : Dev) : Dev :=
  if !isPresent d n then d
  else
    let d := stopTimer (.beaconTo n) (stopTimer (.retry n) (onPeer n cutLink d))
    let d := recordErr 0x71 7 n d
    let d := finishRun (fun k => match k with
      | .relay m _ _ => m == n
      | _ => false) (failWith 0x71) d
    let d := { d with rings.drains := d.rings.drains.map fun (e : Nat × DrainRing) => (e.1, loseDrain n e.2) }
    let d := d.rings.fills.foldl (fun d e =>
      if (e.2.cur.map fun c => decide (c.qid / 4096 = n)).getD false then finishFill e.1 0x71 false d else d) d
    let d := forgetDiscards (.node n) (abortOwned (.node n) d)
    let d := (d.tier.active.filter (borrowsFrom n)).foldl (fun d p => endBorrow p d) d
    let d := makeHoles n d
    let d := if anyHole d n && !timerOn d (.hole n) then startTimer (.hole n) d else d
    let d := if n = 0 then takeBackHeld d else d
    pump (stallChecks (refreshFlags (settlePauses (startTraining d))))

/-! ### Retry (R419 to R422) -/

/-- Units sent and not wholly acknowledged, after an acknowledgement up to `ack`. -/
def dropAcked (ack : Nat) (l : List SentFlit) : List SentFlit :=
  match l.findIdx? fun f => (f.seq + flitUnits f.payload) % 256 = ack with
  | some i => l.drop (i + 1)
  | none => l

/-- FL_ACK and FL_CRD of a flit from a node (R415, R420, R432). -/
def applyAck (n ack crd : Nat) (d : Dev) : Dev :=
  let p := peerOf d n
  let left := dropAcked ack p.unacked
  let moved := decide (left.length ≠ p.unacked.length)
  let d := onPeer n (fun p => { p with
    credits := min 16 (p.credits + crd)
    unacked := left
    attempts := if !moved then p.attempts else if left.isEmpty then 0 else 1
    retrying := p.retrying && !moved }) d
  let d := if !moved then d else if left.isEmpty then stopTimer (.retry n) d else startTimer (.retry n) d
  settlePauses (pumpNode n d)

/-- Sends every unacknowledged unit again, or declares the node lost after the 8th attempt (R421). -/
def resend (n : Nat) (d : Dev) : Dev :=
  let p := peerOf d n
  if p.unacked.isEmpty then d
  else if 8 ≤ p.attempts then declareLost n (onPeer n (fun p => { p with exhausted := sat32 p.exhausted 1 }) d)
  else
    let units := (p.unacked.map fun f => flitUnits f.payload).sum
    let d := onPeer n (fun p => { p with
      attempts := p.attempts + 1, retrying := true, resends := sat32 p.resends units }) d
    let d := p.unacked.foldl (fun d f => emitFlit f.type n f.seq f.payload d) d
    settlePauses (startTimer (.retry n) d)

/-- RETRY_TIMEOUT: an attempt has had no acknowledgement for 20 ticks. -/
def retryTimeout (n : Nat) (d : Dev) : Dev := if ringOn d && timerDue d (.retry n) 20 then resend n d else d

/-- RETRY_TIMEOUT. -/
def execRetryTimeout (node : BitVec 2) (s : State) : Host.Outcome State Fault Refusal := actBacklog (retryTimeout node.toNat) s

/-- No flit to a node was due within 2 µs of an acceptance: an ACK goes out (R420). -/
def ackTimer (n : Nat) (d : Dev) : Dev :=
  if ringOn d && isPresent d n && (peerOf d n).ackDue then standbyCheck (emitFlit 1 n 0 [] d) else d

/-- ACK_TIMER_EXPIRY. -/
def execAckTimerExpiry (node : BitVec 2) (s : State) : Host.Outcome State Fault Refusal := act (ackTimer node.toNat) s

/-! ### Flits that arrive (R413, R418) -/

/-- A flit that is no TRAIN: a peer sees that the training has ended, node 0 counts TRAIN flits anew. -/
def heard (d : Dev) : Dev :=
  if ownNode d = 0 then { d with cas.trainSeen := if d.cas.training then 0 else d.cas.trainSeen }
  else if d.cas.up then d
  else
    let d := settlePauses { d with cas.up := true, cas.training := false }
    d.cas.peers.foldl (fun d e => pumpNode e.1 d) d

/-- The cascade switches conduct (R637); EXTEST, CLAMP and HIGHZ open them (R575). -/
def ringBypassed (d : Dev) : Bool := !d.pwr.vin || (d.cas.switchClosed && !boundaryActs d)

/-- A flit at a node whose interface takes nothing: it passes through closed switches as it came (R411, R637). -/
def passBy (type src dst seq : Nat) (payload : Bytes) (d : Dev) : Dev :=
  if ringBypassed d then emit (.forward type src dst seq payload) d else d

/-- A flit with one destination: removed, forwarded, or taken by `f`. `reply` marks a result (R450). -/
def routed (h : FlitHdr) (type : Nat) (payload : Bytes) (reply : Bool) (f : Dev → Dev) (d : Dev) : Dev :=
  if !ringOn d then passBy type h.src.toNat h.dst.toNat h.seq.toNat payload d
  else
    let own := ownNode d
    let src := h.src.toNat
    let dst := h.dst.toNat
    let d := heard d
    if src = own then
      if dst = own then d else putPeer dst { peerOf d dst with returned := sat32 (peerOf d dst).returned 1 } d
    else if own = 0 && !isPresent d src then (if reply then lateResult src d else d)
    else if dst ≠ own then emit (.forward type src dst h.seq.toNat payload) d
    else if !isPresent d src then (if reply then lateResult src d else d)
    else f d

/-- Takes the acknowledgement in a flit's header. -/
def takeHeader (h : FlitHdr) (d : Dev) : Dev :=
  if h.ackv then applyAck h.src.toNat h.ack.toNat h.crd.toNat d else d

/-- A sequenced unit for this node: the next expected one is taken, any other is discarded, the first of them with a
NAK (R419). -/
def accept (h : FlitHdr) (payload : Bytes) (f : Nat → Dev → Dev) (d : Dev) : Dev :=
  let src := h.src.toNat
  if d.cas.training then d
  else
    let d := takeHeader h d
    let p := peerOf d src
    if h.seq.toNat ≠ p.rxSeq then
      if p.nakSent then d else emitFlit 2 src 0 [] (onPeer src (fun p => { p with nakSent := true }) d)
    else
      f src (onPeer src (fun p => { p with
        rxSeq := (p.rxSeq + flitUnits payload) % 256, nakSent := false, ackDue := true }) d)

/-- A sequenced unit arrives. -/
def receive (h : FlitHdr) (type : Nat) (payload : Bytes) (reply : Bool) (f : Nat → Dev → Dev) (d : Dev) : Dev :=
  standbyCheck (routed h type payload reply (accept h payload f) d)

/-- Work of the firmware: while the Shuttle is stopped it waits, whole and in order (R29, R582). -/
def whenFirmware (i : Instr) (f : Dev → Dev) (d : Dev) : Dev :=
  if fwExec d && d.cas.held.isEmpty then f d else { d with cas.held := d.cas.held ++ [i] }

/-- ACK. -/
def execAck (h : FlitHdr) (s : State) : Host.Outcome State Fault Refusal :=
  actBacklog (fun d => standbyCheck (routed h 1 [] false (takeHeader h) d)) s

/-- NAK: every flit from FL_ACK on goes out again (R421). While the ring trains, nothing is sent (R413). -/
def nakTaken (h : FlitHdr) (d : Dev) : Dev :=
  let d := takeHeader h d
  if d.cas.up then resend h.src.toNat d else d

/-- NAK. -/
def execNak (h : FlitHdr) (s : State) : Host.Outcome State Fault Refusal :=
  actBacklog (fun d => standbyCheck (routed h 2 [] false (nakTaken h) d)) s

/-- A TRAIN flit arrives: node 0 counts its own, a peer passes it on and holds its sequenced flits (R413, R418). -/
def trainFlit (d : Dev) : Dev :=
  if !ringOn d then passBy 0 0 0 0 trainPayload d
  else if ownNode d ≠ 0 then
    emit (.forward 0 0 0 0 trainPayload) (settlePauses { d with cas.up := false, cas.training := true })
  else if !d.cas.training then d
  else if d.cas.trainSeen + 1 < 64 then { d with cas.trainSeen := d.cas.trainSeen + 1 }
  else
    let d := settlePauses { d with cas.trainSeen := 0, cas.training := false, cas.up := true }
    d.cas.peers.foldl (fun d e => pumpNode e.1 d) d

/-- TRAIN. -/
def execTrain (s : State) : Host.Outcome State Fault Refusal := act trainFlit s

/-- A flit fails its CRC: it is counted and removed, and it ends a run of TRAIN flits (R413, R418). A peer without
firmware listens too (R428). -/
def crcFail (d : Dev) : Dev :=
  if ringOn d || (ownNode d ≠ 0 && awake d && !fwRunning d) then
    { d with cas.crcErrors := sat32 d.cas.crcErrors 1, cas.trainSeen := 0 }
  else d

/-- FLIT_CRC_FAIL. -/
def execFlitCrcFail (s : State) : Host.Outcome State Fault Refusal := act crcFail s

/-- CAS_CTL.EN becomes 1 on node 0 (R410, R413, R423). -/
def casEnable (d : Dev) : Dev :=
  if d.regs.casEn then d
  else
    let d := { d with regs.casEn := true }
    if ownNode d = 0 && fwRunning d then startTraining (startTimer .beacon d) else d

/-- CAS_CTL.EN becomes 0: node 0 drives its transmitter low and ignores its receiver (R410). -/
def casDisable (d : Dev) : Dev :=
  stopTimer .beacon (settlePauses { d with
    regs.casEn := false, cas.up := false, cas.training := false, cas.trainSeen := 0 })

/-- CAS_ENABLE. -/
def execCasEnable (s : State) : Host.Outcome State Fault Refusal :=
  act (fun d => if hostReach d then casEnable d else d) s

/-! ### Presence (R423 to R426) -/

/-- Power state in a beacon: the codes of R463. -/
def powerCode (d : Dev) : Nat := if d.pwr.standbyPend then 2 else if listening d then 1 else 0

/-- Payload of this node's BEACON (R417). -/
def beaconPayload (d : Dev) : Bytes :=
  natLe 4 d.tier.lineage.toNat ++ natLe 4 d.epoch.now.toNat ++ natLe 1 d.tier.boots ++
    natLe 1 (flagAt d.tier.sealRun.isSome 0 + powerCode d * 2)

/-- CAS_BEACON ticks have passed. -/
def beaconTimer (d : Dev) : Dev :=
  if ringOn d && fwExec d && timerDue d .beacon d.regs.casBeacon then
    startTimer .beacon (emitCast 3 (beaconPayload d) d)
  else d

/-- BEACON_TIMER. -/
def execBeaconTimer (s : State) : Host.Outcome State Fault Refusal := act beaconTimer s

/-- The firmware relay ends once every node it names is present (R427, R429). -/
def relayCheck (d : Dev) : Dev :=
  if d.cas.relayPasses = 0 then d
  else
    let named := [1, 2, 3].filter fun n => d.cas.relayMask.getLsbD n
    let on := named.filter fun n => isPresent d n
    if on.length = named.length then
      let d := stopTimer .relayBeacon (stopTimer .relayPass { d with cas.relayPasses := 0, cas.relayImage := [] })
      finishRun (· = .relayFw) (okWith on.length 0) d
    else d

/-- This node may have borrowed from a node before: a queue names it as its lender (R441). -/
def borrowerOf (d : Dev) (n : Nat) : Bool :=
  d.queues.any fun e => (e.2.cfg.peerQuota ≠ 0 && e.2.cfg.peerNode.toNat = n) || e.2.chain.any (borrowedFrom n)

/-- Holes against a node that returns: with their lineage they are reclaimed, with another they are discarded; the
lender's side frees what it lent under another lineage (R453, R455). -/
def settleLoans (n : Nat) (lineage : Word) (knew : Bool) (d : Dev) : Dev :=
  let other (l : LoanRef) : Bool := l.node == n && l.lineage ≠ lineage
  let d := holeTimer n (discardHoles (fun s => (s.loan.map other).getD false) false (forgetLoans other d))
  let d := (d.tier.loans.filter fun e => e.2.node = n && e.2.lineage ≠ lineage).foldl (fun d e => freeLoan e.1 d) d
  if anyHole d n || knew || borrowerOf d n then
    sendSeq n 8 (segPayload 9 0 false 0 0 0 []) (onPeer n (fun p => { p with reclaiming := true, listed := [] }) d)
  else d

/-- A node becomes present at its first beacon (R413, R424, R432, R437). -/
def becomePresent (n : Nat) (b : BeaconPl) (d : Dev) : Dev :=
  let p := peerOf d n
  let knew := p.st == .lost && p.lineage == b.lineage
  let d := putPeer n { cutLink p with
    st := .present, losses := p.losses, boots := b.boots, lineage := b.lineage, epoch := b.epoch, sealing := b.sealing
    pstate := b.pstate, txSeq := 0, rxSeq := 0, credits := 16 } d
  let d := startTraining d
  let d := settleLoans n b.lineage knew d
  let d := d.bind.drain.foldl (fun d x => if x.qid / 4096 = n then armBind x d else d) d
  relayCheck d

/-- A beacon is the second of two lineages within one beacon interval (R426). -/
def lineageClash (n : Nat) (lineage : Word) (d : Dev) : Bool :=
  ownNode d = 0 && timerOn d (.beaconTo n) && !timerDue d (.beaconTo n) d.regs.casBeacon &&
    (peerOf d n).lineage ≠ lineage

/-- A beacon of another node, by the firmware (R424, R426). -/
def beaconTaken (n : Nat) (b : BeaconPl) (d : Dev) : Dev :=
  let p := peerOf d n
  if lineageClash n b.lineage d then
    let d := recordErr 0x77 7 n d
    let d := declareLost n d
    startTimer (.beaconTo n) (putPeer n { peerOf d n with lineage := b.lineage } d)
  else
    let d := if p.st ≠ .present then becomePresent n b d
      else if p.boots ≠ b.boots || p.lineage ≠ b.lineage then becomePresent n b (declareLost n d)
      else onPeer n (fun p => { p with epoch := b.epoch, sealing := b.sealing, pstate := b.pstate }) d
    startTimer (.beaconTo n) d

/-- The bytes of a beacon's payload. -/
def beaconBytes (b : BeaconPl) : Bytes :=
  natLe 4 b.lineage.toNat ++ natLe 4 b.epoch.toNat ++ natLe 1 b.boots.toNat ++
    natLe 1 (flagAt b.sealing 0 + b.pstate.toNat * 2)

/-- A BEACON flit arrives: the own one is removed, any other is passed on and taken (R418). -/
def beaconFlit (h : FlitHdr) (b : BeaconPl) (d : Dev) : Dev :=
  let n := h.src.toNat
  if !ringOn d then passBy 3 n h.dst.toNat 0 (beaconBytes b) d
  else
    let d := heard d
    if n = ownNode d then d
    else
      standbyCheck (whenFirmware (.beacon h b) (beaconTaken n b)
        (emit (.forward 3 n h.dst.toNat 0 (beaconBytes b)) d))

/-- BEACON. -/
def execBeacon (h : FlitHdr) (p : BeaconPl) (s : State) : Host.Outcome State Fault Refusal := actBacklog (beaconFlit h p) s

/-- 4 × CAS_BEACON ticks have passed without a beacon (R424). -/
def beaconTimeout (n : Nat) (d : Dev) : Dev :=
  if fwExec d && timerDue d (.beaconTo n) (4 * d.regs.casBeacon) then declareLost n (stopTimer (.beaconTo n) d) else d

/-- BEACON_TIMEOUT. -/
def execBeaconTimeout (node : BitVec 2) (s : State) : Host.Outcome State Fault Refusal :=
  actBacklog (beaconTimeout node.toNat) s

/-- CAS_HOLE_TO has passed since the loss (R453). -/
def holeTimeout (n : Nat) (d : Dev) : Dev :=
  if fwExec d && d.regs.casHoleTo ≠ 0 && timerDue d (.hole n) d.regs.casHoleTo then
    pump (stallChecks (refreshFlags (discardHoles (borrowedFrom n) (isPresent d n) (stopTimer (.hole n) d))))
  else d

/-- HOLE_TIMEOUT. -/
def execHoleTimeout (node : BitVec 2) (s : State) : Host.Outcome State Fault Refusal := actBacklog (holeTimeout node.toNat) s

/-! ### PEER_STATUS (R456) -/

/-- Maximal runs of hole segments against a node in one chain. -/
def holeRuns (n : Nat) : Bool → List ChainSeg → Nat
  | _, [] => 0
  | prev, s :: ss => (if holeOf n s && !prev then 1 else 0) + holeRuns n (holeOf n s) ss

/-- Items of a queue behind holes against a node. -/
def holeItems (n : Nat) (q : Queue) : Nat :=
  ((storedItems q).filter fun i => q.chain.any fun s => s.pos = i.seg && holeOf n s).length

/-- PS_STATE. -/
def peerStateCode (s : PeerState) : Nat :=
  match s with
  | .absent => 0
  | .present => 1
  | .lost => 2

/-- The 64 bytes of R456. -/
def peerRecord (n : Nat) (d : Dev) : Bytes :=
  let p := peerOf d n
  let expected := n = 0 || d.regs.casNodes.getLsbD n
  let borrowed := (d.queues.map fun e => (e.2.chain.filter (borrowedFrom n)).length).sum
  natLe 2 1 ++ natLe 2 64 ++
    natLe 4 (n + peerStateCode p.st * 2 ^ 2 + flagAt expected 4 + p.boots.toNat * 2 ^ 8 + p.ribDiscards * 2 ^ 16) ++
    natLe 4 p.lineage.toNat ++ natLe 4 p.epoch.toNat ++ natLe 4 p.flitsSent ++ natLe 4 p.resends ++
    natLe 4 p.exhausted ++ natLe 4 p.losses ++ natLe 4 p.late ++
    natLe 4 (d.tier.loans.filter fun e => e.2.node = n).length ++ natLe 4 borrowed ++
    natLe 4 (d.queues.map fun e => holeRuns n false e.2.chain).sum ++
    natLe 4 (d.queues.map fun e => holeItems n e.2).sum ++ natLe 4 d.cas.crcErrors ++
    natLe 4 (flagAt d.cas.up 0 + flagAt d.cas.fast 1 + d.cas.trainings * 2 ^ 16) ++ natLe 4 p.returned

/-- PEER_STATUS. -/
def execPeerStatus (c : AdmCmd) (s : State) : Host.Outcome State Fault Refusal :=
  act (admin 0x60 c [] (reportBody c 64 (peerRecord (bitsOf c.arg0.toNat 0 2)))) s

end Sys2Proof.Machine
end

