-- ==== Sys2Proof/Machine/Cascade.lean ====
section
/-!
DEFINITION. The services of the cascade ring: bursts, drain transfers of peer queues, borrowed segments, relayed
admin commands, the firmware relay (R427 to R450, R453, R490).
-/

namespace Sys2Proof.Machine

/-! ### Bursts from other nodes (R430 to R434) -/

/-- The bytes of a PUSH as they stand on the ring. -/
def pushBytes (p : PushPl) : Bytes :=
  pushPayload p.qid.toNat p.opens p.ends p.abort p.ragged p.stamp (p.data.take 64)

/-- A burst enters the ring ingress buffer of its sender. -/
def pushTaken (p : PushPl) (src : Nat) (d : Dev) : Dev :=
  let qid := p.qid.toNat
  let items := if p.abort then [] else itemsOf (queueOf d qid).cfg.ew (p.data.take 64) p.ends p.ragged
  let b : Burst :=
    { prod := .node src, qid := ownNode d * 4096 + qid, items, stamp := d.epoch.seq, ringStamp := some p.stamp
      sop := p.opens, abort := p.abort }
  onPeer src (fun x => { x with rib := x.rib ++ [b] }) d

/-- PUSH. -/
def execPush (h : FlitHdr) (p : PushPl) (s : State) : Host.Outcome State Fault Refusal :=
  act (receive h 4 (pushBytes p) false (pushTaken p)) s

/-! ### Drain transfers (R437 to R439) -/

/-- The bytes of a POP_REQ. -/
def popReqBytes (p : PopReqPl) : Bytes :=
  popReqPayload p.qid.toNat p.limit.toNat p.tag.toNat p.dmin.toNat p.wait.toNat p.packed p.arm p.done p.ret

/-- DONE: the items of a transfer are gone. -/
def popDone (qid tag : Nat) (d : Dev) : Dev :=
  releaseUnused qid (onQueue qid (fun q => { q with held := q.held.filter fun h => h.1 ≠ tag }) d)

/-- RETURN: the items of a transfer go back to the head, and an ABORTED end that it took comes again (R439, R676). -/
def popReturn (qid tag : Nat) (d : Dev) : Dev :=
  let q := queueOf d qid
  let q' := match q.ptx with
    | some t =>
      if t.tag = tag then
        let l := t.items.take (t.returns.getD t.items.length)
        { (if l.isEmpty then q else returnItems l q) with ptx := none }
      else q
    | none =>
      match q.held.find? fun h => h.1 = tag with
      | some h =>
        let q := { q with held := q.held.filter fun h => h.1 ≠ tag }
        if h.2.isEmpty then { q with owedEnd := true } else returnItems h.2 q
      | none => q
  pump (stallChecks (refreshFlags (resettle qid (putQueue qid q' d))))

/-- An arming request (R437). -/
def popArm (p : PopReqPl) (d : Dev) : Dev :=
  let qid := p.qid.toNat
  let d := onQueue qid (fun q => { q with
    armed := some (p.packed, p.dmin.toNat * 64, p.wait.toNat, p.tag.toNat) }) d
  readyCheck qid (drainWaitCheck qid d)

/-- A transfer begins (R438); a queue out of service answers at once with nothing. -/
def popStart (p : PopReqPl) (src : Nat) (d : Dev) : Dev :=
  let qid := p.qid.toNat
  let q := queueOf d qid
  if q.ptx.isSome then d
  else if !q.cfg.valid then sendSeq src 7 (popRspPayload qid p.tag.toNat 0 []) d
  else putQueue qid { q with
    armed := none
    ptx := some { tag := p.tag.toNat, limit := p.limit.toNat, packed := p.packed, ew := q.cfg.ew } } d

/-- A POP_REQ at a peer. -/
def popReqTaken (p : PopReqPl) (src : Nat) (d : Dev) : Dev :=
  if p.done then popDone p.qid.toNat p.tag.toNat d
  else if p.ret then popReturn p.qid.toNat p.tag.toNat d
  else if p.arm then popArm p d
  else popStart p src d

/-- POP_REQ. -/
def execPopReq (h : FlitHdr) (p : PopReqPl) (s : State) : Host.Outcome State Fault Refusal :=
  actBacklog (receive h 6 (popReqBytes p) false (popReqTaken p)) s

/-- The flags of a POP_RSP without READY. -/
def popRspFlags (p : PopRspPl) : BitVec 6 :=
  BitVec.ofNat 6 (flagAt p.sop 0 + flagAt p.eop 1 + flagAt p.aborted 2 + flagAt p.ctUnderrun 3 + flagAt p.ragged 4 +
    flagAt p.damaged 5)

/-- The bytes of a POP_RSP. -/
def popRspBytes (p : PopRspPl) : Bytes :=
  popRspPayload p.qid.toNat p.tag.toNat (BitVec.ofNat 7 ((popRspFlags p).toNat + flagAt p.ready 6)) p.data

/-- Arms the binding of a drain ring to a queue. -/
def armQueue (n gq : Nat) (d : Dev) : Dev :=
  match d.bind.drain.find? fun b => b.target = n && b.qid = gq with
  | some b => armBind b d
  | none => d

/-- The answer to a transfer of drain ring `n`: without data and end it consumes no buffer (R438). -/
def popAnswer (n gq : Nat) (p : PopRspPl) (r : DrainRing) (x : Xfer) (d : Dev) : Dev :=
  if p.data.isEmpty && !p.aborted then pump (armQueue n gq (putDrain n { r with xfer := none } d))
  else putDrain n { r with xfer := some { x with
    bytes := p.data.take x.buf.len, remoteFlags := popRspFlags p, ended := true } } d

/-- A POP_RSP at node 0: readiness, a transfer's answer, or a late result (R437, R438, R450). -/
def popRspTaken (p : PopRspPl) (src : Nat) (d : Dev) : Dev :=
  let n := p.tag.toNat
  let gq := src * 4096 + p.qid.toNat
  match tblFind d.rings.drains n with
  | none => if p.ready then d else lateResult src d
  | some r =>
    if p.ready then
      if gq ∈ r.ready || !d.bind.drain.any (fun b => b.target = n && b.qid = gq) then d
      else pump (putDrain n { r with ready := r.ready ++ [gq] } d)
    else match r.xfer with
      | some x => if x.remote = some n && x.qid = gq && !x.ended then popAnswer n gq p r x d else lateResult src d
      | none => lateResult src d

/-- POP_RSP. -/
def execPopRsp (h : FlitHdr) (p : PopRspPl) (s : State) : Host.Outcome State Fault Refusal :=
  act (receive h 7 (popRspBytes p) true (popRspTaken p)) s

/-! ### Borrowed segments: common parts (R417, R441 to R445) -/

/-- The bytes of a SEG unit. -/
def segUnitBytes (op : Nat) (p : SegPl) : Bytes :=
  segPayload op p.handle.toNat p.persist p.first.toNat p.count.toNat p.borrower.toNat p.data

/-- A SEG unit arrives; its service is the firmware's. -/
def segUnit (op : Nat) (reply : Bool) (i : Instr) (h : FlitHdr) (p : SegPl) (f : Nat → Dev → Dev) (d : Dev) : Dev :=
  receive h 8 (segUnitBytes op p) reply (fun src d => whenFirmware i (f src) d) d

/-- A loan that this node has made to another. -/
def loanTo (d : Dev) (src h : Nat) : Option Loan := (tblFind d.tier.loans h).filter fun l => l.node = src

/-- Sends RELEASE for a handle. -/
def sendRelease (node handle : Nat) (persist : Bool) (qid : Nat) (d : Dev) : Dev :=
  sendSeq node 8 (segPayload 8 handle persist 0 0 qid []) d

/-! ### The lender (R442 to R445, R453) -/

/-- Lendable segments (R442). -/
def lendable (d : Dev) : Nat :=
  deepPool d - sealNeed d -
    (d.queues.map fun e => if e.2.cfg.valid then e.2.cfg.deepQuota - deepCopies d e.1 e.2 else 0).sum

/-- A loan request: a grant of the segment R328 chooses, or a refusal. -/
def loanReqTaken (p : SegPl) (src : Nat) (d : Dev) : Dev :=
  let q := p.borrower.toNat
  let refuse := sendSeq src 8 (segPayload 2 0 p.persist 0 0 q []) d
  if lendable d = 0 then refuse
  else match chooseDeep d with
    | none => refuse
    | some g =>
      if (tblFind d.tier.loans g).isSome then refuse
      else
        let l : Loan := { node := src, lineage := (peerOf d src).lineage, persist := p.persist, borrower := q
                          seg := g, data := [] }
        sendSeq src 8 (segPayload 1 g p.persist 0 0 q []) { d with
          tier.loans := tblPut d.tier.loans g l
          tier.deep := tblPut d.tier.deep g (.lent g) }

/-- LOAN_REQ. -/
def execLoanReq (h : FlitHdr) (p : SegPl) (s : State) : Host.Outcome State Fault Refusal :=
  actBacklog (segUnit 0 false (.loanReq h p) h p (loanReqTaken p)) s

/-- A program for a loan waits or runs. -/
def lentRuns (d : Dev) (h : Nat) : Bool :=
  (d.tier.progQ ++ d.tier.active).any fun p => match p.what with
    | .lent x _ _ _ _ => x == h
    | _ => false

/-- A WRITE: the segment is queued for its program under this node's bucket (R444). -/
def segWriteTaken (p : SegPl) (src : Nat) (d : Dev) : Dev :=
  let h := p.handle.toNat
  match loanTo d src h with
  | none => d
  | some l =>
    if lentRuns d h || !l.data.isEmpty then d
    else { d with tier.progQ := d.tier.progQ ++
      [{ what := .lent h src l.borrower l.persist (sliceBytes p.data 0 4096), seg := some l.seg }] }

/-- SEG_WRITE. -/
def execSegWrite (h : FlitHdr) (p : SegPl) (s : State) : Host.Outcome State Fault Refusal :=
  actBacklog (segUnit 3 false (.segWrite h p) h p (segWriteTaken p)) s

/-- A READ_REQ: the sectors as they are stored (R443, R445). -/
def readReqTaken (p : SegPl) (src : Nat) (d : Dev) : Dev :=
  match loanTo d src p.handle.toNat with
  | none => d
  | some l =>
    let first := p.first.toNat % 128
    let n := min (p.count.toNat + 1) (128 - first)
    sendSeq src 8 (segPayload 7 p.handle.toNat l.persist first (n - 1) p.borrower.toNat
      (sliceBytes l.data (32 * first) (32 * n))) d

/-- READ_REQ. -/
def execReadReq (h : FlitHdr) (p : SegPl) (s : State) : Host.Outcome State Fault Refusal :=
  act (segUnit 6 false (.readReq h p) h p (readReqTaken p)) s

/-- A RELEASE. -/
def segReleaseTaken (p : SegPl) (src : Nat) (d : Dev) : Dev :=
  if (loanTo d src p.handle.toNat).isSome then freeLoan p.handle.toNat d else d

/-- SEG_RELEASE. -/
def execSegRelease (h : FlitHdr) (p : SegPl) (s : State) : Host.Outcome State Fault Refusal :=
  actBacklog (segUnit 8 false (.segRelease h p) h p (segReleaseTaken p)) s

/-- A RECLAIM: every PERSIST loan of this borrower and lineage is listed (R453). -/
def reclaimTaken (src : Nat) (d : Dev) : Dev :=
  let mine := d.tier.loans.filter fun e => e.2.node = src && e.2.persist && e.2.lineage = (peerOf d src).lineage
  let d := mine.foldl (fun d e => sendSeq src 8 (segPayload 10 e.1 true 0 0 e.2.borrower []) d) d
  sendSeq src 8 (segPayload 11 0 false 0 0 0 []) d

/-- RECLAIM. -/
def execReclaim (h : FlitHdr) (p : SegPl) (s : State) : Host.Outcome State Fault Refusal :=
  act (segUnit 9 false (.reclaim h p) h p reclaimTaken) s

/-! ### The borrower (R441 to R445, R453) -/

/-- A loan being asked for or written: the first of a queue that waits for its handle, or the one with a handle. -/
def borrowing (d : Dev) (src : Nat) (qid : Nat) (h : Option Nat) : Option Prog :=
  d.tier.active.find? fun p => match p.what with
    | .borrow q _ n _ x => n == src && decide (x = h) && (h.isSome || q == qid)
    | _ => false

/-- Replaces a program in flight. -/
def swapProg (old : Prog) (new : List Prog) (d : Dev) : Dev :=
  { d with tier.active := d.tier.active.filter (· ≠ old) ++ new }

/-- The segment of a loan in the making is still to be written. -/
def stillNear (d : Dev) (qid pos : Nat) : Bool :=
  match segAt (queueOf d qid) pos with
  | some s => s.near.isSome && s.deep.isNone && s.loan.isNone
  | none => false

/-- A grant: the segment is encrypted under its queue's slot and sent (R443). -/
def loanGrantTaken (p : SegPl) (src : Nat) (d : Dev) : Dev :=
  let h := p.handle.toNat
  match borrowing d src p.borrower.toNat none with
  | none => sendRelease src h p.persist p.borrower.toNat d
  | some x =>
    match x.what with
    | .borrow qid pos node gen _ =>
      if stillNear d qid pos then
        let data := cipher Config.xtsEncrypt (slotKey d x.slot) node h 0 (segBytes (queueOf d qid).cfg.ew x.items)
        sendSeq src 8 (segPayload 3 h p.persist 0 127 qid data)
          (onQueue qid (setProg pos .started) (swapProg x [{ x with what := .borrow qid pos node gen (some h) }] d))
      else sendRelease src h p.persist qid (onQueue qid (setProg pos .none) (swapProg x [] d))
    | _ => d

/-- LOAN_GRANT. -/
def execLoanGrant (h : FlitHdr) (p : SegPl) (s : State) : Host.Outcome State Fault Refusal :=
  actBacklog (segUnit 1 false (.loanGrant h p) h p (loanGrantTaken p)) s

/-- A refusal: the segment stays near-only; a DEEP_PREFERRED one is tried again (R334, R442). -/
def loanRefuseTaken (p : SegPl) (src : Nat) (d : Dev) : Dev :=
  match borrowing d src p.borrower.toNat none with
  | none => d
  | some x =>
    match x.what with
    | .borrow qid pos _ _ _ =>
      let d := endBorrow x d
      let waits := ((segAt (queueOf d qid) pos).map fun s => s.prog == .none).getD false
      if waits && (queueOf d qid).cfg.tier = 2 then
        onQueue qid (setProg pos .queued) { d with tier.progQ := { what := .spill qid pos : Prog } :: d.tier.progQ }
      else d
    | _ => d

/-- LOAN_REFUSE. -/
def execLoanRefuse (h : FlitHdr) (p : SegPl) (s : State) : Host.Outcome State Fault Refusal :=
  actBacklog (segUnit 2 false (.loanRefuse h p) h p (loanRefuseTaken p)) s

/-- VERIFY_OK: the borrowed copy joins the chain, and the near copy goes as a local program would let it (R444). -/
def verifyOkTaken (p : SegPl) (src : Nat) (d : Dev) : Dev :=
  let h := p.handle.toNat
  match borrowing d src 0 (some h) with
  | none => lateResult src d
  | some x =>
    match x.what with
    | .borrow qid pos node gen _ =>
      let d := swapProg x [] d
      let q := queueOf d qid
      (match segAt q pos with
       | none => sendRelease src h p.persist qid d
       | some s =>
         let l : LoanRef := { node, handle := h, gen, lineage := (peerOf d src).lineage }
         let d := onSeg qid pos (fun s => { s with loan := some l, prog := .none }) d
         let m : MapSeg := { pos, seg := 0, begins := s.begins, loan := some l, items := x.items }
         let d := if q.cfg.persist then addRecord (.add qid m) d else d
         let d := if letGo q pos then releaseNear qid pos d else d
         pump (stallChecks (refreshFlags (settleKeys (sealProgress qid pos false d)))))
    | _ => d

/-- VERIFY_OK. -/
def execVerifyOk (h : FlitHdr) (p : SegPl) (s : State) : Host.Outcome State Fault Refusal :=
  actBacklog (segUnit 4 true (.verifyOk h p) h p (verifyOkTaken p)) s

/-- VERIFY_FAIL: a new loan is asked for (R444). -/
def verifyFailTaken (p : SegPl) (src : Nat) (d : Dev) : Dev :=
  match borrowing d src 0 (some p.handle.toNat) with
  | none => lateResult src d
  | some x =>
    match x.what with
    | .borrow qid pos node gen _ =>
      if stillNear d qid pos then
        sendSeq src 8 (segPayload 0 0 (queueOf d qid).cfg.persist 0 0 qid [])
          (onQueue qid (setProg pos .queued) (swapProg x [{ x with what := .borrow qid pos node gen none }] d))
      else onQueue qid (setProg pos .none) (swapProg x [] d)
    | _ => d

/-- VERIFY_FAIL. -/
def execVerifyFail (h : FlitHdr) (p : SegPl) (s : State) : Host.Outcome State Fault Refusal :=
  actBacklog (segUnit 5 true (.verifyFail h p) h p (verifyFailTaken p)) s

/-- The items of a chain segment take the bytes that came back, from byte `lo` on. -/
def writeItems (pos lo : Nat) (bs : Bytes) (q : Queue) : Queue :=
  mapItems pos lo (lo + bs.length) (fun k i => { i with data := BitVec.ofNat 64 (leAt bs k (ewBytes q.cfg.ew)) }) q

/-- The sectors of a borrowed segment come back: decrypted, and put into a near segment (R335, R443, R445). Without a
near segment they are asked for again. -/
def readRspTaken (p : SegPl) (src : Nat) (d : Dev) : Dev :=
  let qid := p.borrower.toNat % 4096
  let q := queueOf d qid
  match q.chain.find? fun s => s.reading && s.near.isNone &&
      (s.loan.map fun l => (l.node, l.handle)) = some (src, p.handle.toNat) with
  | none => lateResult src d
  | some s =>
    let first := p.first.toNat % 128
    let gen := (s.loan.map (·.gen)).getD 0
    if (takeNear qid d).isNone then
      onSeg qid s.pos (fun s => { s with reading := false }) d
    else
      let raw := sliceBytes p.data 0 (32 * (p.count.toNat + 1))
      let bs := cipher Config.xtsDecrypt (slotKey d q.cfg.slot.toNat) src p.handle.toNat first raw
      let d := arriveNear qid s.pos gen (onQueue qid (writeItems s.pos (32 * first) bs)) d
      pump (stallChecks (refreshFlags (resettle qid d)))

/-- READ_RSP. -/
def execReadRsp (h : FlitHdr) (p : SegPl) (s : State) : Host.Outcome State Fault Refusal :=
  actBacklog (segUnit 7 true (.readRsp h p) h p (readRspTaken p)) s

/-- A handle of a node is in a chain of this one. -/
def chained (d : Dev) (src h : Nat) : Bool :=
  d.queues.any fun e => e.2.chain.any fun s => (s.loan.map fun l => (l.node, l.handle)) = some (src, h)

/-- A LOAN_LIST: a listed handle in a hole is restored, one that is in no chain is released (R453, R457). -/
def loanListTaken (p : SegPl) (src : Nat) (d : Dev) : Dev :=
  let h := p.handle.toNat
  let mine (s : ChainSeg) : Bool := (s.loan.map fun l => (l.node, l.handle)) == some (src, h)
  if chained d src h then
    let d := onPeer src (fun x => { x with listed := x.listed ++ [h] }) d
    let d := d.queues.foldl (fun d e =>
      if e.2.chain.any fun s => s.hole && mine s then
        resettle e.1 (onQueue e.1 (fun q => { q with
          chain := q.chain.map fun s => if mine s then { s with hole := false } else s }) d)
      else d) d
    pump (stallChecks (refreshFlags d))
  else sendRelease src h p.persist p.borrower.toNat d

/-- LOAN_LIST. -/
def execLoanList (h : FlitHdr) (p : SegPl) (s : State) : Host.Outcome State Fault Refusal :=
  actBacklog (segUnit 10 true (.loanList h p) h p (loanListTaken p)) s

/-- LIST_END: what was not listed is discarded (R453). -/
def listEndTaken (src : Nat) (d : Dev) : Dev :=
  let x := peerOf d src
  if !x.reclaiming then d
  else
    let unlisted (l : LoanRef) : Bool := l.node == src && decide (l.handle ∉ x.listed)
    let d := onPeer src (fun x => { x with reclaiming := false, listed := [] }) d
    let d := stopTimer (.hole src) (discardHoles (borrowedFrom src) true (forgetLoans unlisted d))
    pump (stallChecks (refreshFlags d))

/-- LIST_END. -/
def execListEnd (h : FlitHdr) (p : SegPl) (s : State) : Host.Outcome State Fault Refusal :=
  actBacklog (segUnit 11 true (.listEnd h p) h p listEndTaken) s

/-! ### Relayed admin commands (R447 to R450, R490) -/

/-- The body of a command that a peer executes as its own. `peerEw` are the answers to its own reads of peer queues during
a check (R300). -/
def relayedBody (op : Nat) (c : AdmCmd) (buf : Bytes) (peerEw : List (Nat × BitVec 2)) :
    AdmRun → Dev → Dev × Option AdmRes :=
  if op = 0x10 then stageQueues c buf
  else if op = 0x11 then stagePorts c buf
  else if op = 0x12 then stageBindings c buf
  else if op = 0x18 then checkBody peerEw
  else if op = 0x19 then unlessBusy (commitBody peerEw)
  else if op = 0x1A then discardBody
  else if op = 0x20 then flushBody c
  else if op = 0x21 then dropBody c
  else if op = 0x22 then markBody c
  else if op = 0x23 then rtxBody c
  else if op = 0x24 then countersBody c
  else if op = 0x25 then unparkBody c
  else if op = 0x30 then unlessBusy sealBody
  else if op = 0x31 then powerBody c
  else if op = 0x40 then keyLoadBody c buf
  else if op = 0x41 then unlessBusy (keyEraseBody c)
  else if op = 0x42 then keyStatusBody c
  else if op = 0x50 then reportBody c 64 wearRecord
  else if op = 0x51 then reportBody c 64 scrubRecord
  else if op = 0x52 then reportBody c 64 remapRecord
  else if op = 0x70 then logBody c
  else invalidBody

/-- The command in execution makes way: SEAL goes on and is only logged, any other is abandoned (R213, R449). -/
def makeWay (r : AdmRun) (d : Dev) : Dev :=
  match r.kind with
  | .sealing => { d with adm.run := none, adm.bg := d.adm.bg ++ [r] }
  | k => abandon k { d with adm.run := none }

/-- An ABANDON at a peer: a command with an instant is answered, with PASSED and its result when the instant has
passed (R449). -/
def cmdAbandon (src tag : Nat) (d : Dev) : Dev :=
  let passed := match d.cas.lastRsp with
    | some (t, body) => if t = tag then sendSeq src 10 (rspPayload tag true body) d else d
    | none => d
  match d.adm.run with
  | some r =>
    if r.origin = .ring src tag then
      let d := makeWay r d
      if hasInstant r.opcode then sendSeq src 10 (rspPayload tag false (rspBody (failWith 0x07))) d else d
    else passed
  | none => passed

/-- A CMD at a peer: executed as its own, with the result in an RSP (R447). -/
def cmdTaken (p : CmdPl) (src : Nat) (d : Dev) : Dev :=
  let tag := p.tag.toNat
  if p.abandon then cmdAbandon src tag d
  else
    let d := match d.adm.run with
      | some r => makeWay r d
      | none => d
    let op := p.opcode.toNat
    let r : AdmRun := { opcode := op, cid := p.cmd.cid, addr := p.cmd.addr.toNat, len := p.cmd.len.toNat,
                        origin := .ring src tag, kind := .commit }
    runBody r (relayedBody op p.cmd p.buf p.peerEw) d

/-- The bytes of a CMD unit. -/
def cmdUnitBytes (p : CmdPl) : Bytes :=
  cmdPayload p.tag.toNat p.abandon (if p.abandon then [] else cmdBytes p.opcode.toNat p.cmd ++ p.buf)

/-- CMD. -/
def execCmd (h : FlitHdr) (p : CmdPl) (s : State) : Host.Outcome State Fault Refusal :=
  actBacklog (receive h 9 (cmdUnitBytes p) false fun src d => whenFirmware (.cmd h p) (cmdTaken p src) d) s

/-- An RSP at node 0: the record, then the completion; otherwise a late result (R447, R449, R450). -/
def rspTaken (p : RspPl) (src : Nat) (d : Dev) : Dev :=
  match d.adm.run with
  | none => lateResult src d
  | some r =>
    match r.kind with
    | .relay n tag _ =>
      if n = src && tag = p.tag.toNat then
        deliver r { status := p.status.toNat, r0 := p.result0.toNat, r1 := p.result1.toNat,
                    record := if p.record.isEmpty then none else some (r.addr, p.record) } { d with adm.run := none }
      else lateResult src d
    | _ => lateResult src d

/-- The bytes of an RSP unit. -/
def rspUnitBytes (p : RspPl) : Bytes :=
  rspPayload p.tag.toNat p.passed
    (natLe 1 p.status.toNat ++ natLe 4 p.result0.toNat ++ natLe 4 p.result1.toNat ++ p.record)

/-- RSP. -/
def execRsp (h : FlitHdr) (p : RspPl) (s : State) : Host.Outcome State Fault Refusal :=
  act (receive h 10 (rspUnitBytes p) true fun src d => whenFirmware (.rsp h p) (rspTaken p src) d) s

/-! ### Firmware relay (R427 to R429) -/

/-- Payload of IMG chunk `k`. -/
def imgPayload (k : Nat) (data : Bytes) : Bytes := natLe 3 k ++ sliceBytes data 0 7

/-- One pass over the image, and the wait after it. -/
def relayPass (d : Dev) : Dev :=
  let n := (d.cas.relayImage.length + 6) / 7
  let d := (List.range n).foldl (fun d k => emitCast 11 (imgPayload k (sliceBytes d.cas.relayImage (7 * k) 7)) d) d
  startTimer .relayPass { d with cas.relayPasses := d.cas.relayPasses + 1 }

/-- Nodes the relay still waits for. -/
def relayMissing (d : Dev) : Nat :=
  ([1, 2, 3].filter fun n => d.cas.relayMask.getLsbD n && !isPresent d n).foldl (fun m n => m + 2 ^ n) 0

/-- The body of PEER_FIRMWARE; bit 0 and the bits of present nodes count for nothing. -/
def peerFirmwareBody (c : AdmCmd) (buf : Bytes) (r : AdmRun) (d : Dev) : Dev × Option AdmRes :=
  let mask := ([1, 2, 3].filter fun n => c.arg0.getLsbD n && !isPresent d n).foldl (fun m n => m + 2 ^ n) 0
  if mask = 0 then ends (okWith 0 0) d
  else
    let d := relayPass { d with
      cas.relayMask := BitVec.ofNat 4 mask, cas.relayPasses := 0, cas.relayImage := sliceBytes buf 0 c.len.toNat }
    runsOn r .relayFw d

/-- PEER_FIRMWARE. -/
def execPeerFirmware (c : AdmCmd) (buf : Bytes) (s : State) : Host.Outcome State Fault Refusal :=
  act (admin 0x61 c buf (peerFirmwareBody c buf)) s

/-- The 20,000 ticks after a pass have run: JOIN, and the wait for beacons. -/
def relayPassWait (d : Dev) : Dev :=
  if fwExec d && timerDue d .relayPass 20000 then
    startTimer .relayBeacon (emitCast 12 (natLe 1 (relayMissing d)) (stopTimer .relayPass d))
  else d

/-- RELAY_PASS_WAIT_EXPIRY. -/
def execRelayPassWaitExpiry (s : State) : Host.Outcome State Fault Refusal := act relayPassWait s

/-- The 10,000 ticks for beacons have run: another pass, or the end after the third (R427, R429). -/
def relayBeaconWait (d : Dev) : Dev :=
  if !(fwExec d && timerDue d .relayBeacon 10000) then d
  else
    let d := stopTimer .relayBeacon d
    if d.cas.relayPasses < 3 then relayPass d
    else
      let on := ([1, 2, 3].filter fun n => d.cas.relayMask.getLsbD n && isPresent d n).length
      finishRun (· = .relayFw) { status := 0x76, r0 := on } { d with cas.relayPasses := 0, cas.relayImage := [] }

/-- RELAY_BEACON_WAIT_EXPIRY. -/
def execRelayBeaconWaitExpiry (s : State) : Host.Outcome State Fault Refusal := act relayBeaconWait s

/-- A peer that waits for its image over the ring (R428, R489). -/
def waitsForImage (d : Dev) : Bool := ownNode d ≠ 0 && awake d && mailbox d

/-- The bytes of consecutive chunks that a peer holds. -/
def relayedBytes (d : Dev) (n : Nat) : Bytes := (List.range n).flatMap fun k => sliceBytes (tblGet [] d.boot.relayed k) 0 7

/-- Once the chunks that the header asks for are all there, the image is verified (R428). -/
def relayAssemble (d : Dev) : Dev :=
  if (tblFind d.boot.relayed 1).isNone || (tblFind d.boot.relayed 2).isNone then d
  else
    let total := leAt (relayedBytes d 3) 0x0C 4
    let n := (total + 6) / 7
    if 98560 < total then setBoot .failed { d with boot.err := 0x93 }
    else if (List.range n).all fun k => (tblFind d.boot.relayed k).isSome then
      setBoot .verifying { d with
        boot.loaded := total, boot.image := tblWriteBytes [] 0 ((relayedBytes d n).take total), boot.relayed := [] }
    else d

/-- An IMG flit: kept by a peer that waits, passed on by a node that runs (R418, R428). -/
def imgFlit (h : FlitHdr) (k : Nat) (data : Bytes) (d : Dev) : Dev :=
  if ringOn d then
    let d := heard d
    if h.src.toNat = ownNode d then d else emit (.forward 11 h.src.toNat h.dst.toNat 0 (imgPayload k data)) d
  else
    let d := passBy 11 h.src.toNat h.dst.toNat 0 (imgPayload k data) d
    if waitsForImage d then
      relayAssemble (setBoot .loading { d with boot.relayed := tblPut d.boot.relayed k (sliceBytes data 0 7) })
    else d

/-- IMG. -/
def execImg (h : FlitHdr) (chunk : BitVec 24) (data : Bytes) (s : State) : Host.Outcome State Fault Refusal :=
  act (imgFlit h chunk.toNat data) s

/-- A JOIN flit: a peer that it names opens its switches and starts its verified image (R428). -/
def joinFlit (h : FlitHdr) (mask : BitVec 4) (lost : Unread) (d : Dev) : Dev :=
  if ringOn d then
    let d := heard d
    if h.src.toNat = ownNode d then d
    else emit (.forward 12 h.src.toNat h.dst.toNat 0 (natLe 1 mask.toNat)) d
  else
    let d := passBy 12 h.src.toNat h.dst.toNat 0 (natLe 1 mask.toNat) d
    if awake d && d.cas.verified && mask.getLsbD (ownNode d) then startFirmware lost d else d

/-- JOIN. -/
def execJoin (h : FlitHdr) (mask : BitVec 4) (lost : Unread) (s : State) : Host.Outcome State Fault Refusal :=
  act (joinFlit h mask lost) s

/-! ### Flits that waited for the firmware (R29, R583) -/

/-- The service of one flit that arrived while the Shuttle was stopped. -/
def serveFlit (i : Instr) (d : Dev) : Dev :=
  match i with
  | .beacon h b => beaconTaken h.src.toNat b d
  | .loanReq h p => loanReqTaken p h.src.toNat d
  | .loanGrant h p => loanGrantTaken p h.src.toNat d
  | .loanRefuse h p => loanRefuseTaken p h.src.toNat d
  | .segWrite h p => segWriteTaken p h.src.toNat d
  | .verifyOk h p => verifyOkTaken p h.src.toNat d
  | .verifyFail h p => verifyFailTaken p h.src.toNat d
  | .readReq h p => readReqTaken p h.src.toNat d
  | .readRsp h p => readRspTaken p h.src.toNat d
  | .segRelease h p => segReleaseTaken p h.src.toNat d
  | .reclaim h _ => reclaimTaken h.src.toNat d
  | .loanList h p => loanListTaken p h.src.toNat d
  | .listEnd h _ => listEndTaken h.src.toNat d
  | .cmd h p => cmdTaken p h.src.toNat d
  | .rsp h p => rspTaken p h.src.toNat d
  | _ => d

/-- The node that sent a flit whose service may wait, unless it is a beacon. -/
def heldSrc (i : Instr) : Option Nat :=
  match i with
  | .loanReq h _ | .loanGrant h _ | .loanRefuse h _ | .segWrite h _ | .verifyOk h _ | .verifyFail h _ | .readReq h _
  | .readRsp h _ | .segRelease h _ | .reclaim h _ | .loanList h _ | .listEnd h _ | .cmd h _ | .rsp h _ =>
    some h.src.toNat
  | _ => none

/-- Serves them in the order in which they came, once the Shuttle runs again; nothing of a node that has been lost
meanwhile. -/
def serveHeld (d : Dev) : Dev :=
  if !fwExec d then d
  else standbyCheck (d.cas.held.foldl (fun d i =>
    match heldSrc i with
    | some n => if isPresent d n then serveFlit i d else d
    | none => serveFlit i d) { d with cas.held := [] })

end Sys2Proof.Machine
end

