-- ==== Sys2Proof/Machine/Regs.lean ====
section
/-!
DEFINITION. The setup registers in BAR0: what a read shows, what a write does, and the reads with a side effect
(R8 to R14, R192, R204, R227, R556, R560, R592 to R618).
-/

namespace Sys2Proof.Machine

/-! ### Reads -/

/-- Word `i` of a 256-bit value. -/
def word256 (w : BitVec 256) (i : Nat) : Nat := bitsOf w.toNat (32 * i) 32

/-- Low word of a 64-bit register pair, and high word. -/
def loWord (w : DWord) : Nat := bitsOf w.toNat 0 32

/-- High word. -/
def hiWord (w : DWord) : Nat := bitsOf w.toNat 32 32

/-- Code of BOOT_STATUS (R475). -/
def bootCode (b : BootStatus) : Nat :=
  match b with
  | .powerUp => 0
  | .hold => 1
  | .bist => 2
  | .rom => 3
  | .waitImage => 4
  | .loading => 5
  | .verifying => 6
  | .fwStarting => 7
  | .fwRunning => 8
  | .failed => 15

/-- Entry `i` of REPAIR_LANE_PEND as 16 bits: lane and VALID. -/
def pendEntry (d : Dev) (i : Nat) : Nat :=
  match d.rep.lanePend[i]? with
  | some l => l.group * 8 + l.lane + 2 ^ 15
  | none => 0

/-- A word of a capture record, 0 when there is none. -/
def capWord (r : Option ErrRec) (i : Nat) : Nat := (r.map fun r => errWord r i).getD 0

/-- SEC_STATUS (R614). -/
def secStatus (d : Dev) : Nat :=
  bitsOf d.fuse.secWord.toNat 0 6 + flagAt d.jtag.unlocked.isSome 8 +
    ((d.jtag.unlocked.map (·.toNat)).getD 0) * 2 ^ 9 + min 3 d.jtag.fails * 2 ^ 12

/-- CAS_STATUS (R613). -/
def casStatus (d : Dev) : Nat :=
  let present := (List.range 4).foldl (fun m n => m + flagAt (n == ownNode d || isPresent d n) (4 + n)) 0
  ownNode d + present + flagAt d.cas.up 8 + flagAt d.cas.fast 9

/-- A setup register below 0x0100. -/
def readLow (d : Dev) (off : Nat) : Nat :=
  match off with
  | 0x0000 => 0x01340111
  | 0x0004 => ownNode d + flagAt d.ports.p0.strap 2 + flagAt d.ports.p1.strap 3 + 0x40 * 2 ^ 8 + 0x1000 * 2 ^ 16
  | 0x0008 => serialNumber d % 2 ^ 32
  | 0x000C => serialNumber d / 2 ^ 32
  | 0x0010 => if fwRunning d then d.boot.fwVersion.toNat else 0
  | 0x0040 => bootCode d.boot.status
  | 0x0044 => d.boot.err.toNat
  | 0x0048 => flagAt (bootBusy d) 8
  | 0x004C => d.boot.off
  | 0x0050 => d.boot.len
  | 0x0054 => d.boot.loaded
  | 0x0080 => d.pwr.pace + flagAt d.pwr.govEn 3 + d.pwr.paceMin * 2 ^ 4 + d.pwr.paceMax * 2 ^ 8 + d.pwr.paceNow * 2 ^ 16
  | 0x0084 => d.pwr.govUp + d.pwr.govDown * 2 ^ 16
  | 0x0088 => flagAt (listening d) 0 + flagAt d.pwr.standbyPend 2 + flagAt d.pwr.listenOk 3
  | 0x0090 => ticks d % 2 ^ 32
  | 0x0094 => d.tb.capHi.toNat
  | 0x0098 => flagAt d.tb.slowclk 0 + flagAt d.tb.tickRun 1
  | _ => 0

/-- A register of the host interface. -/
def readHif (d : Dev) (off : Nat) : Nat :=
  let r := d.regs
  match off with
  | 0x0100 => flagAt r.perstLink 0
  | 0x0104 => flagAt r.wakeEnPressure 0 + flagAt r.wakeEnQueue 1
  | 0x0108 => r.wakeFree
  | 0x010C => flagAt r.wakeSrcPressure 0 + flagAt r.wakeSrcQueue 1
  | 0x0110 => r.wakeQid + flagAt r.wakeQidValid 31
  | 0x0114 => r.ltrActive
  | 0x0118 => r.ltrIdle
  | 0x0120 => loWord r.sqBase
  | 0x0124 => hiWord r.sqBase
  | 0x0128 => loWord r.cqBase
  | 0x012C => hiWord r.cqBase
  | 0x0130 => r.sqLog2 + r.cqLog2 * 2 ^ 8 + r.admGen.toNat * 2 ^ 16
  | 0x0134 => flagAt d.adm.en 0 + flagAt d.adm.halted 1 + flagAt d.adm.cfgErr 2 +
      flagAt (d.adm.en && !d.adm.halted && fwRunning d) 3
  | 0x0138 => r.adminTimeout
  | 0x0140 => loWord r.dbBase
  | 0x0144 => hiWord r.dbBase
  | 0x0148 => loWord r.mirrorBase
  | 0x014C => hiWord r.mirrorBase
  | 0x0150 => flagAt r.mirrorEn 0
  | 0x0154 => r.mirrorHold
  | 0x0160 => r.sweepFast
  | 0x0164 => r.sweepSlow
  | 0x0168 => r.sweepIdle
  | 0x016C => r.sweepStale + r.sweepDone * 2 ^ 16
  | _ => 0

/-- A register from 0x0200 to 0x02FF. -/
def readTier (d : Dev) (off : Nat) : Nat :=
  match off with
  | 0x0200 => d.regs.stallTo
  | 0x0210 => d.epoch.now.toNat
  | 0x0214 => d.stage.qtes.length + flagAt (!d.stage.pces.isEmpty) 11 + flagAt d.stage.bind.isSome 12 +
      flagAt d.epoch.fence 31
  | 0x0240 => d.regs.spillRate
  | 0x0244 => d.regs.spillBurst
  | 0x0248 => int32 (levelKib d.tier.level)
  | 0x0280 => flagAt d.regs.scrubNearEn 0 + flagAt d.regs.scrubDeepEn 1
  | 0x0284 => d.regs.nearGap
  | 0x0288 => d.regs.deepGap
  | 0x028C => d.rep.nearLapTicks
  | 0x0290 => d.rep.deepLapTicks
  | 0x0294 => d.rep.nearLaps
  | 0x0298 => d.rep.deepLaps
  | 0x02C0 => flagAt d.regs.wdogRst 0
  | 0x02C4 => flagAt d.rep.core 0 + flagAt d.rep.core0Fail 1 + flagAt d.rep.core1Fail 2
  | 0x02C8 => pendEntry d 0 + pendEntry d 1 * 2 ^ 16
  | 0x02CC => pendEntry d 2 + pendEntry d 3 * 2 ^ 16
  | _ => 0

/-- An ECC diagnostic register. -/
def readEcc (d : Dev) (off : Nat) : Nat :=
  let e := d.ecc
  if 0x0300 ≤ off ∧ off ≤ 0x031C then word256 e.gen ((off - 0x0300) / 4)
  else if off = 0x0320 then (Config.deepCheck e.gen).toNat
  else if off = 0x0340 then
    flagAt e.en 0 + e.op.toNat * 2 + flagAt e.deep 3 + flagAt e.valid 4 + flagAt e.busy 6 + e.index.toNat * 2 ^ 16
  else if off = 0x0344 then e.check.toNat
  else if 0x0360 ≤ off ∧ off ≤ 0x037C then word256 e.data ((off - 0x0360) / 4)
  else if 0x0380 ≤ off ∧ off ≤ 0x039C then word256 e.raw ((off - 0x0380) / 4)
  else if off = 0x03A0 then e.rawCheck.toNat + e.rawValid.toNat * 2 ^ 20
  else if off = 0x03A4 then e.synd.toNat + e.cls.toNat * 2 ^ 24
  else if 0x03C0 ≤ off ∧ off ≤ 0x03DC then word256 e.corr ((off - 0x03C0) / 4)
  else 0

/-- A register of the cascade, or of fuses and security. -/
def readFuse (d : Dev) (off : Nat) : Nat :=
  let f := d.fuse
  if 0x0520 ≤ off ∧ off ≤ 0x053C then word256 f.data ((off - 0x0520) / 4)
  else if 0x0550 ≤ off ∧ off ≤ 0x057C then bitsOf (effKeyHash d).toNat (8 * (off - 0x0550)) 32
  else match off with
  | 0x0400 => flagAt d.regs.casEn 0
  | 0x0404 => d.regs.casNodes.toNat
  | 0x0408 => d.regs.casBeacon
  | 0x040C => d.regs.casHoleTo
  | 0x0410 => d.tier.lineage.toNat
  | 0x0414 => casStatus d
  | 0x0500 => f.op.toNat + f.mode.toNat * 2 ^ 2 + f.word.toNat * 2 ^ 4 + f.row.toNat * 2 ^ 8 + flagAt f.busy 17
  | 0x0504 => f.mask.toNat
  | 0x0508 => f.code.toNat + flagAt f.weak 8 + f.bit.toNat * 2 ^ 16
  | 0x050C => f.weakMask.toNat
  | 0x0510 => f.intrRow.toNat + f.intrWord.toNat * 2 ^ 8 + flagAt f.intrValid 31
  | 0x0514 => flagAt f.critBad 0 + f.patchSkipped % 128 * 2 ^ 8
  | 0x0518 => f.otpLock.toNat
  | 0x051C => secStatus d
  | 0x0540 => bitsOf (effSec d).toNat 0 32
  | 0x0544 => bitsOf (effSec d).toNat 32 32
  | 0x0548 => bitsOf (effSsid d).toNat 0 32
  | 0x054C => bitsOf (effSsid d).toNat 32 1
  | _ => 0

/-- An error-capture or debug register. -/
def readErr (d : Dev) (off : Nat) : Nat :=
  let e := d.err
  if 0x0600 ≤ off ∧ off ≤ 0x060C then capWord e.fifo.head? ((off - 0x0600) / 4)
  else if 0x0620 ≤ off ∧ off ≤ 0x062C then capWord e.first ((off - 0x0620) / 4)
  else if 0x0630 ≤ off ∧ off ≤ 0x063C then capWord e.last ((off - 0x0630) / 4)
  else match off with
  | 0x0610 => flagAt (!e.fifo.isEmpty) 0 + flagAt e.overflow 1 + flagAt e.fatal 2
  | 0x0640 => e.cntCmd + e.cntMem * 2 ^ 16
  | 0x0644 => e.cntPort + e.cntRing * 2 ^ 16
  | 0x0648 => e.cntSec + e.cntPwr * 2 ^ 16
  | 0x064C => e.late
  | 0x0700 => debugBits d
  | _ => 0

/-- A word of the MSI-X table or the PBA. -/
def readMsix (d : Dev) (off : Nat) : Nat :=
  if off = 0x3000 then d.link.pba.toNat
  else if 0x2000 ≤ off ∧ off < 0x2200 then
    let e := msixEntry d ((off - 0x2000) / 16)
    match off % 16 with
    | 0 => loWord e.addr
    | 4 => hiWord e.addr
    | 8 => e.data.toNat
    | 12 => flagAt e.masked 0
    | _ => 0
  else 0

/-- What a setup register reads now, without any side effect (R10, R578). -/
def readReg (d : Dev) (off : Nat) : Nat :=
  if off % 4 ≠ 0 then 0
  else if off < 0x0100 then readLow d off
  else if off < 0x0200 then readHif d off
  else if off < 0x0300 then readTier d off
  else if off < 0x0400 then readEcc d off
  else if off < 0x0600 then readFuse d off
  else if off < 0x0800 then readErr d off
  else readMsix d off

/-- A host read: its value goes back over the link. -/
def hostRead (off : Nat) (d : Dev) : Dev := emit (.regRead off (BitVec.ofNat 32 (readReg d off))) d

/-- The RC fields of a register clear (R8). -/
def clearRc (off : Nat) (d : Dev) : Dev :=
  match off with
  | 0x016C => { d with regs.sweepStale := 0, regs.sweepDone := 0 }
  | 0x0640 => { d with err.cntCmd := 0, err.cntMem := 0 }
  | 0x0644 => { d with err.cntPort := 0, err.cntRing := 0 }
  | 0x0648 => { d with err.cntSec := 0, err.cntPwr := 0 }
  | 0x064C => { d with err.late := 0 }
  | _ => d

/-- What a host read of a register does behind its value: RC fields clear, TB_NOW_LO captures the time, ERR_CAP3 gives
up its entry (R8, R556, R601). -/
def readEffect (off : Nat) (d : Dev) : Dev :=
  match off with
  | 0x0090 => captureTime d
  | 0x060C => { d with err.fifo := d.err.fifo.drop 1 }
  | _ => clearRc off d

/-- A host read of 32 bits: the value, then its effect. -/
def readDword (off : Nat) (d : Dev) : Dev := readEffect off (hostRead off d)

/-- A host read of BAR0 (R193): 32 bits aligned, 64 bits aligned as two reads with the lower address first, and 0 without
an effect for any other size or alignment. -/
def readBar0 (off : Nat) (size : HostRead) (d : Dev) : Dev :=
  match size with
  | .dword => if off % 4 = 0 then readDword off d else emit (.regRead off 0) d
  | .qword => if off % 8 = 0 then readDword (off + 4) (readDword off d) else emit (.regRead off 0) d
  | .other _ => emit (.regRead off 0) d

/-- RC_FIELD_READ. -/
def execRcFieldRead (r : RegRead) (s : State) : Host.Outcome State Fault Refusal :=
  act (fun d => if hostReach d then readBar0 r.off.toNat r.size d else d) s

/-- ERR_CAP_POP: a host read of ERR_CAP3 returns it and removes the oldest entry (R556). -/
def execErrCapPop (s : State) : Host.Outcome State Fault Refusal :=
  act (fun d => if hostReach d then readDword 0x060C d else d) s

/-- ERR_FIRST reads 0 until the next record (R560). -/
def clearFirst (d : Dev) : Dev := { d with err.first := none }

/-- ERR_FIRST_CLR. -/
def execErrFirstClr (s : State) : Host.Outcome State Fault Refusal :=
  act (fun d => if hostReach d then clearFirst d else d) s

/-! ### Writes -/

/-- Replaces word `i` of a 256-bit value. -/
def setWord256 (w : BitVec 256) (i v : Nat) : BitVec 256 :=
  let mask : BitVec 256 := 0xFFFFFFFF#256 <<< (32 * i)
  (w &&& ~~~mask) ||| (BitVec.ofNat 256 (v % 2 ^ 32) <<< (32 * i))

/-- Replaces the low or the high word of a 64-bit register pair. -/
def setHalf (w : DWord) (high : Bool) (v : Nat) : DWord :=
  if high then BitVec.ofNat 64 (loWord w + v * 2 ^ 32) else BitVec.ofNat 64 (v + hiWord w * 2 ^ 32)

/-- The low word of a base register: bits [11:0] are reserved. -/
def baseLow (v : Nat) : Nat := v / 4096 * 4096

/-- PWR_PACE_CTL takes all its fields at once (R600). -/
def writePace (v : Nat) (d : Dev) : Dev :=
  paceNext { d with
    pwr.pace := bitsOf v 0 3, pwr.govEn := bitOf v 3, pwr.paceMin := bitsOf v 4 3, pwr.paceMax := bitsOf v 8 3 }

/-- Boot, power and time registers. -/
def writeLow (off v : Nat) (d : Dev) : Dev :=
  match off with
  | 0x0048 => if bitsOf v 0 2 = 0 then d else bootCmd (bitsOf v 0 2) d
  | 0x004C => { d with boot.off := bitsOf v 0 17 }
  | 0x0050 => { d with boot.len := bitsOf v 0 17 }
  | 0x0080 => writePace v d
  | 0x0084 => setWindows (bitsOf v 0 16) (bitsOf v 16 16) d
  | 0x008C => softResetWrite (bitsOf v 0 8) d
  | _ => d

/-- Registers that the device ignores while HIF_ADM_EN is 1 (R227). HIF_ADM_CFG is not clamped (R595). -/
def writeAdm (off v : Nat) (d : Dev) : Dev :=
  if d.adm.en then d
  else match off with
    | 0x0120 => { d with regs.sqBase := setHalf d.regs.sqBase false (baseLow v) }
    | 0x0124 => { d with regs.sqBase := setHalf d.regs.sqBase true v }
    | 0x0128 => { d with regs.cqBase := setHalf d.regs.cqBase false (baseLow v) }
    | 0x012C => { d with regs.cqBase := setHalf d.regs.cqBase true v }
    | 0x0130 => { d with
        regs.sqLog2 := bitsOf v 0 5, regs.cqLog2 := bitsOf v 8 5, regs.admGen := BitVec.ofNat 16 (bitsOf v 16 16) }
    | 0x0140 => { d with regs.dbBase := setHalf d.regs.dbBase false (baseLow v) }
    | 0x0144 => { d with regs.dbBase := setHalf d.regs.dbBase true v }
    | 0x0148 => { d with regs.mirrorBase := setHalf d.regs.mirrorBase false (baseLow v) }
    | 0x014C => { d with regs.mirrorBase := setHalf d.regs.mirrorBase true v }
    | _ => d

/-- Host-interface registers (R602), with the ranges of R595 and R566. -/
def writeHif (off v : Nat) (d : Dev) : Dev :=
  match off with
  | 0x0100 => { d with regs.perstLink := bitOf v 0 }
  | 0x0104 => { d with regs.wakeEnPressure := bitOf v 0, regs.wakeEnQueue := bitOf v 1 }
  | 0x0108 => { d with regs.wakeFree := clampTo 0 8704 (bitsOf v 0 14) }
  | 0x010C => { d with
      regs.wakeSrcPressure := d.regs.wakeSrcPressure && !bitOf v 0
      regs.wakeSrcQueue := d.regs.wakeSrcQueue && !bitOf v 1 }
  | 0x0114 => { d with regs.ltrActive := bitsOf v 0 25 }
  | 0x0118 => { d with regs.ltrIdle := bitsOf v 0 25 }
  | 0x0134 => if bitOf v 0 then adminEnable d else adminDisable d
  | 0x0138 => { d with regs.adminTimeout := clampTo 640 0xFFFFFFFF v }
  | 0x0150 => setMirrorEn (bitOf v 0) d
  | 0x0154 => { d with regs.mirrorHold := bitsOf v 0 24 }
  | 0x0160 => { d with regs.sweepFast := clampTo 1 65535 (bitsOf v 0 16) }
  | 0x0164 => { d with regs.sweepSlow := clampTo 1 1000000 (bitsOf v 0 20) }
  | 0x0168 => { d with regs.sweepIdle := bitsOf v 0 24 }
  | _ => writeAdm off v d

/-- Port, tier, scrub and repair registers. -/
def writeTier (off v : Nat) (d : Dev) : Dev :=
  match off with
  | 0x0200 => { d with regs.stallTo := clampTo 16 1000000 (bitsOf v 0 20) }
  | 0x0240 => { d with regs.spillRate := bitsOf v 0 20 }
  | 0x0244 => setBurst (bitsOf v 0 21) d
  | 0x0280 => { d with regs.scrubNearEn := bitOf v 0, regs.scrubDeepEn := bitOf v 1 }
  | 0x0284 => { d with regs.nearGap := clampTo 1 65535 (bitsOf v 0 16) }
  | 0x0288 => { d with regs.deepGap := clampTo 1 1000000 (bitsOf v 0 20) }
  | 0x02C0 => { d with regs.wdogRst := bitOf v 0 }
  | _ => d

/-- ECC_TEST_CTL: EN first, then GO with the fields of the same write (R612). -/
def writeEccCtl (v : Nat) (d : Dev) : Dev :=
  let d := { d with ecc.en := bitOf v 0 }
  if bitOf v 5 then eccGo (bitsOf v 1 2) (bitOf v 3) (bitOf v 4) (bitsOf v 16 9) d
  else { d with
    ecc.op := BitVec.ofNat 2 (bitsOf v 1 2), ecc.deep := bitOf v 3, ecc.valid := bitOf v 4
    ecc.index := BitVec.ofNat 9 (if bitOf v 3 then min 127 (bitsOf v 16 9) else bitsOf v 16 9) }

/-- ECC diagnostic registers. -/
def writeEcc (off v : Nat) (d : Dev) : Dev :=
  if 0x0300 ≤ off ∧ off ≤ 0x031C then { d with ecc.gen := setWord256 d.ecc.gen ((off - 0x0300) / 4) v }
  else if off = 0x0340 then writeEccCtl v d
  else if off = 0x0344 then { d with ecc.check := BitVec.ofNat 20 v }
  else if 0x0360 ≤ off ∧ off ≤ 0x037C then { d with ecc.data := setWord256 d.ecc.data ((off - 0x0360) / 4) v }
  else d

/-- CAS_NODES: bit 0 reads 1; a change of the speed that R412 requires trains the ring (R413). -/
def writeNodes (v : Nat) (d : Dev) : Dev :=
  let d := { d with regs.casNodes := BitVec.ofNat 4 (bitsOf v 0 4) ||| 1 }
  if d.regs.casEn && allExpected d ≠ d.cas.fast then startTraining d else d

/-- What becomes of the bits of a burn that a register write starts: free (log entries 3 and 51). -/
def freeOutcomes (f : BitVec 256) : List BurnOutcome :=
  (List.range 96).map fun i =>
    if bitsOf f.toNat 192 8 = i then .tempRange
    else match bitsOf f.toNat (2 * i) 2 with
      | 0 => .burned
      | 1 => .weak
      | 2 => .failBlank
      | _ => .failWeak

/-- FUSE_CTL (R614). -/
def writeFuseCtl (v : Nat) (d : Dev) : Dev :=
  let op := bitsOf v 0 2
  let mode := bitsOf v 2 2
  let word := bitsOf v 4 3
  let row := bitsOf v 8 8
  if !bitOf v 16 then fuseCtl op mode word row d
  else if op = 1 then
    let f := takeFree d
    fuseGo op mode word row (freeOutcomes f.1) f.2
  else fuseGo op mode word row [] d

/-- Cascade, fuse and security registers. A write of FUSE_INTR sets bits (log entry 52). -/
def writeFuse (off v : Nat) (d : Dev) : Dev :=
  match off with
  | 0x0400 => if bitOf v 0 then casEnable d else if d.regs.casEn then casDisable d else d
  | 0x0404 => writeNodes v d
  | 0x0408 => { d with regs.casBeacon := clampTo 100 1000000 (bitsOf v 0 20) }
  | 0x040C => { d with regs.casHoleTo := v }
  | 0x0500 => writeFuseCtl v d
  | 0x0504 => { d with fuse.mask := BitVec.ofNat 32 v }
  | 0x0510 => { d with
      fuse.intrRow := d.fuse.intrRow ||| BitVec.ofNat 8 (bitsOf v 0 8)
      fuse.intrWord := d.fuse.intrWord ||| BitVec.ofNat 3 (bitsOf v 8 3)
      fuse.intrValid := d.fuse.intrValid || bitOf v 31 }
  | 0x0518 => setLock (BitVec.ofNat 8 v) d
  | _ => setShadow off (BitVec.ofNat 32 v) d

/-- Error-capture registers. -/
def writeErr (off v : Nat) (d : Dev) : Dev :=
  match off with
  | 0x0610 => { d with err.overflow := d.err.overflow && !bitOf v 1 }
  | 0x0614 => if bitOf v 0 then clearFirst d else d
  | _ => d

/-- The MSI-X table; the PBA is read-only. -/
def writeMsix (off v : Nat) (d : Dev) : Dev :=
  if 0x2000 ≤ off ∧ off < 0x2200 then
    let n := (off - 0x2000) / 16
    let put (f : MsixEntry → MsixEntry) : Dev := { d with link.vectors := tblModify {} d.link.vectors n f }
    match off % 16 with
    | 0 => put fun e => { e with addr := setHalf e.addr false (v / 4 * 4) }
    | 4 => put fun e => { e with addr := setHalf e.addr true v }
    | 8 => put fun e => { e with data := BitVec.ofNat 32 v }
    | 12 => setMask n (bitOf v 0) d
    | _ => d
  else d

/-- The effect of a write to a setup register; reserved offsets and read-only fields take nothing (R8, R192). -/
def writeReg (off v : Nat) (d : Dev) : Dev :=
  if off % 4 ≠ 0 then d
  else if off < 0x0100 then writeLow off v d
  else if off < 0x0200 then writeHif off v d
  else if off < 0x0300 then writeTier off v d
  else if off < 0x0400 then writeEcc off v d
  else if off < 0x0600 then writeFuse off v d
  else if off < 0x0800 then writeErr off v d
  else writeMsix off v d

/-- A GO that the device would take and whose OP or MODE is reserved (R611, R614). -/
def goReserved (off v : Nat) (d : Dev) : Bool :=
  (off = 0x0500 && bitOf v 16 && fuseReady d && (bitsOf v 0 2 = 3 || (bitsOf v 0 2 = 0 && bitsOf v 2 2 = 3))) ||
    (off = 0x0340 && bitOf v 5 && bitOf v 0 && !d.ecc.busy && fwRunning d && bitsOf v 1 2 = 3)

/-- The 32-bit writes that a host write of BAR0 makes (R193): one, two with the lower address first, or none for any
other size or alignment. -/
def hostWrites (off : Nat) (w : HostWrite) : List (Nat × Nat) :=
  match w with
  | .dword v => if off % 4 = 0 then [(off, v.toNat)] else []
  | .qword v => if off % 8 = 0 then [(off, loWord v), (off + 4, hiWord v)] else []
  | .other _ => []

/-- Does them, while the device can be reached. -/
def writeBar0 (ws : List (Nat × Nat)) (d : Dev) : Dev :=
  ws.foldl (fun d x => if hostReach d then writeReg x.1 x.2 d else d) d

/-- One of them, at its turn, is a GO of a reserved operation. -/
def writesReserved : List (Nat × Nat) → Dev → Bool
  | [], _ => false
  | x :: xs, d => (hostReach d && goReserved x.1 x.2 d) || writesReserved xs (writeBar0 [x] d)

/-- REGISTER_WRITE. -/
def execRegisterWrite (off : BitVec 14) (w : HostWrite) (s : State) : Host.Outcome State Fault Refusal :=
  if writesReserved (hostWrites off.toNat w) s.dev then .fault .reservedOperation
  else act (writeBar0 (hostWrites off.toNat w)) s

end Sys2Proof.Machine
end

