-- ==== Sys2Proof/Machine/Jtag.lean ====
section
/-!
DEFINITION. JTAG and the Loupe: the TAP's instructions, reads and writes of the Loupe's spaces, the Shuttle's halt,
and the debug unlock (R502, R573 to R588).
-/

namespace Sys2Proof.Machine

/-! ### Boundary scan and identification (R573 to R576) -/

/-- Loads a TAP instruction and captures its data register. -/
def loadIr (i : TapInstr) (out : Bytes) (d : Dev) : Dev := { d with jtag.ir := i, jtag.out := out }

/-- The balls as the boundary register captures them: free, since its order is in the BSDL file (R574, log entry
53). -/
def captureBalls (i : TapInstr) (d : Dev) : Dev :=
  let f := takeFree d
  loadIr i (natLe 32 f.1.toNat) f.2

/-- EXTEST: the boundary balls take the pattern while boot allows it (R575). -/
def doExtest (data : List Bool) (d : Dev) : Dev :=
  if !awake d then d
  else
    let d := { d with jtag.ir := .extest }
    if boundaryActs d then { captureBalls .extest d with jtag.boundary := data } else loadIr .extest [0] d

/-- EXTEST. -/
def execExtest (data : List Bool) (s : State) : Host.Outcome State Fault Refusal := act (doExtest data) s

/-- CLAMP: the balls hold the preloaded pattern; the data register is BYPASS. -/
def execClamp (s : State) : Host.Outcome State Fault Refusal :=
  act (fun d => if awake d then loadIr .clamp [0] d else d) s

/-- HIGHZ: the balls float; the data register is BYPASS. -/
def execHighz (s : State) : Host.Outcome State Fault Refusal :=
  act (fun d => if awake d then loadIr .highz [0] d else d) s

/-- SAMPLE_PRELOAD. -/
def execSamplePreload (data : List Bool) (s : State) : Host.Outcome State Fault Refusal :=
  act (fun d => if awake d then { captureBalls .sample d with jtag.boundary := data } else d) s

/-- IDCODE. -/
def execIdcode (s : State) : Host.Outcome State Fault Refusal :=
  act (fun d => if awake d then loadIr .idcode (natLe 4 0x134015CF) d else d) s

/-- BYPASS. -/
def execBypass (s : State) : Host.Outcome State Fault Refusal :=
  act (fun d => if awake d then loadIr .bypass [0] d else d) s

/-- TAP_RESET: IDCODE is selected (R573, R576). -/
def execTapReset (s : State) : Host.Outcome State Fault Refusal :=
  act (fun d => if awake d then { d with jtag.ir := .idcode } else d) s

/-! ### Rights (R584, R586) -/

/-- The Loupe's instructions act as BYPASS. -/
def loupeShut (d : Dev) : Bool := debugLocked d && d.jtag.unlocked.isNone

/-- UR_SCOPE allows reads. -/
def mayRead (d : Dev) : Bool := !debugLocked d || (d.jtag.unlocked.map (·.getLsbD 0)).getD false

/-- UR_SCOPE allows writes, halt, resume and step. -/
def mayControl (d : Dev) : Bool := !debugLocked d || (d.jtag.unlocked.map (·.getLsbD 1)).getD false

/-! ### Reads of the spaces (R577, R578) -/

/-- A free 32-bit value. -/
def freeWord (d : Dev) : Word × Dev :=
  let f := takeFree d
  (f.1.setWidth 32, f.2)

/-- Table SRAM: the live QTEs (R30, R89); the check bits are free (log entry 53). -/
def readTable (a : Nat) (d : Dev) : Option (Word × Dev) :=
  let w := a / 4
  if 65536 ≤ w then none
  else match a % 4 with
    | 0 => some (BitVec.ofNat 32 (leAt (qteBytes (queueOf d (w / 16))) (4 * (w % 16)) 4), d)
    | 1 => let f := freeWord d; some (f.1 &&& 0x7F, f.2)
    | _ => none

/-- Staging and binding SRAM of so many words, whose layout the spec does not give: data and check bits are free
(log entry 53). -/
def readStaged (words a : Nat) (d : Dev) : Option (Word × Dev) :=
  if words ≤ a / 4 then none
  else match a % 4 with
    | 0 => some (freeWord d)
    | 1 => let f := freeWord d; some (f.1 &&& 0x7F, f.2)
    | _ => none

/-- A word of the Shuttle's own: known when the Loupe has read or written it since the halt, else free (log entry
53). -/
def shuttleWord (k : Nat) (d : Dev) : Word × Dev :=
  match tblFind d.jtag.core k with
  | some v => (v, d)
  | none =>
    let v := Config.shuttleWord d.free k
    (v, { d with free := d.free + 1, jtag.core := if d.jtag.halted then tblPut d.jtag.core k v else d.jtag.core })

/-- A stored near word, with its error pattern, its check byte and its valid bit (R368, R370, R578); a word whose
valid bit is clear holds free bits (log entry 53). -/
def nearStored (a : Nat) (d : Dev) : Option (BitVec 64 × BitVec 8) :=
  (nearOwner d (a / 512)).bind fun o =>
    let q := queueOf d o.1
    let off := a % 512 * 8
    if o.2.used * ewBytes q.cfg.ew ≤ off then none
    else
      let w := BitVec.ofNat 64 (leAt (segBytes q.cfg.ew (progItems q o.2)) off 8)
      let e : BitVec 74 := tblGet 0 d.rep.upset a
      some (w ^^^ e.setWidth 64, nearCheck w ^^^ (e >>> 64).setWidth 8)

/-- Near tier: pieces 0 and 1 the data, piece 2 the check byte and the valid pair. -/
def readNearPiece (a : Nat) (d : Dev) : Option (Word × Dev) :=
  let f := freeWord d
  if 262144 ≤ a / 4 then none
  else match nearStored (a / 4) d, a % 4 with
    | some x, 0 => some (x.1.setWidth 32, d)
    | some x, 1 => some ((x.1 >>> 32).setWidth 32, d)
    | some x, 2 => some (BitVec.ofNat 32 (x.2.toNat +
        (validPair true ^^^ (tblGet 0 d.rep.upset (a / 4) >>> 72).toNat) * 2 ^ 8), d)
    | none, 0 => some f
    | none, 1 => some f
    | none, 2 => some (BitVec.ofNat 32 (f.1.toNat % 256 + validPair false * 2 ^ 8), f.2)
    | _, _ => none

/-- Fuse rows as burned; rows 16 to 23 are never readable (R502). -/
def readFuseWord (a : Nat) (d : Dev) : Option (Word × Dev) :=
  let row := a / 32
  if 256 ≤ row ∨ (16 ≤ row ∧ row ≤ 23) then none
  else some (BitVec.ofNat 32 (word256 (burnedRow d row) (a / 4 % 8)), { d with free := d.free + 1 })

/-- A Loupe read of a space at an address; none when it is not allowed. -/
def readSpace (space a : Nat) (d : Dev) : Option (Word × Dev) :=
  match space with
  | 0 => if a < 0x4000 then some (BitVec.ofNat 32 (readReg d a), d) else none
  | 1 => readTable a d
  | 2 => readStaged 16384 a d
  | 3 => readStaged 4096 a d
  | 4 => if a < 65536 then some (tblGet 0 d.boot.iSram (a / 4), d) else none
  | 5 => if a < 32768 then some (shuttleWord (65536 + a / 4) d) else none
  | 6 => readNearPiece a d
  | 7 => if a < 49152 then some (Config.romWord (a / 4), d) else none
  | 8 => readFuseWord a d
  | 9 => if d.jtag.halted then some (shuttleWord (a / 4 % 65536) d) else none
  | _ => none

/-! ### Writes of the spaces (R577, R579) -/

/-- A Loupe write; none when it is not allowed. -/
def writeSpace (space a : Nat) (v : Word) (d : Dev) : Option Dev :=
  match space with
  | 0 => if a < 0x4000 then some (writeReg a v.toNat d) else none
  | 4 => if d.jtag.halted && decide (a < 65536) then
      some { d with boot.iSram := tblSet 0 d.boot.iSram (a / 4) v } else none
  | 5 => if d.jtag.halted && decide (a < 32768) then
      some { d with jtag.core := tblPut d.jtag.core (65536 + a / 4) v } else none
  | 9 => if d.jtag.halted then some { d with jtag.core := tblPut d.jtag.core (a / 4 % 65536) v } else none
  | _ => none

/-! ### Accesses -/

/-- Capture-DR of LOUPE_DATA: the last result, DONE and ERR (R577). -/
def captureData (d : Dev) : Dev :=
  loadIr .loupeData (natLe 5 (d.jtag.data.toNat + flagAt d.jtag.done 32 + flagAt d.jtag.accErr 33)) d

/-- The end of an access: its result, and the address moved on by AUTOINC. -/
def endAccess (v : Word) (d : Dev) : Dev :=
  { d with
    jtag.data := v, jtag.done := true, jtag.accErr := false
    jtag.addr := if d.jtag.autoinc then d.jtag.addr + 4 else d.jtag.addr }

/-- An access that is not allowed. -/
def refuseAccess (d : Dev) : Dev := { d with jtag.done := true, jtag.accErr := true }

/-- A scan of LOUPE_ADDR. -/
def doLoupeAddr (v : BitVec 36) (d : Dev) : Dev :=
  if !awake d then d
  else if loupeShut d then loadIr .loupeAddr [0] d
  else
    { loadIr .loupeAddr (natLe 5 (d.jtag.addr.toNat + d.jtag.space.toNat * 2 ^ 32)) d with
      jtag.addr := v.setWidth 32, jtag.space := (v >>> 32).setWidth 4 }

/-- LOUPE_ADDR. -/
def execLoupeAddr (v : BitVec 36) (s : State) : Host.Outcome State Fault Refusal := act (doLoupeAddr v) s

/-- A scan of LOUPE_DATA that reads. -/
def doLoupeRead (d : Dev) : Dev :=
  if !awake d then d
  else if loupeShut d then loadIr .loupeData [0] d
  else
    let d := captureData d
    if !mayRead d then refuseAccess d
    else match readSpace d.jtag.space.toNat d.jtag.addr.toNat d with
      | some x => endAccess x.1 x.2
      | none => refuseAccess d

/-- LOUPE_READ. -/
def execLoupeRead (s : State) : Host.Outcome State Fault Refusal := act doLoupeRead s

/-- A scan of LOUPE_DATA that writes. -/
def doLoupeWrite (v : Word) (d : Dev) : Dev :=
  if !awake d then d
  else if loupeShut d then loadIr .loupeData [0] d
  else
    let d := captureData d
    if !mayControl d then refuseAccess d
    else match writeSpace d.jtag.space.toNat d.jtag.addr.toNat v d with
      | some d' => endAccess v d'
      | none => refuseAccess d

/-- The write would start an operation of a reserved code. -/
def loupeReserved (v : Word) (d : Dev) : Bool :=
  awake d && !loupeShut d && mayControl d && d.jtag.space == 0 && goReserved d.jtag.addr.toNat v.toNat d

/-- LOUPE_WRITE. -/
def execLoupeWrite (v : Word) (s : State) : Host.Outcome State Fault Refusal :=
  if loupeReserved v s.dev then .fault .reservedOperation else act (doLoupeWrite v) s

/-! ### The Shuttle's halt (R581 to R583) -/

/-- A scan of LOUPE_CTRL: the captured bits leave, AUTOINC is stored, and what the scan asks for is done when the
scope allows control. -/
def scanCtrl (autoinc : Bool) (f : Dev → Dev) (d : Dev) : Dev :=
  if !awake d then d
  else if loupeShut d then loadIr .loupeCtrl [0] d
  else
    let d' := { loadIr .loupeCtrl (natLe 2 (flagAt d.jtag.autoinc 3 + debugBits d)) d with jtag.autoinc := autoinc }
    if mayControl d then f d' else d'

/-- The Shuttle stops. -/
def haltNow (d : Dev) : Dev :=
  settlePauses { d with jtag.halted := true, jtag.haltPend := false, jtag.core := [] }

/-- A halt request: at once outside a locked sequence, else pending. -/
def askHalt (d : Dev) : Dev :=
  if d.jtag.halted then d
  else if lockedSeq d = 0 then haltNow d
  else { d with jtag.haltPend := true }

/-- HALT_REQ. -/
def execHaltReq (autoinc : Bool) (s : State) : Host.Outcome State Fault Refusal := act (scanCtrl autoinc askHalt) s

/-- A pending halt takes effect when the sequence has ended. -/
def shuttleHalts (d : Dev) : Dev :=
  if awake d && d.jtag.haltPend && lockedSeq d = 0 then haltNow d else d

/-- SHUTTLE_HALT. -/
def execShuttleHalt (s : State) : Host.Outcome State Fault Refusal := act shuttleHalts s

/-- The Shuttle goes on, and takes up what has waited for it (R29). -/
def goOn (d : Dev) : Dev :=
  if !d.jtag.halted then d
  else
    pumpFlags (fetchNext (serveHeld (firmwareResumes (flushDoe (settlePauses { d with
      jtag.halted := false, jtag.core := [] })))))

/-- RESUME. -/
def execResume (autoinc : Bool) (s : State) : Host.Outcome State Fault Refusal := actBacklog (scanCtrl autoinc goOn) s

/-- One instruction: what it leaves in the Shuttle is free (log entry 53). -/
def stepOne (d : Dev) : Dev := if d.jtag.halted then { d with jtag.core := [] } else d

/-- STEP. -/
def execStepCmd (autoinc : Bool) (s : State) : Host.Outcome State Fault Refusal := act (scanCtrl autoinc stepOne) s

/-! ### Debug unlock (R584 to R588) -/

/-- Bytes 0x00 to 0x2F of a challenge. -/
def chalBytes (serial : Nat) (nonce : BitVec 256) : Bytes :=
  natLe 4 0x554C3334 ++ natLe 8 serial ++ natLe 4 0 ++ natLe 32 nonce.toNat

/-- Capture-DR of UNLOCK_CHAL. -/
def doUnlockChal (d : Dev) : Dev :=
  if !awake d then d
  else if 3 ≤ d.jtag.fails then loadIr .unlockChal (List.replicate 144 0) d
  else
    let f := takeFree d
    let c := chalBytes (serialNumber d) f.1
    let sig := Config.ecdsaSign (idKey d) (Config.sha384 c) f.2.free
    loadIr .unlockChal (c ++ natBe 96 sig.toNat) { f.2 with free := f.2.free + 1, jtag.chal := some c }

/-- UNLOCK_CHAL. -/
def execUnlockChal (s : State) : Host.Outcome State Fault Refusal := act doUnlockChal s

/-- The key of a response is the one that its key number names (R530, R587). -/
def unlockKeyOk (r : Bytes) (d : Dev) : Bool :=
  let h := Config.sha384 (sliceBytes r 0x10 96)
  match leAt r 0 1 with
  | 0 => h == Config.tamoriDebugHash
  | 1 => custKeyEn d && digestBytes h == natLe 48 (effKeyHash d).toNat
  | _ => false

/-- The checks of R587 hold. -/
def unlockOk (r : Bytes) (d : Dev) : Bool :=
  match d.jtag.chal with
  | none => false
  | some c => unlockKeyOk r d &&
      ecdsaOk (pointOf (sliceBytes r 0x10 96)) (Config.sha384 (c ++ sliceBytes r 0 16))
        (sigOf (sliceBytes r 0x70 96))

/-- Update-DR of UNLOCK_RESP. -/
def doUnlockResp (r : Bytes) (d : Dev) : Dev :=
  if !awake d then d
  else if 3 ≤ d.jtag.fails then loadIr .unlockResp [0] d
  else
    let ok := unlockOk r d
    let d := { loadIr .unlockResp [0] d with jtag.chal := none }
    if ok then
      let d := { d with jtag.unlocked := some (BitVec.ofNat 2 (leAt r 1 1)) }
      if fwExec d then logRec 4 0 0 0 (leAt r 1 1) 0 d else d
    else recordErr 0x86 0 0 { d with jtag.fails := d.jtag.fails + 1 }

/-- UNLOCK_RESP. -/
def execUnlockResp (data : Bytes) (s : State) : Host.Outcome State Fault Refusal := act (doUnlockResp data) s

end Sys2Proof.Machine
end

