-- ==== Sys2Proof/Machine/Sram.lean ====
section
/-!
DEFINITION. Errors in the table, staging, binding and Shuttle SRAMs (R31, R209, R376, R570, R571), and the turnstile
round whose reads find them.
-/

namespace Sys2Proof.Machine

/-- The memory is read: the Shuttle SRAMs while the firmware executes, those of the active core only (R27). -/
def sramInUse (d : Dev) (mem : Nat) : Bool :=
  if mem < 3 then fwRunning d && !d.pwr.standby
  else fwExec d && (if mem < 5 then !d.rep.core else d.rep.core)

/-- A read that found an error. A correction is counted and reported; an uncorrectable word is recorded and fatal. -/
def sramRead (f : SramFlaw) (d : Dev) : Dev :=
  if d.err.fatal || !sramInUse d f.mem.toNat then d
  else if f.uncorrectable then
    goFatal (capture true 0x44 6 (f.mem.toNat * 2 ^ 28 + f.addr.toNat)
      { d with rep.sramUncorr := sat32 d.rep.sramUncorr 1 })
  else aerSet .correctedInternal { d with rep.sramCorr := sat32 d.rep.sramCorr 1 }

/-- TURNSTILE_ROUND: what the SRAM reads before it found, then the round. -/
def execTurnstileRound (qid : BitVec 14) (upsets : List (Nat × BitVec 74)) (sram : List SramFlaw) (s : State) :
    Host.Outcome State Fault Refusal :=
  actBacklog (fun d => turnstileRound qid.toNat upsets (sram.foldl (fun d f => sramRead f d) d)) s

end Sys2Proof.Machine
end

