-- ==== Sys2Proof/Machine/Dispatch.lean ====
section
/-!
DEFINITION. One arm per command: its meaning.
-/

namespace Sys2Proof.Machine

def exec (i : Instr) (s : State) : Host.Outcome State Fault Refusal :=
  match i with
  | .ringCreate c => Sys2Proof.Machine.execRingCreate c s
  | .ringDelete c => Sys2Proof.Machine.execRingDelete c s
  | .stageQueues c buf => Sys2Proof.Machine.execStageQueues c buf s
  | .stagePorts c buf => Sys2Proof.Machine.execStagePorts c buf s
  | .stageBindings c buf => Sys2Proof.Machine.execStageBindings c buf s
  | .epochCheck c peerEw => Sys2Proof.Machine.execEpochCheck c peerEw s
  | .epochCommit c peerEw => Sys2Proof.Machine.execEpochCommit c peerEw s
  | .commitInstant => Sys2Proof.Machine.execCommitInstant s
  | .epochDiscard c => Sys2Proof.Machine.execEpochDiscard c s
  | .queueFlush c => Sys2Proof.Machine.execQueueFlush c s
  | .queueDropPacket c => Sys2Proof.Machine.execQueueDropPacket c s
  | .queueMark c => Sys2Proof.Machine.execQueueMark c s
  | .queueRetransmit c => Sys2Proof.Machine.execQueueRetransmit c s
  | .queueReadCounters c => Sys2Proof.Machine.execQueueReadCounters c s
  | .portUnpark c => Sys2Proof.Machine.execPortUnpark c s
  | .sealCmd c => Sys2Proof.Machine.execSealCmd c s
  | .powerRequestActive c => Sys2Proof.Machine.execPowerRequestActive c s
  | .powerRequestListen c => Sys2Proof.Machine.execPowerRequestListen c s
  | .powerRequestStandby c => Sys2Proof.Machine.execPowerRequestStandby c s
  | .keyLoad c buf => Sys2Proof.Machine.execKeyLoad c buf s
  | .keyErase c => Sys2Proof.Machine.execKeyErase c s
  | .keyEraseEffect => Sys2Proof.Machine.execKeyEraseEffect s
  | .keyInstallPending slot => Sys2Proof.Machine.execKeyInstallPending slot s
  | .keyStatus c => Sys2Proof.Machine.execKeyStatus c s
  | .wearReport c => Sys2Proof.Machine.execWearReport c s
  | .scrubReport c => Sys2Proof.Machine.execScrubReport c s
  | .remapReport c => Sys2Proof.Machine.execRemapReport c s
  | .peerStatus c => Sys2Proof.Machine.execPeerStatus c s
  | .peerFirmware c image => Sys2Proof.Machine.execPeerFirmware c image s
  | .relayPassWaitExpiry => Sys2Proof.Machine.execRelayPassWaitExpiry s
  | .relayBeaconWaitExpiry => Sys2Proof.Machine.execRelayBeaconWaitExpiry s
  | .logRead c => Sys2Proof.Machine.execLogRead c s
  | .invalidOpcode opcode c => Sys2Proof.Machine.execInvalidOpcode opcode c s
  | .relayedAdminCommand opcode c buf => Sys2Proof.Machine.execRelayedAdminCommand opcode c buf s
  | .adminTimeout => Sys2Proof.Machine.execAdminTimeout s
  | .adminEnable => Sys2Proof.Machine.execAdminEnable s
  | .adminDisable => Sys2Proof.Machine.execAdminDisable s
  | .hifMirrorEnWrite v => Sys2Proof.Machine.execHifMirrorEnWrite v s
  | .mirrorHoldExpiry qid => Sys2Proof.Machine.execMirrorHoldExpiry qid s
  | .pwrSoftReset v => Sys2Proof.Machine.execPwrSoftReset v s
  | .pwrPaceWrite v => Sys2Proof.Machine.execPwrPaceWrite v s
  | .pwrGovEnWrite v => Sys2Proof.Machine.execPwrGovEnWrite v s
  | .pwrPaceRangeWrite lo hi => Sys2Proof.Machine.execPwrPaceRangeWrite lo hi s
  | .pwrGovWindowWrite up down => Sys2Proof.Machine.execPwrGovWindowWrite up down s
  | .paceStepSettled => Sys2Proof.Machine.execPaceStepSettled s
  | .govUpWindowExpiry => Sys2Proof.Machine.execGovUpWindowExpiry s
  | .govDownWindowExpiry => Sys2Proof.Machine.execGovDownWindowExpiry s
  | .tbNowCapture => Sys2Proof.Machine.execTbNowCapture s
  | .slowclkPresent => Sys2Proof.Machine.execSlowclkPresent s
  | .slowclkLost => Sys2Proof.Machine.execSlowclkLost s
  | .tickOscRestarted => Sys2Proof.Machine.execTickOscRestarted s
  | .bootLoadChunk => Sys2Proof.Machine.execBootLoadChunk s
  | .chunkCopyDone => Sys2Proof.Machine.execChunkCopyDone s
  | .bootStart => Sys2Proof.Machine.execBootStart s
  | .imageVerified lost => Sys2Proof.Machine.execImageVerified lost s
  | .bootRestart => Sys2Proof.Machine.execBootRestart s
  | .bar2Write off data => Sys2Proof.Machine.execBar2Write off data s
  | .fuseRead row mode => Sys2Proof.Machine.execFuseRead row mode s
  | .fuseBurn row word outcomes => Sys2Proof.Machine.execFuseBurn row word outcomes s
  | .fuseRedirect row => Sys2Proof.Machine.execFuseRedirect row s
  | .fuseOpDone => Sys2Proof.Machine.execFuseOpDone s
  | .otpLockWrite v => Sys2Proof.Machine.execOtpLockWrite v s
  | .shadowOverrideWrite off v => Sys2Proof.Machine.execShadowOverrideWrite off v s
  | .eccTestWrite index deep valid => Sys2Proof.Machine.execEccTestWrite index deep valid s
  | .eccTestProgram => Sys2Proof.Machine.execEccTestProgram s
  | .eccTestRead index deep => Sys2Proof.Machine.execEccTestRead index deep s
  | .eccTestDone => Sys2Proof.Machine.execEccTestDone s
  | .errCapPop => Sys2Proof.Machine.execErrCapPop s
  | .errFirstClr => Sys2Proof.Machine.execErrFirstClr s
  | .rcFieldRead r => Sys2Proof.Machine.execRcFieldRead r s
  | .tierSpillBurstWrite v => Sys2Proof.Machine.execTierSpillBurstWrite v s
  | .casEnable => Sys2Proof.Machine.execCasEnable s
  | .registerWrite off w => Sys2Proof.Machine.execRegisterWrite off w s
  | .ingressBeat port en tag eop d => Sys2Proof.Machine.execIngressBeat port en tag eop d s
  | .flushPulse port level => Sys2Proof.Machine.execFlushPulse port level s
  | .rtPulse port level => Sys2Proof.Machine.execRtPulse port level s
  | .mrkPulse port level => Sys2Proof.Machine.execMrkPulse port level s
  | .dropPulse port level => Sys2Proof.Machine.execDropPulse port level s
  | .eventCrossingLatch port => Sys2Proof.Machine.execEventCrossingLatch port s
  | .eventCrossingFree port => Sys2Proof.Machine.execEventCrossingFree port s
  | .portEventEffect port => Sys2Proof.Machine.execPortEventEffect port s
  | .beatVisible port => Sys2Proof.Machine.execBeatVisible port s
  | .valueCrossingAccept port kind => Sys2Proof.Machine.execValueCrossingAccept port kind s
  | .egressRead port => Sys2Proof.Machine.execEgressRead port s
  | .egressPushBeat port hold => Sys2Proof.Machine.execEgressPushBeat port hold s
  | .portClockStall port => Sys2Proof.Machine.execPortClockStall port s
  | .portReopen port => Sys2Proof.Machine.execPortReopen port s
  | .handover pair => Sys2Proof.Machine.execHandover pair s
  | .handoverForced pair => Sys2Proof.Machine.execHandoverForced pair s
  | .switchReturn pair => Sys2Proof.Machine.execSwitchReturn pair s
  | .tpEnChange pair level => Sys2Proof.Machine.execTpEnChange pair level s
  | .turnstileRound qid upsets sram => Sys2Proof.Machine.execTurnstileRound qid upsets sram s
  | .kick lowNs => Sys2Proof.Machine.execKick lowNs s
  | .sweepTimerExpiry => Sys2Proof.Machine.execSweepTimerExpiry s
  | .sweep block => Sys2Proof.Machine.execSweep block s
  | .fillDescriptorFetch ring => Sys2Proof.Machine.execFillDescriptorFetch ring s
  | .dmaReadCompletion tag status data => Sys2Proof.Machine.execDmaReadCompletion tag status data s
  | .completionTimeout tag => Sys2Proof.Machine.execCompletionTimeout tag s
  | .descTimeout ring => Sys2Proof.Machine.execDescTimeout ring s
  | .drainDescriptorFetch ring => Sys2Proof.Machine.execDrainDescriptorFetch ring s
  | .drainGrant ring => Sys2Proof.Machine.execDrainGrant ring s
  | .drainWaitExpiry qid => Sys2Proof.Machine.execDrainWaitExpiry qid s
  | .drainTransferEnd ring => Sys2Proof.Machine.execDrainTransferEnd ring s
  | .completionIrqTimer ring => Sys2Proof.Machine.execCompletionIrqTimer ring s
  | .msixUnmask u => Sys2Proof.Machine.execMsixUnmask u s
  | .busMasterChange bme d3hot => Sys2Proof.Machine.execBusMasterChange bme d3hot s
  | .l1EntryRequest => Sys2Proof.Machine.execL1EntryRequest s
  | .unsupportedRequest r => Sys2Proof.Machine.execUnsupportedRequest r s
  | .hostInterfaceReset r => Sys2Proof.Machine.execHostInterfaceReset r s
  | .perstAssert => Sys2Proof.Machine.execPerstAssert s
  | .perstDeassert => Sys2Proof.Machine.execPerstDeassert s
  | .linkUp l => Sys2Proof.Machine.execLinkUp l s
  | .por node tpEn0 tpEn1 core0Fail core1Fail => Sys2Proof.Machine.execPor node tpEn0 tpEn1 core0Fail core1Fail s
  | .vinLoss => Sys2Proof.Machine.execVinLoss s
  | .deepProgramStart => Sys2Proof.Machine.execDeepProgramStart s
  | .deepProgramVerified seg ok => Sys2Proof.Machine.execDeepProgramVerified seg ok s
  | .deepReadComplete qid seg reads => Sys2Proof.Machine.execDeepReadComplete qid seg reads s
  | .journalTimerExpiry => Sys2Proof.Machine.execJournalTimerExpiry s
  | .scrubNearGroup upsets => Sys2Proof.Machine.execScrubNearGroup upsets s
  | .scrubDeepGroup r => Sys2Proof.Machine.execScrubDeepGroup r s
  | .weaveLaneStall group lane => Sys2Proof.Machine.execWeaveLaneStall group lane s
  | .train => Sys2Proof.Machine.execTrain s
  | .ack h => Sys2Proof.Machine.execAck h s
  | .nak h => Sys2Proof.Machine.execNak h s
  | .ackTimerExpiry node => Sys2Proof.Machine.execAckTimerExpiry node s
  | .retryTimeout node => Sys2Proof.Machine.execRetryTimeout node s
  | .beaconTimer => Sys2Proof.Machine.execBeaconTimer s
  | .beacon h p => Sys2Proof.Machine.execBeacon h p s
  | .beaconTimeout node => Sys2Proof.Machine.execBeaconTimeout node s
  | .push h p => Sys2Proof.Machine.execPush h p s
  | .popReq h p => Sys2Proof.Machine.execPopReq h p s
  | .popRsp h p => Sys2Proof.Machine.execPopRsp h p s
  | .loanReq h p => Sys2Proof.Machine.execLoanReq h p s
  | .loanGrant h p => Sys2Proof.Machine.execLoanGrant h p s
  | .loanRefuse h p => Sys2Proof.Machine.execLoanRefuse h p s
  | .segWrite h p => Sys2Proof.Machine.execSegWrite h p s
  | .verifyOk h p => Sys2Proof.Machine.execVerifyOk h p s
  | .verifyFail h p => Sys2Proof.Machine.execVerifyFail h p s
  | .readReq h p => Sys2Proof.Machine.execReadReq h p s
  | .readRsp h p => Sys2Proof.Machine.execReadRsp h p s
  | .segRelease h p => Sys2Proof.Machine.execSegRelease h p s
  | .reclaim h p => Sys2Proof.Machine.execReclaim h p s
  | .loanList h p => Sys2Proof.Machine.execLoanList h p s
  | .listEnd h p => Sys2Proof.Machine.execListEnd h p s
  | .holeTimeout node => Sys2Proof.Machine.execHoleTimeout node s
  | .cmd h p => Sys2Proof.Machine.execCmd h p s
  | .rsp h p => Sys2Proof.Machine.execRsp h p s
  | .img h chunk data => Sys2Proof.Machine.execImg h chunk data s
  | .join h mask lost => Sys2Proof.Machine.execJoin h mask lost s
  | .getVersion => Sys2Proof.Machine.execGetVersion s
  | .getCapabilities => Sys2Proof.Machine.execGetCapabilities s
  | .negotiateAlgorithms => Sys2Proof.Machine.execNegotiateAlgorithms s
  | .getDigests => Sys2Proof.Machine.execGetDigests s
  | .getCertificate slot off len => Sys2Proof.Machine.execGetCertificate slot off len s
  | .challenge slot summary nonce => Sys2Proof.Machine.execChallenge slot summary nonce s
  | .getMeasurements index sign nonce => Sys2Proof.Machine.execGetMeasurements index sign nonce s
  | .doeDiscovery index => Sys2Proof.Machine.execDoeDiscovery index s
  | .spdmUnsupportedRequest r => Sys2Proof.Machine.execSpdmUnsupportedRequest r s
  | .extest data => Sys2Proof.Machine.execExtest data s
  | .clamp => Sys2Proof.Machine.execClamp s
  | .highz => Sys2Proof.Machine.execHighz s
  | .samplePreload data => Sys2Proof.Machine.execSamplePreload data s
  | .idcode => Sys2Proof.Machine.execIdcode s
  | .bypass => Sys2Proof.Machine.execBypass s
  | .tapReset => Sys2Proof.Machine.execTapReset s
  | .loupeAddr v => Sys2Proof.Machine.execLoupeAddr v s
  | .loupeRead => Sys2Proof.Machine.execLoupeRead s
  | .loupeWrite v => Sys2Proof.Machine.execLoupeWrite v s
  | .haltReq autoinc => Sys2Proof.Machine.execHaltReq autoinc s
  | .shuttleHalt => Sys2Proof.Machine.execShuttleHalt s
  | .resume autoinc => Sys2Proof.Machine.execResume autoinc s
  | .stepCmd autoinc => Sys2Proof.Machine.execStepCmd autoinc s
  | .unlockChal => Sys2Proof.Machine.execUnlockChal s
  | .unlockResp data => Sys2Proof.Machine.execUnlockResp data s
  | .flitCrcFail => Sys2Proof.Machine.execFlitCrcFail s
  | .l12Entry => Sys2Proof.Machine.execL12Entry s
  | .l12Exit => Sys2Proof.Machine.execL12Exit s
  | .poisonedTlpReceived => Sys2Proof.Machine.execPoisonedTlpReceived s
  | .receiverErrorCmd e => Sys2Proof.Machine.execReceiverErrorCmd e s
  | .configSpaceWrite w => Sys2Proof.Machine.execConfigSpaceWrite w s

end Sys2Proof.Machine
end

