-- ==== Sys2Proof/Machine/Step.lean ====
section
/-!
DEFINITION. One step: the command at the front of the queue, or one move of the time base.
-/

namespace Sys2Proof.Machine

/-- Takes the command that has waited longest and runs it with the rest of the queue. With nothing
waiting, the time base makes one move (`idleTick`; DESIGN CHOICE, log entry 2). -/
def step (s : State) : Host.Outcome State Fault Refusal :=
  match s.pending with
  | [] => .next { s with dev := idleTick s.dev }
  | c :: rest => exec c { s with pending := rest }

/-- Puts the command that a word spells in front of the queue. No row of the table gives bits, so
no word spells one (log entry 7). -/
def State.withFetchWord (s : State) (nbits w : Nat) : State :=
  match Sys2Proof.decodeTableWord nbits w with
  | some c => { s with pending := c :: s.pending }
  | none => s

end Sys2Proof.Machine
end

