-- ==== Sys2Proof/Safety.lean ====
section
/-!
DEFINITION. The terms statements are written in: that a command completes, the frame of a step, the state OFF,
and what counts as a safe run.
-/

namespace Sys2Proof.Machine

/-- `exec` answers a next state for a command, with the queue of waiting commands as it was, and a device of which
`P` holds. -/
def Completes (c : Instr) (s : State) (P : Dev → Prop) : Prop :=
  ∃ t : State, exec c s = .next t ∧ t.pending = s.pending ∧ P t.dev

/-- The command is a GO that the device would take and whose OP or MODE the spec reserves (R611, R614): a FUSE_READ of
MODE 0b11, or a register write that the host or the Loupe makes. -/
def goesReserved (d : Dev) : Instr → Bool
  | .fuseRead _ mode => hostReach d && fuseReady d && mode == 3
  | .registerWrite off w => writesReserved (hostWrites off.toNat w) d
  | .loupeWrite v => loupeReserved v d
  | _ => false

/-- A run is safe while no step asks the part for an operation to which the spec gives no effect. -/
def safeStep (s : State) : Bool :=
  match step s with
  | .next _ => true
  | _ => false

/-- An ingress or egress port as POR leaves it. -/
def portsCold (p : Ports) : Bool := p.i0 == {} && p.i1 == {} && p.e0 == {} && p.e1 == {}

/-- OFF (R470): VIN is below the threshold, so the part does nothing and keeps nothing but its non-volatile
stores. -/
def Off (d : Dev) : Bool :=
  !d.pwr.vin && !d.pwr.standby && !d.pwr.standbyPend && d.pwr.stepTo.isNone && !d.pwr.govEn &&
    d.boot.status == .powerUp && !d.boot.busy &&
    !d.link.up && !d.link.training && d.link.reads.isEmpty && d.tb.timers.isEmpty &&
    d.adm.fetch.isNone && !d.epoch.fence && d.epoch.eraseFence.isNone &&
    !d.fuse.busy && !d.ecc.busy && !d.jtag.haltPend && !d.sweep.running &&
    !d.cas.up && !d.cas.training && d.cas.peers.isEmpty && !d.regs.casEn && d.tier.active.isEmpty &&
    d.rings.fills.isEmpty && d.rings.drains.isEmpty && d.rings.comps.isEmpty && d.queues.isEmpty &&
    d.keys.slots.isEmpty && portsCold d.ports &&
    !d.ports.p0.armed && !d.ports.p0.returning && !d.ports.p1.armed && !d.ports.p1.returning

/-- The stored tables are in their canonical form: what a lookup finds under a number is the only entry there, and no
entry stands for what an unlisted number reads as. -/
def Canon (d : Dev) : Bool :=
  tblWf {} d.queues && tblWf {} d.keys.slots && tblWf {} d.keys.recA.slots && tblWf {} d.keys.recB.slots &&
    tblWf {} d.link.vectors && tblWf {} d.ecc.nearSeg && tblWf 0 d.fuse.lo && tblWf 0 d.fuse.hi &&
    tblWf 0 d.boot.buf && tblWf 0 d.boot.image && tblWf 0 d.boot.iSram && tblWf 0 d.boot.dSram &&
    tblSorted d.rings.comps && tblSorted d.rings.fills && tblSorted d.rings.drains && tblSorted d.tier.loans &&
    tblSorted d.stage.qtes && tblSorted d.epoch.during.qtes && ((d.epoch.taken.map fun st => tblSorted st.qtes).getD true) &&
    ((d.tier.image.map fun im => tblSorted im.qtes && tblSorted im.loans).getD true)

/-! ### Admin commands -/

/-- Nothing but the host side of the device differs: what has been put out, the link, timers, the error capture and
log, the admin pair, the sweep engine. -/
abbrev HostOnly (d e : Dev) : Prop :=
  e = { d with out := e.out, link := e.link, tb := e.tb, err := e.err, adm := e.adm, sweep := e.sweep }

/-- The command in execution as it arrives from the host's ring (R230). -/
def hostRun (op : Nat) (c : AdmCmd) : AdmRun :=
  { opcode := op, cid := c.cid, addr := c.addr.toNat, len := c.len.toNat, origin := .host, kind := .commit }

/-- The host's command can be taken up and executed on this node (R29, R230, R271, R446): its fetch is outstanding
under `tag`, firmware runs, its layout is right and its target is the own node. -/
abbrev Takes (op : Nat) (c : AdmCmd) (tag : Nat) (d : Dev) : Prop :=
  d.adm.fetch = some tag ∧ fwExec d = true ∧ cmdShape c = true ∧ targetNode op c = some (ownNode d)

/-- The same whatever its AC_ADDR and AC_LEN hold, as EPOCH_DISCARD is taken up (R309). -/
abbrev TakesAny (op : Nat) (c : AdmCmd) (tag : Nat) (d : Dev) : Prop :=
  d.adm.fetch = some tag ∧ fwExec d = true ∧ targetNode op c = some (ownNode d)

/-- The device once the host's command has arrived: its fetch is over, and HIF_ADMIN_TIMEOUT runs on from it unless the
opcode is not timed (R230, R278). -/
def taken (op tag : Nat) (d : Dev) : Dev :=
  let d := dropRead tag { d with adm.fetch := none, adm.fetched := d.adm.fetched + 1 }
  if untimed op then stopTimer .admin d else d

/-- A completion entry can be written at once (R246, R198): a slot is free, memory writes may leave, and an entry
goes out as one request. -/
abbrev AceRoom (d : Dev) : Prop :=
  admFull d = false ∧ canIssue d = true ∧ 16 ≤ d.link.mps ∧ d.adm.cqBase % 4096 = 0

/-- The 16 bytes of an admin completion entry (R272), for the command that has just been fetched. -/
def aceBytes (a : Adm) (cid : BitVec 16) (status r0 r1 : Nat) : Bytes :=
  natLe 4 r0 ++ natLe 4 r1 ++ natLe 4 (cid.toNat + status * 2 ^ 16) ++
    natLe 4 ((a.fetched + 1).toNat % 2 ^ a.sqLog2 + flagAt a.phase 31)

/-- The host's command has ended: its completion entry has been written into the next free slot, and no command runs
(R230, R245, R272). -/
abbrev AceWritten (c : AdmCmd) (status r0 r1 : Nat) (d e : Dev) : Prop :=
  e.adm.written = d.adm.written + 1 ∧ e.adm.fetched = d.adm.fetched + 1 ∧ e.adm.run = d.adm.run ∧
    OutMsg.memWrite (d.adm.cqBase + 16 * (d.adm.written.toNat % 2 ^ d.adm.cqLog2))
      (aceBytes d.adm c.cid status r0 r1) false ∈ e.out

/-- A command that has been in execution ends: its completion entry has been written into the next free slot, and no
command runs (R230, R245, R272). -/
abbrev RunEnds (r : AdmRun) (status r0 r1 : Nat) (d e : Dev) : Prop :=
  e.adm.written = d.adm.written + 1 ∧ e.adm.run = none ∧
    OutMsg.memWrite (d.adm.cqBase + 16 * (d.adm.written.toNat % 2 ^ d.adm.cqLog2))
      (natLe 4 r0 ++ natLe 4 r1 ++ natLe 4 (r.cid.toNat + status * 2 ^ 16) ++
        natLe 4 (d.adm.fetched.toNat % 2 ^ d.adm.sqLog2 + flagAt d.adm.phase 31)) false ∈ e.out

/-- A record of an admin command has been written to host memory from `addr` on, in the requests of R196. -/
abbrev RecordWritten (addr : Nat) (bs : Bytes) (d e : Dev) : Prop :=
  ∀ p ∈ splitReq (min 256 d.link.mps) addr bs.length,
    OutMsg.memWrite p.1 ((bs.drop (p.1 - addr)).take p.2) false ∈ e.out

/-- The command has been taken up and runs on, waiting for `kind`; no completion entry has been written. -/
abbrev RunsOn (op : Nat) (c : AdmCmd) (kind : RunKind) (d e : Dev) : Prop :=
  e.adm = { d.adm with fetch := none, fetched := d.adm.fetched + 1, run := some { hostRun op c with kind } }

/-! ### Units of the cascade ring -/

/-- A flit for this node arrives from a present peer over a trained ring, and its service can run at once. -/
abbrev ForMe (h : FlitHdr) (d : Dev) : Prop :=
  ringOn d = true ∧ fwExec d = true ∧ d.cas.up = true ∧ d.cas.training = false ∧ d.cas.held = [] ∧
    d.cas.standbyAfterRsp = false ∧ h.dst.toNat = ownNode d ∧ h.src.toNat ≠ ownNode d ∧ isPresent d h.src.toNat = true

/-- It is a sequenced unit, the one expected next from its sender (R419). -/
abbrev InTurn (h : FlitHdr) (d : Dev) : Prop := ForMe h d ∧ h.seq.toNat = (peerOf d h.src.toNat).rxSeq

/-- The device once such a unit has been accepted: its header's acknowledgement and credits taken, its units counted,
an acknowledgement owed (R415, R419, R420, R432). -/
def accepted (h : FlitHdr) (payload : Bytes) (d : Dev) : Dev :=
  onPeer h.src.toNat (fun p => { p with
    rxSeq := (p.rxSeq + flitUnits payload) % 256, nakSent := false, ackDue := true }) (takeHeader h d)

/-- Nothing but the ring, its timers and what has been put out differs. -/
abbrev RingOnly (d e : Dev) : Prop := e = { d with cas := e.cas, tb.timers := e.tb.timers, out := e.out }

/-! ### The DOE mailbox -/

/-- A request in the mailbox is answered at once (R528). -/
abbrev DoeReady (d : Dev) : Prop :=
  d.link.up = true ∧ d.pwr.perst = false ∧ awake d = true ∧ d.spdm.doeBusy = false ∧ d.jtag.halted = false ∧
    (d.boot.status = .waitImage ∨ d.boot.status = .loading ∨ (d.boot.status = .fwRunning ∧ fwExec d = true))

/-- The mailbox has answered with a data object of a type, and nothing but the responder's own state, the host side and
the count of free values differs. -/
abbrev Says (type : Nat) (bs : Bytes) (d e : Dev) : Prop :=
  OutMsg.doe (doeObject type bs) ∈ e.out ∧
    e = { d with out := e.out, link := e.link, spdm := e.spdm, free := e.free }

end Sys2Proof.Machine
end

