-- ==== Sys2Proof/Certificates/Slice0/Obligations.lean ====
section
/-!
DEFINITION. The statements for the provers.
-/

open Sys2Proof Sys2Proof.Machine

/-! ### The queue of commands and the time base -/

/-- The command that has waited longest runs on the device with the rest of the queue. -/
def Obligations.StepRunsTheFrontCommand : Prop :=
  ∀ (s : State) (c : Instr) (rest : List Instr), s.pending = c :: rest →
    step s = exec c { s with pending := rest }

/-- With nothing waiting the time base makes one move (DESIGN CHOICE, log entry 2): a tick of the oscillator, corrected
by the last measurement of R37 while there is one, or one SLOWCLK edge of 1,000,000 / 32,768 ticks, kept in 1/512 tick;
none while neither runs or VIN is away. Nothing but the time base with its measurement, its timers' start and the bucket
changes; a measurement begins, with a free count (log entry 79), only under the discipline of SLOWCLK. -/
def Obligations.EmptyQueueMovesTheTimeBase : Prop :=
  ∀ s : State, s.pending = [] → ∃ t : State, step s = .next t ∧ t.pending = [] ∧
    t.dev.tb.now = s.dev.tb.now + (if s.dev.pwr.vin then (if s.dev.tb.tickRun then
      (match s.dev.tb.osc with
       | some n => (s.dev.tb.oscFrac + 500000) / n
       | none => 512) else if s.dev.tb.slowclk then 15625 else 0) else 0) ∧
    t.dev = { s.dev with
      tb.now := t.dev.tb.now, tb.timers := t.dev.tb.timers, tb.win := t.dev.tb.win, tb.osc := t.dev.tb.osc
      tb.oscFrac := t.dev.tb.oscFrac, tier.level := t.dev.tier.level, tier.frac := t.dev.tier.frac
      tier.throttle := t.dev.tier.throttle, free := t.dev.free } ∧
    (s.dev.tb.tickRun = true → t.dev.tb.timers = s.dev.tb.timers) ∧
    ((s.dev.tb.tickRun && s.dev.tb.discipline) = false →
      t.dev.tb.win = s.dev.tb.win ∧ t.dev.tb.osc = s.dev.tb.osc ∧ t.dev.free = s.dev.free)

/-- Every command completes, leaving the rest of the queue alone, from every state and with every operand, unless it is
a GO that names an operation which the spec reserves (R611, R614): that one stops under its own name. -/
def Obligations.EveryCommandCompletesOrNamesAReservedOperation : Prop :=
  ∀ (c : Instr) (s : State),
    (goesReserved s.dev c = false → ∃ t : State, exec c s = .next t ∧ t.pending = s.pending) ∧
    (goesReserved s.dev c = true → exec c s = .fault .reservedOperation ∧
      ((∃ row, c = .fuseRead row 3) ∨ (∃ off v, c = .registerWrite off v) ∨ ∃ v, c = .loupeWrite v))

/-! ### Admin commands: staging, check, commit -/

/-- STAGE_QUEUES, STAGE_PORTS, STAGE_BINDINGS and EPOCH_DISCARD change the staging area, complete with OK and
the counts of R274, and touch no live object; while a commit runs, what they bring is kept for the one that follows
(R15). EPOCH_DISCARD completes so whatever its AC_ADDR and AC_LEN hold (R309). -/
def Obligations.StagingCommandsChangeTheStagingAreaAlone : Prop :=
  ∀ (s : State) (c : AdmCmd) (buf : Bytes) (tag : Nat), AceRoom s.dev →
    (∀ first n : Nat, first = bitsOf c.arg0.toNat 0 12 → n = c.arg1.toNat → Takes 0x10 c tag s.dev →
      0 < n → n ≤ 1024 → first + n ≤ 4096 → c.len.toNat = n * 64 →
      (stageQtes first ((List.range n).map fun i => parseQte (sliceBytes buf (64 * i) 64)) s.dev.stage.qtes).length
        ≤ 1024 →
      let brought (before after : Tbl QCfg) : Prop := ∀ q, tblFind after q =
        if first ≤ q ∧ q < first + n then some (parseQte (sliceBytes buf (64 * (q - first)) 64)) else tblFind before q
      Completes (.stageQueues c buf) s fun e =>
        AceWritten c 0 e.stage.qtes.length 0 s.dev e ∧ brought s.dev.stage.qtes e.stage.qtes ∧
        HostOnly { s.dev with stage.qtes := e.stage.qtes, epoch.during.qtes := e.epoch.during.qtes } e ∧
        (s.dev.epoch.taken = none → e.epoch.during = s.dev.epoch.during) ∧
        (s.dev.epoch.taken ≠ none → brought s.dev.epoch.during.qtes e.epoch.during.qtes)) ∧
    (∀ mask : Nat, mask = bitsOf c.arg0.toNat 0 4 → Takes 0x11 c tag s.dev → mask ≠ 0 →
      c.len.toNat = 32 * ((List.range 4).filter (bitOf mask)).length →
      let brought (before after : Tbl Pce) : Prop := ∀ k, tblFind after k =
        if k < 4 ∧ bitOf mask k = true then
          some (parsePce (sliceBytes buf (32 * ((List.range k).filter (bitOf mask)).length) 32))
        else tblFind before k
      Completes (.stagePorts c buf) s fun e =>
        AceWritten c 0 0 0 s.dev e ∧ brought s.dev.stage.pces e.stage.pces ∧
        HostOnly { s.dev with stage.pces := e.stage.pces, epoch.during.pces := e.epoch.during.pces } e ∧
        (s.dev.epoch.taken = none → e.epoch.during = s.dev.epoch.during) ∧
        (s.dev.epoch.taken ≠ none → brought s.dev.epoch.during.pces e.epoch.during.pces)) ∧
    (∀ (n : Nat) (ws : List BindWord) (b : Bindings), n = c.arg1.toNat → ws = parseBinds (sliceBytes buf 0 (8 * n)) n →
      Takes 0x12 c tag s.dev → 0 < n → n ≤ 2048 → c.len.toNat = 8 * n →
      applyEntries s.dev.stage.entries.length 0 ws (s.dev.stage.bind.getD s.dev.bind) = .inl b →
      Completes (.stageBindings c buf) s fun e =>
        AceWritten c 0 (bindCount b) 0 s.dev e ∧
        HostOnly { s.dev with
          stage.bind := some b, stage.entries := s.dev.stage.entries ++ ws, epoch.during := e.epoch.during } e ∧
        e.epoch.during = if s.dev.epoch.taken = none then s.dev.epoch.during
          else { s.dev.epoch.during with bind := some b, entries := s.dev.epoch.during.entries ++ ws }) ∧
    (TakesAny 0x1A c tag s.dev →
      Completes (.epochDiscard c) s fun e => AceWritten c 0 0 0 s.dev e ∧
        HostOnly { s.dev with stage := {}, epoch.during := e.epoch.during } e ∧
        e.epoch.during = if s.dev.epoch.taken = none then s.dev.epoch.during else {})

/-- EPOCH_CHECK answers with the code and object of the first rule that fails, or OK, and changes nothing.
EPOCH_COMMIT, when nothing fails and no conflicting command runs, raises the fence over the affected queues, ports and
drain rings and waits for the commit instant; when a rule fails it ends with that rule's code and commits nothing, and
beside a conflicting command with BUSY. -/
def Obligations.CheckReportsAndCommitRaisesTheFence : Prop :=
  ∀ (s : State) (c : AdmCmd) (ew : List (Nat × BitVec 2)) (tag : Nat), AceRoom s.dev →
    (Takes 0x18 c tag s.dev → Completes (.epochCheck c ew) s fun e => HostOnly s.dev e ∧
      match checkStage s.dev ew with
      | none => AceWritten c 0 0 s.dev.epoch.now.toNat s.dev e
      | some x => AceWritten c x.1 x.2 s.dev.epoch.now.toNat s.dev e) ∧
    (Takes 0x19 c tag s.dev → busyNow s.dev = false → checkStage s.dev ew = none →
      Completes (.epochCommit c ew) s fun e => RunsOn 0x19 c .commit s.dev e ∧
        HostOnly { s.dev with epoch := { s.dev.epoch with
          fence := true, fenced := affected s.dev s.dev.stage, fencedPorts := affectedPorts s.dev s.dev.stage
          fencedRings := affectedRings s.dev s.dev.stage, taken := some s.dev.stage, during := {}
          peerEw := e.epoch.peerEw } } e) ∧
    (∀ x, Takes 0x19 c tag s.dev → busyNow s.dev = false → checkStage s.dev ew = some x →
      Completes (.epochCommit c ew) s fun e =>
        HostOnly s.dev e ∧ AceWritten c x.1 x.2 s.dev.epoch.now.toNat s.dev e) ∧
    (Takes 0x19 c tag s.dev → busyNow s.dev = true → Completes (.epochCommit c ew) s fun e =>
      HostOnly s.dev e ∧ AceWritten c 0x08 0 0 s.dev e)

/-! ### Admin commands: queues, counters, ports -/

/-- QUEUE_FLUSH, QUEUE_DROP_PACKET, QUEUE_MARK (or its release) and QUEUE_RETRANSMIT of a valid queue latch one
control request of the admin ring there and wait for the round that serves it; the queue's other fields and the
other queues stay. At a queue whose QTE is not valid they fail with QUEUE_NOT_VALID and change nothing (R53). -/
def Obligations.QueueCommandsLatchOneControlRequest : Prop :=
  (∀ (s : State) (c : AdmCmd) (tag qid : Nat), qid = bitsOf c.arg0.toNat 0 12 →
      tblWf {} s.dev.queues = true → (queueOf s.dev qid).cfg.valid = true →
      let latched (f : Ctl → Ctl) (op : Nat) (e : Dev) : Prop :=
        RunsOn op c (.round qid) s.dev e ∧ HostOnly { s.dev with queues := e.queues } e ∧
          queueOf e qid = { queueOf s.dev qid with ctl := f (queueOf s.dev qid).ctl } ∧
          ∀ j, j ≠ qid → queueOf e j = queueOf s.dev j
      (Takes 0x20 c tag s.dev →
        Completes (.queueFlush c) s (latched (fun x => { x with flush := x.flush ++ [.admin] }) 0x20)) ∧
      (Takes 0x21 c tag s.dev →
        Completes (.queueDropPacket c) s (latched (fun x => { x with drop := x.drop ++ [.admin] }) 0x21)) ∧
      (Takes 0x22 c tag s.dev → c.flags.getLsbD 0 = false →
        Completes (.queueMark c) s (latched (fun x => { x with mark := x.mark ++ [.admin] }) 0x22)) ∧
      (Takes 0x22 c tag s.dev → c.flags.getLsbD 0 = true →
        Completes (.queueMark c) s (latched (fun x => { x with release := x.release ++ [.admin] }) 0x22)) ∧
      (Takes 0x23 c tag s.dev →
        Completes (.queueRetransmit c) s (latched (fun x => { x with rtx := x.rtx ++ [.admin] }) 0x23))) ∧
  (∀ (s : State) (c : AdmCmd) (tag qid : Nat), qid = bitsOf c.arg0.toNat 0 12 → AceRoom s.dev →
      (queueOf s.dev qid).cfg.valid = false →
      let fails (e : Dev) : Prop := AceWritten c 0x75 0 0 s.dev e ∧ HostOnly s.dev e
      (Takes 0x20 c tag s.dev → Completes (.queueFlush c) s fails) ∧
      (Takes 0x21 c tag s.dev → Completes (.queueDropPacket c) s fails) ∧
      (Takes 0x22 c tag s.dev → Completes (.queueMark c) s fails) ∧
      (Takes 0x23 c tag s.dev → Completes (.queueRetransmit c) s fails))

/-- QUEUE_READ_COUNTERS: the queue form waits for a round of the queue; the port form writes the live PCE and clears
its counters when asked; the ring form of a live completion, fill or drain ring writes its record and clears its counters
when asked, and fails with RING_NOT_FOUND where no ring is live. -/
def Obligations.ReadCountersLatchesOrWritesItsRecord : Prop :=
  ∀ (s : State) (c : AdmCmd) (tag : Nat), Takes 0x24 c tag s.dev → tblWf {} s.dev.queues = true →
    (∀ qid, qid = bitsOf c.arg0.toNat 0 12 → bitsOf c.flags.toNat 1 2 = 0 →
      Completes (.queueReadCounters c) s fun e => RunsOn 0x24 c (.round qid) s.dev e ∧
        HostOnly { s.dev with queues := e.queues } e ∧
        queueOf e qid = { queueOf s.dev qid with ctl.read := some (c.addr.toNat, c.flags.getLsbD 0) } ∧
        ∀ j, j ≠ qid → queueOf e j = queueOf s.dev j) ∧
    (bitsOf c.flags.toNat 1 2 = 1 → c.arg0.toNat ≤ 3 → AceRoom s.dev →
      Completes (.queueReadCounters c) s fun e => AceWritten c 0 0 0 s.dev e ∧
        RecordWritten c.addr.toNat (portRecord c.arg0.toNat (c.flags.getLsbD 0) s.dev).1 s.dev e ∧
        HostOnly (portRecord c.arg0.toNat (c.flags.getLsbD 0) s.dev).2 e) ∧
    (∀ id, id = bitsOf c.arg0.toNat 0 6 → bitsOf c.flags.toNat 1 2 = 2 → AceRoom s.dev →
      (∀ r, bitsOf c.arg0.toNat 6 2 = 0 → tblFind s.dev.rings.comps id = some r →
        Completes (.queueReadCounters c) s fun e => AceWritten c 0 0 0 s.dev e ∧ HostOnly s.dev e ∧
          RecordWritten c.addr.toNat (ringBytes {} r.head r.halted (compFull r)) s.dev e) ∧
      (∀ r, bitsOf c.arg0.toNat 6 2 = 1 → tblFind s.dev.rings.fills id = some r →
        Completes (.queueReadCounters c) s fun e => AceWritten c 0 0 0 s.dev e ∧
          RecordWritten c.addr.toNat (ringBytes r.cnt r.consumed r.halted (cqFull s.dev r.cq)) s.dev e ∧
          HostOnly (if c.flags.getLsbD 0 then putFill id { r with cnt := {} } s.dev else s.dev) e) ∧
      (∀ r, bitsOf c.arg0.toNat 6 2 = 2 → tblFind s.dev.rings.drains id = some r →
        Completes (.queueReadCounters c) s fun e => AceWritten c 0 0 0 s.dev e ∧
          RecordWritten c.addr.toNat (ringBytes r.cnt r.consumed r.halted (cqFull s.dev r.cq)) s.dev e ∧
          HostOnly (if c.flags.getLsbD 0 then putDrain id { r with cnt := {} } s.dev else s.dev) e) ∧
      (bitsOf c.arg0.toNat 6 2 = 1 → tblFind s.dev.rings.fills id = none →
        Completes (.queueReadCounters c) s fun e => AceWritten c 0x04 0 0 s.dev e ∧ HostOnly s.dev e))

/-! ### Admin commands: reports and the log -/

/-- WEAR_REPORT, SCRUB_REPORT, REMAP_REPORT, PEER_STATUS and KEY_STATUS write their record, truncated to AC_LEN where
R274 lets them, complete with OK and change nothing else; LOG_READ writes the records from its sequence number on. -/
def Obligations.ReportsWriteTheirRecordAlone : Prop :=
  ∀ (s : State) (c : AdmCmd) (tag : Nat), AceRoom s.dev →
    let reports (record : Bytes) (e : Dev) : Prop :=
      AceWritten c 0 (record.take c.len.toNat).length 0 s.dev e ∧ HostOnly s.dev e ∧
        RecordWritten c.addr.toNat (record.take c.len.toNat) s.dev e
    (Takes 0x50 c tag s.dev → 64 ≤ c.len.toNat → Completes (.wearReport c) s (reports (wearRecord s.dev))) ∧
    (Takes 0x51 c tag s.dev → 64 ≤ c.len.toNat → Completes (.scrubReport c) s (reports (scrubRecord s.dev))) ∧
    (Takes 0x52 c tag s.dev → 64 ≤ c.len.toNat → Completes (.remapReport c) s (reports (remapRecord s.dev))) ∧
    (Takes 0x60 c tag s.dev → 64 ≤ c.len.toNat →
      Completes (.peerStatus c) s (reports (peerRecord (bitsOf c.arg0.toNat 0 2) s.dev))) ∧
    (Takes 0x42 c tag s.dev → 128 ≤ c.len.toNat → Completes (.keyStatus c) s fun e =>
      AceWritten c 0 0 0 s.dev e ∧ HostOnly s.dev e ∧
        RecordWritten c.addr.toNat (keyStatusRecord s.dev) s.dev e) ∧
    (∀ l r, Takes 0x70 c tag s.dev → 32 ≤ c.len.toNat →
      l = logFrom c.arg0.toNat (c.len.toNat / 32) s.dev.err.log → l.getLast? = some r →
      Completes (.logRead c) s fun e => AceWritten c 0 l.length ((r.seq + 1) % 2 ^ 32) s.dev e ∧
        HostOnly s.dev e ∧ RecordWritten c.addr.toNat (l.flatMap logBytes) s.dev e)

/-! ### Admin commands: power, seal, keys -/

/-- POWER_REQUEST by ARG0[1:0], which decides whichever of its three rows names it: 0 and 1 forbid and permit LISTEN,
and cancel a STANDBY request that is pending: the fence goes down, and each PCE that the request closed is live again. 2
ends with BUSY beside a conflicting command, with NOT_SEALED while the journal does not end in a seal record; else it
closes every enabled port behind a fence over every turnstile and leaves STANDBY pending with the PCEs kept, or finds it
pending already. 3 is no state: INVALID_COMMAND. -/
def Obligations.PowerRequestSetsListenOrPendsStandby : Prop :=
  ∀ (s : State) (c : AdmCmd) (tag arg : Nat), arg = bitsOf c.arg0.toNat 0 2 →
    Takes 0x31 c tag s.dev → AceRoom s.dev →
    let does (P : Dev → Prop) : Prop := Completes (.powerRequestActive c) s P ∧
      Completes (.powerRequestListen c) s P ∧ Completes (.powerRequestStandby c) s P
    let listens (v : Bool) (e : Dev) : Prop := AceWritten c 0 arg 0 s.dev e ∧ e.pwr.listenOk = v ∧
      (s.dev.pwr.standbyPend = false →
        HostOnly { s.dev with pwr.listenOk := v, pwr.phyLdo := s.dev.pwr.vin } e) ∧
      (s.dev.pwr.standbyPend = true →
        HostOnly { s.dev with
          pwr := { s.dev.pwr with listenOk := v, phyLdo := s.dev.pwr.vin, standbyPend := false, heldPces := [] }
          epoch.allFence := false, cas.standbyAfterRsp := false, ports := e.ports } e ∧
        (tblSorted s.dev.pwr.heldPces = true → (∀ x ∈ s.dev.pwr.heldPces, x.1 < 4) →
          ∀ x ∈ s.dev.pwr.heldPces, liveOf e x.1 = x.2))
    (arg = 0 → does (listens false)) ∧
    (arg = 1 → does (listens true)) ∧
    (arg = 2 → busyNow s.dev = true → does fun e => AceWritten c 0x08 0 0 s.dev e ∧ HostOnly s.dev e) ∧
    (arg = 2 → busyNow s.dev = false → journalSealed s.dev = false →
      does fun e => AceWritten c 0x91 0 0 s.dev e ∧ HostOnly s.dev e) ∧
    (arg = 2 → busyNow s.dev = false → journalSealed s.dev = true → s.dev.pwr.standbyPend = false →
      does fun e => AceWritten c 0 2 0 s.dev e ∧
        HostOnly { s.dev with
          pwr.standbyPend := true, pwr.heldPces := enabledPces s.dev, epoch.allFence := true
          cas.standbyAfterRsp := false, ports := e.ports } e ∧
        (s.dev.pwr.heldPces = [] → ∀ k < 4, (livePce (pceOf e k) (evOf e k)).en = false)) ∧
    (arg = 2 → busyNow s.dev = false → journalSealed s.dev = true → s.dev.pwr.standbyPend = true →
      does fun e => AceWritten c 0 2 0 s.dev e ∧ HostOnly s.dev e) ∧
    (arg = 3 → does fun e => AceWritten c 0x02 0 0 s.dev e ∧ HostOnly s.dev e)

/-- RING_CREATE lists a new ring with the values of its command, complete with OK: a completion ring, a fill ring, a
drain ring, whose local queues may begin or end a wait (R262). A number in use is refused with RING_IN_USE, and a
completion ring that is not live with RING_NOT_FOUND. -/
def Obligations.RingCreateListsTheRing : Prop :=
  ∀ (s : State) (c : AdmCmd) (tag id log2 cq : Nat), id = bitsOf c.arg0.toNat 0 6 → log2 = bitsOf c.arg0.toNat 8 8 →
    cq = bitsOf c.arg0.toNat 24 6 → Takes 0x01 c tag s.dev → AceRoom s.dev →
    let refused (code : Nat) (e : Dev) : Prop := AceWritten c code 0 0 s.dev e ∧ HostOnly s.dev e
    (∀ r, bitsOf c.flags.toNat 0 2 = 0 → tblFind s.dev.rings.comps id = some r →
      Completes (.ringCreate c) s (refused 0x03)) ∧
    (bitsOf c.flags.toNat 0 2 = 1 → tblFind s.dev.rings.fills id = none → tblFind s.dev.rings.comps cq = none →
      Completes (.ringCreate c) s (refused 0x04)) ∧
    (4 ≤ log2 → log2 ≤ 16 →
      (bitsOf c.flags.toNat 0 2 = 0 → tblFind s.dev.rings.comps id = none → baseOk 16 log2 c.addr.toNat = true →
        Completes (.ringCreate c) s fun e => AceWritten c 0 0 0 s.dev e ∧
          let r : CompRing :=
            { log2, base := c.addr.toNat, gen := c.arg1.setWidth 16, vector := bitsOf c.arg0.toNat 16 5
              irqEn := bitOf c.flags.toNat 3, thr := max 1 (bitsOf c.arg2.toNat 0 16), time := c.arg3.toNat }
          HostOnly { s.dev with rings.comps := tblPut s.dev.rings.comps id r } e) ∧
      (bitsOf c.flags.toNat 0 2 = 1 → tblFind s.dev.rings.fills id = none →
        (tblFind s.dev.rings.comps cq).isSome = true → baseOk 32 log2 c.addr.toNat = true →
        Completes (.ringCreate c) s fun e => AceWritten c 0 0 0 s.dev e ∧
          let r : FillRing :=
            { log2, base := c.addr.toNat, gen := c.arg1.setWidth 16, cq
              timeout := if c.arg2.toNat = 0 then 0 else max 640 c.arg2.toNat }
          HostOnly { s.dev with rings.fills := tblPut s.dev.rings.fills id r } e) ∧
      (bitsOf c.flags.toNat 0 2 = 2 → tblFind s.dev.rings.drains id = none →
        (tblFind s.dev.rings.comps cq).isSome = true → baseOk 32 log2 c.addr.toNat = true →
        tblWf {} s.dev.queues = true →
        Completes (.ringCreate c) s fun e => AceWritten c 0 0 0 s.dev e ∧
          let r : DrainRing :=
            { log2, base := c.addr.toNat, gen := c.arg1.setWidth 16, cq, packed := bitOf c.flags.toNat 2
              wait := c.arg2.toNat, dmin := c.arg3.toNat }
          HostOnly { s.dev with
            cas := e.cas, queues := e.queues, rings.drains := tblPut s.dev.rings.drains id r } e ∧
          ∀ j, ∃ w, queueOf e j = { queueOf s.dev j with waited := w }))

/-- RING_DELETE takes a live ring off the list and answers with its index: a completion ring that no ring names, a
fill ring, a drain ring. -/
def Obligations.RingDeleteTakesTheRingAway : Prop :=
  ∀ (s : State) (c : AdmCmd) (tag id : Nat), id = bitsOf c.arg0.toNat 0 6 → Takes 0x02 c tag s.dev →
    AceRoom s.dev →
    (∀ r, bitsOf c.flags.toNat 0 2 = 0 → tblFind s.dev.rings.comps id = some r →
      tblSorted s.dev.rings.comps = true → (∀ x ∈ s.dev.rings.fills, x.2.cq ≠ id) →
      (∀ x ∈ s.dev.rings.drains, x.2.cq ≠ id) →
      Completes (.ringDelete c) s fun e => AceWritten c 0 r.head.toNat 0 s.dev e ∧
        tblFind e.rings.comps id = none ∧ e.rings.fills = s.dev.rings.fills ∧ e.rings.drains = s.dev.rings.drains ∧
        e.queues = s.dev.queues) ∧
    (∀ r, bitsOf c.flags.toNat 0 2 = 1 → tblFind s.dev.rings.fills id = some r →
      tblSorted s.dev.rings.fills = true →
      Completes (.ringDelete c) s fun e => AceWritten c 0 r.consumed.toNat 0 s.dev e ∧
        tblFind e.rings.fills id = none ∧ e.rings.comps = s.dev.rings.comps ∧ e.rings.drains = s.dev.rings.drains) ∧
    (∀ r, bitsOf c.flags.toNat 0 2 = 2 → tblFind s.dev.rings.drains id = some r →
      tblSorted s.dev.rings.drains = true →
      Completes (.ringDelete c) s fun e => AceWritten c 0 r.consumed.toNat 0 s.dev e ∧
        tblFind e.rings.drains id = none ∧ e.rings.comps = s.dev.rings.comps ∧ e.rings.fills = s.dev.rings.fills)

/-- SEAL with programs to wait for writes the wear counters, raises its fence, queues a program for every near-only
segment of a PERSISTENT queue that is not being programmed already and runs on; with the queue state already sealed and no
change since, it completes at once with the bucket level; with the deep tier exhausted it fails, and beside a conflicting
command it ends with BUSY. -/
def Obligations.SealFencesAndProgramsNearOnlySegments : Prop :=
  ∀ (s : State) (c : AdmCmd) (tag : Nat), Takes 0x30 c tag s.dev →
    (AceRoom s.dev → busyNow s.dev = true → Completes (.sealCmd c) s fun e =>
      AceWritten c 0x08 0 0 s.dev e ∧ HostOnly s.dev e) ∧
    (AceRoom s.dev → busyNow s.dev = false → s.dev.tier.exhausted = true → Completes (.sealCmd c) s fun e =>
      AceWritten c 0x48 0 (int32 (levelKib s.dev.tier.level)) s.dev e ∧ HostOnly s.dev e) ∧
    (busyNow s.dev = false → s.dev.tier.exhausted = false →
      s.dev.epoch.cfgChanged = false → journalSealed s.dev = false → sealWork s.dev ≠ [] →
      Completes (.sealCmd c) s fun e => RunsOn 0x30 c .sealing s.dev e ∧ e.epoch.sealFence = true ∧
        e.tier.sealRun = some { left := (sealWork s.dev).map fun x => (x.1, x.2.pos) } ∧
        (∀ x ∈ sealWork s.dev, inFlight x.2.prog = false → ∃ p ∈ e.tier.progQ, p.what = .seal x.1 x.2.pos) ∧
        e.tier.wearCopy = some e.tier.wear ∧ e.out = s.dev.out) ∧
    (busyNow s.dev = false → s.dev.tier.exhausted = false →
      s.dev.epoch.cfgChanged = false → journalSealed s.dev = true → AceRoom s.dev →
      Completes (.sealCmd c) s fun e =>
        AceWritten c 0 0 (int32 (levelKib s.dev.tier.level)) s.dev e ∧ HostOnly s.dev e)

/-- KEY_LOAD names the first check of R537 that fails, in its order, and changes nothing; a key that passes every check is
installed in an empty slot or in one that nothing uses, or held pending at a slot in use, under the next generation.
KEY_INSTALL_PENDING installs a pending key once nothing uses the old one. The IVs of the key record are free (log entry
3). -/
def Obligations.KeyLoadInstallsOrHoldsTheKey : Prop :=
  (∀ (s : State) (c : AdmCmd) (buf : Bytes) (tag slot : Nat) (k : KeySlot),
    slot = bitsOf c.arg0.toNat 0 4 → k = slotOf s.dev slot → Takes 0x40 c tag s.dev → AceRoom s.dev →
    let refused (code : Nat) (e : Dev) : Prop := AceWritten c code 0 0 s.dev e ∧ HostOnly s.dev e
    (slot < 2 → Completes (.keyLoad c buf) s (refused 0x80)) ∧
    (2 ≤ slot → wrapOk c buf = false → Completes (.keyLoad c buf) s (refused 0x82)) ∧
    (2 ≤ slot → wrapOk c buf = true → leAt buf 6 2 ≠ k.counter → Completes (.keyLoad c buf) s (refused 0x84)) ∧
    (2 ≤ slot → wrapOk c buf = true → leAt buf 6 2 = k.counter → tblWf {} s.dev.keys.slots = true →
      (k.installed = none → k.pending = none) →
      Completes (.keyLoad c buf) s fun e => match unwrapKey s.dev slot k.counter buf with
        | none => refused 0x81 e
        | some key =>
          if sliceBytes key 0 32 = sliceBytes key 32 32 then refused 0x82 e
          else if keyStoreOk s.dev = false then refused 0x85 e
          else AceWritten c 0 (nextGen k.counter) 0 s.dev e ∧
            HostOnly { s.dev with keys := e.keys, tier := e.tier, free := e.free } e ∧
            slotOf e slot = (if k.installed = none ∨ (useCount s.dev slot = 0 ∧ s.dev.epoch.eraseFence ≠ some slot)
              then { installed := some { key, gen := nextGen k.counter, persist := bitOf c.flags.toNat 0 }
                     counter := nextGen k.counter }
              else { installed := k.installed
                     pending := some { key, gen := nextGen k.counter, persist := bitOf c.flags.toNat 0 }
                     counter := nextGen k.counter }) ∧
            ∀ j, j ≠ slot → slotOf e j = slotOf s.dev j)) ∧
  (∀ (s : State) (slot : BitVec 4) (p : KeyVal), tblWf {} s.dev.keys.slots = true →
    (slotOf s.dev slot.toNat).pending = some p → useCount s.dev slot.toNat = 0 →
    s.dev.epoch.eraseFence ≠ some slot.toNat →
    Completes (.keyInstallPending slot) s fun e =>
      slotOf e slot.toNat = { slotOf s.dev slot.toNat with installed := some p, pending := none } ∧
      (∀ j, j ≠ slot.toNat → slotOf e j = slotOf s.dev j) ∧
      e = { s.dev with keys := e.keys, tier := e.tier, free := e.free })

/-- KEY_ERASE of an installed key raises its fence and waits for the first copy of the key record; of an empty slot it
completes at once with the count of bound queues, of a slot below 2 it fails, beside a conflicting command it ends with
BUSY. At that instant KEY_ERASE_EFFECT clears the slot's keys, keeps the generation counter and lowers the fence. -/
def Obligations.KeyEraseFencesAndItsEffectClearsTheSlot : Prop :=
  (∀ (s : State) (c : AdmCmd) (tag slot : Nat), slot = bitsOf c.arg0.toNat 0 4 → Takes 0x41 c tag s.dev →
    (busyNow s.dev = false → 2 ≤ slot → (slotOf s.dev slot).installed.isSome = true → keyStoreOk s.dev = true →
      Completes (.keyErase c) s fun e => RunsOn 0x41 c (.erase slot) s.dev e ∧ e.epoch.eraseFence = some slot ∧
        e.keys = s.dev.keys) ∧
    (AceRoom s.dev →
      let ends (code r0 : Nat) (e : Dev) : Prop := AceWritten c code r0 0 s.dev e ∧ HostOnly s.dev e
      (busyNow s.dev = true → Completes (.keyErase c) s (ends 0x08 0)) ∧
      (busyNow s.dev = false → slot < 2 → Completes (.keyErase c) s (ends 0x80 0)) ∧
      (busyNow s.dev = false → 2 ≤ slot → (slotOf s.dev slot).installed = none →
        Completes (.keyErase c) s (ends 0 (boundCount s.dev slot))))) ∧
  (∀ (s : State) (slot : Nat), s.dev.epoch.eraseFence = some slot → s.dev.epoch.allFence = false →
    s.dev.pwr.standby = false → tblWf {} s.dev.keys.slots = true →
    Completes .keyEraseEffect s fun e =>
      slotOf e slot = { counter := (slotOf s.dev slot).counter } ∧ e.epoch.eraseFence = none ∧
      ∀ j, j ≠ slot → slotOf e j = slotOf s.dev j)

/-- PEER_FIRMWARE starts the first pass toward the absent nodes it names, one IMG flit for each 7 bytes while CAS_CTL.EN
is 1, and completes at once when it names none; the wait after a pass ends in the JOIN flit, the wait for beacons in a
further pass, and after the third in the end of the command with the count of the nodes that are present. -/
def Obligations.FirmwareRelayMakesItsPasses : Prop :=
  (∀ (s : State) (c : AdmCmd) (image : Bytes) (tag mask : Nat), Takes 0x61 c tag s.dev →
    mask = ([1, 2, 3].filter fun n => c.arg0.getLsbD n && !isPresent s.dev n).foldl (fun m n => m + 2 ^ n) 0 →
    (mask = 0 → AceRoom s.dev → Completes (.peerFirmware c image) s fun e =>
      AceWritten c 0 0 0 s.dev e ∧ HostOnly s.dev e) ∧
    (mask ≠ 0 → image.length = c.len.toNat →
      Completes (.peerFirmware c image) s fun e => RunsOn 0x61 c .relayFw s.dev e ∧
        e.out = s.dev.out ++ (if s.dev.regs.casEn then (List.range ((image.length + 6) / 7)).map (fun k =>
          OutMsg.flit 11 0 0 0 0 false (imgPayload k (sliceBytes image (7 * k) 7))) else []) ∧
        e.cas.relayPasses = 1 ∧ e.cas.relayMask = BitVec.ofNat 4 mask ∧ e.cas.relayImage = image ∧
        timerOn e .relayPass = true)) ∧
  (∀ s : State, fwExec s.dev = true → timerDue s.dev .relayPass 20000 = true →
    Completes .relayPassWaitExpiry s fun e =>
      e.out = s.dev.out ++ (if ownNode s.dev = 0 ∧ s.dev.regs.casEn = false then []
        else [OutMsg.flit 12 0 0 0 0 false (natLe 1 (relayMissing s.dev))]) ∧
      timerOn e .relayPass = false ∧ timerOn e .relayBeacon = true ∧
      e = { s.dev with out := e.out, tb := e.tb }) ∧
  (∀ s : State, fwExec s.dev = true → timerDue s.dev .relayBeacon 10000 = true → s.dev.cas.relayPasses < 3 →
    Completes .relayBeaconWaitExpiry s fun e => e.cas.relayPasses = s.dev.cas.relayPasses + 1 ∧
      timerOn e .relayPass = true ∧ timerOn e .relayBeacon = false ∧ e.adm = s.dev.adm) ∧
  (∀ (s : State) (r : AdmRun), fwExec s.dev = true → timerDue s.dev .relayBeacon 10000 = true →
    3 ≤ s.dev.cas.relayPasses → s.dev.adm.run = some r → r.kind = .relayFw → r.origin = .host → AceRoom s.dev →
    Completes .relayBeaconWaitExpiry s fun e => e.cas.relayPasses = 0 ∧ e.cas.relayImage = [] ∧
      RunEnds r 0x76 ([1, 2, 3].filter fun n => s.dev.cas.relayMask.getLsbD n && isPresent s.dev n).length 0 s.dev e)

/-- An opcode that R274 does not list has the one effect that R273 gives it: it completes with INVALID_OPCODE. A command for another node
waits for its RSP, and its CMD unit goes out at once when the window has room; it fails at once with PEER_LOST when that
node is not present. A peer executes a relayed command as its own, with the body of its opcode, and answers it when the
body ends; the answer completes the host's command with its status, results and record. -/
def Obligations.OtherOpcodesAndOtherNodes : Prop :=
  (∀ (s : State) (op : BitVec 8) (c : AdmCmd) (tag : Nat), op.toNat ∉ opcodes →
    s.dev.adm.fetch = some tag → fwExec s.dev = true → ownNode s.dev = 0 → AceRoom s.dev →
    Completes (.invalidOpcode op c) s fun e => AceWritten c 0x01 0 0 s.dev e ∧ HostOnly s.dev e) ∧
  (∀ (s : State) (op : BitVec 8) (c : AdmCmd) (buf : Bytes) (tag n : Nat), op.toNat ∈ opcodes →
    s.dev.adm.fetch = some tag → fwExec s.dev = true → cmdShape c = true → targetNode op.toNat c = some n →
    n ≠ ownNode s.dev →
    ((tblGet {} s.dev.cas.peers n).st ≠ .present → AceRoom s.dev →
      Completes (.relayedAdminCommand op c buf) s fun e => AceWritten c 0x71 0 0 s.dev e ∧ HostOnly s.dev e) ∧
    ((tblGet {} s.dev.cas.peers n).st = .present →
      Completes (.relayedAdminCommand op c buf) s fun e =>
        RunsOn op.toNat c (.relay n (s.dev.cas.nextTag % 65536) false) s.dev e ∧
        e.cas.nextTag = s.dev.cas.nextTag % 65536 + 1 ∧ e.queues = s.dev.queues ∧ e.stage = s.dev.stage ∧
        (s.dev.cas.up = true → (tblGet {} s.dev.cas.peers n).waiting = [] → (tblGet {} s.dev.cas.peers n).unacked = [] →
          ∃ ack crd, OutMsg.flit 9 n (tblGet {} s.dev.cas.peers n).txSeq ack crd true
            (cmdPayload (s.dev.cas.nextTag % 65536) false (cmdBytes op.toNat c ++ buf)) ∈ e.out))) ∧
  (∀ (s : State) (h : FlitHdr) (p : CmdPl) (src : Nat) (r : AdmRun), src = h.src.toNat → InTurn h s.dev →
    p.abandon = false → s.dev.adm.run = none →
    r = { opcode := p.opcode.toNat, cid := p.cmd.cid, addr := p.cmd.addr.toNat, len := p.cmd.len.toNat
          origin := .ring src p.tag.toNat, kind := .commit } →
    let ran := relayedBody p.opcode.toNat p.cmd p.buf p.peerEw r (accepted h (cmdUnitBytes p) s.dev)
    (ran.2 = none → Completes (.cmd h p) s fun e => e = govTrack (standbyCheck ran.1)) ∧
    (∀ res, ran.2 = some res → Completes (.cmd h p) s fun e => e = govTrack (standbyCheck
      (answerRing p.opcode.toNat src p.tag.toNat res (stopTimer .admin (logOutcome r res ran.1))))) ∧
    (p.opcode.toNat ∉ opcodes → ran = (accepted h (cmdUnitBytes p) s.dev, some (failWith 0x01)))) ∧
  (∀ (s : State) (h : FlitHdr) (p : RspPl) (r : AdmRun) (ab : Bool), InTurn h s.dev → AceRoom s.dev →
    s.dev.adm.run = some r → r.kind = .relay h.src.toNat p.tag.toNat ab → r.origin = .host →
    Completes (.rsp h p) s fun e => RunEnds r p.status.toNat p.result0.toNat p.result1.toNat s.dev e ∧
      (p.record ≠ [] → RecordWritten r.addr p.record s.dev e) ∧
      e.queues = s.dev.queues ∧ e.tier = s.dev.tier ∧ e.stage = s.dev.stage)

/-- HIF_ADMIN_TIMEOUT abandons the host's command in execution with TIMEOUT: the request of one that waits for a round is
taken back from the queue, and the fence of a commit before its instant goes down. SEAL and PEER_FIRMWARE, which it does not
time, go on. A command still being read completes too (the model's reading of R278, log entry 28). -/
def Obligations.AdminTimeoutAbandonsTheCommand : Prop :=
  (∀ (s : State) (r : AdmRun) (qid : Nat), timerDue s.dev .admin s.dev.regs.adminTimeout = true →
    s.dev.adm.run = some r → r.origin = .host → r.kind = .round qid → AceRoom s.dev → tblWf {} s.dev.queues = true →
    Completes .adminTimeout s fun e => RunEnds r 0x07 0 0 s.dev e ∧
      queueOf e qid = { queueOf s.dev qid with ctl := unlatch (queueOf s.dev qid).ctl } ∧
      (∀ j, j ≠ qid → queueOf e j = queueOf s.dev j) ∧ HostOnly { s.dev with queues := e.queues } e) ∧
  (∀ (s : State) (r : AdmRun), timerDue s.dev .admin s.dev.regs.adminTimeout = true →
    s.dev.adm.run = some r → r.origin = .host → r.kind = .commit → AceRoom s.dev →
    Completes .adminTimeout s fun e => RunEnds r 0x07 0 0 s.dev e ∧ HostOnly { s.dev with
      epoch.fence := false, epoch.fenced := [], epoch.fencedPorts := [], epoch.fencedRings := []
      epoch.taken := none, epoch.during := {} } e) ∧
  (∀ (s : State) (r : AdmRun), s.dev.adm.run = some r → (r.kind = .sealing ∨ r.kind = .relayFw) →
    Completes .adminTimeout s fun e => e = s.dev) ∧
  (∀ (s : State) (tag : Nat), timerDue s.dev .admin s.dev.regs.adminTimeout = true →
    s.dev.adm.run = none → s.dev.adm.fetch = some tag → AceRoom s.dev →
    Completes .adminTimeout s fun e => e.adm.run = none ∧ e.adm.written = s.dev.adm.written + 1 ∧
      e.adm.fetched = s.dev.adm.fetched + 1 ∧ HostOnly { s.dev with free := e.free } e)

/-! ### Enables and the count mirror -/

/-- A write of 1 to HIF_ADM_EN latches the ring pair, or sets CFG_ERR when a size is out of range; a write of 0 stops
fetching. HIF_MIRROR_EN takes its value; when both enables become 1, all 4096 entries are written, or are owed while R198
forbids it. MIRROR_HOLD_EXPIRY writes the held entry of a queue as its last round left it, with the next sequence byte,
unless that is what was written last; nothing else of the queue changes. -/
def Obligations.AdminAndMirrorEnables : Prop :=
  (∀ s : State, hostReach s.dev = true → s.dev.adm.en = false →
    4 ≤ s.dev.regs.sqLog2 → s.dev.regs.sqLog2 ≤ 16 → 4 ≤ s.dev.regs.cqLog2 → s.dev.regs.cqLog2 ≤ 16 →
    Completes .adminEnable s fun e =>
      e.adm = { s.dev.adm with
        en := true, halted := false, cfgErr := false, sqBase := pageOf s.dev.regs.sqBase
        cqBase := pageOf s.dev.regs.cqBase, sqLog2 := s.dev.regs.sqLog2, cqLog2 := s.dev.regs.cqLog2
        gen := s.dev.regs.admGen, dbBase := pageOf s.dev.regs.dbBase, mirrorBase := pageOf s.dev.regs.mirrorBase
        tail := 0, head := 0, fetched := 0, written := 0, phase := true
        mirrorOwed := if s.dev.regs.mirrorEn then !dmaAllowed s.dev else s.dev.adm.mirrorOwed } ∧
      (s.dev.regs.mirrorEn = false → e = { s.dev with adm := e.adm, tb := e.tb, sweep := e.sweep })) ∧
  (∀ s : State, hostReach s.dev = true → s.dev.adm.en = false →
    (s.dev.regs.sqLog2 < 4 ∨ 16 < s.dev.regs.sqLog2 ∨ s.dev.regs.cqLog2 < 4 ∨ 16 < s.dev.regs.cqLog2) →
    Completes .adminEnable s fun e => e = { s.dev with adm.cfgErr := true }) ∧
  (∀ s : State, hostReach s.dev = true →
    Completes .adminDisable s fun e => e.adm =
        { s.dev.adm with en := false, halted := false, fetch := none, mirrorOwed := false } ∧
      e = { s.dev with adm := e.adm, link.reads := e.link.reads, tb.timers := e.tb.timers }) ∧
  (∀ s : State, hostReach s.dev = true →
    Completes (.hifMirrorEnWrite false) s fun e =>
      e = { s.dev with regs.mirrorEn := false, adm.mirrorOwed := false }) ∧
  (∀ s : State, hostReach s.dev = true → s.dev.adm.en = false ∨ s.dev.regs.mirrorEn = true →
    Completes (.hifMirrorEnWrite true) s fun e => e = { s.dev with regs.mirrorEn := true }) ∧
  (∀ s : State, hostReach s.dev = true → s.dev.adm.en = true → s.dev.regs.mirrorEn = false →
    (dmaAllowed s.dev = false → Completes (.hifMirrorEnWrite true) s fun e =>
      e = { s.dev with regs.mirrorEn := true, adm.mirrorOwed := true }) ∧
    (canIssue s.dev = true → 16 ≤ s.dev.link.mps → s.dev.adm.mirrorBase % 4096 = 0 → tblWf {} s.dev.queues = true →
      Completes (.hifMirrorEnWrite true) s fun e => e.regs = { s.dev.regs with mirrorEn := true } ∧
        ∀ qid, qid < 4096 → OutMsg.memWrite (s.dev.adm.mirrorBase + 16 * qid)
          (mirrorBytes ((queueOf s.dev qid).mirrorSeq + 1) (queueOf s.dev qid).eor) false ∈ e.out)) ∧
  (∀ (s : State) (qid : BitVec 12), (queueOf s.dev qid.toNat).mirrorHeld = true →
      timerDue s.dev (.mirror qid.toNat) s.dev.regs.mirrorHold = true → mirrorOn s.dev = true → canIssue s.dev = true →
      16 ≤ s.dev.link.mps → s.dev.adm.mirrorBase % 4096 = 0 → tblWf {} s.dev.queues = true →
      Completes (.mirrorHoldExpiry qid) s fun e =>
        let q := queueOf s.dev qid.toNat
        (q.eor ≠ q.mirror → OutMsg.memWrite (s.dev.adm.mirrorBase + 16 * qid.toNat)
          (mirrorBytes (q.mirrorSeq + 1) q.eor) false ∈ e.out) ∧
        (q.eor = q.mirror → e.out = s.dev.out) ∧
        queueOf e qid.toNat = { q with
          mirror := q.eor, mirrorHeld := false
          mirrorSeq := if q.eor = q.mirror then q.mirrorSeq else q.mirrorSeq + 1 } ∧
        (∀ j, j ≠ qid.toNat → queueOf e j = queueOf s.dev j) ∧ HostOnly { s.dev with queues := e.queues } e)


/-! ### PACE and the time base -/

/-- A write of PWR_PACE, PWR_GOV_EN or the PACE range stores its value and, when no step is in progress and the level in
use is not where the settings want it, starts one step toward there; the level in use stays until VCORE has
settled. A write of the governor's windows stores them. PACE_STEP_SETTLED moves the level in use to the step's, and VCORE to
that level's. Under
the governor, a backlog that has lasted PWR_GOV_UP ticks starts one step up below the ceiling, and no backlog for
PWR_GOV_DOWN ticks one step down above the floor. -/
def Obligations.PaceMovesOneStepTowardItsGoal : Prop :=
  let stepped (p : Pwr) : Pwr :=
    { p with stepTo := if p.stepTo.isSome || paceGoal p = p.paceNow then p.stepTo
                       else some (if p.paceNow < paceGoal p then p.paceNow + 1 else p.paceNow - 1) }
  let onlyPace (d e : Dev) : Prop := e = { d with pwr := e.pwr, tb.timers := e.tb.timers }
  (∀ (s : State) (v : BitVec 3), hostReach s.dev = true → Completes (.pwrPaceWrite v) s fun e =>
    e.pwr = stepped { s.dev.pwr with pace := v.toNat } ∧ onlyPace s.dev e) ∧
  (∀ (s : State) (v : Bool), hostReach s.dev = true → Completes (.pwrGovEnWrite v) s fun e =>
    e.pwr = stepped { s.dev.pwr with govEn := v } ∧ onlyPace s.dev e) ∧
  (∀ (s : State) (lo hi : BitVec 3), hostReach s.dev = true → Completes (.pwrPaceRangeWrite lo hi) s fun e =>
    e.pwr = stepped { s.dev.pwr with paceMin := lo.toNat, paceMax := hi.toNat } ∧ onlyPace s.dev e) ∧
  (∀ (s : State) (up down : BitVec 16), hostReach s.dev = true → Completes (.pwrGovWindowWrite up down) s fun e =>
    e = { s.dev with pwr.govUp := max 1 up.toNat, pwr.govDown := max 1 down.toNat }) ∧
  (∀ (s : State) (n : Nat), s.dev.pwr.stepTo = some n → Completes .paceStepSettled s fun e =>
    e.pwr = stepped { s.dev.pwr with paceNow := n, vcore := vcoreOf n, stepTo := none } ∧ onlyPace s.dev e) ∧
  (∀ s : State, s.dev.pwr.govEn = true → backlog s.dev = true → timerDue s.dev .govUp s.dev.pwr.govUp = true →
    s.dev.pwr.stepTo = none → s.dev.pwr.paceNow < s.dev.pwr.paceMax →
    Completes .govUpWindowExpiry s fun e => e.pwr = { s.dev.pwr with stepTo := some (s.dev.pwr.paceNow + 1) } ∧
      e = { s.dev with pwr := e.pwr, tb.timers := e.tb.timers }) ∧
  (∀ s : State, s.dev.pwr.govEn = true → backlog s.dev = false → timerDue s.dev .govDown s.dev.pwr.govDown = true →
    s.dev.pwr.stepTo = none → s.dev.pwr.paceMin < s.dev.pwr.paceNow →
    Completes .govDownWindowExpiry s fun e => e.pwr = { s.dev.pwr with stepTo := some (s.dev.pwr.paceNow - 1) } ∧
      e = { s.dev with pwr := e.pwr, tb.timers := e.tb.timers })

/-- A read of TB_NOW_LO returns bits [31:0] of the time base, and TB_NOW_HI returns bits [47:32] of that capture,
whatever commands the time base sees until the next one. SLOWCLK's presence and loss switch the discipline of the
time base, and a restarted tick oscillator continues it from the value it then holds; none of them moves it. -/
def Obligations.TimeCaptureIsOneValue : Prop :=
  let onlyClock (d e : Dev) : Prop := e = { d with tb := e.tb } ∧ e.tb.now = d.tb.now
  ((∀ s : State, hostReach s.dev = true → Completes .tbNowCapture s fun e =>
      e.out = s.dev.out ++ [.regRead 0x0090 (BitVec.ofNat 32 (ticks s.dev))] ∧
      readReg e 0x0094 = ticks s.dev / 2 ^ 32 ∧
      e = { s.dev with out := e.out, tb.capHi := e.tb.capHi }) ∧
    (∀ (s t : State) (c : Instr), (c = .slowclkPresent ∨ c = .slowclkLost ∨ c = .tickOscRestarted) →
      exec c s = .next t → readReg t.dev 0x0094 = readReg s.dev 0x0094) ∧
    (∀ (s t : State), s.pending = [] → step s = .next t → readReg t.dev 0x0094 = readReg s.dev 0x0094)) ∧
  ((∀ s : State, s.dev.pwr.vin = true → Completes .slowclkPresent s fun e =>
      e.tb.slowclk = true ∧ e.tb.tickRun = (s.dev.tb.tickRun && !(listening s.dev || s.dev.pwr.standby)) ∧
      e.tb.discipline = e.tb.tickRun ∧ e.tb.timers = s.dev.tb.timers ∧ onlyClock s.dev e) ∧
    (∀ s : State, s.dev.pwr.vin = true → Completes .slowclkLost s fun e =>
      e = { s.dev with tb.slowclk := false, tb.discipline := false, tb.win := none, tb.osc := none, tb.oscFrac := 0 }) ∧
    (∀ s : State, awake s.dev = true → s.dev.tb.tickRun = false → (s.dev.tb.slowclk && listening s.dev) = false →
      Completes .tickOscRestarted s fun e =>
        e.tb.tickRun = true ∧ (∀ t ∈ e.tb.timers, t.start ≠ none) ∧ onlyClock s.dev e))

/-! ### Power and boot -/

/-- The device enters OFF when VIN falls, from any state, keeping only what is stored for good, and leaves OFF only by
POR: in OFF every step but one that runs
POR leaves a device in OFF; and apart from the levels at its balls, and what passes the conducting switches of its
through-paths and of the cascade ring, nothing of it changes. -/
def Obligations.OffIsLeftOnlyByPor : Prop :=
  (∀ s : State, s.dev.pwr.vin = true → Completes .vinLoss s fun e => Off e = true ∧
    e.tier.deep = s.dev.tier.deep ∧ e.tier.cells = s.dev.tier.cells ∧ e.tier.wear = s.dev.tier.wear ∧
    e.tier.image = s.dev.tier.image ∧ e.keys.recA = s.dev.keys.recA ∧ e.keys.recB = s.dev.keys.recB ∧
    e.keys.slots = [] ∧ e.queues = [] ∧ e.out = s.dev.out) ∧
  (∀ s t : State, Off s.dev = true → step s = .next t →
    (∀ n t0 t1 c0 c1 rest, s.pending ≠ .por n t0 t1 c0 c1 :: rest) →
    Off t.dev = true ∧
    ∃ (perst perstLink clkreq wake b0 b1 : Bool) (beats : List OutMsg),
      (∀ m ∈ beats, (∃ n en v eop tag, m = .through n en v eop tag) ∨ (∃ n asserted, m = .throughHold n asserted) ∨
        ∃ type src dst seq payload, m = .forward type src dst seq payload) ∧ t.dev = { s.dev with
        pwr.perst := perst, pwr.perstLink := perstLink, link.clkreq := clkreq, link.wakePin := wake
        ports.p0.ball := b0, ports.p1.ball := b1, out := s.dev.out ++ beats }) ∧
  (∀ (s : State) (n : BitVec 2) (t0 t1 c0 c1 : Bool), Completes (.por n t0 t1 c0 c1) s fun e => Off e = false)

/-- POR makes a cold boot: the setup registers at their reset values, the strap balls sampled, the node number taken,
BOOT_STATUS HOLD while PERST# is asserted; else FAILED when BIST fails both cores, ROM on node 0, WAIT_IMAGE on a peer; the
non-volatile stores stay. A write of 0xA5 to PWR_SOFT_RESET is a reset of DEVICE scope that keeps the link and boots from
step 3; any other value is ignored. -/
def Obligations.PorAndSoftResetBoot : Prop :=
  (∀ (s : State) (n : BitVec 2) (t0 t1 c0 c1 : Bool), Completes (.por n t0 t1 c0 c1) s fun e =>
    e.boot.status = (if s.dev.pwr.perst then .hold else if c0 && c1 then .failed
      else if n = 0 then .rom else .waitImage) ∧
    e.pwr = { perst := s.dev.pwr.perst } ∧ e.regs = {} ∧ e.cas.node = n ∧
    e.ports.p0.strap = t0 ∧ e.ports.p1.strap = t1 ∧ e.queues = [] ∧ e.rings = {} ∧ e.tb.now = 0 ∧
    e.tier.deep = s.dev.tier.deep ∧ e.tier.cells = s.dev.tier.cells ∧ e.tier.wear = s.dev.tier.wear) ∧
  (∀ (s : State) (v : BitVec 8), v ≠ 0xA5 → Completes (.pwrSoftReset v) s fun e => e = s.dev) ∧
  (∀ s : State, hostReach s.dev = true → Completes (.pwrSoftReset 0xA5) s fun e =>
      e.boot.status = (if s.dev.rep.core0Fail && s.dev.rep.core1Fail then .failed else .waitImage) ∧ e.queues = [] ∧ e.link.up = true ∧
      e.tier.deep = s.dev.tier.deep ∧ e.tier.cells = s.dev.tier.cells ∧ e.tier.wear = s.dev.tier.wear ∧
      e.fuse.otpLock = e.fuse.otpLock ||| s.dev.fuse.otpLock ∧
      e.pwr.pace = 5)

/-- A falling edge of PERST# resets the host interface alone when HIF_PERST_SCOPE is LINK and firmware runs: the boot goes
on as it was and PME_En stays; queues, tiers and keys stay too where no ring and no admin command has work to take back.
Otherwise the device is reset and its boot holds; with a STANDBY request pending it enters STANDBY. A rising edge leaves
STANDBY, resumes a held boot, or trains the link of a device that runs. -/
def Obligations.PerstResetsByItsScope : Prop :=
  let booted (d : Dev) : BootStatus :=
    if d.rep.core0Fail && d.rep.core1Fail then .failed else if d.link.up || ownNode d ≠ 0 then .waitImage else .rom
  (∀ s : State, s.dev.pwr.perst = false → awake s.dev = true → s.dev.pwr.standbyPend = false →
    fwRunning s.dev = true → s.dev.regs.perstLink = true →
    Completes .perstAssert s fun e => e.pwr.perst = true ∧ e.pwr.perstLink = true ∧ e.link.up = false ∧
      e.adm.en = false ∧ e.boot = s.dev.boot ∧ e.rings = {} ∧ e.link.pmeEn = s.dev.link.pmeEn ∧
      (s.dev.rings = {} → s.dev.adm.run = none →
        e.queues = s.dev.queues ∧ e.tier = s.dev.tier ∧ e.keys = s.dev.keys)) ∧
  (∀ s : State, s.dev.pwr.perst = false → awake s.dev = true → s.dev.pwr.standbyPend = false →
    (fwRunning s.dev && s.dev.regs.perstLink) = false →
    Completes .perstAssert s fun e => e.boot.status = .hold ∧ e.pwr = { perst := true } ∧ e.regs = {} ∧
      e.queues = [] ∧ e.rings = {} ∧ e.link.up = false ∧ e.tier.deep = s.dev.tier.deep ∧
      e.tier.cells = s.dev.tier.cells) ∧
  (∀ s : State, s.dev.pwr.perst = false → awake s.dev = true → s.dev.pwr.standbyPend = true →
    Completes .perstAssert s fun e => e.pwr.standby = true ∧ e.pwr.perst = true ∧ e.tb.tickRun = false ∧
      e.boot.status = .powerUp ∧ e.queues = [] ∧ e.tier.deep = s.dev.tier.deep ∧ e.keys.recA = s.dev.keys.recA) ∧
  (∀ s : State, s.dev.pwr.perst = true → s.dev.pwr.vin = true →
    (s.dev.pwr.standby = true ∨ s.dev.boot.status = .hold) →
    Completes .perstDeassert s fun e => e.pwr.perst = false ∧ e.pwr.standby = false ∧
      e.boot.status = booted s.dev ∧ (booted s.dev = .rom → e.link.training = true)) ∧
  (∀ s : State, s.dev.pwr.perst = true → awake s.dev = true → s.dev.boot.status ≠ .hold →
    Completes .perstDeassert s fun e => e.pwr.perst = false ∧ e.pwr.perstLink = false ∧ e.boot = s.dev.boot ∧
      e.link.training = !s.dev.link.up ∧ e.queues = s.dev.queues)

/-- The link that reaches L0 during boot opens the mailbox: BOOT_STATUS reads WAIT_IMAGE. The download: BAR2 stores bytes
while the mailbox is open, LOAD_CHUNK of a proper chunk starts a copy and of any other is refused with FW_FORMAT, the copy
appends the chunk to the image, START verifies, RESTART after a failed image returns to WAIT_IMAGE; a command that meets
BUSY is held. -/
def Obligations.FirmwareDownloadCommands : Prop :=
  (∀ (s : State) (rate : LinkRate) (two : Bool), s.dev.link.training = true → s.dev.pwr.perst = false →
    awake s.dev = true →
      Completes (.linkUp ⟨rate, two⟩) s fun e => e.link.up = true ∧ e.link.training = false ∧ e.link.lstate = .l0 ∧
        e.link.rate = rate ∧ e.link.twoLanes = two ∧
        (s.dev.boot.status = .rom → e.boot.status = .waitImage ∧ e.boot.buf = []) ∧
        (s.dev.boot.status ≠ .rom → e.boot = s.dev.boot)) ∧
  (∀ (s : State) (off : BitVec 16) (data : Bytes), hostReach s.dev = true → mailbox s.dev = true →
    s.dev.boot.busy = false → off.toNat + data.length ≤ 65536 → tblWf 0 s.dev.boot.buf = true →
    Completes (.bar2Write off data) s fun e => e = { s.dev with boot.buf := e.boot.buf } ∧
      (∀ (i : Nat) (hi : i < data.length), tblGet 0 e.boot.buf (off.toNat + i) = data[i]) ∧
      ∀ a, (a < off.toNat ∨ off.toNat + data.length ≤ a) → tblGet 0 e.boot.buf a = tblGet 0 s.dev.boot.buf a) ∧
  (∀ s : State, hostReach s.dev = true → mailbox s.dev = true → bootBusy s.dev = false →
    Completes .bootLoadChunk s fun e =>
      e = if chunkOk s.dev then { s.dev with boot.busy := true } else { s.dev with boot.err := 0x93 }) ∧
  (∀ s : State, s.dev.boot.busy = true → s.dev.jtag.halted = false → s.dev.boot.held = 0 →
    tblWf 0 s.dev.boot.image = true →
    Completes .chunkCopyDone s fun e => e.boot.status = .loading ∧ e.boot.busy = false ∧
      e.boot.loaded = s.dev.boot.loaded + s.dev.boot.len ∧
      (∀ i < s.dev.boot.len, tblGet 0 e.boot.image (s.dev.boot.loaded + i) = tblGet 0 s.dev.boot.buf i) ∧
      ∀ a < s.dev.boot.loaded, tblGet 0 e.boot.image a = tblGet 0 s.dev.boot.image a) ∧
  (∀ s : State, hostReach s.dev = true → mailbox s.dev = true → s.dev.boot.busy = false →
    Completes .bootStart s fun e => e.boot = { s.dev.boot with status := .verifying }) ∧
  (∀ s : State, hostReach s.dev = true → s.dev.boot.status = .failed → s.dev.boot.err ≠ 0x96 →
    bootBusy s.dev = false →
    Completes .bootRestart s fun e =>
      e.boot = { s.dev.boot with status := .waitImage, loaded := 0, image := [] }) ∧
  (∀ s : State, hostReach s.dev = true → bootBusy s.dev = true →
    Completes .bootLoadChunk s (fun e => e = { s.dev with boot.held := 1 }) ∧
    Completes .bootStart s (fun e => e = { s.dev with boot.held := 2 }) ∧
    Completes .bootRestart s fun e => e = { s.dev with boot.held := 3 })

/-- IMAGE_VERIFIED ends a verification: with the code of the first check that fails in the order format, key, signature,
in FAILED; on node 0 with firmware running and the measurement recorded when every check holds. -/
def Obligations.ImageVerifiedFailsOrStartsTheFirmware : Prop :=
  ∀ (s : State) (lost : Unread), s.dev.boot.status = .verifying → s.dev.jtag.halted = false →
    Completes (.imageVerified lost) s fun e => match imageFault s.dev with
      | some code => s.dev.boot.held = 0 →
        e.boot = { s.dev.boot with status := .failed, err := BitVec.ofNat 8 code, held := 0 } ∧
        e.queues = s.dev.queues ∧ e.keys = s.dev.keys
      | none =>
        if ownNode s.dev ≠ 0 then e = { s.dev with cas.verified := true }
        else e.boot.status = .fwRunning ∧ e.boot.measured = some (imageHash s.dev) ∧
          e.boot.fwVersion = BitVec.ofNat 32 (imgField s.dev 8 4) ∧ (lost.keys = true → e.keys.slots = [])

/-- A handshake that waits too long on a lane of a group without a retired lane is recorded as WEAVE_LANE and pends for
retirement; the watchdog reset follows where REPAIR_WDOG_RST allows it, and the lane pends through it. In a group that
has a retired lane already it is a fatal condition. -/
def Obligations.LaneStallPendsOrIsFatal : Prop :=
  (∀ (s : State) (g : BitVec 11) (l : BitVec 3) (x : Lane), x = { group := g.toNat, lane := l.toNat } →
    awake s.dev = true → g.toNat < 1152 → (∀ y ∈ s.dev.rep.lanesFactory ++ s.dev.rep.lanesField, y.group ≠ g.toNat) →
    s.dev.rep.lanePend.length < 4 → x ∉ s.dev.rep.lanePend →
    (s.dev.regs.wdogRst = false → Completes (.weaveLaneStall g l) s fun e =>
      e.rep.lanePend = s.dev.rep.lanePend ++ [x] ∧ (fwRunning s.dev = false → e.rep = { s.dev.rep with lanePend := e.rep.lanePend }) ∧
      e.err.seq = (s.dev.err.seq + 1) % 65536 ∧ (e.err.last.map (·.code)) = some 0x49 ∧
      e.queues = s.dev.queues ∧ e.ports = s.dev.ports) ∧
    (s.dev.regs.wdogRst = true → Completes (.weaveLaneStall g l) s fun e =>
      e.rep.lanePend = s.dev.rep.lanePend ++ [x] ∧ e.queues = [] ∧ e.rings = {} ∧ e.keys.slots = [] ∧
      e.boot.status ≠ .fwRunning)) ∧
  (∀ (s : State) (g : BitVec 11) (l : BitVec 3), awake s.dev = true → g.toNat < 1152 →
    (∃ x ∈ s.dev.rep.lanesFactory ++ s.dev.rep.lanesField, x.group = g.toNat) →
    Completes (.weaveLaneStall g l) s fun e => e.err.fatal = true ∧ e.epoch.allFence = true ∧
      e.cas.switchClosed = true ∧ (e.err.last.map (·.code)) = some 0x4B)

/-! ### Fuses -/

/-- A GO of FUSE_READ, FUSE_BURN or FUSE_REDIRECT that the device takes stores its fields and leaves BUSY at 1 with the
operation under way; the array and the result registers stay until it ends.
FUSE_OP_DONE ends the operation under way: a margin read shows the bits of its mode, rows 16 to 23 read as 0 with
FUSE_LOCKED, a redirection takes the lowest free spare, or ends with FUSE_LOCKED for a locked row and with SPARE_EXHAUSTED
when no spare is free. -/
def Obligations.FuseOperationsStartAndEnd : Prop :=
  (∀ s : State, hostReach s.dev = true → fuseReady s.dev = true →
      (∀ (row : BitVec 8) (mode : BitVec 2), mode ≠ 3 → Completes (.fuseRead row mode) s fun e =>
        e = { s.dev with
          fuse.op := 0, fuse.mode := mode, fuse.row := row, fuse.busy := true, fuse.run := some (0, mode, row) }) ∧
      (∀ (row : BitVec 8) (word : BitVec 3) (os : List BurnOutcome), Completes (.fuseBurn row word os) s fun e =>
        e.fuse.busy = true ∧ (∃ b, e.fuse.burn = some b ∧ b.row = row.toNat ∧ b.word = word.toNat ∧
          (rowLocked s.dev row.toNat = true → b.code = 0x88 ∧ b.steps = [])) ∧
        e = { s.dev with
          fuse.op := 1, fuse.word := word, fuse.row := row, fuse.busy := true, fuse.burn := e.fuse.burn }) ∧
      (∀ row : BitVec 8, Completes (.fuseRedirect row) s fun e =>
        e = { s.dev with
          fuse.op := 2, fuse.row := row, fuse.busy := true, fuse.run := some (2, s.dev.fuse.mode, row) })) ∧
  (∀ s : State, s.dev.fuse.busy = true → s.dev.pwr.standby = false → s.dev.fuse.burn = none → fwExec s.dev = true →
      (∀ (mode : BitVec 2) (row : BitVec 8), s.dev.fuse.run = some (0, mode, row) → (row.toNat < 16 ∨ 23 < row.toNat) →
        Completes .fuseOpDone s fun e => e.fuse.busy = false ∧ e.fuse.code = 0 ∧
          (mode = 1 → e.fuse.data = rowLo s.dev row.toNat) ∧ (mode = 2 → e.fuse.data = rowHi s.dev row.toNat) ∧
          (mode = 0 → rowHi s.dev row.toNat &&& ~~~ rowLo s.dev row.toNat = 0 →
            e.fuse.data &&& ~~~ rowLo s.dev row.toNat = 0 ∧ rowHi s.dev row.toNat &&& ~~~ e.fuse.data = 0) ∧
          e = { s.dev with fuse := e.fuse, free := e.free }) ∧
      (∀ (mode : BitVec 2) (row : BitVec 8), s.dev.fuse.run = some (0, mode, row) → 16 ≤ row.toNat → row.toNat ≤ 23 →
        Completes .fuseOpDone s fun e => e.fuse.busy = false ∧ e.fuse.code = 0x88 ∧ e.fuse.data = 0) ∧
      (∀ (mode : BitVec 2) (row : BitVec 8) (k : Nat), s.dev.fuse.run = some (2, mode, row) →
        rowLocked s.dev row.toNat = false → k < 8 → (redirOf s.dev k).valid = false →
        (∀ j < k, (redirOf s.dev j).valid = true) →
        Completes .fuseOpDone s fun e => e.fuse.busy = false ∧ e.fuse.code = 0 ∧
          redirOf e k = { row, valid := true } ∧ ∀ j, j ≠ k → redirOf e j = redirOf s.dev j) ∧
      (∀ (mode : BitVec 2) (row : BitVec 8), s.dev.fuse.run = some (2, mode, row) →
        (rowLocked s.dev row.toNat = true → Completes .fuseOpDone s fun e =>
          e.fuse.busy = false ∧ e.fuse.code = 0x88 ∧ e.fuse.redir = s.dev.fuse.redir) ∧
        (rowLocked s.dev row.toNat = false → (∀ j < 8, (redirOf s.dev j).valid = true) →
          Completes .fuseOpDone s fun e =>
            e.fuse.busy = false ∧ e.fuse.code = 0x8B ∧ e.fuse.redir = s.dev.fuse.redir)))

/-- A burn only sets bits: when it ends, every bit that was fully burned still is, every bit that held any burn still
does, in every row of the array, and a burn that was refused sets none. OTP_LOCK bits and overrides can only be set: a
write ORs, an override of a locked region is ignored. -/
def Obligations.FusesLocksAndOverridesOnlySet : Prop :=
  (∀ (s : State) (b : BurnRun), s.dev.fuse.busy = true → s.dev.pwr.standby = false → s.dev.fuse.burn = some b →
    tblWf 0 s.dev.fuse.lo = true → tblWf 0 s.dev.fuse.hi = true →
    Completes .fuseOpDone s fun e => e.fuse.busy = false ∧ e.fuse.burn = none ∧ e.fuse.code = b.code ∧
      (∀ a, tblGet 0 s.dev.fuse.hi a &&& ~~~ tblGet 0 e.fuse.hi a = 0) ∧
      (∀ a, tblGet 0 s.dev.fuse.lo a &&& ~~~ tblGet 0 e.fuse.lo a = 0) ∧
      (b.steps = [] → e.fuse.hi = s.dev.fuse.hi ∧ e.fuse.lo = s.dev.fuse.lo) ∧
      e = { s.dev with fuse := e.fuse }) ∧
  (∀ (s : State) (v : BitVec 8), hostReach s.dev = true → Completes (.otpLockWrite v) s fun e =>
    e = { s.dev with fuse.otpLock := s.dev.fuse.otpLock ||| v }) ∧
  (∀ (s : State) (v : Word), hostReach s.dev = true → s.dev.fuse.otpLock.getLsbD 1 = false →
    Completes (.shadowOverrideWrite 0x540 v) s fun e =>
      e = { s.dev with fuse.shdSec := s.dev.fuse.shdSec ||| v.setWidth 64 }) ∧
  (∀ (s : State) (off : BitVec 13) (v : Word), s.dev.fuse.otpLock.getLsbD 1 = true →
    s.dev.fuse.otpLock.getLsbD 6 = true → Completes (.shadowOverrideWrite off v) s fun e => e = s.dev)

/-! ### The checker's test mode and the near code -/

/-- The near code corrects: a word with its own check byte reads clean, one flipped bit of the 64 data bits or the 8
check bits is corrected to the word and its check byte, and two flipped data bits are reported uncorrectable. -/
def Obligations.NearCodeCorrectsOneAndDetectsTwo : Prop :=
  ∀ w : BitVec 64,
    decodeNear w (nearCheck w) = { synd := 0, cls := 0, data := w, check := nearCheck w } ∧
    (∀ i < 64, (decodeNear (w ^^^ (1 <<< i)) (nearCheck w)).cls = 1 ∧
      (decodeNear (w ^^^ (1 <<< i)) (nearCheck w)).data = w ∧
      (decodeNear (w ^^^ (1 <<< i)) (nearCheck w)).check = nearCheck w) ∧
    (∀ k < 8, (decodeNear w (nearCheck w ^^^ (1 <<< k))).cls = 1 ∧
      (decodeNear w (nearCheck w ^^^ (1 <<< k))).data = w ∧
      (decodeNear w (nearCheck w ^^^ (1 <<< k))).check = nearCheck w) ∧
    (∀ i < 64, ∀ j < 64, i ≠ j → (decodeNear (w ^^^ (1 <<< i) ^^^ (1 <<< j)) (nearCheck w)).cls = 3)

/-- In test mode a WRITE stores the data and check bits as given, in the near test segment or, of the deep tier, in the
test buffer; PROGRAM moves the buffer into the deep test segment; a READ shows what the decoder makes of the stored word
when it ends: the raw word, its syndrome, its class and the corrected data. No queue is touched. -/
def Obligations.EccTestOperations : Prop :=
  ∀ s : State,
    (hostReach s.dev = true → s.dev.ecc.en = true → s.dev.ecc.busy = false → fwRunning s.dev = true →
      tblWf {} s.dev.ecc.nearSeg = true →
      (∀ (index : BitVec 9) (valid : Bool), Completes (.eccTestWrite index false valid) s fun e =>
        tblGet {} e.ecc.nearSeg index.toNat =
          { data := (s.dev.ecc.data.setWidth 64).setWidth 256, check := s.dev.ecc.check &&& 0xFF, valid } ∧
        (∀ j, j ≠ index.toNat → tblGet {} e.ecc.nearSeg j = tblGet {} s.dev.ecc.nearSeg j) ∧
        e.ecc.busy = true ∧ e.ecc.buf = s.dev.ecc.buf ∧ e = { s.dev with ecc := e.ecc }) ∧
      (∀ (index : BitVec 9) (valid : Bool), Completes (.eccTestWrite index true valid) s fun e =>
        tblFind e.ecc.buf (min 127 index.toNat) = some { data := s.dev.ecc.data, check := s.dev.ecc.check } ∧
        e.ecc.busy = true ∧ e.ecc.nearSeg = s.dev.ecc.nearSeg ∧ e.ecc.deepSeg = s.dev.ecc.deepSeg ∧
        e = { s.dev with ecc := e.ecc }) ∧
      (Completes .eccTestProgram s fun e => e.ecc.buf = [] ∧ e.ecc.busy = true ∧
        (∀ k < 128, tblFind e.ecc.deepSeg k =
          some ((tblFind s.dev.ecc.buf k).getD { data := 0, check := Config.deepCheck 0 })) ∧
        e = { s.dev with ecc := e.ecc }) ∧
      (∀ (index : BitVec 9) (deep : Bool), Completes (.eccTestRead index deep) s fun e =>
        e.ecc.busy = true ∧
        e.ecc.run = some (deep, if deep then BitVec.ofNat 9 (min 127 index.toNat) else index) ∧
        e.ecc.nearSeg = s.dev.ecc.nearSeg ∧ e.ecc.deepSeg = s.dev.ecc.deepSeg ∧ e = { s.dev with ecc := e.ecc })) ∧
    (∀ index : BitVec 9, s.dev.ecc.busy = true → s.dev.ecc.run = some (false, index) →
      Completes .eccTestDone s fun e =>
        let t := tblGet {} s.dev.ecc.nearSeg index.toNat
        let r := decodeNear (t.data.setWidth 64) (t.check.setWidth 8)
        e.ecc.busy = false ∧ e.ecc.raw = (t.data.setWidth 64).setWidth 256 ∧ e.ecc.corr = r.data.setWidth 256 ∧
        e.ecc.cls = (if t.valid then BitVec.ofNat 3 r.cls else 4) ∧ e = { s.dev with ecc := e.ecc }) ∧
    (∀ index : BitVec 9, s.dev.ecc.busy = true → s.dev.ecc.run = some (true, index) → index.toNat < 128 →
      Completes .eccTestDone s fun e =>
        let t := tblGet {} s.dev.ecc.deepSeg index.toNat
        e.ecc.busy = false ∧ e.ecc.raw = t.data ∧ e.ecc.rawCheck = t.check ∧
        e.ecc.synd = Config.deepCheck t.data ^^^ t.check ∧
        (t.check = Config.deepCheck t.data → e.ecc.cls = 0 ∧ e.ecc.corr = t.data) ∧
        e = { s.dev with ecc := e.ecc })

/-! ### Error capture and setup registers -/

/-- A detected record takes the next sequence number, becomes ERR_LAST, becomes ERR_FIRST when that is clear, and enters
a FIFO of at most 16 entries. -/
def Obligations.CaptureNumbersAndKeepsRecords : Prop :=
  ∀ (d : Dev) (fatal : Bool) (code src obj : Nat),
    (capture fatal code src obj d).err.seq = (d.err.seq + 1) % 65536 ∧
    (∃ r, (capture fatal code src obj d).err.last = some r ∧ r.code = BitVec.ofNat 8 code ∧ r.source = src ∧
      r.object = obj ∧ r.rept = 0 ∧ r.time = ticks d ∧ r.seq = (d.err.seq + 1) % 65536 ∧
      (capture fatal code src obj d).err.first = some (d.err.first.getD r)) ∧
    (d.err.fifo.length ≤ 16 → (capture fatal code src obj d).err.fifo.length ≤ 16) ∧
    (d.err.fifo = [] → (capture fatal code src obj d).err.fifo.length = 1) ∧
    (d.err.overflow = true → (capture fatal code src obj d).err.overflow = true) ∧
    (capture fatal code src obj d).queues = d.queues

/-- ERR_CAP_POP returns ERR_CAP3 of the oldest entry and removes that entry; ERR_FIRST_CLR clears ERR_FIRST alone. A 32-bit
read of an RC register returns its value and clears its RC fields, which read 0 from then on; a 64-bit read is two reads,
the lower address first; a read of another size or off its alignment returns 0 and changes nothing. -/
def Obligations.ErrorRegistersReadAndClear : Prop :=
  ∀ s : State, hostReach s.dev = true →
    (Completes .errCapPop s fun e =>
      e.err = { s.dev.err with fifo := s.dev.err.fifo.drop 1 } ∧
      e.out = s.dev.out ++ [.regRead 0x060C (BitVec.ofNat 32 (capWord s.dev.err.fifo.head? 3))] ∧
      e = { s.dev with err := e.err, out := e.out }) ∧
    (Completes .errFirstClr s fun e => e = { s.dev with err.first := none }) ∧
    (∀ off : BitVec 14, off ∈ [0x16C#14, 0x640#14, 0x644#14, 0x648#14, 0x64C#14] →
      Completes (.rcFieldRead ⟨off, .dword⟩) s fun e =>
        e.out = s.dev.out ++ [.regRead off.toNat (BitVec.ofNat 32 (readReg s.dev off.toNat))] ∧
        readReg e off.toNat = 0 ∧ e = { s.dev with
          out := e.out, regs.sweepStale := e.regs.sweepStale, regs.sweepDone := e.regs.sweepDone
          err := { s.dev.err with
            cntCmd := e.err.cntCmd, cntMem := e.err.cntMem, cntPort := e.err.cntPort, cntRing := e.err.cntRing
            cntSec := e.err.cntSec, cntPwr := e.err.cntPwr, late := e.err.late } }) ∧
    (Completes (.rcFieldRead ⟨0x640, .dword⟩) s fun e => e =
      { s.dev with out := e.out, err.cntCmd := 0, err.cntMem := 0 }) ∧
    (Completes (.rcFieldRead ⟨0x640, .qword⟩) s fun e =>
      e.out = s.dev.out ++ [.regRead 0x0640 (BitVec.ofNat 32 (readReg s.dev 0x0640)),
        .regRead 0x0644 (BitVec.ofNat 32 (readReg s.dev 0x0644))] ∧
      e = { s.dev with out := e.out, err.cntCmd := 0, err.cntMem := 0, err.cntPort := 0, err.cntRing := 0 }) ∧
    (∀ (off : BitVec 14) (size : HostRead),
      (match size with
        | .dword => off.toNat % 4 ≠ 0
        | .qword => off.toNat % 8 ≠ 0
        | .other _ => True) →
      Completes (.rcFieldRead ⟨off, size⟩) s fun e => e = { s.dev with out := s.dev.out ++ [.regRead off.toNat 0] })

/-- A write to TIER_SPILL_BURST stores its MiB, held in 1 to 1,048,576, and lowers the level to the new burst when it is
above it. -/
def Obligations.SpillBurstLowersTheLevel : Prop :=
  ∀ (s : State) (v : BitVec 21), hostReach s.dev = true → Completes (.tierSpillBurstWrite v) s fun e =>
    let burst : Int := e.regs.spillBurst * 2 ^ 20
    e.regs.spillBurst = max 1 (min 1048576 v.toNat) ∧
    (burst < s.dev.tier.level → e.tier.level = burst) ∧ (s.dev.tier.level ≤ burst → e.tier.level = s.dev.tier.level) ∧
    e = { s.dev with regs.spillBurst := e.regs.spillBurst, tier.level := e.tier.level, tier.minLevel := e.tier.minLevel }

/-- A 32-bit write to a setup register stores its value within the register's range; a 64-bit write is two, the lower
address first; a write to a read-only register, of another size or off its alignment changes nothing. A GO that names a
reserved OP or MODE stops the model under its own name: the spec gives such an operation no effect (R611, R614). -/
def Obligations.RegisterWritesReadBackOrStop : Prop :=
  (∀ (s : State) (v : Word), hostReach s.dev = true →
    (Completes (.registerWrite 0x0108 (.dword v)) s fun e => e = { s.dev with regs.wakeFree := e.regs.wakeFree } ∧
      readReg e 0x0108 = min 8704 (v.toNat % 2 ^ 14)) ∧
    (Completes (.registerWrite 0x0164 (.dword v)) s fun e => e = { s.dev with regs.sweepSlow := e.regs.sweepSlow } ∧
      1 ≤ readReg e 0x0164 ∧ (1 ≤ v.toNat → v.toNat ≤ 1000000 → readReg e 0x0164 = v.toNat)) ∧
    (Completes (.registerWrite 0x0000 (.dword v)) s fun e => e = s.dev)) ∧
  (∀ (s : State) (v : DWord), hostReach s.dev = true → Completes (.registerWrite 0x0160 (.qword v)) s fun e =>
    readReg e 0x0160 = max 1 (v.toNat % 2 ^ 16) ∧ readReg e 0x0164 = max 1 (min 1000000 (v.toNat / 2 ^ 32 % 2 ^ 20)) ∧
    e = { s.dev with regs.sweepFast := e.regs.sweepFast, regs.sweepSlow := e.regs.sweepSlow }) ∧
  (∀ (s : State) (off : BitVec 14) (w : HostWrite),
    (match w with
      | .dword _ => off.toNat % 4 ≠ 0
      | .qword _ => off.toNat % 8 ≠ 0
      | .other _ => True) →
    Completes (.registerWrite off w) s fun e => e = s.dev) ∧
  (∀ s : State, hostReach s.dev = true →
    (fuseReady s.dev = true → (∀ row, exec (.fuseRead row 3) s = .fault .reservedOperation) ∧
      (∀ v : Word, bitOf v.toNat 16 = true → bitsOf v.toNat 0 2 = 3 →
        exec (.registerWrite 0x0500 (.dword v)) s = .fault .reservedOperation)) ∧
    (s.dev.ecc.busy = false → fwRunning s.dev = true → ∀ v : Word, bitOf v.toNat 5 = true → bitOf v.toNat 0 = true →
      bitsOf v.toNat 1 2 = 3 → exec (.registerWrite 0x0340 (.dword v)) s = .fault .reservedOperation))

/-! ### Stream ports -/

/-- A rising edge of I_CLK. At an OPEN port that owns its pins: without I_EN nothing is stored; a data beat goes to the end
of the ISB under the queue of the port or of its current tag, and is lost and counted while FF# is asserted or the tag maps
to none; a tag beat of a 16-bit port sets the tag. While the pair's switches conduct, the edge passes through and nothing is
captured; while its hand-over is armed, it is watched and nothing is captured. At an edge that races the expiry of the stall
timer a beat is kept, and the port parks or goes on, never both (R188; which of the two is free, log entry 83). -/
def Obligations.IngressBeatsAreStoredOrCounted : Prop :=
  ∀ (s : State) (i : Fin 2) (en tag eop : Bool) (v : BitVec 16) (p : IPort), p = iport s.dev i →
    let beat : IsbEntry :=
      .beat (BitVec.ofNat 16 (v.toNat % 2 ^ portBits p.pce.width)) eop p.pce.qid.toNat none (portStamp s.dev i) p.pce.width
    ((pairOf s.dev i).armed = true → Completes (.ingressBeat i en tag eop v) s fun e => iport e i = p ∧
      e = { s.dev with ports := e.ports, out := e.out, tb.timers := e.tb.timers }) ∧
    (switchConducts s.dev i = true → (pairOf s.dev i).armed = false → (pairOf s.dev i).returning = false →
      Completes (.ingressBeat i en tag eop v) s fun e =>
        e = { s.dev with out := s.dev.out ++ [.through i en v eop tag], tb.timers := e.tb.timers }) ∧
    (portOpen s.dev i = true → inBypass s.dev i = false → switchConducts s.dev i = false →
      (pairOf s.dev i).armed = false →
      (raceLost i s.dev = true → p.pce.tagged = false → p.ff = false →
        Completes (.ingressBeat i true tag eop v) s fun e => (iport e i).isb = p.isb ++ [beat] ∧
          (((iport e i).run.parked = true ∧ (e.err.last.map fun r => (r.code, r.object)) = some (0x62, i.val)) ∨
            ((iport e i).run.parked = false ∧ e.err = s.dev.err ∧ timerOf e (.stall i) =
              some { id := .stall i, start := if s.dev.tb.tickRun then some s.dev.tb.now else none }))) ∧
      (raceLost i s.dev = false →
        let kept (p' : IPort) (e : Dev) : Prop := e = { putI i p' s.dev with
          tb.timers := e.tb.timers, ports.p0 := e.ports.p0, ports.p1 := e.ports.p1 }
        let settled (p' : IPort) : IPort := { p' with ff := decide (isbPlaces p'.pce.width ≤ p'.known) }
        let stored (qid : Nat) (t : Option Nat) (stamp : Nat) (e : Dev) : Prop :=
          (iport e i).isb =
            p.isb ++ [.beat (BitVec.ofNat 16 (v.toNat % 2 ^ portBits p.pce.width)) eop qid t stamp p.pce.width] ∧
          kept (settled { p with isb := (iport e i).isb, known := p.known + 1, partBits := (iport e i).partBits }) e
        Completes (.ingressBeat i false tag eop v) s (kept (settled p)) ∧
        (p.pce.tagged = false →
          (p.ff = false →
            Completes (.ingressBeat i true tag eop v) s (stored p.pce.qid.toNat none (portStamp s.dev i))) ∧
          (p.ff = true → Completes (.ingressBeat i true tag eop v) s
            (kept (settled { p with run := { p.run with ovf := sat16 p.run.ovf 1 } })))) ∧
        (p.pce.tagged = true → p.ff = false → p.tagBeats = 0 →
          (∀ t q, p.tag = some t → p.tagQid = some q →
            Completes (.ingressBeat i true false eop v) s (stored q (some t) p.tagStamp)) ∧
          (p.tagQid = none → Completes (.ingressBeat i true false eop v) s fun e =>
            (iport e i).isb = p.isb ∧ (iport e i).run = { p.run with unmapped := sat16 p.run.unmapped 1 } ∧
              (e.err.last.map fun r => (r.code, r.object)) = some (0x61, i.val))) ∧
        (p.pce.tagged = true → p.pce.width = 2 → p.partBits = 0 →
          Completes (.ingressBeat i true true eop v) s
            (kept (settled { p with
              tag := some (v.toNat % 4096), tagQid := tagLookup p.map i (v.toNat % 4096)
              tagStamp := portStamp s.dev i, tagAcc := 0, tagBeats := 0 })))))

/-- A rise sampled at FLUSH, RT, MRK or DROP of an OPEN port is carried across: its crossing turns busy with the queue it
acts on, PCE_QID or on a tagged port the one served; while the crossing is busy with an earlier set, it pends. An ingress
flush cuts the partial item at its place in the ISB. A level that does not rise changes the sample alone. -/
def Obligations.PulsesAreCarriedAcross : Prop :=
  ∀ (s : State) (i : Fin 2), inBypass s.dev i = false →
    (∀ p, p = iport s.dev i → portOpen s.dev i = true →
      let becomes (p' : IPort) (e : Dev) : Prop := e = { putI i p' s.dev with tb.timers := e.tb.timers }
      Completes (.flushPulse i false) s (becomes { p with flushPrev := some false }) ∧
      (p.flushPrev = some false → p.xing.busy = false → Completes (.flushPulse i true) s
        (becomes { p with flushPrev := some true, isb := p.isb ++ [.cut], partBits := 0, tagAcc := 0, tagBeats := 0
                          xing := { p.xing with busy := true, latched := false, rt := some 0 } })) ∧
      (p.flushPrev = some false → p.xing.busy = true → p.xing.pRt = none → Completes (.flushPulse i true) s
        (becomes { p with flushPrev := some true, isb := p.isb ++ [.cut], partBits := 0, tagAcc := 0, tagBeats := 0
                          xing := { p.xing with pRt := some 0 } }))) ∧
    (∀ (p : EPort) (gq : Nat), p = eport s.dev i → portOpen s.dev (i + 2) = true → pulseQueue p = some gq →
      let carried (x : EventXing) (e : Dev) : Prop := (eport e i).xing = x ∧ (eport e i).esb = p.esb ∧
        e = { putE i (eport e i) s.dev with tb.timers := e.tb.timers }
      let busy : EventXing := { p.xing with busy := true, latched := false }
      (p.xing.busy = false →
        (p.rtPrev = some false → Completes (.rtPulse i true) s (carried { busy with rt := some gq })) ∧
        (p.mrkPrev = some false → Completes (.mrkPulse i true) s (carried { busy with mrk := some gq })) ∧
        (p.dropPrev = some false → Completes (.dropPulse i true) s (carried { busy with drop := some gq }))) ∧
      (p.xing.busy = true → p.fresh = false → p.xing.pRt = none → p.xing.pMrk = none → p.xing.pDrop = none →
        (p.rtPrev = some false → Completes (.rtPulse i true) s (carried { p.xing with pRt := some gq })) ∧
        (p.mrkPrev = some false → Completes (.mrkPulse i true) s (carried { p.xing with pMrk := some gq })) ∧
        (p.dropPrev = some false → Completes (.dropPulse i true) s (carried { p.xing with pDrop := some gq }))) ∧
      Completes (.rtPulse i false) s (carried p.xing) ∧ Completes (.mrkPulse i false) s (carried p.xing) ∧
      Completes (.dropPulse i false) s (carried p.xing))

/-- A carried set is latched at its turnstile once: RT as a retransmit, MRK as a mark, DROP as a drop, FLUSH as an abort
at every queue in service that the port holds locked. The acknowledge frees the crossing, which takes up what
pends. -/
def Obligations.CrossingsLatchAndFree : Prop :=
  ∀ (s : State) (k : Fin 4), (runOf s.dev k).parked = false → tblWf {} s.dev.queues = true →
    (∀ (x : EventXing) (gq : Nat), x = xingOf s.dev k → x.busy = true → x.latched = false → 2 ≤ k.val →
      isLocal s.dev gq = true →
      let asks (f : Ctl → Ctl) (e : Dev) : Prop :=
        queueOf e (gq % 4096) = { queueOf s.dev (gq % 4096) with ctl := f (queueOf s.dev (gq % 4096)).ctl } ∧
        (∀ j, j ≠ gq % 4096 → queueOf e j = queueOf s.dev j) ∧
        xingOf e k = { x with latched := true } ∧ e = { s.dev with queues := e.queues, ports := e.ports }
      (x.rt = some gq → x.mrk = none → x.drop = none →
        Completes (.eventCrossingLatch k) s (asks fun c => { c with rtx := c.rtx ++ [.port k] })) ∧
      (x.rt = none → x.mrk = some gq → x.drop = none →
        Completes (.eventCrossingLatch k) s (asks fun c => { c with mark := c.mark ++ [.port k] })) ∧
      (x.rt = none → x.mrk = none → x.drop = some gq →
        Completes (.eventCrossingLatch k) s (asks fun c => { c with drop := c.drop ++ [.port k] }))) ∧
    (∀ x : EventXing, x = xingOf s.dev k → x.busy = true → x.latched = false → k.val < 2 → s.dev.cas.peers = [] →
      Completes (.eventCrossingLatch k) s fun e =>
        e = { putXing k { x with latched := true } s.dev with queues := e.queues } ∧
        ∀ j, (if (queueOf s.dev j).lock = some (.port k) ∧ (queueOf s.dev j).cfg.valid = true
          then Producer.port k ∈ (queueOf e j).ctl.aborts ∧
            queueOf e j = { queueOf s.dev j with ctl.aborts := (queueOf e j).ctl.aborts }
          else queueOf e j = queueOf s.dev j)) ∧
    (∀ x : EventXing, x = xingOf s.dev k → x.busy = true → x.latched = true →
      Completes (.eventCrossingFree k) s fun e =>
        xingOf e k = (if x.pRt.isNone && x.pMrk.isNone && x.pDrop.isNone then {}
          else { busy := true, rt := x.pRt, mrk := x.pMrk, drop := x.pDrop }) ∧
        e = { s.dev with ports := e.ports, tb.timers := e.tb.timers })

/-- The oldest event on its way takes effect at its port with all it carries. Of a commit the port takes the new PCE and
opens or closes with it, a closing ingress port asserts FF# and marks the end of its beats, a closing egress port gives its
undelivered items back to the head of their queue. An arming arms the pair that is in bypass with both ports OPEN. A
discard takes the undelivered entries of its queue out of the ESB. -/
def Obligations.PortEventsTakeEffect : Prop :=
  ∀ (s : State) (k : Fin 4) (rest : List PortEv),
    let only (e : Dev) : Prop := evOf e k = rest ∧ e = { s.dev with
      ports := e.ports, out := e.out, link := e.link, tb := e.tb, rings := e.rings, queues := e.queues }
    let handed : Bool := (pairOf s.dev (k % 2)).strap && (pairOf s.dev (k % 2)).handed
    (∀ (np : Pce) (rm : Bool) (st : Option Nat), evOf s.dev k = .commit (some np) rm st :: rest →
      (k.val < 2 → Completes (.portEventEffect k) s fun e => only e ∧ e.queues = s.dev.queues ∧ pceOf e k = np ∧
        ((pceOf s.dev k).en ≠ np.en → (runOf e k).isOpen = np.en ∧ (iport e k).ff = true ∧ (iport e k).partBits = 0) ∧
        ((pceOf s.dev k).en = true → np.en = false →
          (runOf e k).parked = false ∧ (iport e k).isb = (iport s.dev k).isb ++ [.close])) ∧
      (2 ≤ k.val → (pceOf s.dev k).en = false → np.en = true → Completes (.portEventEffect k) s fun e =>
        only e ∧ e.queues = s.dev.queues ∧ pceOf e k = np ∧ (runOf e k).isOpen = true ∧
        (finishing (eport s.dev (k - 2)) = false → (eport e (k - 2)).esb = [] ∧ (eport e (k - 2)).ef = true)) ∧
      (∀ (is : List Item) (gq : Nat) (ew : BitVec 2), 2 ≤ k.val → (pceOf s.dev k).en = true → np.en = false →
        is ≠ [] → (eport s.dev (k - 2)).esb = is.map (fun i => .item gq i ew) → (eport s.dev (k - 2)).driven = 0 →
        (eport s.dev (k - 2)).under = none → tblWf {} s.dev.queues = true → Completes (.portEventEffect k) s fun e =>
          only e ∧ (queueOf e (gq % 4096)).items =
            (if (queueOf s.dev (gq % 4096)).owedEnd then closeRun is else is) ++ (queueOf s.dev (gq % 4096)).items ∧
          (∀ j, j ≠ gq % 4096 → queueOf e j = queueOf s.dev j) ∧ pceOf e k = np ∧
          (eport e (k - 2)).esb = [] ∧ (runOf e k).isOpen = false ∧ (eport e (k - 2)).hiZ = !handed)) ∧
    (evOf s.dev k = .arm :: rest → inBypass s.dev (k % 2) = true → portOpen s.dev (k % 2) = true →
      portOpen s.dev (k % 2 + 2) = true → Completes (.portEventEffect k) s fun e => only e ∧
        e.queues = s.dev.queues ∧ (pairOf e (k % 2)).armed = true ∧ (pairOf e (k % 2)).pointB = false ∧
        timerOn e (.handover (k % 2)) = true ∧ timerOn e (.noClock (k % 2)) = true) ∧
    (∀ (gq : Nat) (why : EsbCut), evOf s.dev k = .cut [(gq, why)] :: rest → 2 ≤ k.val →
      headStays (eport s.dev (k - 2)) = 0 → (eport s.dev (k - 2)).midPkt = false → (why = .flush ∨ why = .rewind) →
      Completes (.portEventEffect k) s fun e => only e ∧ e.queues = s.dev.queues ∧
        (eport e (k - 2)).esb = (eport s.dev (k - 2)).esb.filter (fun x => !entryOf gq x) ∧ pceOf e k = pceOf s.dev k)

/-- A beat that becomes visible moves the Weave's view of the ISB past it, and the beats that the Weave sees are built into
a burst, here one beat of one item. A port accepts the newest flag state, a held assertion first, and the pointer behind FF#
or EF#. -/
def Obligations.BeatsAndValuesCross : Prop :=
  ∀ (s : State) (i : Fin 2),
    let only (e : Dev) : Prop :=
      e = { s.dev with ports := e.ports, rings := e.rings, link := e.link, tb := e.tb, out := e.out }
    (∀ b, awake s.dev = true → (iport s.dev i).run.parked = false → (iport s.dev i).latched = some b →
      Completes (.beatVisible i) s fun e =>
        (iport e i).vis = visibleAfter (iport s.dev i).isb (iport s.dev i).vis ∧ (iport e i).isb = (iport s.dev i).isb ∧
        (iport e i).latched = some b ∧ only e) ∧
    (∀ (dat : BitVec 16) (eop : Bool) (qid stamp : Nat) (tag : Option Nat) (w : BitVec 2), awake s.dev = true →
      (iport s.dev i).run.parked = false → (iport s.dev i).latched = none → (iport s.dev i).vis = 0 →
      (iport s.dev i).asmBits = 0 → (iport s.dev i).asmBeats = 0 → (iport s.dev i).asmKey = none →
      (iport s.dev i).isb = [.beat dat eop qid tag stamp w] → portBits w = 8 * ewBytes (ewOf s.dev qid) →
      Completes (.beatVisible i) s fun e => (iport e i).isb = [] ∧ (iport e i).vis = 0 ∧
        (iport e i).latched = some { prod := .port i, qid, stamp, tag, beats := 1
                                     items := [{ data := BitVec.ofNat 64 (dat.toNat % 2 ^ portBits w), bound := eop }] } ∧
        only e) ∧
    (∀ k : Fin 4, k.val = i.val → portOpen s.dev k = true →
      Completes (.valueCrossingAccept k .flag) s (fun e => e =
        { putI i { iport s.dev i with af := acceptValue (iport s.dev i).af } s.dev with tb.timers := e.tb.timers }) ∧
      (inBypass s.dev i = false → Completes (.valueCrossingAccept k .pointer) s fun e => e =
        { putI i { iport s.dev i with
            known := isbCount (iport s.dev i)
            ff := decide (isbPlaces (iport s.dev i).pce.width ≤ isbCount (iport s.dev i)) } s.dev with
          tb.timers := e.tb.timers })) ∧
    (∀ k : Fin 4, k.val = i.val + 2 → portOpen s.dev k = true →
      Completes (.valueCrossingAccept k .flag) s (fun e => e =
        { putE i { eport s.dev i with ae := acceptValue (eport s.dev i).ae } s.dev with tb.timers := e.tb.timers }) ∧
      Completes (.valueCrossingAccept k .pointer) s fun e =>
        (eport e i).visible = (eport s.dev i).esb.length ∧ (eport e i).esb = (eport s.dev i).esb ∧
        ((eport e i).ef = true ↔ nextBeat (cfgOf s.dev) { eport s.dev i with visible := (eport s.dev i).esb.length } = none) ∧
        e = { putE i (eport e i) s.dev with tb.timers := e.tb.timers })

/-- A port that has a complete beat puts it on its pins: at an edge with E_EN in pull mode, at a cycle of the forwarded
clock in push mode. A pull with nothing to take and no queue in service to blame counts in PCE_OVF; else it takes the first
beat of the empty item of the queue that it falls on. A push port that HOLD# has run dry, or that has nothing to send outside
a packet in gated mode, drives nothing. Through closed switches HOLD# reaches the producer. -/
def Obligations.EgressPortsDriveTheNextBeat : Prop :=
  ∀ (s : State) (i : Fin 2) (p : EPort), p = eport s.dev i →
    (∀ hold, drives s.dev i = false → switchConducts s.dev i = true → Completes (.egressPushBeat i hold) s fun e =>
      e = { s.dev with out := s.dev.out ++ [.throughHold i hold] }) ∧
    (drives s.dev i = true → switchConducts s.dev i = false → p.under = none →
      (∀ r, p.pce.push = false → p.ef = false → nextBeat (cfgOf s.dev) p = some r →
        Completes (.egressRead i) s fun e => e.out = s.dev.out ++ [.beat i r.d r.eop r.tagv] ∧
          (eport e i).esb = r.port.esb ∧ e.queues = s.dev.queues ∧
          (p.pce.fwft = false → (eport e i).pD = r.d ∧ (eport e i).pEop = r.eop ∧ (eport e i).pTagv = r.tagv)) ∧
      (p.pce.push = false → p.ef = true → p.run.isOpen = true →
        (∀ gq, underQueue p = some gq → (cfgOf s.dev gq).valid = false) →
        Completes (.egressRead i) s fun e => (eport e i).run.ovf = sat16 p.run.ovf 1 ∧ e.out = s.dev.out ∧
          (eport e i).pD = p.pD ∧ (eport e i).pEop = false ∧ (eport e i).pTagv = false ∧
          e = { s.dev with ports := e.ports, tb.timers := e.tb.timers }) ∧
      (∀ gq, p.pce.push = false → p.ef = true → p.run.isOpen = true → underQueue p = some gq →
        (cfgOf s.dev gq).valid = true → tblWf {} s.dev.queues = true →
        let b := emptyBeat p.pce.width (emptyItem (cfgOf s.dev gq) gq p)
        Completes (.egressRead i) s fun e => e.out = s.dev.out ++ [.beat i b.1 false false] ∧ (eport e i).under = b.2 ∧
          queueOf e (gq % 4096) =
            { queueOf s.dev (gq % 4096) with mustPop := (queueOf s.dev (gq % 4096)).mustPop + 1 } ∧
          ∀ j, j ≠ gq % 4096 → queueOf e j = queueOf s.dev j) ∧
      (∀ r, p.pce.push = true → nextBeat (cfgOf s.dev) { p with skid := none } = some r →
        Completes (.egressPushBeat i false) s fun e => e.out = s.dev.out ++ [.beat i r.d r.eop r.tagv] ∧
          (eport e i).esb = r.port.esb ∧ (eport e i).pEn = true ∧ e.queues = s.dev.queues) ∧
      (p.pce.push = true → p.skid = some 0 → Completes (.egressPushBeat i true) s fun e =>
        (eport e i).pEn = false ∧ (eport e i).esb = p.esb ∧ e.out = s.dev.out ∧ e.queues = s.dev.queues) ∧
      (∀ hold, p.pce.push = true → p.pce.cont = false → p.midPkt = false → nextBeat (cfgOf s.dev) p = none →
        Completes (.egressPushBeat i hold) s fun e =>
          (eport e i).pEn = false ∧ (eport e i).esb = p.esb ∧ e.out = s.dev.out ∧ e.queues = s.dev.queues))

/-- A port that waits for PORT_STALL_TO without an edge is PARKED, counted and recorded as PORT_STALL. PORT_UNPARK marks
a PARKED port, and fails with PORT_NOT_PARKED at any other; the first edge after it reopens the port. -/
def Obligations.StalledPortsParkAndReopen : Prop :=
  (∀ (s : State) (k : Fin 4), portWaits s.dev k = true → timerDue s.dev (.stall k) s.dev.regs.stallTo = true →
    Completes (.portClockStall k) s fun e =>
      (runOf e k).parked = true ∧ (runOf e k).parks = sat16 (runOf s.dev k).parks 1 ∧
      (e.err.last.map fun r => (r.code, r.object)) = some (0x62, k.val) ∧ e.err.seq = (s.dev.err.seq + 1) % 65536) ∧
  (∀ (s : State) (c : AdmCmd) (tag k : Nat), k = bitsOf c.arg0.toNat 0 2 → Takes 0x25 c tag s.dev → AceRoom s.dev →
    ((runOf s.dev k).parked = true → Completes (.portUnpark c) s fun e => AceWritten c 0 0 0 s.dev e ∧
      HostOnly (putRun k { runOf s.dev k with unparkPend := true } s.dev) e) ∧
    ((runOf s.dev k).parked = false → Completes (.portUnpark c) s fun e =>
      AceWritten c 0x64 0 0 s.dev e ∧ HostOnly s.dev e)) ∧
  (∀ (s : State) (k : Fin 4), (runOf s.dev k).parked = true → (runOf s.dev k).unparkPend = true →
    Completes (.portReopen k) s fun e =>
      runOf e k = { runOf s.dev k with parked := false, unparkPend := false } ∧
      e = { s.dev with ports := e.ports, tb.timers := e.tb.timers })

/-- An armed pair that has sampled its hand-over point is handed over with E_CLK low; one whose limit of 10,000 ticks has
passed likewise, and PCE_S_TP_FORCED of both ports says so (of the 16-tick case the model says it is none, log entry 90,
and E_CLK takes the level of I_CLK, a free bit). A returning one goes back to bypass; the level of TP_EN changes neither the
strap nor the ownership. -/
def Obligations.ThroughPathsChangeHands : Prop :=
  ∀ (s : State) (n : Fin 2),
    ((pairOf s.dev n).armed = true → (pairOf s.dev n).pointB = true → Completes (.handover n) s fun e =>
      (pairOf e n).handed = true ∧ (pairOf e n).armed = false ∧ inBypass e n = false ∧
      (iport e n).tag = (pairOf s.dev n).trackTag ∧ (iport e n).run.tpForced = false ∧ (eport e n).hiZ = false ∧
      (eport e n).eclk = .level false ∧ e = { s.dev with ports := e.ports, tb.timers := e.tb.timers }) ∧
    ((pairOf s.dev n).armed = true → timerDue s.dev (.noClock n) 16 = false → timerDue s.dev (.handover n) 10000 = true →
      Completes (.handoverForced n) s fun e =>
        (pairOf e n).handed = true ∧ (pairOf e n).armed = false ∧ (iport e n).run.tpForced = true ∧
        (eport e n).run.tpForced = true ∧ (eport e n).eclk = .level false ∧
        e = { s.dev with ports := e.ports, tb.timers := e.tb.timers }) ∧
    ((pairOf s.dev n).armed = true → timerDue s.dev (.noClock n) 16 = true →
      Completes (.handoverForced n) s fun e =>
        (pairOf e n).handed = true ∧ (pairOf e n).armed = false ∧ (iport e n).run.tpForced = false ∧
        (∃ level, (eport e n).eclk = .level level) ∧
        e = { s.dev with ports := e.ports, tb.timers := e.tb.timers, free := e.free }) ∧
    ((pairOf s.dev n).returning = true → (pairOf s.dev n).pointB = true → Completes (.switchReturn n) s fun e =>
      (pairOf e n).handed = false ∧ (pairOf e n).returning = false ∧ (eport e n).hiZ = true ∧
      (eport e n).eclk = .off ∧ inBypass e n = (pairOf s.dev n).strap ∧ e = { s.dev with ports := e.ports }) ∧
    (∀ v, Completes (.tpEnChange n v) s fun e => e = putPair n { pairOf s.dev n with ball := v } s.dev ∧
      inBypass e n = inBypass s.dev n)

/-! ### The turnstile and the commit -/

/-- A round serves its queue's control requests, then one pop, then each waiting push. Without a consumer and a burst
the stored items, mark, lock and discards are what the requests make of them; without a request and a consumer a
burst that fits goes behind the items there. While a fence or a fatal condition holds the turnstile nothing is
served. An error that an SRAM read finds first is counted and reported when corrected, and is fatal when not. -/
def Obligations.RoundsServeControlsThenPushes : Prop :=
  (∀ (s : State) (g : BitVec 14) (f : SramFlaw), s.dev.err.fatal = false → sramInUse s.dev f.mem.toNat = true →
    isLocal s.dev g.toNat = true →
    (f.uncorrectable = true → Completes (.turnstileRound g [] [f]) s fun e =>
      e.err.fatal = true ∧ e.epoch.allFence = true ∧ (e.err.last.map (·.code)) = some 0x44 ∧
      e.rep.sramUncorr = sat32 s.dev.rep.sramUncorr 1) ∧
    (f.uncorrectable = false → roundBlocked s.dev (g.toNat % 4096) = true → Completes (.turnstileRound g [] [f]) s fun e =>
      e = { s.dev with
        rep.sramCorr := sat32 s.dev.rep.sramCorr 1, link.aer := e.link.aer, tb.timers := e.tb.timers } ∧
      .correctedInternal ∈ e.link.aer)) ∧
  ∀ (s : State) (g : BitVec 14) (gq qid : Nat), gq = g.toNat → qid = gq % 4096 → isLocal s.dev gq = true →
    (roundBlocked s.dev qid = true → Completes (.turnstileRound g [] []) s fun e =>
      e = { s.dev with tb.timers := e.tb.timers }) ∧
    (roundBlocked s.dev qid = false → tblWf {} s.dev.queues = true → (queueOf s.dev qid).cfg.valid = true →
      (queueOf s.dev qid).cfg.persist = false → portOpen s.dev 2 = false → portOpen s.dev 3 = false →
      s.dev.rings.drains = [] → (queueOf s.dev qid).ptx = none →
      (∀ p, p ∈ producers s.dev → p ≠ .port 0 → latchedOf s.dev gq p = none) →
      (latchedOf s.dev gq (.port 0) = none → Completes (.turnstileRound g [] []) s fun e =>
        sealedPart (queueOf e qid) =
          sealedPart (controls (queueOf s.dev qid).ctl.aborts (producerLive s.dev) (queueOf s.dev qid)) ∧
        (queueOf e qid).cfg = (queueOf s.dev qid).cfg ∧ ∀ j, (queueOf e j).items =
          if j = qid then (queueOf e qid).items else (queueOf s.dev j).items) ∧
      (∀ b, latchedOf s.dev gq (.port 0) = some b → b.prod = .port 0 → recheck s.dev b = none → b.abort = false →
        b.sop = false → releaseUnused qid s.dev = s.dev →
        (queueOf s.dev qid).ctl = {} → (queueOf s.dev qid).discards = [] → tailReady (queueOf s.dev qid) = true →
        ((queueOf s.dev qid).lock = none ∨ (queueOf s.dev qid).lock = some (.port 0)) →
        (queueOf s.dev qid).cfg.overwrite = false → burstFits s.dev (queueOf s.dev qid) b.items.length = true →
        waitsForFirmware s.dev (queueOf s.dev qid) b.items.length = false →
        b.items.length ≤ segItems (queueOf s.dev qid).cfg.ew →
        Completes (.turnstileRound g [] []) s fun e =>
          (queueOf e qid).items.map (fun i => (i.data, i.bound)) =
            ((queueOf s.dev qid).items ++ b.items).map (fun i => (i.data, i.bound)) ∧
          ((queueOf s.dev qid).cfg.pkt = true →
            (queueOf e qid).lock = if burstEnds b.items then none else some (.port 0))))

/-- The commit instant takes the staged configuration up at once: EPOCH_NOW advances, past its top value to 1, the
staged QTEs and bindings become live and carry the new epoch, every other QTE stays, the fence is down on queues, ports and
rings; the staging area holds what was staged meanwhile. While a STANDBY request is pending it waits. -/
def Obligations.CommitInstantMakesTheStageLive : Prop :=
  (∀ (s : State) (st : Stage), s.dev.epoch.fence = true → s.dev.epoch.allFence = false →
    s.dev.epoch.taken = some st → tblSorted st.qtes = true → tblWf {} s.dev.queues = true →
    Completes .commitInstant s fun e =>
      e.epoch.now = (if s.dev.epoch.now = 0xFFFFFFFF then 1 else s.dev.epoch.now + 1) ∧
      e.epoch.fence = false ∧ e.epoch.taken = none ∧ e.epoch.seq = s.dev.epoch.seq + 1 ∧
      e.epoch.fenced = [] ∧ e.epoch.fencedPorts = [] ∧ e.epoch.fencedRings = [] ∧ e.epoch.during = {} ∧
      e.stage = stageAfter s.dev.epoch.during e.bind ∧ e.bind = st.bind.getD s.dev.bind ∧
      ∀ q, (queueOf e q).cfg = (tblFind st.qtes q).getD (queueOf s.dev q).cfg ∧
        ((tblFind st.qtes q).isSome = true → (queueOf e q).epoch = e.epoch.now)) ∧
  ∀ s : State, s.dev.epoch.allFence = true → Completes .commitInstant s fun e =>
    e = { s.dev with tb.timers := e.tb.timers }

/-! ### Sweeps and doorbells -/

/-- A sweep starts on its timer, or on KICK# low for at least 200 ns, or is held as one pending sweep while another runs;
in STANDBY the pulse wakes the device, below 50 ns it does nothing. When the doorbell block arrives each live fill or drain
ring, halted or not, takes an index within its room as its new tail and halts on one beyond, a completion ring takes its
head so, and each keeps its index where generation or index show no news. -/
def Obligations.SweepsReadTheDoorbells : Prop :=
  (∀ (s : State) (low : Nat), 200 ≤ low → s.dev.pwr.vin = true → s.dev.pwr.standby = false → fwRunning s.dev = true →
    s.dev.pwr.perst = false → s.dev.link.bme = true → s.dev.err.fatal = false → s.dev.adm.en = true →
    s.dev.sweep.running = true →
    Completes (.kick low) s fun e => e.sweep = { s.dev.sweep with pending := true, pendKick := true } ∧
      e.link.reads = s.dev.link.reads) ∧
  (∀ (s : State) (low : Nat), 200 ≤ low → s.dev.pwr.vin = true → s.dev.pwr.standby = false → fwRunning s.dev = true →
    s.dev.adm.en = true → s.dev.sweep.running = false → canIssue s.dev = true → s.dev.link.reads = [] →
    128 ≤ s.dev.link.mrrs → Completes (.kick low) s fun e => e.sweep.running = true ∧ e.sweep.kicked = true ∧
      ∀ p ∈ splitReq (min 512 s.dev.link.mrrs) s.dev.adm.dbBase 2048,
        ∃ r ∈ e.link.reads, r.what = .doorbells ∧ r.addr = p.1 ∧ r.len = p.2 ∧ r.got = none) ∧
  (∀ (s : State) (low : Nat), 200 ≤ low → s.dev.pwr.vin = true → s.dev.pwr.standby = true →
    Completes (.kick low) s fun e => e.pwr.standby = false ∧ e.pwr.vcoreLdo = true) ∧
  (∀ (s : State) (low : Nat), low < 50 → Completes (.kick low) s fun e => e = s.dev) ∧
  (∀ s : State, timerDue s.dev .sweep s.dev.sweep.interval = true → fwRunning s.dev = true → s.dev.err.fatal = false →
    s.dev.adm.en = true →
    (s.dev.sweep.running = true → Completes .sweepTimerExpiry s fun e =>
      e.sweep.pending = true ∧ e.sweep.running = true ∧ e.link.reads = s.dev.link.reads) ∧
    (s.dev.sweep.running = false → canIssue s.dev = true → s.dev.link.reads = [] → 128 ≤ s.dev.link.mrrs →
      Completes .sweepTimerExpiry s fun e => e.sweep.running = true ∧ e.sweep.timed = true ∧
        ∀ p ∈ splitReq (min 512 s.dev.link.mrrs) s.dev.adm.dbBase 2048,
          ∃ r ∈ e.link.reads, r.what = .doorbells ∧ r.addr = p.1 ∧ r.len = p.2 ∧ r.got = none)) ∧
  (∀ (s : State) (block : List DWord), s.dev.sweep.running = true →
    Completes (.sweep block) s fun e => e.regs.sweepDone = sat16 s.dev.regs.sweepDone 1 ∧
      (∀ f r, f < 64 → tblFind s.dev.rings.fills f = some r →
        ∃ r', tblFind e.rings.fills f = some r' ∧ r'.gen = r.gen ∧
          match judgeDb r.gen r.tail (2 ^ r.log2 - (r.tail - r.consumed).toNat) (block.getD (64 + f) 0) with
          | .moved v => r'.tail = v ∧ r'.halted = r.halted
          | .overrun => r'.tail = r.tail ∧ r'.halted = true
          | _ => r'.tail = r.tail ∧ r'.halted = r.halted) ∧
      (∀ n r, n < 64 → tblFind s.dev.rings.drains n = some r →
        ∃ r', tblFind e.rings.drains n = some r' ∧ r'.gen = r.gen ∧
          match judgeDb r.gen r.tail (2 ^ r.log2 - (r.tail - r.consumed).toNat) (block.getD (128 + n) 0) with
          | .moved v => r'.tail = v ∧ r'.halted = r.halted
          | .overrun => r'.tail = r.tail ∧ r'.halted = true
          | _ => r'.tail = r.tail ∧ r'.halted = r.halted) ∧
      ∀ c r, c < 64 → tblFind s.dev.rings.comps c = some r →
        ∃ r', tblFind e.rings.comps c = some r' ∧ r'.gen = r.gen ∧
          match judgeDb r.gen r.head (r.written - r.head).toNat (block.getD (192 + c) 0) with
          | .moved v => r'.head = v ∧ r'.halted = r.halted
          | .overrun => r'.head = r.head ∧ r'.halted = true
          | _ => r'.head = r.head ∧ r'.halted = r.halted)

/-! ### Fill rings and device reads -/

/-- The next fill descriptor that has arrived becomes the one in progress when its layout, queue and length are right; one
whose layout is wrong is completed with INVALID_COMMAND at once, also behind one in progress. One that has run for
RC_TIMEOUT, or has waited as the oldest of its ring, is completed with TIMEOUT and counted. -/
def Obligations.FillDescriptorsRunOrAreRefused : Prop :=
  ∀ (s : State) (n : BitVec 6) (r : FillRing), tblFind s.dev.rings.fills n.toNat = some r →
    (∀ bs rest, r.arrived = bs :: rest → fwExec s.dev = true → cqFull s.dev r.cq = false →
      (r.cur = none → (parseFill bs).bad = false → fillQueueOk s.dev (parseFill bs).qid = true →
        ((parseFill bs).len % ewBytes (ewOf s.dev (parseFill bs).qid) = 0 ∨ (parseFill bs).eop = true) →
        Completes (.fillDescriptorFetch n) s fun e => ∃ r' c, tblFind e.rings.fills n.toNat = some r' ∧
          r'.cur = some c ∧ r'.arrived = rest ∧ c.addr = (parseFill bs).addr ∧ c.len = (parseFill bs).len ∧
          c.qid = (parseFill bs).qid ∧ c.cookie = (parseFill bs).cookie ∧ c.stamp = s.dev.epoch.seq ∧ c.admitted = 0 ∧
          e.queues = s.dev.queues) ∧
      (∀ k, (parseFill bs).bad = true → tblFind s.dev.rings.comps r.cq = some k → k.waiting = [] →
        Completes (.fillDescriptorFetch n) s fun e => ∃ r' k', tblFind e.rings.fills n.toNat = some r' ∧
          (r.cur = none → r'.cur = none) ∧ r'.arrived = rest ∧ tblFind e.rings.comps r.cq = some k' ∧
          k'.written = k.written + 1 ∧ e.queues = s.dev.queues)) ∧
    (timerDue s.dev (.desc n.toNat) r.timeout = true →
      (∀ c, r.cur = some c → Completes (.descTimeout n) s fun e => ∃ r', tblFind e.rings.fills n.toNat = some r' ∧
        r'.cur = none ∧ r'.latched = none ∧ r'.cnt = { r.cnt with timeouts := sat16 r.cnt.timeouts 1 }) ∧
      (∀ bs rest, r.cur = none → r.arrived = bs :: rest → Completes (.descTimeout n) s fun e =>
        ∃ r', tblFind e.rings.fills n.toNat = some r' ∧ r'.cur = none ∧ r'.arrived = rest ∧
          r'.cnt = { r.cnt with timeouts := sat16 r.cnt.timeouts 1 }) ∧
      (r.cur = none → r.arrived = [] → Completes (.descTimeout n) s fun e =>
        e = { s.dev with tb.timers := e.tb.timers } ∧ timerOn e (.desc n.toNat) = false))

/-- The data of an outstanding descriptor read is taken in and the descriptor counts as consumed; a read that fails or
runs into the Completion Timeout is recorded as HOST_DMA_FAULT and counted at its ring; a completion that matches no
request is recorded as unexpected and discarded. -/
def Obligations.DeviceReadsEnd : Prop :=
  ∀ (s : State) (tag : Nat) (data : Bytes), s.dev.link.up = true → s.dev.pwr.perst = false →
    (readOf s.dev tag = none → ∀ st, Completes (.dmaReadCompletion tag st data) s fun e =>
      e = { s.dev with link.aer := e.link.aer, link.aerCap := e.link.aerCap, free := e.free } ∧
      Aer.unexpectedCompletion ∈ e.link.aer) ∧
    (∀ q f r, tag < s.dev.link.nextTag → readOf s.dev tag = some q → q.what = .fillDesc f → tblFind s.dev.rings.fills f = some r →
      Completes (.dmaReadCompletion tag .ok data) s fun e => ∃ r', tblFind e.rings.fills f = some r' ∧
        r'.arrived = r.arrived ++ [sliceBytes data 0 q.len] ∧ r'.consumed = r.consumed + 1 ∧
        readOf e tag = none ∧ e.queues = s.dev.queues) ∧
    (∀ q n r, readOf s.dev tag = some q → q.what = .drainDesc n → tblFind s.dev.rings.drains n = some r →
      let failed (e : Dev) : Prop := ∃ r', tblFind e.rings.drains n = some r' ∧ r'.consumed = r.consumed + 1 ∧
        r'.cnt = { r.cnt with dmaFaults := sat16 r.cnt.dmaFaults 1 } ∧ r'.arrived = r.arrived ∧
        (e.err.last.map fun x => (x.code, x.source, x.object)) = some (0x74, 3, 128 + n)
      Completes (.dmaReadCompletion tag .unsupported data) s (fun e => failed e ∧ e.link.masterAbort = true) ∧
      Completes (.dmaReadCompletion tag .completerAbort data) s (fun e => failed e ∧ e.link.targetAbort = true) ∧
      Completes (.dmaReadCompletion tag .poisoned data) s (fun e => failed e ∧ Aer.poisonedTlp ∈ e.link.aer) ∧
      (s.dev.link.ctoDis = false → timerDue s.dev (.read tag) (ctoTicks s.dev) = true →
        Completes (.completionTimeout tag) s fun e => failed e ∧ Aer.completionTimeout ∈ e.link.aer))

/-! ### Drain rings and messages -/

/-- A drain descriptor that passes its checks becomes a buffer of its ring, and is refused with a completion otherwise;
an idle ring outside the fence of a commit grants its first buffer to the binding that the arbitration names; an item that waits for RC_DRAIN_WAIT
makes its queue ready; a transfer that has ended writes its bytes and one completion entry and gives its buffer up, or asks for the
link in L1.2; the timer of a completion ring sends its message. -/
def Obligations.DrainTransfersAndMessages : Prop :=
  (∀ (s : State) (n : BitVec 6) (r : DrainRing), tblFind s.dev.rings.drains n.toNat = some r → cqFull s.dev r.cq = false →
    (∀ bs rest, r.arrived = bs :: rest → fwExec s.dev = true → Completes (.drainDescriptorFetch n) s fun e =>
      ∃ r', tblFind e.rings.drains n.toNat = some r' ∧ r'.arrived = rest ∧
        r'.bufs = (if (parseDrain bs).2 then r.bufs else r.bufs ++ [(parseDrain bs).1]) ∧ e.queues = s.dev.queues) ∧
    (∀ buf bufs b ab ag, r.bufs = buf :: bufs → r.xfer = none → dmaAllowed s.dev = true → fwRunning s.dev = true →
      n.toNat ∉ s.dev.epoch.fencedRings → arbNext (s.dev.bind.drain.filter fun b => b.target = n.toNat) r.arbB r.arbG (bindReady s.dev r) = some (b, ab, ag) →
      Completes (.drainGrant n) s fun e =>
        ∃ r' x, tblFind e.rings.drains n.toNat = some r' ∧ r'.xfer = some x ∧ x.qid = b.qid ∧ x.buf = buf ∧
          x.items = [] ∧ x.ended = false ∧ x.remote = (if isLocal s.dev b.qid then none else some n.toNat) ∧
          x.ew = ewOf s.dev b.qid ∧ r'.bufs = r.bufs ∧ r'.arbB = ab ∧ r'.arbG = ag ∧
          e.queues = s.dev.queues) ∧
    (∀ x, r.xfer = some x → x.ended = true → dmaAllowed s.dev = true → s.dev.link.lstate = .l12 →
      Completes (.drainTransferEnd n) s fun e => e = { s.dev with link.clkreq := true }) ∧
    (∀ x k, r.xfer = some x → x.ended = true → x.remote = none → canIssue s.dev = true → 64 ≤ s.dev.link.mps →
      tblFind s.dev.rings.comps r.cq = some k → k.waiting = [] → tblWf {} s.dev.queues = true →
      Completes (.drainTransferEnd n) s fun e =>
        (∃ r', tblFind e.rings.drains n.toNat = some r' ∧ r'.xfer = none ∧ r'.bufs = r.bufs.drop 1) ∧
        (∃ k', tblFind e.rings.comps r.cq = some k' ∧ k'.written = k.written + 1) ∧
        (∀ p ∈ splitReq (min 256 s.dev.link.mps) x.buf.addr (xferBytes s.dev x).length,
          OutMsg.memWrite p.1 (((xferBytes s.dev x).drop (p.1 - x.buf.addr)).take p.2) s.dev.link.roEn ∈ e.out) ∧
        ∀ q, (queueOf e q).items = (queueOf s.dev q).items)) ∧
  (∀ (s : State) (qid : BitVec 12), tblWf {} s.dev.queues = true → (queueOf s.dev qid.toNat).armed = none →
    timerDue s.dev (.drainWait qid.toNat) (drainWaitOf s.dev qid.toNat) = true → Completes (.drainWaitExpiry qid) s fun e =>
      queueOf e qid.toNat = { queueOf s.dev qid.toNat with waited := true } ∧
      e = { s.dev with queues := e.queues, tb.timers := e.tb.timers }) ∧
  (∀ (s : State) (c : BitVec 6) (k : CompRing), tblFind s.dev.rings.comps c.toNat = some k →
    timerDue s.dev (.irq c.toNat) k.time = true → s.dev.link.msixEn = true → s.dev.link.funcMask = false →
    (msixEntry s.dev k.vector).masked = false → canIssue s.dev = true → Completes (.completionIrqTimer c) s fun e =>
      tblFind e.rings.comps c.toNat = some { k with unreported := 0 } ∧ e.out = s.dev.out ++ [.msix k.vector])

/-! ### The host link -/

/-- An unmasked vector whose pending bit is set is sent and no longer pends; bus mastering and D-state take what is
written; link power states follow the link's idleness; errors of the receiver set their AER bit alone; a configuration
write changes its field; a reset of host-interface scope disables the admin pair and, without rings and a command in
execution, leaves queues, tiers and keys. -/
def Obligations.HostLinkCommands : Prop :=
  ∀ s : State,
    (∀ v : BitVec 5, hostReach s.dev = true → s.dev.link.msixEn = true → s.dev.link.funcMask = false →
      s.dev.link.pba.getLsbD v.toNat = true → canIssue s.dev = true → tblWf {} s.dev.link.vectors = true →
      Completes (.msixUnmask (.vector v)) s fun e => e.out = s.dev.out ++ [.msix v.toNat] ∧
        e.link.pba.getLsbD v.toNat = false ∧ (msixEntry e v.toNat).masked = false ∧
        e = { s.dev with link := e.link, out := e.out }) ∧
    (cfgReach s.dev = true → Completes (.msixUnmask .function) s fun e => e.link.funcMask = false ∧
      e = { s.dev with link := e.link, out := e.out }) ∧
    (∀ bme d3, cfgReach s.dev = true → Completes (.busMasterChange bme d3) s fun e =>
      e.link.bme = bme ∧ e.link.d3hot = d3 ∧ e.tier = s.dev.tier ∧ e.keys = s.dev.keys) ∧
    (s.dev.link.up = true → s.dev.pwr.perst = false → s.dev.link.aspmL1 = true → s.dev.link.lstate = .l0 →
      linkIdle s.dev = true → Completes .l1EntryRequest s fun e => e = { s.dev with
        link.lstate := if l11On s.dev then .l11 else .l1
        link.clkreq := s.dev.link.clkreq && !(l11On s.dev || l12On s.dev) }) ∧
    (s.dev.link.up = true → s.dev.pwr.perst = false → awake s.dev = true → s.dev.link.lstate ≠ .l12 →
      linkIdle s.dev = true → l12Allowed s.dev = true → Completes .l12Entry s fun e =>
        e = { s.dev with link.lstate := .l12, link.clkreq := false, pwr.phyLdo := e.pwr.phyLdo, tb := e.tb } ∧
        e.pwr.phyLdo = !listening e) ∧
    (s.dev.link.up = true → s.dev.pwr.perst = false → awake s.dev = true → s.dev.link.lstate = .l12 →
      Completes .l12Exit s fun e =>
        e.link.lstate = .l0 ∧ e.link.clkreq = true ∧ e.pwr.phyLdo = true ∧ (canIssue e = true → e.link.heldOut = [])) ∧
    (s.dev.link.up = true → s.dev.pwr.perst = false →
      let aer (b : Aer) (e : Dev) : Prop := b ∈ e.link.aer ∧ (∀ x, x ≠ b → (x ∈ e.link.aer ↔ x ∈ s.dev.link.aer)) ∧
        e = { s.dev with link.aer := e.link.aer, link.aerCap := e.link.aerCap, free := e.free }
      (∀ r, Completes (.unsupportedRequest r) s (aer .unsupportedRequest)) ∧
      Completes .poisonedTlpReceived s (aer .poisonedTlp) ∧
      ∀ x, Completes (.receiverErrorCmd x) s (aer (rxAer x))) ∧
    (cfgReach s.dev = true →
      Completes (.configSpaceWrite .pmeStatusClear) s (fun e => e = { s.dev with link.pmeStatus := false }) ∧
      (∀ c, Completes (.configSpaceWrite (.maxPayload c)) s fun e =>
        e = { s.dev with link.mps := 128 * 2 ^ c.toNat }) ∧
      (∀ c, Completes (.configSpaceWrite (.maxReadRequest c)) s fun e =>
        e = { s.dev with link.mrrs := 128 * 2 ^ c.toNat }) ∧
      (∀ v dis, Completes (.configSpaceWrite (.completionTimeout v dis)) s fun e =>
        e = { s.dev with link.ctoVal := v, link.ctoDis := dis }) ∧
      (∀ v, Completes (.configSpaceWrite (.pmeEn v)) s (fun e => e = { s.dev with link.pmeEn := v }) ∧
        Completes (.configSpaceWrite (.ltrEn v)) s (fun e => e = { s.dev with link.ltrEn := v }) ∧
        Completes (.configSpaceWrite (.relaxedOrdering v)) s (fun e => e = { s.dev with link.roEn := v }) ∧
        Completes (.configSpaceWrite (.aspmL1 v)) s (fun e => e = { s.dev with link.aspmL1 := v }) ∧
        ∀ fm, Completes (.configSpaceWrite (.msixControl v fm)) s fun e => e.link.msixEn = v ∧ e.link.funcMask = fm ∧
          e = { s.dev with link := e.link, out := e.out }) ∧
      (∀ v : Word, Completes (.configSpaceWrite (.bar 0 v)) s (fun e => e = { s.dev with link.bar0 := e.link.bar0 } ∧
          configHeader e 0x10 = v.toNat / 16384 * 16384 + 4 ∧ configHeader e 0x14 = configHeader s.dev 0x14) ∧
        Completes (.configSpaceWrite (.bar 1 v)) s (fun e => e = { s.dev with link.bar0 := e.link.bar0 } ∧
          configHeader e 0x14 = v.toNat) ∧
        Completes (.configSpaceWrite (.bar 2 v)) s (fun e => e = { s.dev with link.bar2 := e.link.bar2 } ∧
          configHeader e 0x18 = v.toNat / 65536 * 65536 + 4 ∧ configHeader e 0x1C = configHeader s.dev 0x1C) ∧
        Completes (.configSpaceWrite (.bar 4 v)) s fun e => e = s.dev) ∧
      (∀ x, Completes (.configSpaceWrite (.aerClear x)) s fun e => x ∉ e.link.aer ∧ e.link.aerCap.first ≠ some x ∧
        (∀ y, y ≠ x → (y ∈ e.link.aer ↔ y ∈ s.dev.link.aer)) ∧
        e = { s.dev with link.aer := e.link.aer, link.aerCap.first := e.link.aerCap.first }) ∧
      (∀ x v, Completes (.configSpaceWrite (.aerMask x v)) s (fun e =>
          (x ∈ e.link.aerCap.masked ↔ v = true) ∧
          e = { s.dev with link.aerCap.masked := e.link.aerCap.masked }) ∧
        Completes (.configSpaceWrite (.aerSeverity x v)) s fun e =>
          (x ∈ e.link.aerCap.fatal ↔ v = true) ∧ e = { s.dev with link.aerCap.fatal := e.link.aerCap.fatal }) ∧
      (∀ w v, Completes (.configSpaceWrite (.l1Substate w v)) s fun e =>
        e = { s.dev with link.l1ss := setL1Sub w v s.dev.link.l1ss }) ∧
      (∀ ns, Completes (.configSpaceWrite (.ltrThreshold ns)) s fun e =>
        e = { s.dev with link.l1ss.thresholdNs := ns }) ∧
      Completes (.configSpaceWrite .doeAbort) s fun e => e = { s.dev with link.doeError := false }) ∧
    (∀ r, s.dev.link.up = true → s.dev.pwr.perst = false → awake s.dev = true → Completes (.hostInterfaceReset r) s fun e =>
      e.adm.en = false ∧ e.link.up = decide (r = .flr) ∧ e.link.training = decide (r ≠ .flr) ∧
      e.regs = hostRegs s.dev.regs ∧ e.sweep = {} ∧
      (s.dev.rings = {} → s.dev.adm.run = none →
        e.queues = s.dev.queues ∧ e.tier = s.dev.tier ∧ e.keys = s.dev.keys ∧ e.bind = s.dev.bind))

/-! ### Tiers, journal, scrubber -/

/-- The first waiting program of a queue's segment takes a free deep segment, debits the bucket by 4096 bytes and runs,
or waits with everything else while the level is below that; once verified, the segment has its deep copy, its cells
hold its 4 KiB under the slot's key, and, where the tier policy lets go, it has no near copy; after a failure it goes
first in line again without a second debit. A deep read that completes without errors brings the segment into a near
segment; with the firmware running the journal timer writes what was gathered. -/
def Obligations.DeepProgramsReadsAndJournal : Prop :=
  ∀ s : State, tblWf {} s.dev.queues = true →
    (∀ (p : Prog) (qid pos n g : Nat) (x : ChainSeg) (q : Queue), q = queueOf s.dev qid → fwExec s.dev = true →
      tierBusy s.dev = false → s.dev.fuse.burn = none → s.dev.tier.progQ = [p] → p.what = .spill qid pos → p.again = false →
      segAt q pos = some x → x.near = some n → x.deep = none → x.loan = none → q.cfg.valid = true →
      s.dev.rep.upset = [] → slotUsable s.dev q.cfg.slot.toNat = true → deepCopies s.dev qid q < q.cfg.deepQuota →
      takeDeep s.dev = some g →
      (4096 ≤ s.dev.tier.level → Completes .deepProgramStart s fun e =>
        (∃ p', e.tier.active = s.dev.tier.active ++ [p'] ∧ p'.what = .spill qid pos ∧ p'.seg = some g ∧
          p'.items = progItems q x ∧ p'.slot = q.cfg.slot.toNat) ∧
        e.tier.progQ = [] ∧ e.tier.level = s.dev.tier.level - 4096 ∧ e.tier.debited = s.dev.tier.debited + 4096 ∧
        tblFind e.tier.deep g = some .busy ∧ queueOf e qid = setProg pos .started q ∧
        ∀ j, j ≠ qid → queueOf e j = queueOf s.dev j) ∧
      (s.dev.tier.level < 4096 → Completes .deepProgramStart s fun e =>
        e = { s.dev with tb.timers := e.tb.timers })) ∧
    (∀ (p : Prog) (qid pos : Nat) (g : BitVec 14) (x : ChainSeg), s.dev.tier.active = [p] → p.seg = some g.toNat →
      p.what = .spill qid pos → segAt (queueOf s.dev qid) pos = some x → s.dev.tier.sealRun = none →
      Completes (.deepProgramVerified g true) s (fun e => e.tier.active = [] ∧
        (queueOf e qid).items = (queueOf s.dev qid).items ∧
        ∃ x', segAt (queueOf e qid) pos = some x' ∧ x'.prog = .none ∧
          x'.deep = some { seg := g.toNat, gen := p.gen, named := (queueOf s.dev qid).cfg.persist } ∧
          tblFind e.tier.cells g.toNat = some (cipher Config.xtsEncrypt (slotKey s.dev p.slot) (ownNode s.dev) g.toNat 0
            (segBytes (queueOf s.dev qid).cfg.ew p.items)) ∧
          (letGo (queueOf s.dev qid) pos = true → x'.near = none) ∧
          (letGo (queueOf s.dev qid) pos = false → x'.near = x.near)) ∧
      Completes (.deepProgramVerified g false) s fun e => e.tier.active = [] ∧ e.tier.level = s.dev.tier.level ∧
        e.tier.progQ.head? = some { what := .spill qid pos, again := true, spills := p.spills } ∧
        (queueOf e qid).items = (queueOf s.dev qid).items) ∧
    (∀ (qid : BitVec 12) (pos : Nat) (x : ChainSeg) (r : DeepRef), fwExec s.dev = true →
      segAt (queueOf s.dev qid.toNat) pos = some x → x.deep = some r → x.reading = true → x.near = none →
      canTakeNear s.dev (queueOf s.dev qid.toNat) = true →
      copyReads s.dev (queueOf s.dev qid.toNat).cfg.slot.toNat r.gen = true →
      Completes (.deepReadComplete qid pos []) s fun e => (queueOf e qid.toNat).items = (queueOf s.dev qid.toNat).items ∧
        ∃ x', segAt (queueOf e qid.toNat) pos = some x' ∧ x'.near.isSome = true ∧ x'.reading = false ∧ x'.deep = some r) ∧
    (fwExec s.dev = true → timerDue s.dev .journal 1000000 = true → s.dev.tier.exhausted = false →
      s.dev.tier.gathered ≠ [] → s.dev.tier.jSegs < 95 → Completes .journalTimerExpiry s fun e =>
        e.tier.journal = s.dev.tier.journal ++ s.dev.tier.gathered ∧ e.tier.gathered = [] ∧
        e.tier.jPos = s.dev.tier.jPos + 1 ∧ e.queues = s.dev.queues)

/-- A scrub step of the near walk corrects a word with one error and puts its address on the suspect list; one of the deep
walk counts what the code found in its sector; both move the walk on by one group. -/
def Obligations.ScrubStepsMoveTheWalks : Prop :=
  ∀ s : State,
    (∀ g g', groupDue s.dev s.dev.regs.scrubNearEn .scrubNear s.dev.regs.nearGap = true →
      nearGroupFrom s.dev s.dev.rep.nearPos = some g → nearGroupFrom s.dev (g + 1) = some g' →
      (s.dev.rep.upset = [] → Completes (.scrubNearGroup []) s fun e =>
        e = { s.dev with rep.nearPos := g + 1, tb.timers := e.tb.timers }) ∧
      (∀ a x qid c, s.dev.rep.upset = [(a, x)] → a / 8 = g → nearOwner s.dev (a / 512) = some (qid, c) →
        a % 512 * 8 < c.used * ewBytes (queueOf s.dev qid).cfg.ew → upsetClass x = 1 →
        (∀ y ∈ s.dev.rep.nearSuspects, y.addr ≠ a) → Completes (.scrubNearGroup []) s fun e =>
          e.rep.upset = [] ∧ e.rep.nearCorr = sat32 s.dev.rep.nearCorr 1 ∧ (∃ y ∈ e.rep.nearSuspects, y.addr = a) ∧
          e.rep.nearPos = g + 1 ∧ e.rep.nearUncorr = s.dev.rep.nearUncorr)) ∧
    (∀ a a', groupDue s.dev s.dev.regs.scrubDeepEn .scrubDeep s.dev.regs.deepGap = true →
      sectorFrom s.dev s.dev.rep.deepPos = some a → sectorFrom s.dev (a + 1) = some a' → s.dev.keys.slots = [] →
      Completes (.scrubDeepGroup .clean) s (fun e =>
        e = { s.dev with rep.deepPos := a + 1, tb.timers := e.tb.timers }) ∧
      Completes (.scrubDeepGroup .one) s fun e => e = { s.dev with
        rep.deepPos := a + 1, rep.deepCorr1 := sat32 s.dev.rep.deepCorr1 1, tb.timers := e.tb.timers })

/-! ### The cascade ring: training, acknowledgement, presence -/

/-- CAS_ENABLE trains the ring and 64 TRAIN flits end the training; an acknowledgement takes the oldest unit out and its
credits in; a NAK or a retry timeout sends every unacknowledged unit again, and after the eighth attempt the node is
lost; an owed acknowledgement goes out; a flit with a bad CRC is counted and gone; a unit out of turn draws one NAK. -/
def Obligations.RingUnitsAreAcknowledgedOrResent : Prop :=
  ∀ s : State,
    (hostReach s.dev = true → s.dev.regs.casEn = false → Completes .casEnable s fun e => e.regs.casEn = true ∧
      e = { s.dev with regs.casEn := true, cas := e.cas, tb.timers := e.tb.timers, out := e.out } ∧
      (ownNode s.dev = 0 → fwRunning s.dev = true → s.dev.err.fatal = false →
        e.cas.training = true ∧ e.cas.up = false ∧ OutMsg.flit 0 0 0 0 0 false trainPayload ∈ e.out)) ∧
    (ringOn s.dev = true → ownNode s.dev = 0 → s.dev.cas.training = true →
      (s.dev.cas.trainSeen + 1 < 64 → Completes .train s fun e =>
        e = { s.dev with cas.trainSeen := s.dev.cas.trainSeen + 1 }) ∧
      (64 ≤ s.dev.cas.trainSeen + 1 → Completes .train s fun e =>
        e.cas.up = true ∧ e.cas.training = false ∧ e.cas.trainSeen = 0 ∧ RingOnly s.dev e)) ∧
    (ringOn s.dev = true → ownNode s.dev ≠ 0 → Completes .train s fun e =>
      e.out = s.dev.out ++ [.forward 0 0 0 0 trainPayload] ∧ e.cas.training = true ∧ e.cas.up = false ∧ RingOnly s.dev e) ∧
    (∀ (h : FlitHdr) (p : Peer) (f : SentFlit) (fs : List SentFlit), ForMe h s.dev → p = peerOf s.dev h.src.toNat →
      h.ackv = true → p.unacked = f :: fs → (f.seq + flitUnits f.payload) % 256 = h.ack.toNat → p.waiting = [] →
      p.abortQ = [] → Completes (.ack h) s fun e =>
        peerOf e h.src.toNat = { p with
          unacked := fs, credits := min 16 (p.credits + h.crd.toNat), attempts := (if fs = [] then 0 else 1)
          retrying := false } ∧
        e = { s.dev with cas.peers := e.cas.peers, tb.timers := e.tb.timers }) ∧
    (∀ (n : Nat) (p : Peer), p = peerOf s.dev n → p.unacked ≠ [] →
      let again (e : Dev) : Prop := (peerOf e n).attempts = p.attempts + 1 ∧ (peerOf e n).unacked = p.unacked ∧
        (peerOf e n).retrying = true ∧ RingOnly s.dev e ∧
        ∀ f ∈ p.unacked, ∃ crd, OutMsg.flit f.type n f.seq p.rxSeq crd true f.payload ∈ e.out
      (∀ h, ForMe h s.dev → h.src.toNat = n → h.ackv = false → p.attempts < 8 → Completes (.nak h) s again) ∧
      (∀ b : BitVec 2, b.toNat = n → ringOn s.dev = true → timerDue s.dev (.retry n) 20 = true → p.st = .present →
        (p.attempts < 8 → Completes (.retryTimeout b) s again) ∧
        (8 ≤ p.attempts → Completes (.retryTimeout b) s fun e =>
          (peerOf e n).st = .lost ∧ (peerOf e n).exhausted = sat32 p.exhausted 1 ∧ (peerOf e n).unacked = []))) ∧
    (∀ (b : BitVec 2) (p : Peer), p = peerOf s.dev b.toNat → ringOn s.dev = true → p.st = .present → p.ackDue = true →
      s.dev.cas.standbyAfterRsp = false → Completes (.ackTimerExpiry b) s fun e => RingOnly s.dev e ∧
        e.out = s.dev.out ++ [.flit 1 b.toNat 0 p.rxSeq (min p.owedCredits 15) true []] ∧
        peerOf e b.toNat = { p with ackDue := false, owedCredits := p.owedCredits - min p.owedCredits 15 }) ∧
    (ringOn s.dev = true → Completes .flitCrcFail s fun e =>
      e = { s.dev with cas.crcErrors := sat32 s.dev.cas.crcErrors 1, cas.trainSeen := 0 }) ∧
    (∀ (h : FlitHdr) (p : PushPl), ForMe h s.dev → h.ackv = false → h.seq.toNat ≠ (peerOf s.dev h.src.toNat).rxSeq →
      (peerOf s.dev h.src.toNat).nakSent = false → Completes (.push h p) s fun e => RingOnly s.dev e ∧
        (peerOf e h.src.toNat).nakSent = true ∧ (peerOf e h.src.toNat).rib = (peerOf s.dev h.src.toNat).rib ∧
        ∃ ack crd, OutMsg.flit 2 h.src.toNat 0 ack crd true [] ∈ e.out)

/-- Beacons go out on their timer; one that arrives makes its sender present or brings its epoch, seal and power state up
to date, and is passed on; without one for four intervals the sender is lost. A peer that waits for its image keeps its chunks,
which pass on through closed switches, and starts the verified image at the JOIN that names it. -/
def Obligations.BeaconsAndImagesMakePresence : Prop :=
  ∀ s : State,
    (ringOn s.dev = true → fwExec s.dev = true → timerDue s.dev .beacon s.dev.regs.casBeacon = true →
      Completes .beaconTimer s fun e =>
        e = { s.dev with out := s.dev.out ++ [.flit 3 0 0 0 0 false (beaconPayload s.dev)], tb.timers := e.tb.timers }) ∧
    (∀ (h : FlitHdr) (b : BeaconPl) (p : Peer), p = peerOf s.dev h.src.toNat → ringOn s.dev = true →
      fwExec s.dev = true → s.dev.cas.held = [] → s.dev.cas.standbyAfterRsp = false → h.src.toNat ≠ ownNode s.dev →
      s.dev.cas.up = true → s.dev.cas.training = false →
      (p.st = .present → p.boots = b.boots → p.lineage = b.lineage → Completes (.beacon h b) s fun e =>
        peerOf e h.src.toNat = { p with epoch := b.epoch, sealing := b.sealing, pstate := b.pstate } ∧
        e.out = s.dev.out ++ [.forward 3 h.src.toNat h.dst.toNat 0 (beaconBytes b)] ∧
        timerOn e (.beaconTo h.src.toNat) = true ∧ RingOnly s.dev e) ∧
      (p.st ≠ .present → timerOn s.dev (.beaconTo h.src.toNat) = false → Completes (.beacon h b) s fun e =>
        (peerOf e h.src.toNat).st = .present ∧ (peerOf e h.src.toNat).boots = b.boots ∧
        (peerOf e h.src.toNat).lineage = b.lineage ∧ (peerOf e h.src.toNat).epoch = b.epoch)) ∧
    (∀ n : BitVec 2, fwExec s.dev = true → isPresent s.dev n.toNat = true →
      timerDue s.dev (.beaconTo n.toNat) (4 * s.dev.regs.casBeacon) = true → Completes (.beaconTimeout n) s fun e =>
        (peerOf e n.toNat).st = .lost ∧ (peerOf e n.toNat).losses = sat32 (peerOf s.dev n.toNat).losses 1) ∧
    (∀ (h : FlitHdr) (k : BitVec 24) (data : Bytes), ringOn s.dev = false → waitsForImage s.dev = true →
      s.dev.boot.status = .loading → tblFind s.dev.boot.relayed 1 = none → k.toNat ≠ 1 → Completes (.img h k data) s fun e =>
        tblFind e.boot.relayed k.toNat = some (sliceBytes data 0 7) ∧ e.boot.status = .loading ∧
        e.out = (if ringBypassed s.dev then
          s.dev.out ++ [.forward 11 h.src.toNat h.dst.toNat 0 (imgPayload k.toNat data)] else s.dev.out) ∧
        e = { s.dev with boot.relayed := e.boot.relayed, out := e.out }) ∧
    (∀ (h : FlitHdr) (m : BitVec 4) (lost : Unread), ownNode s.dev ≠ 0 → fwRunning s.dev = false → awake s.dev = true →
      s.dev.cas.verified = true → m.getLsbD (ownNode s.dev) = true → Completes (.join h m lost) s fun e =>
        e.boot.status = .fwRunning ∧ e.cas.switchClosed = false)

/-! ### The cascade ring: bursts and transfers -/

/-- A PUSH in its turn enters the ring ingress buffer of its sender as one burst. A POP_REQ starts a transfer, arms a
queue, lets held items go, or brings them back to the head; a POP_RSP ends the transfer of its drain ring with its
bytes, makes a queue ready, or is a late result. -/
def Obligations.RingMovesBurstsAndTransfers : Prop :=
  ∀ (s : State) (h : FlitHdr) (src : Nat), src = h.src.toNat → InTurn h s.dev → tblWf {} s.dev.queues = true →
    (∀ p : PushPl, Completes (.push h p) s fun e => (peerOf e src).rib = (peerOf s.dev src).rib ++
        [{ prod := .node src, qid := ownNode s.dev * 4096 + p.qid.toNat, stamp := s.dev.epoch.seq
           items := if p.abort then [] else
             itemsOf (queueOf s.dev p.qid.toNat).cfg.ew (p.data.take 64) p.ends p.ragged
           ringStamp := some p.stamp, sop := p.opens, abort := p.abort }] ∧ RingOnly s.dev e) ∧
    (∀ (p : PopReqPl) (q : Queue), q = queueOf s.dev p.qid.toNat →
      let only (q' : Queue) (e : Dev) : Prop := queueOf e p.qid.toNat = q' ∧
        (∀ j, j ≠ p.qid.toNat → queueOf e j = queueOf s.dev j) ∧ RingOnly { s.dev with queues := e.queues } e
      (p.done = false → p.ret = false → p.arm = false → q.ptx = none → q.cfg.valid = true →
        Completes (.popReq h p) s (only { q with
          armed := none
          ptx := some { tag := p.tag.toNat, limit := p.limit.toNat, packed := p.packed, ew := q.cfg.ew } })) ∧
      (p.done = false → p.ret = false → p.arm = true → drainReady q p.packed (p.dmin.toNat * 64) p.wait.toNat 0xFFFFFF = false →
        Completes (.popReq h p) s fun e =>
          (queueOf e p.qid.toNat).armed = some (p.packed, p.dmin.toNat * 64, p.wait.toNat, p.tag.toNat) ∧
          (queueOf e p.qid.toNat).items = q.items) ∧
      (p.done = true → Completes (.popReq h p) s fun e =>
        (queueOf e p.qid.toNat).held = q.held.filter (fun x => x.1 ≠ p.tag.toNat) ∧
        (queueOf e p.qid.toNat).items = q.items) ∧
      (∀ x, p.done = false → p.ret = true → q.ptx = none → q.held.find? (fun x => x.1 = p.tag.toNat) = some x →
        x.2 ≠ [] → Completes (.popReq h p) s fun e =>
          (queueOf e p.qid.toNat).items = (if q.owedEnd then closeRun x.2 else x.2) ++ q.items ∧
          (queueOf e p.qid.toNat).held = q.held.filter (fun x => x.1 ≠ p.tag.toNat))) ∧
    (∀ (p : PopRspPl) (gq : Nat), gq = src * 4096 + p.qid.toNat →
      (tblFind s.dev.rings.drains p.tag.toNat = none → p.ready = false → Completes (.popRsp h p) s fun e =>
        (peerOf e src).late = sat32 (peerOf s.dev src).late 1 ∧ e.rings = s.dev.rings ∧ e.queues = s.dev.queues) ∧
      (∀ r, tblFind s.dev.rings.drains p.tag.toNat = some r →
        (p.ready = true → gq ∉ r.ready → s.dev.bind.drain.any (fun b => b.target = p.tag.toNat && b.qid = gq) = true →
          Completes (.popRsp h p) s fun e =>
            ∃ r', tblFind e.rings.drains p.tag.toNat = some r' ∧ r'.ready = r.ready ++ [gq] ∧ r'.xfer = r.xfer) ∧
        (∀ x, p.ready = false → r.xfer = some x → x.remote = some p.tag.toNat → x.qid = gq → x.ended = false →
          p.data ≠ [] → Completes (.popRsp h p) s fun e =>
            tblFind e.rings.drains p.tag.toNat = some { r with xfer := some { x with
              bytes := p.data.take x.buf.len, remoteFlags := popRspFlags p, ended := true } } ∧
            e.queues = s.dev.queues)))

/-! ### Borrowed segments -/

/-- The lender: a loan request is granted with the segment of R328 or refused; a WRITE queues the loan's program; a
READ_REQ is answered with the sectors as stored; a RELEASE ends the loan; a RECLAIM lists the borrower's PERSIST
loans. -/
def Obligations.LendersServeTheirBorrowers : Prop :=
  ∀ (s : State) (h : FlitHdr) (p : SegPl) (src : Nat), src = h.src.toNat → InTurn h s.dev →
    let unit (op : Nat) : Dev := accepted h (segUnitBytes op p) s.dev
    (lendable s.dev = 0 → Completes (.loanReq h p) s fun e =>
      e = govTrack (sendSeq src 8 (segPayload 2 0 p.persist 0 0 p.borrower.toNat []) (unit 0))) ∧
    (∀ g, 0 < lendable s.dev → chooseDeep s.dev = some g → tblFind s.dev.tier.loans g = none →
      Completes (.loanReq h p) s fun e =>
        tblFind e.tier.loans g = some { node := src, lineage := (peerOf s.dev src).lineage, persist := p.persist
                                        borrower := p.borrower.toNat, seg := g, data := [] } ∧
        tblFind e.tier.deep g = some (.lent g) ∧
        RingOnly { s.dev with tier.loans := e.tier.loans, tier.deep := e.tier.deep } e) ∧
    (∀ l, loanTo s.dev src p.handle.toNat = some l →
      (lentRuns s.dev p.handle.toNat = false → l.data = [] → Completes (.segWrite h p) s fun e =>
        e.tier.progQ = s.dev.tier.progQ ++ [{
          what := .lent p.handle.toNat src l.borrower l.persist (sliceBytes p.data 0 4096), seg := some l.seg }] ∧
        RingOnly { s.dev with tier.progQ := e.tier.progQ } e) ∧
      (p.first.toNat + p.count.toNat < 128 → Completes (.readReq h p) s fun e =>
        e = sendSeq src 8 (segPayload 7 p.handle.toNat l.persist p.first.toNat p.count.toNat p.borrower.toNat
          (sliceBytes l.data (32 * p.first.toNat) (32 * (p.count.toNat + 1)))) (unit 6)) ∧
      (tblSorted s.dev.tier.loans = true → Completes (.segRelease h p) s fun e =>
        tblFind e.tier.loans p.handle.toNat = none ∧
        ∀ g, g ≠ p.handle.toNat → tblFind e.tier.loans g = tblFind s.dev.tier.loans g)) ∧
    Completes (.reclaim h p) s fun e => e = sendSeq src 8 (segPayload 11 0 false 0 0 0 [])
      ((s.dev.tier.loans.filter fun l =>
          l.2.node = src && l.2.persist && l.2.lineage = (peerOf s.dev src).lineage).foldl
        (fun d l => sendSeq src 8 (segPayload 10 l.1 true 0 0 l.2.borrower []) d) (unit 9))

/-- The borrower: a grant starts the writing of the segment that waits for it, a refusal ends it; VERIFY_OK puts the
borrowed copy in its place and VERIFY_FAIL asks for another; a READ_RSP brings the segment into a near segment; a
LOAN_LIST restores the hole of its handle; LIST_END and the limit of CAS_HOLE_TO leave no hole against that lender. -/
def Obligations.BorrowersFollowTheirLenders : Prop :=
  (∀ (s : State) (h : FlitHdr) (p : SegPl) (src : Nat), src = h.src.toNat → InTurn h s.dev →
    tblWf {} s.dev.queues = true →
    (∀ x qid pos node gen, borrowing s.dev src p.borrower.toNat none = some x → x.what = .borrow qid pos node gen none →
      (stillNear s.dev qid pos = true → Completes (.loanGrant h p) s fun e =>
        e.tier.active = s.dev.tier.active.filter (fun y => y ≠ x) ++
          [{ x with what := .borrow qid pos node gen (some p.handle.toNat) }] ∧
        queueOf e qid = setProg pos .started (queueOf s.dev qid) ∧
        RingOnly { s.dev with tier.active := e.tier.active, queues := e.queues } e) ∧
      (s.dev.tier.sealRun = none → (queueOf s.dev qid).cfg.tier ≠ 2 → Completes (.loanRefuse h p) s fun e =>
        e.tier.active = s.dev.tier.active.filter (fun y => y ≠ x) ∧
        queueOf e qid = setProg pos .none (queueOf s.dev qid) ∧
        RingOnly { s.dev with tier.active := e.tier.active, queues := e.queues } e)) ∧
    (∀ x qid pos node gen, borrowing s.dev src 0 (some p.handle.toNat) = some x →
      x.what = .borrow qid pos node gen (some p.handle.toNat) →
      (∀ c, segAt (queueOf s.dev qid) pos = some c → s.dev.tier.sealRun = none → Completes (.verifyOk h p) s fun e =>
        (queueOf e qid).items = (queueOf s.dev qid).items ∧ x ∉ e.tier.active ∧
        ∃ c', segAt (queueOf e qid) pos = some c' ∧ c'.prog = .none ∧
          c'.loan = some { node, handle := p.handle.toNat, gen, lineage := (peerOf s.dev src).lineage } ∧
          (letGo (queueOf s.dev qid) pos = true → c'.near = none)) ∧
      (stillNear s.dev qid pos = true → Completes (.verifyFail h p) s fun e =>
        e.tier.active = s.dev.tier.active.filter (fun y => y ≠ x) ++ [{ x with what := .borrow qid pos node gen none }] ∧
        queueOf e qid = setProg pos .queued (queueOf s.dev qid) ∧
        RingOnly { s.dev with tier.active := e.tier.active, queues := e.queues } e)) ∧
    (∀ c qid, qid = p.borrower.toNat % 4096 → canTakeNear s.dev (queueOf s.dev qid) = true →
      (queueOf s.dev qid).chain.find? (fun x => x.reading && x.near.isNone &&
        (x.loan.map fun l => (l.node, l.handle)) = some (src, p.handle.toNat)) = some c →
      Completes (.readRsp h p) s fun e => (queueOf e qid).items.length = (queueOf s.dev qid).items.length ∧
        ∃ c', segAt (queueOf e qid) c.pos = some c' ∧ c'.near.isSome = true ∧ c'.reading = false) ∧
    (chained s.dev src p.handle.toNat = true → Completes (.loanList h p) s fun e =>
      (peerOf e src).listed = (peerOf s.dev src).listed ++ [p.handle.toNat] ∧
      ∀ q, ∀ c ∈ (queueOf e q).chain, (c.loan.map fun l => (l.node, l.handle)) = some (src, p.handle.toNat) →
        c.hole = false) ∧
    ((peerOf s.dev src).reclaiming = true → Completes (.listEnd h p) s fun e =>
      (peerOf e src).reclaiming = false ∧ (peerOf e src).listed = [] ∧
      ∀ q, ∀ c ∈ (queueOf e q).chain, holeOf src c = false)) ∧
  (∀ (s : State) (n : BitVec 2), fwExec s.dev = true → s.dev.regs.casHoleTo ≠ 0 → tblWf {} s.dev.queues = true →
    timerDue s.dev (.hole n.toNat) s.dev.regs.casHoleTo = true → Completes (.holeTimeout n) s fun e =>
      ∀ q, ∀ c ∈ (queueOf e q).chain, holeOf n.toNat c = false)

/-! ### The SPDM responder -/

/-- A request that the mailbox may answer gets the response of its code; before the algorithms are agreed the later ones
get UnexpectedRequest; an unsupported code gets UnsupportedRequest; before the image a request is held with DOE Busy
set; a data object above 2048 DW sets DOE Error. Nonces, signatures and sizes that the spec leaves open may have any value. -/
def Obligations.SpdmRequestsAreAnswered : Prop :=
  ∀ s : State,
    (DoeReady s.dev →
      Completes .getVersion s (fun e => Says 1 versionMsg s.dev e ∧ e.spdm.version = true ∧ e.spdm.algs = false) ∧
      (s.dev.spdm.version = true → Completes .getCapabilities s fun e =>
        (∃ sizes, sizes < 2 ^ 64 ∧ Says 1 (capsMsg sizes) s.dev e) ∧ e.spdm.caps = true) ∧
      (s.dev.spdm.version = false → Completes .getCapabilities s (Says 1 (spdmError 0x04 0) s.dev)) ∧
      (s.dev.spdm.caps = true → Completes .negotiateAlgorithms s fun e => Says 1 algsMsg s.dev e ∧ e.spdm.algs = true) ∧
      (s.dev.spdm.caps = false → Completes .negotiateAlgorithms s (Says 1 (spdmError 0x04 0) s.dev)) ∧
      (∀ i, Completes (.doeDiscovery i) s (Says 0 (discoveryBytes i.toNat) s.dev)) ∧
      (∀ c n, n ≤ 2048 → Completes (.spdmUnsupportedRequest ⟨c, n⟩) s (Says 1 (spdmError 0x07 c.toNat) s.dev)) ∧
      (s.dev.spdm.algs = false → Completes .getDigests s (Says 1 (spdmError 0x04 0) s.dev) ∧
        ∀ slot sum nonce, Completes (.challenge slot sum nonce) s (Says 1 (spdmError 0x04 0) s.dev)) ∧
      (s.dev.spdm.algs = true →
        Completes .getDigests s (Says 1 (spdmHdr 0x01 0 1 ++ chainHash s.dev) s.dev) ∧
        (∀ off len : BitVec 16, off.toNat < (certChain s.dev).length → Completes (.getCertificate 0 off len) s
          (Says 1 (spdmHdr 0x02 0 0 ++ natLe 2 (((certChain s.dev).drop off.toNat).take len.toNat).length ++
            natLe 2 ((certChain s.dev).length - off.toNat - (((certChain s.dev).drop off.toNat).take len.toNat).length) ++
            ((certChain s.dev).drop off.toNat).take len.toNat) s.dev)) ∧
        (∀ slot off len, slot ≠ 0 → Completes (.getCertificate slot off len) s (Says 1 (spdmError 0x01 0) s.dev)) ∧
        (∀ nonce, Completes (.challenge 0 0 nonce) s fun e => ∃ n g : Bytes, n.length = 32 ∧ g.length = 96 ∧
          Says 1 (spdmHdr 0x03 0 1 ++ chainHash s.dev ++ n ++ natLe 2 0 ++ g) s.dev e) ∧
        (∀ nonce, Completes (.challenge 0 0xFF nonce) s fun e => ∃ n g : Bytes, n.length = 32 ∧ g.length = 96 ∧
          Says 1 (spdmHdr 0x03 0 1 ++ chainHash s.dev ++ n ++
            digestBytes (Config.sha384 ((measBlocks s.dev).flatMap (·.2))) ++ natLe 2 0 ++ g) s.dev e) ∧
        (∀ nonce, Completes (.getMeasurements 0xFF false nonce) s fun e => ∃ n : Bytes, n.length = 32 ∧
          Says 1 (spdmHdr 0x60 0 0 ++ natLe 1 (measBlocks s.dev).length ++
            natLe 3 ((measBlocks s.dev).flatMap (·.2)).length ++ (measBlocks s.dev).flatMap (·.2) ++ n ++ natLe 2 0)
            s.dev e))) ∧
    (s.dev.link.up = true → s.dev.pwr.perst = false → awake s.dev = true → s.dev.spdm.doeBusy = false →
      (s.dev.boot.status = .rom →
        Completes .getDigests s fun e => e = { s.dev with spdm.doeBusy := true, spdm.held := some .getDigests }) ∧
      ∀ c n, 2048 < n → Completes (.spdmUnsupportedRequest ⟨c, n⟩) s fun e => e = { s.dev with link.doeError := true })

/-! ### JTAG and the Loupe -/

/-- The boundary-scan and identification instructions load IR and leave the device's work alone; the Loupe reads a setup
register without a side effect and writes a halted Shuttle's SRAM; a halt takes effect at once or after the locked
sequence, RESUME ends it, with the near hard faults that waited for the firmware taken up and no stored item changed; a challenge is drawn until three responses have failed, and a response unlocks only when its
key and signature are right. -/
def Obligations.JtagAndLoupeActAsAllowed : Prop :=
  ∀ s : State, awake s.dev = true →
    let scanned (i : TapInstr) (out : Bytes) (e : Dev) : Prop := e = { s.dev with jtag.ir := i, jtag.out := out }
    let onlyJtag (e : Dev) : Prop := e = { s.dev with jtag := e.jtag, free := e.free }
    Completes .idcode s (scanned .idcode (natLe 4 0x134015CF)) ∧ Completes .bypass s (scanned .bypass [0]) ∧
    Completes .clamp s (scanned .clamp [0]) ∧ Completes .highz s (scanned .highz [0]) ∧
    Completes .tapReset s (fun e => e = { s.dev with jtag.ir := .idcode }) ∧
    (∀ data, Completes (.samplePreload data) s fun e => e.jtag.ir = .sample ∧ e.jtag.boundary = data ∧ onlyJtag e) ∧
    (∀ data, Completes (.extest data) s fun e => e.jtag.ir = .extest ∧ onlyJtag e ∧
      (s.dev.boot.status = .waitImage → e.jtag.boundary = data) ∧
      (fwRunning s.dev = true → e.jtag.boundary = s.dev.jtag.boundary ∧ e.jtag.out = [0])) ∧
    (loupeShut s.dev = false →
      (∀ v, Completes (.loupeAddr v) s fun e =>
        e.jtag.addr = v.setWidth 32 ∧ e.jtag.space = (v >>> 32).setWidth 4 ∧ onlyJtag e) ∧
      (mayRead s.dev = true → s.dev.jtag.space = 0 → s.dev.jtag.addr.toNat < 0x4000 → Completes .loupeRead s fun e =>
        e.jtag.data = BitVec.ofNat 32 (readReg s.dev s.dev.jtag.addr.toNat) ∧ e.jtag.done = true ∧ e.jtag.accErr = false ∧
        e.jtag.addr = (if s.dev.jtag.autoinc then s.dev.jtag.addr + 4 else s.dev.jtag.addr) ∧ onlyJtag e) ∧
      (mayRead s.dev = false → Completes .loupeRead s fun e =>
        e.jtag.done = true ∧ e.jtag.accErr = true ∧ e.jtag.data = s.dev.jtag.data ∧ onlyJtag e) ∧
      (∀ v, mayControl s.dev = true → s.dev.jtag.space = 4 → s.dev.jtag.addr.toNat < 65536 →
        tblWf 0 s.dev.boot.iSram = true →
        (s.dev.jtag.halted = true → Completes (.loupeWrite v) s fun e => e.jtag.accErr = false ∧
          tblGet 0 e.boot.iSram (s.dev.jtag.addr.toNat / 4) = v ∧
          e = { s.dev with jtag := e.jtag, boot.iSram := e.boot.iSram }) ∧
        (s.dev.jtag.halted = false → Completes (.loupeWrite v) s fun e => e.jtag.accErr = true ∧ onlyJtag e)) ∧
      (∀ a, mayControl s.dev = true → s.dev.jtag.halted = false →
        (lockedSeq s.dev = 0 → Completes (.haltReq a) s fun e => e.jtag.halted = true ∧ e.jtag.haltPend = false ∧
          e = { s.dev with jtag := e.jtag, tb.timers := e.tb.timers }) ∧
        (lockedSeq s.dev ≠ 0 → Completes (.haltReq a) s fun e => e.jtag.haltPend = true ∧ e.jtag.halted = false ∧
          onlyJtag e)) ∧
      (∀ a, mayControl s.dev = true → s.dev.jtag.halted = true →
        Completes (.stepCmd a) s (fun e => e.jtag.halted = true ∧ e.jtag.core = [] ∧ onlyJtag e) ∧
        (s.dev.cas.held = [] → s.dev.spdm.held = none → s.dev.cas.standbyAfterRsp = false →
          tblWf {} s.dev.queues = true → Completes (.resume a) s fun e => e.jtag.halted = false ∧
            (fwRunning s.dev = true → s.dev.jtag.haltPend = false → s.dev.err.fatal = false → e.rep.faultsDue = []) ∧
            ∀ j, (queueOf e j).items = (queueOf s.dev j).items ∧ (queueOf e j).retained = (queueOf s.dev j).retained))) ∧
    (s.dev.jtag.haltPend = true → lockedSeq s.dev = 0 → Completes .shuttleHalt s fun e =>
      e.jtag.halted = true ∧ e.jtag.haltPend = false ∧ e = { s.dev with jtag := e.jtag, tb.timers := e.tb.timers }) ∧
    (s.dev.jtag.fails < 3 → Completes .unlockChal s fun e => onlyJtag e ∧ ∃ (n : BitVec 256) (sig : Bytes),
      sig.length = 96 ∧ e.jtag.chal = some (chalBytes (serialNumber s.dev) n) ∧
      e.jtag.out = chalBytes (serialNumber s.dev) n ++ sig) ∧
    (3 ≤ s.dev.jtag.fails → Completes .unlockChal s fun e =>
      e.jtag.chal = s.dev.jtag.chal ∧ e.jtag.out = List.replicate 144 0 ∧ onlyJtag e) ∧
    (∀ r, 3 ≤ s.dev.jtag.fails → Completes (.unlockResp r) s fun e =>
      e.jtag = { s.dev.jtag with ir := e.jtag.ir, out := e.jtag.out } ∧ onlyJtag e) ∧
    (∀ r, s.dev.jtag.fails < 3 → Completes (.unlockResp r) s fun e => e.jtag.chal = none ∧
      if unlockOk r s.dev then
        e.jtag.unlocked = some (BitVec.ofNat 2 (leAt r 1 1)) ∧ e.jtag.fails = s.dev.jtag.fails ∧
        e = { s.dev with jtag := e.jtag, err.log := e.err.log, err.logSeq := e.err.logSeq }
      else e.jtag.unlocked = s.dev.jtag.unlocked ∧ e.jtag.fails = s.dev.jtag.fails + 1 ∧
        (e.err.last.map (·.code)) = some 0x86)

/-! ### After POR -/

/-- The registers whose Reset column gives a value read it after POR, and nothing is stored, open or running. -/
def Obligations.ResetLeavesTheResetColumn : Prop :=
  (∀ x ∈ [(0x0000, 0x01340111), (0x0010, 0), (0x0040, 0), (0x0044, 0), (0x0048, 0), (0x004C, 0), (0x0050, 0), (0x0054, 0),
      (0x0080, 0x50705), (0x0084, 8 + 500 * 65536), (0x0088, 8), (0x0090, 0), (0x0094, 0), (0x0098, 2), (0x0100, 0),
      (0x0104, 0), (0x0108, 0), (0x010C, 0), (0x0110, 0), (0x0114, 200), (0x0118, 50000), (0x0120, 0), (0x0124, 0),
      (0x0128, 0), (0x012C, 0), (0x0130, 0), (0x0134, 0), (0x0138, 100000), (0x0140, 0), (0x0144, 0), (0x0148, 0),
      (0x014C, 0), (0x0150, 0), (0x0154, 1000), (0x0160, 2), (0x0164, 1000), (0x0168, 50000), (0x016C, 0)],
    readReg State.reset.dev x.1 = x.2) ∧
  (∀ x ∈ [(0x0200, 1000), (0x0210, 0), (0x0214, 0), (0x0240, 8192), (0x0244, 262144), (0x0280, 3), (0x0284, 10),
      (0x0288, 100), (0x028C, 0), (0x0290, 0), (0x0294, 0), (0x0298, 0), (0x02C0, 1), (0x02C8, 0), (0x02CC, 0),
      (0x0300, 0), (0x0340, 0), (0x0344, 0), (0x0360, 0), (0x0380, 0), (0x03A0, 0), (0x03A4, 0), (0x0400, 0), (0x0404, 1),
      (0x0408, 1000), (0x040C, 60000000), (0x0500, 0), (0x0504, 0), (0x0508, 0), (0x050C, 0), (0x0510, 0), (0x0518, 0),
      (0x0520, 0), (0x0600, 0), (0x0604, 0), (0x0608, 0), (0x060C, 0), (0x0610, 0), (0x0620, 0), (0x0630, 0), (0x0640, 0),
      (0x0644, 0), (0x0648, 0), (0x064C, 0), (0x0700, 0)],
    readReg State.reset.dev x.1 = x.2) ∧
  State.reset.pending = [] ∧ State.reset.dev.queues = [] ∧ State.reset.dev.rings = {} ∧ State.reset.dev.stage = {} ∧
  State.reset.dev.out = [] ∧ State.reset.dev.keys.slots = [] ∧ portsCold State.reset.dev.ports = true

/-! ### The tables -/

/-- Every step keeps the tables in their canonical form, from any state that has them so; the state after reset has. -/
def Obligations.TablesStayCanonical : Prop :=
  Canon State.reset.dev = true ∧
  ∀ s t : State, Canon s.dev = true → step s = .next t → Canon t.dev = true
end

