-- ==== Sys2Proof/Laws/State.lean ====
section
/-!
SUPPORT. What each shared update of the device leaves alone, one equation per update and component.
-/

namespace Sys2Proof.Machine

variable (d : Dev)

/-! `emit` -/

@[simp] theorem emit_pwr (m : OutMsg) : (emit m d).pwr = d.pwr := rfl
@[simp] theorem emit_tb (m : OutMsg) : (emit m d).tb = d.tb := rfl
@[simp] theorem emit_boot (m : OutMsg) : (emit m d).boot = d.boot := rfl
@[simp] theorem emit_regs (m : OutMsg) : (emit m d).regs = d.regs := rfl
@[simp] theorem emit_link (m : OutMsg) : (emit m d).link = d.link := rfl
@[simp] theorem emit_adm (m : OutMsg) : (emit m d).adm = d.adm := rfl
@[simp] theorem emit_rings (m : OutMsg) : (emit m d).rings = d.rings := rfl
@[simp] theorem emit_sweep (m : OutMsg) : (emit m d).sweep = d.sweep := rfl
@[simp] theorem emit_stage (m : OutMsg) : (emit m d).stage = d.stage := rfl
@[simp] theorem emit_bind (m : OutMsg) : (emit m d).bind = d.bind := rfl
@[simp] theorem emit_epoch (m : OutMsg) : (emit m d).epoch = d.epoch := rfl
@[simp] theorem emit_ports (m : OutMsg) : (emit m d).ports = d.ports := rfl
@[simp] theorem emit_queues (m : OutMsg) : (emit m d).queues = d.queues := rfl
@[simp] theorem emit_tier (m : OutMsg) : (emit m d).tier = d.tier := rfl
@[simp] theorem emit_rep (m : OutMsg) : (emit m d).rep = d.rep := rfl
@[simp] theorem emit_ecc (m : OutMsg) : (emit m d).ecc = d.ecc := rfl
@[simp] theorem emit_fuse (m : OutMsg) : (emit m d).fuse = d.fuse := rfl
@[simp] theorem emit_keys (m : OutMsg) : (emit m d).keys = d.keys := rfl
@[simp] theorem emit_spdm (m : OutMsg) : (emit m d).spdm = d.spdm := rfl
@[simp] theorem emit_err (m : OutMsg) : (emit m d).err = d.err := rfl
@[simp] theorem emit_jtag (m : OutMsg) : (emit m d).jtag = d.jtag := rfl
@[simp] theorem emit_cas (m : OutMsg) : (emit m d).cas = d.cas := rfl
@[simp] theorem emit_free (m : OutMsg) : (emit m d).free = d.free := rfl

/-! `startTimer` -/

@[simp] theorem startTimer_pwr (id : TimerId) : (startTimer id d).pwr = d.pwr := rfl
@[simp] theorem startTimer_boot (id : TimerId) : (startTimer id d).boot = d.boot := rfl
@[simp] theorem startTimer_regs (id : TimerId) : (startTimer id d).regs = d.regs := rfl
@[simp] theorem startTimer_link (id : TimerId) : (startTimer id d).link = d.link := rfl
@[simp] theorem startTimer_out (id : TimerId) : (startTimer id d).out = d.out := rfl
@[simp] theorem startTimer_adm (id : TimerId) : (startTimer id d).adm = d.adm := rfl
@[simp] theorem startTimer_rings (id : TimerId) : (startTimer id d).rings = d.rings := rfl
@[simp] theorem startTimer_sweep (id : TimerId) : (startTimer id d).sweep = d.sweep := rfl
@[simp] theorem startTimer_stage (id : TimerId) : (startTimer id d).stage = d.stage := rfl
@[simp] theorem startTimer_bind (id : TimerId) : (startTimer id d).bind = d.bind := rfl
@[simp] theorem startTimer_epoch (id : TimerId) : (startTimer id d).epoch = d.epoch := rfl
@[simp] theorem startTimer_ports (id : TimerId) : (startTimer id d).ports = d.ports := rfl
@[simp] theorem startTimer_queues (id : TimerId) : (startTimer id d).queues = d.queues := rfl
@[simp] theorem startTimer_tier (id : TimerId) : (startTimer id d).tier = d.tier := rfl
@[simp] theorem startTimer_rep (id : TimerId) : (startTimer id d).rep = d.rep := rfl
@[simp] theorem startTimer_ecc (id : TimerId) : (startTimer id d).ecc = d.ecc := rfl
@[simp] theorem startTimer_fuse (id : TimerId) : (startTimer id d).fuse = d.fuse := rfl
@[simp] theorem startTimer_keys (id : TimerId) : (startTimer id d).keys = d.keys := rfl
@[simp] theorem startTimer_spdm (id : TimerId) : (startTimer id d).spdm = d.spdm := rfl
@[simp] theorem startTimer_err (id : TimerId) : (startTimer id d).err = d.err := rfl
@[simp] theorem startTimer_jtag (id : TimerId) : (startTimer id d).jtag = d.jtag := rfl
@[simp] theorem startTimer_cas (id : TimerId) : (startTimer id d).cas = d.cas := rfl
@[simp] theorem startTimer_free (id : TimerId) : (startTimer id d).free = d.free := rfl

/-! `stopTimer` -/

@[simp] theorem stopTimer_pwr (id : TimerId) : (stopTimer id d).pwr = d.pwr := rfl
@[simp] theorem stopTimer_boot (id : TimerId) : (stopTimer id d).boot = d.boot := rfl
@[simp] theorem stopTimer_regs (id : TimerId) : (stopTimer id d).regs = d.regs := rfl
@[simp] theorem stopTimer_link (id : TimerId) : (stopTimer id d).link = d.link := rfl
@[simp] theorem stopTimer_out (id : TimerId) : (stopTimer id d).out = d.out := rfl
@[simp] theorem stopTimer_adm (id : TimerId) : (stopTimer id d).adm = d.adm := rfl
@[simp] theorem stopTimer_rings (id : TimerId) : (stopTimer id d).rings = d.rings := rfl
@[simp] theorem stopTimer_sweep (id : TimerId) : (stopTimer id d).sweep = d.sweep := rfl
@[simp] theorem stopTimer_stage (id : TimerId) : (stopTimer id d).stage = d.stage := rfl
@[simp] theorem stopTimer_bind (id : TimerId) : (stopTimer id d).bind = d.bind := rfl
@[simp] theorem stopTimer_epoch (id : TimerId) : (stopTimer id d).epoch = d.epoch := rfl
@[simp] theorem stopTimer_ports (id : TimerId) : (stopTimer id d).ports = d.ports := rfl
@[simp] theorem stopTimer_queues (id : TimerId) : (stopTimer id d).queues = d.queues := rfl
@[simp] theorem stopTimer_tier (id : TimerId) : (stopTimer id d).tier = d.tier := rfl
@[simp] theorem stopTimer_rep (id : TimerId) : (stopTimer id d).rep = d.rep := rfl
@[simp] theorem stopTimer_ecc (id : TimerId) : (stopTimer id d).ecc = d.ecc := rfl
@[simp] theorem stopTimer_fuse (id : TimerId) : (stopTimer id d).fuse = d.fuse := rfl
@[simp] theorem stopTimer_keys (id : TimerId) : (stopTimer id d).keys = d.keys := rfl
@[simp] theorem stopTimer_spdm (id : TimerId) : (stopTimer id d).spdm = d.spdm := rfl
@[simp] theorem stopTimer_err (id : TimerId) : (stopTimer id d).err = d.err := rfl
@[simp] theorem stopTimer_jtag (id : TimerId) : (stopTimer id d).jtag = d.jtag := rfl
@[simp] theorem stopTimer_cas (id : TimerId) : (stopTimer id d).cas = d.cas := rfl
@[simp] theorem stopTimer_free (id : TimerId) : (stopTimer id d).free = d.free := rfl

/-! `pauseTimers` -/

@[simp] theorem pauseTimers_pwr (p : TimerId → Bool) : (pauseTimers p d).pwr = d.pwr := rfl
@[simp] theorem pauseTimers_boot (p : TimerId → Bool) : (pauseTimers p d).boot = d.boot := rfl
@[simp] theorem pauseTimers_regs (p : TimerId → Bool) : (pauseTimers p d).regs = d.regs := rfl
@[simp] theorem pauseTimers_link (p : TimerId → Bool) : (pauseTimers p d).link = d.link := rfl
@[simp] theorem pauseTimers_out (p : TimerId → Bool) : (pauseTimers p d).out = d.out := rfl
@[simp] theorem pauseTimers_adm (p : TimerId → Bool) : (pauseTimers p d).adm = d.adm := rfl
@[simp] theorem pauseTimers_rings (p : TimerId → Bool) : (pauseTimers p d).rings = d.rings := rfl
@[simp] theorem pauseTimers_sweep (p : TimerId → Bool) : (pauseTimers p d).sweep = d.sweep := rfl
@[simp] theorem pauseTimers_stage (p : TimerId → Bool) : (pauseTimers p d).stage = d.stage := rfl
@[simp] theorem pauseTimers_bind (p : TimerId → Bool) : (pauseTimers p d).bind = d.bind := rfl
@[simp] theorem pauseTimers_epoch (p : TimerId → Bool) : (pauseTimers p d).epoch = d.epoch := rfl
@[simp] theorem pauseTimers_ports (p : TimerId → Bool) : (pauseTimers p d).ports = d.ports := rfl
@[simp] theorem pauseTimers_queues (p : TimerId → Bool) : (pauseTimers p d).queues = d.queues := rfl
@[simp] theorem pauseTimers_tier (p : TimerId → Bool) : (pauseTimers p d).tier = d.tier := rfl
@[simp] theorem pauseTimers_rep (p : TimerId → Bool) : (pauseTimers p d).rep = d.rep := rfl
@[simp] theorem pauseTimers_ecc (p : TimerId → Bool) : (pauseTimers p d).ecc = d.ecc := rfl
@[simp] theorem pauseTimers_fuse (p : TimerId → Bool) : (pauseTimers p d).fuse = d.fuse := rfl
@[simp] theorem pauseTimers_keys (p : TimerId → Bool) : (pauseTimers p d).keys = d.keys := rfl
@[simp] theorem pauseTimers_spdm (p : TimerId → Bool) : (pauseTimers p d).spdm = d.spdm := rfl
@[simp] theorem pauseTimers_err (p : TimerId → Bool) : (pauseTimers p d).err = d.err := rfl
@[simp] theorem pauseTimers_jtag (p : TimerId → Bool) : (pauseTimers p d).jtag = d.jtag := rfl
@[simp] theorem pauseTimers_cas (p : TimerId → Bool) : (pauseTimers p d).cas = d.cas := rfl
@[simp] theorem pauseTimers_free (p : TimerId → Bool) : (pauseTimers p d).free = d.free := rfl

/-! `resumeTimers` -/

@[simp] theorem resumeTimers_pwr (p : TimerId → Bool) : (resumeTimers p d).pwr = d.pwr := rfl
@[simp] theorem resumeTimers_boot (p : TimerId → Bool) : (resumeTimers p d).boot = d.boot := rfl
@[simp] theorem resumeTimers_regs (p : TimerId → Bool) : (resumeTimers p d).regs = d.regs := rfl
@[simp] theorem resumeTimers_link (p : TimerId → Bool) : (resumeTimers p d).link = d.link := rfl
@[simp] theorem resumeTimers_out (p : TimerId → Bool) : (resumeTimers p d).out = d.out := rfl
@[simp] theorem resumeTimers_adm (p : TimerId → Bool) : (resumeTimers p d).adm = d.adm := rfl
@[simp] theorem resumeTimers_rings (p : TimerId → Bool) : (resumeTimers p d).rings = d.rings := rfl
@[simp] theorem resumeTimers_sweep (p : TimerId → Bool) : (resumeTimers p d).sweep = d.sweep := rfl
@[simp] theorem resumeTimers_stage (p : TimerId → Bool) : (resumeTimers p d).stage = d.stage := rfl
@[simp] theorem resumeTimers_bind (p : TimerId → Bool) : (resumeTimers p d).bind = d.bind := rfl
@[simp] theorem resumeTimers_epoch (p : TimerId → Bool) : (resumeTimers p d).epoch = d.epoch := rfl
@[simp] theorem resumeTimers_ports (p : TimerId → Bool) : (resumeTimers p d).ports = d.ports := rfl
@[simp] theorem resumeTimers_queues (p : TimerId → Bool) : (resumeTimers p d).queues = d.queues := rfl
@[simp] theorem resumeTimers_tier (p : TimerId → Bool) : (resumeTimers p d).tier = d.tier := rfl
@[simp] theorem resumeTimers_rep (p : TimerId → Bool) : (resumeTimers p d).rep = d.rep := rfl
@[simp] theorem resumeTimers_ecc (p : TimerId → Bool) : (resumeTimers p d).ecc = d.ecc := rfl
@[simp] theorem resumeTimers_fuse (p : TimerId → Bool) : (resumeTimers p d).fuse = d.fuse := rfl
@[simp] theorem resumeTimers_keys (p : TimerId → Bool) : (resumeTimers p d).keys = d.keys := rfl
@[simp] theorem resumeTimers_spdm (p : TimerId → Bool) : (resumeTimers p d).spdm = d.spdm := rfl
@[simp] theorem resumeTimers_err (p : TimerId → Bool) : (resumeTimers p d).err = d.err := rfl
@[simp] theorem resumeTimers_jtag (p : TimerId → Bool) : (resumeTimers p d).jtag = d.jtag := rfl
@[simp] theorem resumeTimers_cas (p : TimerId → Bool) : (resumeTimers p d).cas = d.cas := rfl
@[simp] theorem resumeTimers_free (p : TimerId → Bool) : (resumeTimers p d).free = d.free := rfl

/-! `dropRead` -/

@[simp] theorem dropRead_pwr (t : Nat) : (dropRead t d).pwr = d.pwr := rfl
@[simp] theorem dropRead_boot (t : Nat) : (dropRead t d).boot = d.boot := rfl
@[simp] theorem dropRead_regs (t : Nat) : (dropRead t d).regs = d.regs := rfl
@[simp] theorem dropRead_out (t : Nat) : (dropRead t d).out = d.out := rfl
@[simp] theorem dropRead_adm (t : Nat) : (dropRead t d).adm = d.adm := rfl
@[simp] theorem dropRead_rings (t : Nat) : (dropRead t d).rings = d.rings := rfl
@[simp] theorem dropRead_sweep (t : Nat) : (dropRead t d).sweep = d.sweep := rfl
@[simp] theorem dropRead_stage (t : Nat) : (dropRead t d).stage = d.stage := rfl
@[simp] theorem dropRead_bind (t : Nat) : (dropRead t d).bind = d.bind := rfl
@[simp] theorem dropRead_epoch (t : Nat) : (dropRead t d).epoch = d.epoch := rfl
@[simp] theorem dropRead_ports (t : Nat) : (dropRead t d).ports = d.ports := rfl
@[simp] theorem dropRead_queues (t : Nat) : (dropRead t d).queues = d.queues := rfl
@[simp] theorem dropRead_tier (t : Nat) : (dropRead t d).tier = d.tier := rfl
@[simp] theorem dropRead_rep (t : Nat) : (dropRead t d).rep = d.rep := rfl
@[simp] theorem dropRead_ecc (t : Nat) : (dropRead t d).ecc = d.ecc := rfl
@[simp] theorem dropRead_fuse (t : Nat) : (dropRead t d).fuse = d.fuse := rfl
@[simp] theorem dropRead_keys (t : Nat) : (dropRead t d).keys = d.keys := rfl
@[simp] theorem dropRead_spdm (t : Nat) : (dropRead t d).spdm = d.spdm := rfl
@[simp] theorem dropRead_err (t : Nat) : (dropRead t d).err = d.err := rfl
@[simp] theorem dropRead_jtag (t : Nat) : (dropRead t d).jtag = d.jtag := rfl
@[simp] theorem dropRead_cas (t : Nat) : (dropRead t d).cas = d.cas := rfl
@[simp] theorem dropRead_free (t : Nat) : (dropRead t d).free = d.free := rfl

/-! `advanceTime` -/

@[simp] theorem advanceTime_pwr (k : Nat) : (advanceTime k d).pwr = d.pwr := rfl
@[simp] theorem advanceTime_boot (k : Nat) : (advanceTime k d).boot = d.boot := rfl
@[simp] theorem advanceTime_regs (k : Nat) : (advanceTime k d).regs = d.regs := rfl
@[simp] theorem advanceTime_link (k : Nat) : (advanceTime k d).link = d.link := rfl
@[simp] theorem advanceTime_out (k : Nat) : (advanceTime k d).out = d.out := rfl
@[simp] theorem advanceTime_adm (k : Nat) : (advanceTime k d).adm = d.adm := rfl
@[simp] theorem advanceTime_rings (k : Nat) : (advanceTime k d).rings = d.rings := rfl
@[simp] theorem advanceTime_sweep (k : Nat) : (advanceTime k d).sweep = d.sweep := rfl
@[simp] theorem advanceTime_stage (k : Nat) : (advanceTime k d).stage = d.stage := rfl
@[simp] theorem advanceTime_bind (k : Nat) : (advanceTime k d).bind = d.bind := rfl
@[simp] theorem advanceTime_epoch (k : Nat) : (advanceTime k d).epoch = d.epoch := rfl
@[simp] theorem advanceTime_ports (k : Nat) : (advanceTime k d).ports = d.ports := rfl
@[simp] theorem advanceTime_queues (k : Nat) : (advanceTime k d).queues = d.queues := rfl
@[simp] theorem advanceTime_rep (k : Nat) : (advanceTime k d).rep = d.rep := rfl
@[simp] theorem advanceTime_ecc (k : Nat) : (advanceTime k d).ecc = d.ecc := rfl
@[simp] theorem advanceTime_fuse (k : Nat) : (advanceTime k d).fuse = d.fuse := rfl
@[simp] theorem advanceTime_keys (k : Nat) : (advanceTime k d).keys = d.keys := rfl
@[simp] theorem advanceTime_spdm (k : Nat) : (advanceTime k d).spdm = d.spdm := rfl
@[simp] theorem advanceTime_err (k : Nat) : (advanceTime k d).err = d.err := rfl
@[simp] theorem advanceTime_jtag (k : Nat) : (advanceTime k d).jtag = d.jtag := rfl
@[simp] theorem advanceTime_cas (k : Nat) : (advanceTime k d).cas = d.cas := rfl
@[simp] theorem advanceTime_free (k : Nat) : (advanceTime k d).free = d.free := rfl

/-! `putQueue` -/

@[simp] theorem putQueue_pwr (i : Nat) (q : Queue) : (putQueue i q d).pwr = d.pwr := rfl
@[simp] theorem putQueue_tb (i : Nat) (q : Queue) : (putQueue i q d).tb = d.tb := rfl
@[simp] theorem putQueue_boot (i : Nat) (q : Queue) : (putQueue i q d).boot = d.boot := rfl
@[simp] theorem putQueue_regs (i : Nat) (q : Queue) : (putQueue i q d).regs = d.regs := rfl
@[simp] theorem putQueue_link (i : Nat) (q : Queue) : (putQueue i q d).link = d.link := rfl
@[simp] theorem putQueue_out (i : Nat) (q : Queue) : (putQueue i q d).out = d.out := rfl
@[simp] theorem putQueue_adm (i : Nat) (q : Queue) : (putQueue i q d).adm = d.adm := rfl
@[simp] theorem putQueue_rings (i : Nat) (q : Queue) : (putQueue i q d).rings = d.rings := rfl
@[simp] theorem putQueue_sweep (i : Nat) (q : Queue) : (putQueue i q d).sweep = d.sweep := rfl
@[simp] theorem putQueue_stage (i : Nat) (q : Queue) : (putQueue i q d).stage = d.stage := rfl
@[simp] theorem putQueue_bind (i : Nat) (q : Queue) : (putQueue i q d).bind = d.bind := rfl
@[simp] theorem putQueue_epoch (i : Nat) (q : Queue) : (putQueue i q d).epoch = d.epoch := rfl
@[simp] theorem putQueue_ports (i : Nat) (q : Queue) : (putQueue i q d).ports = d.ports := rfl
@[simp] theorem putQueue_tier (i : Nat) (q : Queue) : (putQueue i q d).tier = d.tier := rfl
@[simp] theorem putQueue_rep (i : Nat) (q : Queue) : (putQueue i q d).rep = d.rep := rfl
@[simp] theorem putQueue_ecc (i : Nat) (q : Queue) : (putQueue i q d).ecc = d.ecc := rfl
@[simp] theorem putQueue_fuse (i : Nat) (q : Queue) : (putQueue i q d).fuse = d.fuse := rfl
@[simp] theorem putQueue_keys (i : Nat) (q : Queue) : (putQueue i q d).keys = d.keys := rfl
@[simp] theorem putQueue_spdm (i : Nat) (q : Queue) : (putQueue i q d).spdm = d.spdm := rfl
@[simp] theorem putQueue_err (i : Nat) (q : Queue) : (putQueue i q d).err = d.err := rfl
@[simp] theorem putQueue_jtag (i : Nat) (q : Queue) : (putQueue i q d).jtag = d.jtag := rfl
@[simp] theorem putQueue_cas (i : Nat) (q : Queue) : (putQueue i q d).cas = d.cas := rfl
@[simp] theorem putQueue_free (i : Nat) (q : Queue) : (putQueue i q d).free = d.free := rfl

/-! `onQueue` -/

@[simp] theorem onQueue_pwr (i : Nat) (f : Queue → Queue) : (onQueue i f d).pwr = d.pwr := rfl
@[simp] theorem onQueue_tb (i : Nat) (f : Queue → Queue) : (onQueue i f d).tb = d.tb := rfl
@[simp] theorem onQueue_boot (i : Nat) (f : Queue → Queue) : (onQueue i f d).boot = d.boot := rfl
@[simp] theorem onQueue_regs (i : Nat) (f : Queue → Queue) : (onQueue i f d).regs = d.regs := rfl
@[simp] theorem onQueue_link (i : Nat) (f : Queue → Queue) : (onQueue i f d).link = d.link := rfl
@[simp] theorem onQueue_out (i : Nat) (f : Queue → Queue) : (onQueue i f d).out = d.out := rfl
@[simp] theorem onQueue_adm (i : Nat) (f : Queue → Queue) : (onQueue i f d).adm = d.adm := rfl
@[simp] theorem onQueue_rings (i : Nat) (f : Queue → Queue) : (onQueue i f d).rings = d.rings := rfl
@[simp] theorem onQueue_sweep (i : Nat) (f : Queue → Queue) : (onQueue i f d).sweep = d.sweep := rfl
@[simp] theorem onQueue_stage (i : Nat) (f : Queue → Queue) : (onQueue i f d).stage = d.stage := rfl
@[simp] theorem onQueue_bind (i : Nat) (f : Queue → Queue) : (onQueue i f d).bind = d.bind := rfl
@[simp] theorem onQueue_epoch (i : Nat) (f : Queue → Queue) : (onQueue i f d).epoch = d.epoch := rfl
@[simp] theorem onQueue_ports (i : Nat) (f : Queue → Queue) : (onQueue i f d).ports = d.ports := rfl
@[simp] theorem onQueue_tier (i : Nat) (f : Queue → Queue) : (onQueue i f d).tier = d.tier := rfl
@[simp] theorem onQueue_rep (i : Nat) (f : Queue → Queue) : (onQueue i f d).rep = d.rep := rfl
@[simp] theorem onQueue_ecc (i : Nat) (f : Queue → Queue) : (onQueue i f d).ecc = d.ecc := rfl
@[simp] theorem onQueue_fuse (i : Nat) (f : Queue → Queue) : (onQueue i f d).fuse = d.fuse := rfl
@[simp] theorem onQueue_keys (i : Nat) (f : Queue → Queue) : (onQueue i f d).keys = d.keys := rfl
@[simp] theorem onQueue_spdm (i : Nat) (f : Queue → Queue) : (onQueue i f d).spdm = d.spdm := rfl
@[simp] theorem onQueue_err (i : Nat) (f : Queue → Queue) : (onQueue i f d).err = d.err := rfl
@[simp] theorem onQueue_jtag (i : Nat) (f : Queue → Queue) : (onQueue i f d).jtag = d.jtag := rfl
@[simp] theorem onQueue_cas (i : Nat) (f : Queue → Queue) : (onQueue i f d).cas = d.cas := rfl
@[simp] theorem onQueue_free (i : Nat) (f : Queue → Queue) : (onQueue i f d).free = d.free := rfl

/-! `requestAbort` -/

@[simp] theorem requestAbort_pwr (i : Nat) (p : Producer) : (requestAbort i p d).pwr = d.pwr := rfl
@[simp] theorem requestAbort_tb (i : Nat) (p : Producer) : (requestAbort i p d).tb = d.tb := rfl
@[simp] theorem requestAbort_boot (i : Nat) (p : Producer) : (requestAbort i p d).boot = d.boot := rfl
@[simp] theorem requestAbort_regs (i : Nat) (p : Producer) : (requestAbort i p d).regs = d.regs := rfl
@[simp] theorem requestAbort_link (i : Nat) (p : Producer) : (requestAbort i p d).link = d.link := rfl
@[simp] theorem requestAbort_out (i : Nat) (p : Producer) : (requestAbort i p d).out = d.out := rfl
@[simp] theorem requestAbort_adm (i : Nat) (p : Producer) : (requestAbort i p d).adm = d.adm := rfl
@[simp] theorem requestAbort_rings (i : Nat) (p : Producer) : (requestAbort i p d).rings = d.rings := rfl
@[simp] theorem requestAbort_sweep (i : Nat) (p : Producer) : (requestAbort i p d).sweep = d.sweep := rfl
@[simp] theorem requestAbort_stage (i : Nat) (p : Producer) : (requestAbort i p d).stage = d.stage := rfl
@[simp] theorem requestAbort_bind (i : Nat) (p : Producer) : (requestAbort i p d).bind = d.bind := rfl
@[simp] theorem requestAbort_epoch (i : Nat) (p : Producer) : (requestAbort i p d).epoch = d.epoch := rfl
@[simp] theorem requestAbort_ports (i : Nat) (p : Producer) : (requestAbort i p d).ports = d.ports := rfl
@[simp] theorem requestAbort_tier (i : Nat) (p : Producer) : (requestAbort i p d).tier = d.tier := rfl
@[simp] theorem requestAbort_rep (i : Nat) (p : Producer) : (requestAbort i p d).rep = d.rep := rfl
@[simp] theorem requestAbort_ecc (i : Nat) (p : Producer) : (requestAbort i p d).ecc = d.ecc := rfl
@[simp] theorem requestAbort_fuse (i : Nat) (p : Producer) : (requestAbort i p d).fuse = d.fuse := rfl
@[simp] theorem requestAbort_keys (i : Nat) (p : Producer) : (requestAbort i p d).keys = d.keys := rfl
@[simp] theorem requestAbort_spdm (i : Nat) (p : Producer) : (requestAbort i p d).spdm = d.spdm := rfl
@[simp] theorem requestAbort_err (i : Nat) (p : Producer) : (requestAbort i p d).err = d.err := rfl
@[simp] theorem requestAbort_jtag (i : Nat) (p : Producer) : (requestAbort i p d).jtag = d.jtag := rfl
@[simp] theorem requestAbort_cas (i : Nat) (p : Producer) : (requestAbort i p d).cas = d.cas := rfl
@[simp] theorem requestAbort_free (i : Nat) (p : Producer) : (requestAbort i p d).free = d.free := rfl

/-! `putFill` -/

@[simp] theorem putFill_pwr (i : Nat) (r : FillRing) : (putFill i r d).pwr = d.pwr := rfl
@[simp] theorem putFill_tb (i : Nat) (r : FillRing) : (putFill i r d).tb = d.tb := rfl
@[simp] theorem putFill_boot (i : Nat) (r : FillRing) : (putFill i r d).boot = d.boot := rfl
@[simp] theorem putFill_regs (i : Nat) (r : FillRing) : (putFill i r d).regs = d.regs := rfl
@[simp] theorem putFill_link (i : Nat) (r : FillRing) : (putFill i r d).link = d.link := rfl
@[simp] theorem putFill_out (i : Nat) (r : FillRing) : (putFill i r d).out = d.out := rfl
@[simp] theorem putFill_adm (i : Nat) (r : FillRing) : (putFill i r d).adm = d.adm := rfl
@[simp] theorem putFill_sweep (i : Nat) (r : FillRing) : (putFill i r d).sweep = d.sweep := rfl
@[simp] theorem putFill_stage (i : Nat) (r : FillRing) : (putFill i r d).stage = d.stage := rfl
@[simp] theorem putFill_bind (i : Nat) (r : FillRing) : (putFill i r d).bind = d.bind := rfl
@[simp] theorem putFill_epoch (i : Nat) (r : FillRing) : (putFill i r d).epoch = d.epoch := rfl
@[simp] theorem putFill_ports (i : Nat) (r : FillRing) : (putFill i r d).ports = d.ports := rfl
@[simp] theorem putFill_queues (i : Nat) (r : FillRing) : (putFill i r d).queues = d.queues := rfl
@[simp] theorem putFill_tier (i : Nat) (r : FillRing) : (putFill i r d).tier = d.tier := rfl
@[simp] theorem putFill_rep (i : Nat) (r : FillRing) : (putFill i r d).rep = d.rep := rfl
@[simp] theorem putFill_ecc (i : Nat) (r : FillRing) : (putFill i r d).ecc = d.ecc := rfl
@[simp] theorem putFill_fuse (i : Nat) (r : FillRing) : (putFill i r d).fuse = d.fuse := rfl
@[simp] theorem putFill_keys (i : Nat) (r : FillRing) : (putFill i r d).keys = d.keys := rfl
@[simp] theorem putFill_spdm (i : Nat) (r : FillRing) : (putFill i r d).spdm = d.spdm := rfl
@[simp] theorem putFill_err (i : Nat) (r : FillRing) : (putFill i r d).err = d.err := rfl
@[simp] theorem putFill_jtag (i : Nat) (r : FillRing) : (putFill i r d).jtag = d.jtag := rfl
@[simp] theorem putFill_cas (i : Nat) (r : FillRing) : (putFill i r d).cas = d.cas := rfl
@[simp] theorem putFill_free (i : Nat) (r : FillRing) : (putFill i r d).free = d.free := rfl

/-! `putDrain` -/

@[simp] theorem putDrain_pwr (i : Nat) (r : DrainRing) : (putDrain i r d).pwr = d.pwr := rfl
@[simp] theorem putDrain_tb (i : Nat) (r : DrainRing) : (putDrain i r d).tb = d.tb := rfl
@[simp] theorem putDrain_boot (i : Nat) (r : DrainRing) : (putDrain i r d).boot = d.boot := rfl
@[simp] theorem putDrain_regs (i : Nat) (r : DrainRing) : (putDrain i r d).regs = d.regs := rfl
@[simp] theorem putDrain_link (i : Nat) (r : DrainRing) : (putDrain i r d).link = d.link := rfl
@[simp] theorem putDrain_out (i : Nat) (r : DrainRing) : (putDrain i r d).out = d.out := rfl
@[simp] theorem putDrain_adm (i : Nat) (r : DrainRing) : (putDrain i r d).adm = d.adm := rfl
@[simp] theorem putDrain_sweep (i : Nat) (r : DrainRing) : (putDrain i r d).sweep = d.sweep := rfl
@[simp] theorem putDrain_stage (i : Nat) (r : DrainRing) : (putDrain i r d).stage = d.stage := rfl
@[simp] theorem putDrain_bind (i : Nat) (r : DrainRing) : (putDrain i r d).bind = d.bind := rfl
@[simp] theorem putDrain_epoch (i : Nat) (r : DrainRing) : (putDrain i r d).epoch = d.epoch := rfl
@[simp] theorem putDrain_ports (i : Nat) (r : DrainRing) : (putDrain i r d).ports = d.ports := rfl
@[simp] theorem putDrain_queues (i : Nat) (r : DrainRing) : (putDrain i r d).queues = d.queues := rfl
@[simp] theorem putDrain_tier (i : Nat) (r : DrainRing) : (putDrain i r d).tier = d.tier := rfl
@[simp] theorem putDrain_rep (i : Nat) (r : DrainRing) : (putDrain i r d).rep = d.rep := rfl
@[simp] theorem putDrain_ecc (i : Nat) (r : DrainRing) : (putDrain i r d).ecc = d.ecc := rfl
@[simp] theorem putDrain_fuse (i : Nat) (r : DrainRing) : (putDrain i r d).fuse = d.fuse := rfl
@[simp] theorem putDrain_keys (i : Nat) (r : DrainRing) : (putDrain i r d).keys = d.keys := rfl
@[simp] theorem putDrain_spdm (i : Nat) (r : DrainRing) : (putDrain i r d).spdm = d.spdm := rfl
@[simp] theorem putDrain_err (i : Nat) (r : DrainRing) : (putDrain i r d).err = d.err := rfl
@[simp] theorem putDrain_jtag (i : Nat) (r : DrainRing) : (putDrain i r d).jtag = d.jtag := rfl
@[simp] theorem putDrain_cas (i : Nat) (r : DrainRing) : (putDrain i r d).cas = d.cas := rfl
@[simp] theorem putDrain_free (i : Nat) (r : DrainRing) : (putDrain i r d).free = d.free := rfl

/-! `onPeer` -/

@[simp] theorem onPeer_pwr (n : Nat) (f : Peer → Peer) : (onPeer n f d).pwr = d.pwr := rfl
@[simp] theorem onPeer_tb (n : Nat) (f : Peer → Peer) : (onPeer n f d).tb = d.tb := rfl
@[simp] theorem onPeer_boot (n : Nat) (f : Peer → Peer) : (onPeer n f d).boot = d.boot := rfl
@[simp] theorem onPeer_regs (n : Nat) (f : Peer → Peer) : (onPeer n f d).regs = d.regs := rfl
@[simp] theorem onPeer_link (n : Nat) (f : Peer → Peer) : (onPeer n f d).link = d.link := rfl
@[simp] theorem onPeer_out (n : Nat) (f : Peer → Peer) : (onPeer n f d).out = d.out := rfl
@[simp] theorem onPeer_adm (n : Nat) (f : Peer → Peer) : (onPeer n f d).adm = d.adm := rfl
@[simp] theorem onPeer_rings (n : Nat) (f : Peer → Peer) : (onPeer n f d).rings = d.rings := rfl
@[simp] theorem onPeer_sweep (n : Nat) (f : Peer → Peer) : (onPeer n f d).sweep = d.sweep := rfl
@[simp] theorem onPeer_stage (n : Nat) (f : Peer → Peer) : (onPeer n f d).stage = d.stage := rfl
@[simp] theorem onPeer_bind (n : Nat) (f : Peer → Peer) : (onPeer n f d).bind = d.bind := rfl
@[simp] theorem onPeer_epoch (n : Nat) (f : Peer → Peer) : (onPeer n f d).epoch = d.epoch := rfl
@[simp] theorem onPeer_ports (n : Nat) (f : Peer → Peer) : (onPeer n f d).ports = d.ports := rfl
@[simp] theorem onPeer_queues (n : Nat) (f : Peer → Peer) : (onPeer n f d).queues = d.queues := rfl
@[simp] theorem onPeer_tier (n : Nat) (f : Peer → Peer) : (onPeer n f d).tier = d.tier := rfl
@[simp] theorem onPeer_rep (n : Nat) (f : Peer → Peer) : (onPeer n f d).rep = d.rep := rfl
@[simp] theorem onPeer_ecc (n : Nat) (f : Peer → Peer) : (onPeer n f d).ecc = d.ecc := rfl
@[simp] theorem onPeer_fuse (n : Nat) (f : Peer → Peer) : (onPeer n f d).fuse = d.fuse := rfl
@[simp] theorem onPeer_keys (n : Nat) (f : Peer → Peer) : (onPeer n f d).keys = d.keys := rfl
@[simp] theorem onPeer_spdm (n : Nat) (f : Peer → Peer) : (onPeer n f d).spdm = d.spdm := rfl
@[simp] theorem onPeer_err (n : Nat) (f : Peer → Peer) : (onPeer n f d).err = d.err := rfl
@[simp] theorem onPeer_jtag (n : Nat) (f : Peer → Peer) : (onPeer n f d).jtag = d.jtag := rfl
@[simp] theorem onPeer_free (n : Nat) (f : Peer → Peer) : (onPeer n f d).free = d.free := rfl

/-! `loadIr` -/

@[simp] theorem loadIr_pwr (i : TapInstr) (o : Bytes) : (loadIr i o d).pwr = d.pwr := rfl
@[simp] theorem loadIr_tb (i : TapInstr) (o : Bytes) : (loadIr i o d).tb = d.tb := rfl
@[simp] theorem loadIr_boot (i : TapInstr) (o : Bytes) : (loadIr i o d).boot = d.boot := rfl
@[simp] theorem loadIr_regs (i : TapInstr) (o : Bytes) : (loadIr i o d).regs = d.regs := rfl
@[simp] theorem loadIr_link (i : TapInstr) (o : Bytes) : (loadIr i o d).link = d.link := rfl
@[simp] theorem loadIr_out (i : TapInstr) (o : Bytes) : (loadIr i o d).out = d.out := rfl
@[simp] theorem loadIr_adm (i : TapInstr) (o : Bytes) : (loadIr i o d).adm = d.adm := rfl
@[simp] theorem loadIr_rings (i : TapInstr) (o : Bytes) : (loadIr i o d).rings = d.rings := rfl
@[simp] theorem loadIr_sweep (i : TapInstr) (o : Bytes) : (loadIr i o d).sweep = d.sweep := rfl
@[simp] theorem loadIr_stage (i : TapInstr) (o : Bytes) : (loadIr i o d).stage = d.stage := rfl
@[simp] theorem loadIr_bind (i : TapInstr) (o : Bytes) : (loadIr i o d).bind = d.bind := rfl
@[simp] theorem loadIr_epoch (i : TapInstr) (o : Bytes) : (loadIr i o d).epoch = d.epoch := rfl
@[simp] theorem loadIr_ports (i : TapInstr) (o : Bytes) : (loadIr i o d).ports = d.ports := rfl
@[simp] theorem loadIr_queues (i : TapInstr) (o : Bytes) : (loadIr i o d).queues = d.queues := rfl
@[simp] theorem loadIr_tier (i : TapInstr) (o : Bytes) : (loadIr i o d).tier = d.tier := rfl
@[simp] theorem loadIr_rep (i : TapInstr) (o : Bytes) : (loadIr i o d).rep = d.rep := rfl
@[simp] theorem loadIr_ecc (i : TapInstr) (o : Bytes) : (loadIr i o d).ecc = d.ecc := rfl
@[simp] theorem loadIr_fuse (i : TapInstr) (o : Bytes) : (loadIr i o d).fuse = d.fuse := rfl
@[simp] theorem loadIr_keys (i : TapInstr) (o : Bytes) : (loadIr i o d).keys = d.keys := rfl
@[simp] theorem loadIr_spdm (i : TapInstr) (o : Bytes) : (loadIr i o d).spdm = d.spdm := rfl
@[simp] theorem loadIr_err (i : TapInstr) (o : Bytes) : (loadIr i o d).err = d.err := rfl
@[simp] theorem loadIr_cas (i : TapInstr) (o : Bytes) : (loadIr i o d).cas = d.cas := rfl
@[simp] theorem loadIr_free (i : TapInstr) (o : Bytes) : (loadIr i o d).free = d.free := rfl

/-! What the updates write. -/

@[simp] theorem emit_out (m : OutMsg) : (emit m d).out = d.out ++ [m] := rfl
@[simp] theorem putQueue_queues (i : Nat) (q : Queue) : (putQueue i q d).queues = tblSet {} d.queues i q := rfl
@[simp] theorem putFill_fills (i : Nat) (r : FillRing) :
    (putFill i r d).rings.fills = tblPut d.rings.fills i r := rfl
@[simp] theorem putFill_drains (i : Nat) (r : FillRing) : (putFill i r d).rings.drains = d.rings.drains := rfl
@[simp] theorem putFill_comps (i : Nat) (r : FillRing) : (putFill i r d).rings.comps = d.rings.comps := rfl
@[simp] theorem putDrain_drains (i : Nat) (r : DrainRing) :
    (putDrain i r d).rings.drains = tblPut d.rings.drains i r := rfl
@[simp] theorem putDrain_fills (i : Nat) (r : DrainRing) : (putDrain i r d).rings.fills = d.rings.fills := rfl
@[simp] theorem putDrain_comps (i : Nat) (r : DrainRing) : (putDrain i r d).rings.comps = d.rings.comps := rfl
@[simp] theorem startTimer_now (id : TimerId) : (startTimer id d).tb.now = d.tb.now := rfl
@[simp] theorem stopTimer_now (id : TimerId) : (stopTimer id d).tb.now = d.tb.now := rfl
@[simp] theorem startTimer_tickRun (id : TimerId) : (startTimer id d).tb.tickRun = d.tb.tickRun := rfl
@[simp] theorem stopTimer_tickRun (id : TimerId) : (stopTimer id d).tb.tickRun = d.tb.tickRun := rfl
@[simp] theorem loadIr_ir (i : TapInstr) (o : Bytes) : (loadIr i o d).jtag.ir = i := rfl
@[simp] theorem loadIr_jout (i : TapInstr) (o : Bytes) : (loadIr i o d).jtag.out = o := rfl

/-! A command's meaning changes the device alone. -/

@[simp] theorem act_next (f : Dev → Dev) (s : State) : act f s = .next { s with dev := f s.dev } := rfl

/-! What one operation can change, said whole -/

/-- Starting or stopping a timer changes the timers alone. -/
theorem stopTimer_frame (id : TimerId) : stopTimer id d = { d with tb.timers := (stopTimer id d).tb.timers } := rfl

theorem startTimer_frame (id : TimerId) : startTimer id d = { d with tb.timers := (startTimer id d).tb.timers } := rfl

/-- The governor's windows are timers (R22, R23). -/
theorem stopWindows_frame : stopWindows d = { d with tb.timers := (stopWindows d).tb.timers } := rfl

theorem govRefresh_frame : govRefresh d = { d with tb.timers := (govRefresh d).tb.timers } := by
  unfold govRefresh
  dsimp only
  split
  · exact stopWindows_frame d
  · split <;> split <;> rfl

/-- A change of the backlog signal starts and stops windows, and nothing else. -/
theorem govTrack_frame : govTrack d = { d with tb.timers := (govTrack d).tb.timers } := by
  unfold govTrack
  split
  · exact govRefresh_frame d
  · rfl

/-- So does a command's effect on it: what `actBacklog` answers. -/
theorem actBacklog_eq (f : Dev → Dev) (s : State) :
    actBacklog f s = .next { s with dev := { f s.dev with tb.timers := (govTrack (f s.dev)).tb.timers } } :=
  congrArg (fun e : Dev => (Host.Outcome.next { s with dev := e } : Host.Outcome State Fault Refusal))
    (govTrack_frame (f s.dev))

/-- An observed edge restarts its stall timer alone (R179). -/
theorem edgeSeen_frame (k : Nat) : edgeSeen k d = { d with tb.timers := (edgeSeen k d).tb.timers } := by
  unfold edgeSeen
  split <;> rfl

theorem stallCheck_frame (k : Nat) : stallCheck k d = { d with tb.timers := (stallCheck k d).tb.timers } := by
  unfold stallCheck
  split <;> split <;> rfl

/-- A tick of the measurement of R37 changes the measurement and, at its start, the count of free values. -/
theorem measureTick_frame :
    measureTick d = { d with tb.win := (measureTick d).tb.win, tb.osc := (measureTick d).tb.osc
                             free := (measureTick d).free } := by
  unfold measureTick
  split
  · rfl
  · dsimp only
    split <;> split <;> rfl

/-- An AER error changes the capability and, with its header, the count of free values (R194, R209). -/
theorem aerSet_frame (e : Aer) :
    aerSet e d = { d with link.aer := (aerSet e d).link.aer, link.aerCap := (aerSet e d).link.aerCap
                          free := (aerSet e d).free } := by
  unfold aerSet
  dsimp only
  split <;> split <;> rfl

end Sys2Proof.Machine
end

