-- ==== Sys2Proof/Laws/Admin.lean ====
section
/-!
SUPPORT. The host side of the device: what the shared operations that write, read and time there leave alone, and
the end of an admin command.
-/

namespace Sys2Proof.Machine

/-! ### What a message to the host does -/

/-- Everything `emitHost` can do: nothing without a link, the message held, held with the exit from L1.2 begun, or put
out on the link in L0 (R198, R205, R206). -/
theorem emitHost_cases (m : OutMsg) (d : Dev) :
    emitHost m d = d ∨
      (mayLeave d m = false ∧ d.link.up = true ∧ emitHost m d = { d with link.heldOut := d.link.heldOut ++ [m] }) ∨
      (mayLeave d m = true ∧ d.link.lstate = .l12 ∧
        emitHost m d = { d with link.heldOut := d.link.heldOut ++ [m], link.clkreq := true }) ∨
      (mayLeave d m = true ∧ d.link.lstate ≠ .l12 ∧ d.link.up = true ∧
        emitHost m d = emit m { d with link.lstate := .l0, link.clkreq := true }) := by
  unfold emitHost
  cases hu : d.link.up <;> cases hp : d.pwr.perst <;> cases hm : mayLeave d m <;> simp
  by_cases hl : d.link.lstate = .l12 <;> simp [hl]

/-- A message that may leave over a link that is up and not in L1.2 is put out. -/
theorem emitHost_leaves {m : OutMsg} {d : Dev} (hu : d.link.up = true) (hp : d.pwr.perst = false)
    (hm : mayLeave d m = true) (hl : d.link.lstate ≠ .l12) :
    emitHost m d = emit m { d with link.lstate := .l0, link.clkreq := true } := by
  simp [emitHost, hu, hp, hm, hl]

/-! ### Nothing but the host side -/

theorem HostOnly.refl (d : Dev) : HostOnly d d := rfl

theorem HostOnly.trans {a b c : Dev} (h : HostOnly a b) (k : HostOnly b c) : HostOnly a c := by
  unfold HostOnly at *; rw [k, h]

theorem hostOnly_emit (m : OutMsg) (d : Dev) : HostOnly d (emit m d) := rfl

theorem hostOnly_startTimer (t : TimerId) (d : Dev) : HostOnly d (startTimer t d) := rfl

theorem hostOnly_stopTimer (t : TimerId) (d : Dev) : HostOnly d (stopTimer t d) := rfl

theorem hostOnly_emitHost (m : OutMsg) (d : Dev) : HostOnly d (emitHost m d) := by
  rcases emitHost_cases m d with h | ⟨_, _, h⟩ | ⟨_, _, h⟩ | ⟨_, _, _, h⟩ <;> rw [h]
  rfl

theorem hostOnly_foldl {β : Type} (f : Dev → β → Dev) (hf : ∀ d x, HostOnly d (f d x)) (l : List β) :
    ∀ d, HostOnly d (l.foldl f d) := by
  induction l with
  | nil => intro d; rfl
  | cons x l ih => intro d; exact (hf d x).trans (ih _)

theorem hostOnly_sendLtr (us : Nat) (d : Dev) : HostOnly d (sendLtr us d) := by
  unfold sendLtr; split
  · exact (show HostOnly d { d with link.ltrSent := some ((ltrCode us).1 * 32 ^ (ltrCode us).2) } from rfl).trans
      (hostOnly_emitHost _ _)
  · rfl

theorem hostOnly_startWork (d : Dev) : HostOnly d (startWork d) := by
  unfold startWork; split
  · rfl
  · exact (show HostOnly d { d with link.active := true } from rfl).trans (hostOnly_sendLtr _ _)

theorem hostOnly_memWrite (a : Nat) (bs : Bytes) (ro : Bool) (d : Dev) : HostOnly d (memWrite a bs ro d) :=
  (hostOnly_startWork d).trans (hostOnly_foldl _ (fun d _ => hostOnly_emitHost _ d) _ _)

theorem hostOnly_memReadOne (w : ReadFor) (a n : Nat) (d : Dev) : HostOnly d (memReadOne w a n d) := by
  have h := hostOnly_startWork d
  unfold HostOnly at h ⊢
  rw [memReadOne]; rw [h]; rfl

theorem hostOnly_memRead (w : ReadFor) (a n : Nat) (d : Dev) : HostOnly d (memRead w a n d) :=
  hostOnly_foldl _ (fun d _ => hostOnly_memReadOne w _ _ d) _ d

theorem hostOnly_msix (v : Nat) (d : Dev) : HostOnly d (msix v d) := by
  unfold msix; split
  · rfl
  · split
    · rfl
    · exact hostOnly_emitHost _ d

theorem hostOnly_logRec (k c o i op r : Nat) (d : Dev) : HostOnly d (logRec k c o i op r d) := by
  simp only [HostOnly, logRec]

theorem hostOnly_capture (f : Bool) (c s o : Nat) (d : Dev) : HostOnly d (capture f c s o d) := by
  unfold capture
  extract_lets seq r p e d' d''
  have h1 : HostOnly d d' := rfl
  have h2 : HostOnly d d'' := by
    unfold d''; split
    · exact h1.trans (hostOnly_msix 0 d')
    · exact h1
  split
  · exact h2.trans (hostOnly_logRec ..)
  · exact h2

theorem hostOnly_triggerSweep (t k : Bool) (d : Dev) : HostOnly d (triggerSweep t k d) := by
  unfold triggerSweep; split
  · rfl
  · split
    · rfl
    · unfold startSweep
      exact (show HostOnly d { d with sweep.running := true, sweep.timed := t, sweep.kicked := k } from rfl).trans
        (hostOnly_memRead _ _ _ _)

theorem hostOnly_armSweep (d : Dev) : HostOnly d (armSweep d) := by
  unfold armSweep
  extract_lets since
  split
  · exact (show HostOnly d (stopTimer .sweep { d with sweep.stopped := true, link.active := false }) from rfl).trans
      (hostOnly_sendLtr _ _)
  · rfl

theorem hostOnly_activity (d : Dev) : HostOnly d (activity d) :=
  (show HostOnly d (startTimer .idle { d with sweep.interval := d.regs.sweepFast }) from rfl).trans
    (hostOnly_armSweep _)

theorem hostOnly_askLink (f : Dev → Dev) (hf : ∀ d, HostOnly d (f d)) (d : Dev) : HostOnly d (askLink f d) := by
  unfold askLink; split
  · exact (hf d).trans rfl
  · exact hf d

theorem hostOnly_fetchAdmin (d : Dev) : HostOnly d (fetchAdmin d) := by
  unfold fetchAdmin; split
  · exact (show HostOnly d { d with adm.fetch := some d.link.nextTag } from rfl).trans (hostOnly_memReadOne ..)
  · rfl

theorem hostOnly_fetchNext (d : Dev) : HostOnly d (fetchNext d) := hostOnly_askLink _ hostOnly_fetchAdmin d

theorem hostOnly_writeAce (cid : BitVec 16) (st r0 r1 : Nat) (d : Dev) : HostOnly d (writeAce cid st r0 r1 d) := by
  unfold writeAce
  refine HostOnly.trans ?_ (hostOnly_triggerSweep ..)
  refine HostOnly.trans ?_ (hostOnly_activity _)
  refine HostOnly.trans ?_ (hostOnly_msix ..)
  exact HostOnly.trans (by simp only [HostOnly]) (hostOnly_memWrite ..)

theorem hostOnly_postAce (cid : BitVec 16) (st r0 r1 : Nat) (d : Dev) : HostOnly d (postAce cid st r0 r1 d) := by
  unfold postAce
  simp only []
  split
  · rfl
  · exact (hostOnly_stopTimer .admin d).trans ((hostOnly_writeAce ..).trans (hostOnly_fetchNext _))

theorem hostOnly_logOutcome (r : AdmRun) (res : AdmRes) (d : Dev) : HostOnly d (logOutcome r res d) := by
  unfold logOutcome; split
  · exact hostOnly_logRec ..
  · rfl

/-- The end of a command from the host's ring touches the host side alone. -/
theorem hostOnly_deliver {r : AdmRun} (hr : r.origin = .host) (res : AdmRes) (d : Dev) :
    HostOnly d (deliver r res d) := by
  unfold deliver
  simp only [hr]
  refine (hostOnly_logOutcome r res d).trans ?_
  split
  · exact (hostOnly_memWrite ..).trans (hostOnly_postAce ..)
  · exact hostOnly_postAce ..

/-! ### The admin pair stays -/

@[simp] theorem emitHost_adm (m : OutMsg) (d : Dev) : (emitHost m d).adm = d.adm := by
  rcases emitHost_cases m d with h | ⟨_, _, h⟩ | ⟨_, _, h⟩ | ⟨_, _, _, h⟩ <;> rw [h]
  rfl

@[simp] theorem sendLtr_adm (us : Nat) (d : Dev) : (sendLtr us d).adm = d.adm := by
  unfold sendLtr; split <;> simp

theorem foldl_adm {β : Type} (f : Dev → β → Dev) (hf : ∀ d x, (f d x).adm = d.adm) (l : List β) :
    ∀ d, (l.foldl f d).adm = d.adm := by
  induction l with
  | nil => intro d; rfl
  | cons x l ih => intro d; rw [List.foldl_cons, ih, hf]

@[simp] theorem startWork_adm (d : Dev) : (startWork d).adm = d.adm := by
  unfold startWork; split
  · rfl
  · simp

@[simp] theorem memWrite_adm (a : Nat) (bs : Bytes) (ro : Bool) (d : Dev) : (memWrite a bs ro d).adm = d.adm :=
  (foldl_adm _ (fun d _ => emitHost_adm _ d) _ _).trans (startWork_adm d)

@[simp] theorem memReadOne_adm (w : ReadFor) (a n : Nat) (d : Dev) : (memReadOne w a n d).adm = d.adm := by
  simp [memReadOne]

@[simp] theorem memRead_adm (w : ReadFor) (a n : Nat) (d : Dev) : (memRead w a n d).adm = d.adm :=
  foldl_adm _ (fun d _ => memReadOne_adm w _ _ d) _ d

@[simp] theorem msix_adm (v : Nat) (d : Dev) : (msix v d).adm = d.adm := by
  unfold msix; split
  · rfl
  · split
    · rfl
    · simp

@[simp] theorem triggerSweep_adm (t k : Bool) (d : Dev) : (triggerSweep t k d).adm = d.adm := by
  unfold triggerSweep; split
  · rfl
  · split
    · rfl
    · simp [startSweep]

@[simp] theorem activity_adm (d : Dev) : (activity d).adm = d.adm := by
  unfold activity armSweep
  extract_lets since
  split <;> simp

@[simp] theorem logOutcome_adm (r : AdmRun) (res : AdmRes) (d : Dev) : (logOutcome r res d).adm = d.adm := by
  unfold logOutcome; split <;> simp only [logRec]

/-- The end of a command changes in the admin pair only what a new entry and the next fetch change. -/
theorem fetchNext_adm (d : Dev) : ∃ f, (fetchNext d).adm = { d.adm with fetch := f } := by
  have h : ∃ f, (fetchAdmin d).adm = { d.adm with fetch := f } := by
    unfold fetchAdmin; split
    · exact ⟨some d.link.nextTag, by simp⟩
    · exact ⟨d.adm.fetch, rfl⟩
  unfold fetchNext askLink; split <;> exact h

@[simp] theorem writeAce_adm (cid : BitVec 16) (st r0 r1 : Nat) (d : Dev) :
    (writeAce cid st r0 r1 d).adm = { d.adm with
      written := d.adm.written + 1
      phase := if d.adm.written.toNat % 2 ^ d.adm.cqLog2 + 1 = 2 ^ d.adm.cqLog2 then !d.adm.phase else d.adm.phase } := by
  simp [writeAce]

/-! ### What has been put out stays, and a posted write joins it -/

theorem emitHost_mem {m x : OutMsg} {d : Dev} (h : x ∈ d.out) : x ∈ (emitHost m d).out := by
  rcases emitHost_cases m d with k | ⟨_, _, k⟩ | ⟨_, _, k⟩ | ⟨_, _, _, k⟩ <;> simp [k, h]

theorem sendLtr_mem {us : Nat} {x : OutMsg} {d : Dev} (h : x ∈ d.out) : x ∈ (sendLtr us d).out := by
  unfold sendLtr; split
  · exact emitHost_mem h
  · exact h

theorem foldl_mem {β : Type} {x : OutMsg} (f : Dev → β → Dev) (hf : ∀ d y, x ∈ d.out → x ∈ (f d y).out)
    (l : List β) : ∀ d : Dev, x ∈ d.out → x ∈ (l.foldl f d).out := by
  induction l with
  | nil => intro d h; exact h
  | cons y l ih => intro d h; exact ih _ (hf d y h)

theorem startWork_mem {x : OutMsg} {d : Dev} (h : x ∈ d.out) : x ∈ (startWork d).out := by
  unfold startWork; split
  · exact h
  · exact sendLtr_mem h

theorem activity_mem {x : OutMsg} {d : Dev} (h : x ∈ d.out) : x ∈ (activity d).out := by
  unfold activity armSweep
  extract_lets since
  split
  · exact sendLtr_mem h
  · exact h

theorem memWrite_mem {a : Nat} {bs : Bytes} {ro : Bool} {x : OutMsg} {d : Dev} (h : x ∈ d.out) :
    x ∈ (memWrite a bs ro d).out :=
  foldl_mem _ (fun _ _ h => emitHost_mem h) _ _ (startWork_mem h)

theorem memReadOne_mem {x : OutMsg} {w : ReadFor} {a n : Nat} {d : Dev} (h : x ∈ d.out) :
    x ∈ (memReadOne w a n d).out := by
  have := startWork_mem h
  simp [memReadOne, this]

theorem memRead_mem {x : OutMsg} {w : ReadFor} {a n : Nat} {d : Dev} (h : x ∈ d.out) : x ∈ (memRead w a n d).out :=
  foldl_mem _ (fun _ _ h => memReadOne_mem h) _ d h

theorem msix_mem {x : OutMsg} {v : Nat} {d : Dev} (h : x ∈ d.out) : x ∈ (msix v d).out := by
  unfold msix; split
  · exact h
  · split
    · exact h
    · exact emitHost_mem h

theorem triggerSweep_mem {x : OutMsg} {t k : Bool} {d : Dev} (h : x ∈ d.out) : x ∈ (triggerSweep t k d).out := by
  unfold triggerSweep; split
  · exact h
  · split
    · exact h
    · exact memRead_mem h

theorem fetchNext_mem {x : OutMsg} {d : Dev} (h : x ∈ d.out) : x ∈ (fetchNext d).out := by
  have k : x ∈ (fetchAdmin d).out := by
    unfold fetchAdmin; split
    · exact memReadOne_mem h
    · exact h
  unfold fetchNext askLink; split <;> exact k

/-- DMA stays possible while messages leave. -/
@[simp] theorem emitHost_canIssue (m : OutMsg) (d : Dev) (h : canIssue d = true) :
    canIssue (emitHost m d) = true := by
  rcases emitHost_cases m d with k | ⟨_, _, k⟩ | ⟨_, _, k⟩ | ⟨_, _, _, k⟩ <;> rw [k]
  · exact h
  · exact h
  · exact h
  · simp only [canIssue, dmaAllowed, emit, Bool.and_eq_true] at h ⊢
    exact ⟨h.1, by decide⟩

theorem emitHost_mps (m : OutMsg) (d : Dev) : (emitHost m d).link.mps = d.link.mps := by
  rcases emitHost_cases m d with k | ⟨_, _, k⟩ | ⟨_, _, k⟩ | ⟨_, _, _, k⟩ <;> rw [k]
  rfl

/-- What a message never changes stays through the report of work and the requests of a posted write. -/
theorem memWrite_keeps {P : Dev → Prop} (hw : ∀ d, P d → P (startWork d)) (he : ∀ m d, P d → P (emitHost m d))
    (a : Nat) (bs : Bytes) (ro : Bool) (d : Dev) (h : P d) : P (memWrite a bs ro d) := by
  have : ∀ (l : List (Nat × Nat)) (e : Dev), P e →
      P (l.foldl (fun d p => emitHost (.memWrite p.1 ((bs.drop (p.1 - a)).take p.2) (ro && d.link.roEn)) d) e) := by
    intro l
    induction l with
    | nil => intro e h; exact h
    | cons p l ih => intro e h; exact ih _ (he _ _ h)
  exact this _ _ (hw d h)

theorem sendLtr_canIssue (us : Nat) (d : Dev) (h : canIssue d = true) : canIssue (sendLtr us d) = true := by
  unfold sendLtr; split
  · exact emitHost_canIssue _ _ h
  · exact h

theorem startWork_canIssue (d : Dev) (h : canIssue d = true) : canIssue (startWork d) = true := by
  unfold startWork; split
  · exact h
  · exact sendLtr_canIssue _ _ h

theorem sendLtr_mps (us : Nat) (d : Dev) : (sendLtr us d).link.mps = d.link.mps := by
  unfold sendLtr; split
  · exact emitHost_mps _ _
  · rfl

theorem startWork_mps (d : Dev) : (startWork d).link.mps = d.link.mps := by
  unfold startWork; split
  · rfl
  · exact sendLtr_mps _ _

theorem memWrite_canIssue (a : Nat) (bs : Bytes) (ro : Bool) (d : Dev) (h : canIssue d = true) :
    canIssue (memWrite a bs ro d) = true :=
  memWrite_keeps (P := fun e => canIssue e = true) startWork_canIssue emitHost_canIssue a bs ro d h

theorem memWrite_mps (a : Nat) (bs : Bytes) (ro : Bool) (d : Dev) : (memWrite a bs ro d).link.mps = d.link.mps :=
  memWrite_keeps (P := fun e => e.link.mps = d.link.mps) (fun e h => (startWork_mps e).trans h)
    (fun m e h => (emitHost_mps m e).trans h) a bs ro d rfl

/-- While DMA is possible a memory write is put out. -/
theorem emitHost_memWrite {a : Nat} {bs : Bytes} {ro : Bool} {d : Dev} (h : canIssue d = true) :
    OutMsg.memWrite a bs ro ∈ (emitHost (.memWrite a bs ro) d).out := by
  have hd : dmaAllowed d = true := by simp only [canIssue, Bool.and_eq_true] at h; exact h.1
  have hl : d.link.lstate ≠ .l12 := by simpa [canIssue, hd] using h
  have hu : d.link.up = true ∧ d.pwr.perst = false := by
    simp only [dmaAllowed, Bool.and_eq_true, Bool.not_eq_true'] at hd
    exact ⟨hd.1.1.1.1, hd.2⟩
  rw [emitHost_leaves hu.1 hu.2 (show mayLeave d (.memWrite a bs ro) = true from hd) hl]
  simp

@[simp] theorem natLe_length (n v : Nat) : (natLe n v).length = n := by
  induction n generalizing v with
  | zero => rfl
  | succ n ih => simp [natLe, ih]

/-- Sixteen bytes inside one page leave as one write. -/
theorem memWrite_sixteen {a : Nat} {bs : Bytes} {d : Dev} (hb : bs.length = 16) (hc : canIssue d = true)
    (hm : 16 ≤ d.link.mps) (ha : a % 4096 ≤ 4080) : OutMsg.memWrite a bs false ∈ (memWrite a bs false d).out := by
  have hp : splitReq (min 256 d.link.mps) a bs.length = [(a, 16)] := by
    rw [hb]
    have hn : pieceLen (min 256 d.link.mps) a 16 = 16 := by
      unfold pieceLen; omega
    simp [splitReq, pieces, hn]
  unfold memWrite
  rw [hp]
  simpa [List.take_of_length_le (Nat.le_of_eq hb)] using
    emitHost_memWrite (a := a) (bs := bs) (ro := false) (startWork_canIssue d hc)

/-- Completions of the host's commands (R230, R245, R272): a command that has just been fetched and ends is
completed at once when there is room. -/
theorem deliver_ace {r : AdmRun} (hr : r.origin = .host) (res : AdmRes) {d : Dev} (h : AceRoom d) :
    (deliver r res d).adm.written = d.adm.written + 1 ∧ (deliver r res d).adm.fetched = d.adm.fetched ∧
      (deliver r res d).adm.run = d.adm.run ∧
      OutMsg.memWrite (d.adm.cqBase + 16 * (d.adm.written.toNat % 2 ^ d.adm.cqLog2))
        (natLe 4 res.r0 ++ natLe 4 res.r1 ++ natLe 4 (r.cid.toNat + res.status * 2 ^ 16) ++
          natLe 4 (d.adm.fetched.toNat % 2 ^ d.adm.sqLog2 + flagAt d.adm.phase 31)) false ∈
        (deliver r res d).out := by
  obtain ⟨hf, hc, hm, hb⟩ := h
  -- the device when the entry is written
  obtain ⟨e, he, ha, hce, hme⟩ : ∃ e : Dev, deliver r res d = fetchNext (writeAce r.cid res.status res.r0 res.r1 e) ∧
      e.adm = d.adm ∧ canIssue e = true ∧ 16 ≤ e.link.mps := by
    have hl : ∀ x, logOutcome r res d = x → x.adm = d.adm ∧ canIssue x = true ∧ x.link.mps = d.link.mps := by
      intro x hx
      subst hx
      refine ⟨by simp, ?_, ?_⟩
      · unfold logOutcome; split
        · simp only [canIssue, dmaAllowed, logRec, Bool.and_eq_true] at hc ⊢
          exact hc
        · exact hc
      · unfold logOutcome; split <;> rfl
    obtain ⟨h1, h2, h3⟩ := hl _ rfl
    cases hrec : res.record with
    | none =>
      refine ⟨stopTimer .admin (logOutcome r res d), ?_, by simp, by simpa [canIssue, dmaAllowed] using h2, by simp [h3, hm]⟩
      have hf' : admFull (stopTimer .admin (logOutcome r res d)) = false := by
        simpa [admFull] using hf
      simp [deliver, hr, hrec, postAce, hf']
    | some p =>
      obtain ⟨a, bs⟩ := p
      refine ⟨stopTimer .admin (memWrite a bs false (logOutcome r res d)), ?_, by simp, ?_, ?_⟩
      · have hf' : admFull (stopTimer .admin (memWrite a bs false (logOutcome r res d))) = false := by
          simpa [admFull] using hf
        simp [deliver, hr, hrec, postAce, hf']
      · simpa [canIssue, dmaAllowed] using memWrite_canIssue a bs false _ h2
      · simp [memWrite_mps, h3, hm]
  rw [he]
  obtain ⟨g, hg⟩ := fetchNext_adm (writeAce r.cid res.status res.r0 res.r1 e)
  refine ⟨by simp [hg, ha], by simp [hg, ha], by simp [hg, ha], ?_⟩
  refine fetchNext_mem ?_
  unfold writeAce
  refine triggerSweep_mem (activity_mem (msix_mem ?_))
  rw [ha]
  refine memWrite_sixteen (by simp) ?_ ?_ ?_
  · simpa [canIssue, dmaAllowed] using hce
  · exact hme
  · omega

/-- Every request of a posted write leaves while DMA is possible. -/
theorem memWrite_pieces {a : Nat} {bs : Bytes} {d : Dev} (hc : canIssue d = true) :
    RecordWritten a bs d (memWrite a bs false d) := by
  have key : ∀ (l : List (Nat × Nat)) (e : Dev), canIssue e = true → ∀ p ∈ l,
      OutMsg.memWrite p.1 ((bs.drop (p.1 - a)).take p.2) false ∈
        (l.foldl (fun d p => emitHost (.memWrite p.1 ((bs.drop (p.1 - a)).take p.2) (false && d.link.roEn)) d) e).out := by
    intro l
    induction l with
    | nil => intro e _ p hp; exact absurd hp (by simp)
    | cons q l ih =>
      intro e he p hp
      have he' := emitHost_canIssue (.memWrite q.1 ((bs.drop (q.1 - a)).take q.2) (false && e.link.roEn)) e he
      rcases List.mem_cons.mp hp with rfl | hp
      · refine foldl_mem _ (fun _ _ h => emitHost_mem h) l _ ?_
        simpa using emitHost_memWrite (ro := false) he
      · exact ih _ he' p hp
  intro p hp
  exact key _ _ (startWork_canIssue d hc) p hp

theorem logOutcome_canIssue (r : AdmRun) (res : AdmRes) (d : Dev) : canIssue (logOutcome r res d) = canIssue d := by
  unfold logOutcome; split <;> simp only [canIssue, dmaAllowed, logRec]

theorem logOutcome_mps (r : AdmRun) (res : AdmRes) (d : Dev) : (logOutcome r res d).link.mps = d.link.mps := by
  unfold logOutcome; split <;> simp only [logRec]

theorem writeAce_mem {x : OutMsg} {cid : BitVec 16} {st r0 r1 : Nat} {d : Dev} (h : x ∈ d.out) :
    x ∈ (writeAce cid st r0 r1 d).out := by
  unfold writeAce
  exact triggerSweep_mem (activity_mem (msix_mem (memWrite_mem h)))

theorem postAce_mem {x : OutMsg} {cid : BitVec 16} {st r0 r1 : Nat} {d : Dev} (h : x ∈ d.out) :
    x ∈ (postAce cid st r0 r1 d).out := by
  unfold postAce
  simp only []
  split
  · exact h
  · exact fetchNext_mem (writeAce_mem (by simpa using h))

/-- The record of a command leaves before its completion entry (R230). -/
theorem deliver_record {r : AdmRun} (hr : r.origin = .host) {res : AdmRes} {a : Nat} {bs : Bytes}
    (hb : res.record = some (a, bs)) {d : Dev} (hc : canIssue d = true) :
    RecordWritten a bs d (deliver r res d) := by
  intro p hp
  have hp' : p ∈ splitReq (min 256 (logOutcome r res d).link.mps) a bs.length := by rw [logOutcome_mps]; exact hp
  have := memWrite_pieces (d := logOutcome r res d) ((logOutcome_canIssue r res d).trans hc) p hp'
  simp only [deliver, hr, hb]
  exact postAce_mem this

/-! ### A command that is taken up -/

theorem hostOnly_taken (op tag : Nat) (d : Dev) : HostOnly d (taken op tag d) := by
  unfold taken; split <;> rfl

@[simp] theorem taken_adm (op tag : Nat) (d : Dev) :
    (taken op tag d).adm = { d.adm with fetch := none, fetched := d.adm.fetched + 1 } := by
  unfold taken; split <;> rfl

@[simp] theorem taken_out (op tag : Nat) (d : Dev) : (taken op tag d).out = d.out := by
  unfold taken; split <;> rfl

@[simp] theorem taken_err (op tag : Nat) (d : Dev) : (taken op tag d).err = d.err := by
  unfold taken; split <;> rfl

/-- A command that can be taken up runs its body. -/
theorem admin_takes {op tag : Nat} {c : AdmCmd} {d : Dev} (h : Takes op c tag d) (buf : Bytes)
    (body : AdmRun → Dev → Dev × Option AdmRes) :
    admin op c buf body d = runBody (hostRun op c) body (taken op tag d) := by
  obtain ⟨hf, hx, hs, ht⟩ := h
  unfold admin taken
  cases untimed op <;> simp [hf, hx, hs, ht, hostRun, ownNode]

theorem taken_canIssue (op tag : Nat) (d : Dev) : canIssue (taken op tag d) = canIssue d := by
  unfold taken; split <;> rfl

theorem taken_mps (op tag : Nat) (d : Dev) : (taken op tag d).link.mps = d.link.mps := by
  unfold taken; split <;> rfl

/-- A body that ends at once, and left the admin pair and the ways out as they were: the command completes with its
result. -/
theorem admin_ends {op tag : Nat} {c : AdmCmd} {d e : Dev} {res : AdmRes} {buf : Bytes}
    {body : AdmRun → Dev → Dev × Option AdmRes} (h : Takes op c tag d) (hr : AceRoom d)
    (hb : body (hostRun op c) (taken op tag d) = (e, some res)) (ha : e.adm = (taken op tag d).adm)
    (hc : canIssue e = canIssue d) (hm : e.link.mps = d.link.mps) :
    AceWritten c res.status res.r0 res.r1 d (admin op c buf body d) ∧ HostOnly e (admin op c buf body d) := by
  rw [admin_takes h]
  have hd : runBody (hostRun op c) body (taken op tag d) = deliver (hostRun op c) res e := by
    simp [runBody, hb]
  rw [hd]
  obtain ⟨hf, hi, hs, hk⟩ := hr
  have hroom : AceRoom e :=
    ⟨by simpa [admFull, ha] using hf, hc.trans hi, by omega, by simpa [ha] using hk⟩
  have ho : (hostRun op c).origin = .host := rfl
  obtain ⟨h1, h2, h3, h4⟩ := deliver_ace ho res hroom
  refine ⟨⟨?_, ?_, ?_, ?_⟩, hostOnly_deliver ho res e⟩
  · simpa [ha] using h1
  · simpa [ha] using h2
  · simpa [ha] using h3
  · simpa [ha, aceBytes, hostRun] using h4

/-- The record of a body that ends at once. -/
theorem admin_record {op tag : Nat} {c : AdmCmd} {d : Dev} {res : AdmRes} {buf : Bytes} {a : Nat} {bs : Bytes}
    {body : AdmRun → Dev → Dev × Option AdmRes} (h : Takes op c tag d) (hr : AceRoom d)
    (hb : body (hostRun op c) (taken op tag d) = (taken op tag d, some res)) (hrec : res.record = some (a, bs)) :
    RecordWritten a bs d (admin op c buf body d) := by
  rw [admin_takes h]
  have hd : runBody (hostRun op c) body (taken op tag d) = deliver (hostRun op c) res (taken op tag d) := by
    simp [runBody, hb]
  rw [hd]
  have hc : canIssue (taken op tag d) = true := (taken_canIssue op tag d).trans hr.2.1
  have hm := taken_mps op tag d
  have := deliver_record (r := hostRun op c) rfl hrec hc
  unfold RecordWritten at this ⊢
  rw [hm] at this
  exact this

/-- A body that runs on: the command waits, and no completion entry is written. -/
theorem admin_runsOn {op tag : Nat} {c : AdmCmd} {d e : Dev} {buf : Bytes} {kind : RunKind}
    {body : AdmRun → Dev → Dev × Option AdmRes} (h : Takes op c tag d)
    (hb : body (hostRun op c) (taken op tag d) = runsOn (hostRun op c) kind e)
    (ha : e.adm = (taken op tag d).adm) :
    RunsOn op c kind d (admin op c buf body d) ∧
      admin op c buf body d = { e with adm.run := some { hostRun op c with kind } } := by
  rw [admin_takes h]
  have hd : runBody (hostRun op c) body (taken op tag d) = { e with adm.run := some { hostRun op c with kind } } := by
    simp [runBody, hb, runsOn]
  rw [hd]
  exact ⟨by simp [RunsOn, ha], rfl⟩

end Sys2Proof.Machine
end

