-- ==== Sys2Proof/Laws/Table.lean ====
section
/-!
SUPPORT. The sparse tables: what a number reads as after each operation, and that every operation keeps the
canonical form.
-/

namespace Sys2Proof.Machine

variable {α : Type}

/-- Every listed number is above `k`. -/
def tblAbove (k : Nat) (t : Tbl α) : Prop := ∀ e ∈ t, k < e.1

theorem tblSorted_cons {j : Nat} {v : α} {t : Tbl α} :
    tblSorted ((j, v) :: t) = true ↔ tblAbove j t ∧ tblSorted t = true := by
  induction t generalizing j v with
  | nil => simp [tblSorted, tblAbove]
  | cons e t ih =>
    obtain ⟨k, w⟩ := e
    simp only [tblSorted, Bool.and_eq_true, decide_eq_true_eq]
    constructor
    · rintro ⟨hjk, hs⟩
      refine ⟨?_, hs⟩
      rintro e' (_ | ⟨_, he⟩)
      · exact hjk
      · exact Nat.lt_trans hjk ((ih.mp hs).1 e' he)
    · rintro ⟨ha, hs⟩
      exact ⟨ha _ (List.mem_cons_self ..), hs⟩

theorem tblFind_above {k : Nat} {t : Tbl α} (h : tblAbove k t) : tblFind t k = none := by
  induction t with
  | nil => rfl
  | cons e t ih =>
    obtain ⟨j, v⟩ := e
    have hj : k < j := h (j, v) (List.mem_cons_self ..)
    simp only [tblFind]
    rw [if_neg (by omega)]
    exact ih fun e he => h e (List.mem_cons_of_mem _ he)

theorem tblFind_put_same (t : Tbl α) (k : Nat) (v : α) : tblFind (tblPut t k v) k = some v := by
  induction t with
  | nil => simp [tblPut, tblFind]
  | cons e t ih =>
    obtain ⟨j, w⟩ := e
    simp only [tblPut]
    split
    · simp [tblFind]
    · split
      · simp [tblFind]
      · rename_i h1 h2
        simp only [tblFind]
        rw [if_neg (fun h => h2 h.symm)]
        exact ih

theorem tblFind_put_other (t : Tbl α) {k i : Nat} (v : α) (h : i ≠ k) :
    tblFind (tblPut t k v) i = tblFind t i := by
  induction t with
  | nil => simp [tblPut, tblFind, h.symm]
  | cons e t ih =>
    obtain ⟨j, w⟩ := e
    simp only [tblPut]
    split
    · simp [tblFind, h.symm]
    · split
      · rename_i h1 h2; subst h2; simp [tblFind, h.symm]
      · simp only [tblFind, ih]

theorem tblFind_erase_other (t : Tbl α) {k i : Nat} (h : i ≠ k) : tblFind (tblErase t k) i = tblFind t i := by
  induction t with
  | nil => rfl
  | cons e t ih =>
    obtain ⟨j, w⟩ := e
    simp only [tblErase]
    split
    · rename_i h1; subst h1; simp [tblFind, h.symm]
    · simp only [tblFind, ih]

theorem tblFind_erase_same {t : Tbl α} (h : tblSorted t = true) (k : Nat) : tblFind (tblErase t k) k = none := by
  induction t with
  | nil => rfl
  | cons e t ih =>
    obtain ⟨j, w⟩ := e
    have hs := tblSorted_cons.mp h
    simp only [tblErase]
    split
    · rename_i h1; subst h1; exact tblFind_above hs.1
    · rename_i h1; simp [tblFind, h1, ih hs.2]

theorem tblAbove_put {t : Tbl α} {j k : Nat} {v : α} (h : tblAbove j t) (hk : j < k) :
    tblAbove j (tblPut t k v) := by
  induction t with
  | nil => intro e he; simp only [tblPut, List.mem_singleton] at he; subst he; exact hk
  | cons e t ih =>
    obtain ⟨i, w⟩ := e
    have ht : tblAbove j t := fun e he => h e (List.mem_cons_of_mem _ he)
    have hi : j < i := h _ (List.mem_cons_self ..)
    simp only [tblPut]
    split
    · rintro e (_ | ⟨_, he⟩)
      · exact hk
      · exact h e he
    · split
      · rintro e (_ | ⟨_, he⟩)
        · exact hk
        · exact ht e he
      · rintro e (_ | ⟨_, he⟩)
        · exact hi
        · exact ih ht e he

theorem tblAbove_erase {t : Tbl α} {j k : Nat} (h : tblAbove j t) : tblAbove j (tblErase t k) := by
  induction t with
  | nil => exact h
  | cons e t ih =>
    obtain ⟨i, w⟩ := e
    have ht : tblAbove j t := fun e he => h e (List.mem_cons_of_mem _ he)
    simp only [tblErase]
    split
    · exact ht
    · rintro e (_ | ⟨_, he⟩)
      · exact h (i, w) (List.mem_cons_self ..)
      · exact ih ht e he

theorem tblSorted_put {t : Tbl α} (h : tblSorted t = true) (k : Nat) (v : α) : tblSorted (tblPut t k v) = true := by
  induction t with
  | nil => rfl
  | cons e t ih =>
    obtain ⟨j, w⟩ := e
    have hs := tblSorted_cons.mp h
    simp only [tblPut]
    split
    · rename_i h1
      refine tblSorted_cons.mpr ⟨?_, h⟩
      rintro e (_ | ⟨_, he⟩)
      · exact h1
      · exact Nat.lt_trans h1 (hs.1 e he)
    · split
      · rename_i h1 h2; subst h2; exact tblSorted_cons.mpr ⟨hs.1, hs.2⟩
      · exact tblSorted_cons.mpr ⟨tblAbove_put hs.1 (by omega), ih hs.2⟩

theorem tblSorted_erase {t : Tbl α} (h : tblSorted t = true) (k : Nat) : tblSorted (tblErase t k) = true := by
  induction t with
  | nil => rfl
  | cons e t ih =>
    obtain ⟨j, w⟩ := e
    have hs := tblSorted_cons.mp h
    simp only [tblErase]
    split
    · exact hs.2
    · exact tblSorted_cons.mpr ⟨tblAbove_erase hs.1, ih hs.2⟩

theorem mem_tblPut {t : Tbl α} {k : Nat} {v : α} {e : Nat × α} (h : e ∈ tblPut t k v) : e = (k, v) ∨ e ∈ t := by
  induction t with
  | nil => simpa [tblPut] using h
  | cons x t ih =>
    obtain ⟨j, w⟩ := x
    simp only [tblPut] at h
    split at h
    · simpa using h
    · split at h
      · rcases List.mem_cons.mp h with h | h
        · exact .inl h
        · exact .inr (List.mem_cons_of_mem _ h)
      · rcases List.mem_cons.mp h with h | h
        · exact .inr (h ▸ List.mem_cons_self ..)
        · exact (ih h).imp_right (List.mem_cons_of_mem _)

theorem mem_tblErase {t : Tbl α} {k : Nat} {e : Nat × α} (h : e ∈ tblErase t k) : e ∈ t := by
  induction t with
  | nil => exact h
  | cons x t ih =>
    obtain ⟨j, w⟩ := x
    simp only [tblErase] at h
    split at h
    · exact List.mem_cons_of_mem _ h
    · rcases List.mem_cons.mp h with h | h
      · exact h ▸ List.mem_cons_self ..
      · exact List.mem_cons_of_mem _ (ih h)

variable [DecidableEq α]

/-- A store keeps the canonical form. -/
theorem tblWf_set {dflt : α} {t : Tbl α} (h : tblWf dflt t = true) (k : Nat) (v : α) :
    tblWf dflt (tblSet dflt t k v) = true := by
  simp only [tblWf, Bool.and_eq_true, List.all_eq_true, decide_eq_true_eq] at h ⊢
  unfold tblSet
  split
  · exact ⟨tblSorted_erase h.1 k, fun e he => h.2 e (mem_tblErase he)⟩
  · rename_i hv
    refine ⟨tblSorted_put h.1 k v, fun e he => ?_⟩
    rcases mem_tblPut he with rfl | he
    · exact hv
    · exact h.2 e he

/-- So does a change of one number. -/
theorem tblWf_modify {dflt : α} {t : Tbl α} (h : tblWf dflt t = true) (k : Nat) (f : α → α) :
    tblWf dflt (tblModify dflt t k f) = true := tblWf_set h k _

/-- A number reads as what was stored under it. -/
theorem tblGet_set_same {dflt : α} {t : Tbl α} (h : tblWf dflt t = true) (k : Nat) (v : α) :
    tblGet dflt (tblSet dflt t k v) k = v := by
  simp only [tblWf, Bool.and_eq_true] at h
  unfold tblSet tblGet
  split
  · rename_i hv; rw [tblFind_erase_same h.1]; exact hv.symm
  · rw [tblFind_put_same]; rfl

/-- Every other number reads as before. -/
theorem tblGet_set_other (dflt : α) (t : Tbl α) {k i : Nat} (v : α) (h : i ≠ k) :
    tblGet dflt (tblSet dflt t k v) i = tblGet dflt t i := by
  unfold tblSet tblGet
  split
  · rw [tblFind_erase_other _ h]
  · rw [tblFind_put_other _ _ h]

/-- Bytes stored from an offset on keep the canonical form. -/
theorem tblWf_writeBytes (bs : Bytes) : ∀ (t : Tbl Byte) (off : Nat), tblWf 0 t = true →
    tblWf 0 (tblWriteBytes t off bs) = true := by
  induction bs with
  | nil => intro t off h; exact h
  | cons b bs ih => intro t off h; exact ih _ _ (tblWf_set h off b)

/-- A byte outside those stored reads as before. -/
theorem tblGet_writeBytes_other (bs : Bytes) : ∀ (t : Tbl Byte) (off a : Nat),
    (a < off ∨ off + bs.length ≤ a) → tblGet 0 (tblWriteBytes t off bs) a = tblGet 0 t a := by
  induction bs with
  | nil => intro t off a _; rfl
  | cons b bs ih =>
    intro t off a h
    simp only [List.length_cons] at h
    rw [tblWriteBytes, ih _ _ _ (by omega), tblGet_set_other _ _ _ (by omega)]

/-- A byte stored reads as it was given. -/
theorem tblGet_writeBytes_same (bs : Bytes) : ∀ (t : Tbl Byte) (off i : Nat) (_ : tblWf 0 t = true)
    (hi : i < bs.length), tblGet 0 (tblWriteBytes t off bs) (off + i) = bs[i] := by
  induction bs with
  | nil => intro t off i _ hi; exact absurd hi (by simp)
  | cons b bs ih =>
    intro t off i h hi
    rw [tblWriteBytes]
    cases i with
    | zero =>
      rw [tblGet_writeBytes_other _ _ _ _ (by omega)]
      simpa using tblGet_set_same h off b
    | succ i =>
      have := ih (tblSet 0 t off b) (off + 1) i (tblWf_set h off b) (by simpa using hi)
      rw [show off + (i + 1) = off + 1 + i by omega]
      simpa using this

end Sys2Proof.Machine
end

