-- ==== Sys2Proof/Laws/Queues.lean ====
section
/-!
SUPPORT. The queues by number.
-/

namespace Sys2Proof.Machine

/-- The queue stored reads back. -/
theorem queueOf_put_same {d : Dev} (h : tblWf {} d.queues = true) (i : Nat) (q : Queue) :
    queueOf (putQueue i q d) i = q := tblGet_set_same h i q

/-- The others stay. -/
theorem queueOf_put_other (d : Dev) {i j : Nat} (q : Queue) (h : j ≠ i) :
    queueOf (putQueue i q d) j = queueOf d j := tblGet_set_other ({} : Queue) d.queues q h

/-- A change of one queue reads back. -/
theorem queueOf_on_same {d : Dev} (h : tblWf {} d.queues = true) (i : Nat) (f : Queue → Queue) :
    queueOf (onQueue i f d) i = f (queueOf d i) := tblGet_set_same h i _

/-- The others stay. -/
theorem queueOf_on_other (d : Dev) {i j : Nat} (f : Queue → Queue) (h : j ≠ i) :
    queueOf (onQueue i f d) j = queueOf d j := tblGet_set_other ({} : Queue) d.queues _ h

/-- The table of queues keeps its canonical form. -/
theorem putQueue_wf {d : Dev} (h : tblWf {} d.queues = true) (i : Nat) (q : Queue) :
    tblWf {} (putQueue i q d).queues = true := tblWf_set h i q

end Sys2Proof.Machine
end

