-- ==== Sys2Proof/WellFormed.lean ====
section
/-!
DEFINITION. The commands that the outside world can send: sizes and ranges of what a command brings with it
that its Lean type does not bound. A meaning is total on the others too; nothing rests on these checks.
-/

namespace Sys2Proof

/-- The buffer that comes with an admin command is the AC_LEN bytes at AC_ADDR (R271). -/
def bufferFits (c : AdmCmd) (buf : Bytes) : Bool := decide (buf.length = c.len.toNat)

/-- A near-tier word address: 512 segments of 512 words (08, near tier; R368 gives the word). -/
def nearAddresses (l : List (Nat × BitVec 74)) : Bool := l.all fun e => decide (e.1 < 262144)

/-- A word of one of the seven SRAMs (01_architecture.md, R555): table, staging, binding, and the instruction and data
SRAM of either core. -/
def sramAddress (f : SramFlaw) : Bool :=
  match f.mem.toNat with
  | 0 => decide (f.addr.toNat < 65536)
  | 1 => decide (f.addr.toNat < 16384)
  | 2 => decide (f.addr.toNat < 4096)
  | 3 => decide (f.addr.toNat < 16384)
  | 4 => decide (f.addr.toNat < 8192)
  | 5 => decide (f.addr.toNat < 16384)
  | 6 => decide (f.addr.toNat < 8192)
  | _ => false

/-- Words of the register block are 32 bits wide and lie at multiples of 4 (15_setup_registers.md). -/
def wordAligned (off : Nat) : Bool := decide (off % 4 = 0)

/-- A command as the outside world can send it. -/
def Instr.wf : Instr → Bool
  -- a buffer is as long as its command says
  | .stageQueues c buf => bufferFits c buf
  | .stagePorts c buf => bufferFits c buf
  | .stageBindings c buf => bufferFits c buf
  | .keyLoad c buf => bufferFits c buf
  | .peerFirmware c image => bufferFits c image
  | .relayedAdminCommand op c buf =>
    decide (op.toNat ∈ Machine.opcodes) && decide (buf.length ≤ c.len.toNat)
  -- an opcode outside R274
  | .invalidOpcode op _ => decide (op.toNat ∉ Machine.opcodes)
  -- BAR2 is 64 KiB (R619)
  | .bar2Write off data => decide (off.toNat + data.length ≤ 65536)
  -- a fuse word has 32 bits (R510)
  | .fuseBurn _ _ outcomes => decide (outcomes.length ≤ 32)
  | .shadowOverrideWrite off _ => wordAligned off.toNat
  | .turnstileRound _ upsets sram => nearAddresses upsets && sram.all sramAddress
  | .scrubNearGroup upsets => nearAddresses upsets
  -- the whole 2 KiB block: 256 doorbells of 8 bytes (R232, R234)
  | .sweep block => decide (block.length = 256)
  -- one request is at most 512 bytes (R196)
  | .dmaReadCompletion _ _ data => decide (data.length ≤ 512)
  -- a deep segment has 128 sectors (R338)
  | .deepReadComplete _ _ reads => decide (reads.length ≤ 128)
  -- a push request is at most 64 bytes (02, "Turnstile rounds"; R430)
  | .push _ p => decide (p.data.length ≤ 64)
  -- seven bytes a chunk (R417)
  | .img _ _ data => decide (data.length = 7)
  -- the response has 208 bytes (R586)
  | .unlockResp data => decide (data.length = 208)
  -- the fields of these have the widths of their types
  | .rcFieldRead _ | .registerWrite _ _ | .ringCreate _ | .ringDelete _ | .epochCheck _ _ | .epochCommit _ _ | .commitInstant | .epochDiscard _
  | .queueFlush _ | .queueDropPacket _ | .queueMark _ | .queueRetransmit _ | .queueReadCounters _ | .portUnpark _
  | .sealCmd _ | .powerRequestActive _ | .powerRequestListen _ | .powerRequestStandby _ | .keyErase _
  | .keyEraseEffect | .keyInstallPending _ | .keyStatus _ | .wearReport _ | .scrubReport _ | .remapReport _
  | .peerStatus _ | .relayPassWaitExpiry | .relayBeaconWaitExpiry | .logRead _ | .adminTimeout | .adminEnable
  | .adminDisable | .hifMirrorEnWrite _ | .mirrorHoldExpiry _ | .pwrSoftReset _ | .pwrPaceWrite _
  | .pwrGovEnWrite _ | .pwrPaceRangeWrite _ _ | .pwrGovWindowWrite _ _ | .paceStepSettled | .govUpWindowExpiry
  | .govDownWindowExpiry | .tbNowCapture | .slowclkPresent | .slowclkLost | .tickOscRestarted | .bootLoadChunk
  | .chunkCopyDone | .bootStart | .imageVerified _ | .bootRestart | .fuseRead _ _ | .fuseRedirect _ | .fuseOpDone
  | .otpLockWrite _ | .eccTestWrite _ _ _ | .eccTestProgram | .eccTestRead _ _ | .eccTestDone | .errCapPop
  | .errFirstClr | .tierSpillBurstWrite _ | .casEnable | .ingressBeat _ _ _ _ _ | .flushPulse _ _ | .rtPulse _ _
  | .mrkPulse _ _ | .dropPulse _ _ | .eventCrossingLatch _ | .eventCrossingFree _ | .portEventEffect _
  | .beatVisible _ | .valueCrossingAccept _ _ | .egressRead _ | .egressPushBeat _ _ | .portClockStall _
  | .portReopen _ | .handover _ | .handoverForced _ | .switchReturn _ | .tpEnChange _ _ | .kick _
  | .sweepTimerExpiry | .fillDescriptorFetch _ | .completionTimeout _ | .descTimeout _ | .drainDescriptorFetch _
  | .drainGrant _ | .drainWaitExpiry _ | .drainTransferEnd _ | .completionIrqTimer _ | .msixUnmask _
  | .busMasterChange _ _ | .l1EntryRequest | .unsupportedRequest _ | .hostInterfaceReset _ | .perstAssert
  | .perstDeassert | .linkUp _ | .por _ _ _ _ _ | .vinLoss | .deepProgramStart | .deepProgramVerified _ _
  | .journalTimerExpiry | .scrubDeepGroup _ | .weaveLaneStall _ _ | .train | .ack _ | .nak _ | .ackTimerExpiry _
  | .retryTimeout _ | .beaconTimer | .beacon _ _ | .beaconTimeout _ | .popReq _ _ | .popRsp _ _ | .loanReq _ _
  | .loanGrant _ _ | .loanRefuse _ _ | .segWrite _ _ | .verifyOk _ _ | .verifyFail _ _ | .readReq _ _
  | .readRsp _ _ | .segRelease _ _ | .reclaim _ _ | .loanList _ _ | .listEnd _ _ | .holeTimeout _ | .cmd _ _
  | .rsp _ _ | .join _ _ _ | .getVersion | .getCapabilities | .negotiateAlgorithms | .getDigests
  | .getCertificate _ _ _ | .challenge _ _ _ | .getMeasurements _ _ _ | .doeDiscovery _
  | .spdmUnsupportedRequest _ | .extest _ | .clamp | .highz | .samplePreload _ | .idcode | .bypass | .tapReset
  | .loupeAddr _ | .loupeRead | .loupeWrite _ | .haltReq _ | .shuttleHalt | .resume _ | .stepCmd _ | .unlockChal
  | .flitCrcFail | .l12Entry | .l12Exit | .poisonedTlpReceived | .receiverErrorCmd _ | .configSpaceWrite _ => true

end Sys2Proof
end

