-- ==== Sys2Proof/Tests/Slice0.lean ====
section
/-!
SUPPORT. Own tests: small states, a state and operands that meet the hypotheses of every statement together, the
checks of WellFormed on ill-formed commands, and worked values of the spec.
-/

open Sys2Proof Sys2Proof.Machine

namespace Sys2Proof.Tests

/-! ### States -/

-- The device

/-- A running device of node 0: firmware runs, the link is in L0 with bus mastering, the admin pair is enabled and
fetches under tag 5. -/
def on : Dev :=
  { Dev.reset with
    pwr.perst := false, boot.status := .fwRunning
    link.up := true, link.bme := true, link.msixEn := true, link.nextTag := 6
    link.reads := [{ tag := 5, what := .admin, addr := 0x1000, len := 64 }]
    adm.en := true, adm.sqLog2 := 4, adm.cqLog2 := 4, adm.sqBase := 0x1000, adm.cqBase := 0x2000
    adm.dbBase := 0x3000, adm.mirrorBase := 0x4000, adm.fetch := some 5 }

/-- The machine in a device state, nothing waiting. -/
def stt (d : Dev) : State := { dev := d, pending := [] }

/-- An admin command for the own node. -/
def cm (arg0 : Nat) (flags : Nat := 0) (len : Nat := 128) (arg1 : Nat := 0) : AdmCmd :=
  { flags := BitVec.ofNat 8 flags, cid := 7, arg0 := BitVec.ofNat 32 arg0, addr := 0x10000
    len := BitVec.ofNat 32 len, arg1 := BitVec.ofNat 32 arg1, arg2 := 0, arg3 := 0 }

/-- A configuration that passes the checks. -/
def qc : QCfg := { valid := true, cap := 64, aft := 8, aet := 8, nearQuota := 4, deepQuota := 4, tier := 1 }

/-- Queue 3 is live with `items` stored. -/
def withQueue (cfg : QCfg) (items : List Item) (d : Dev) : Dev := { d with queues := [(3, { cfg, items })] }

/-- A timer that has run for `n` ticks. -/
def withTimer (id : TimerId) (n : Nat) (d : Dev) : Dev :=
  { d with tb.timers := [{ id, start := some 0 }], tb.now := 512 * n }

def fill1 : FillRing := { log2 := 4, base := 0x5000, gen := 1, cq := 5, timeout := 640 }
def drain2 : DrainRing := { log2 := 4, base := 0x6000, gen := 1, cq := 5, packed := false, wait := 10, dmin := 0 }
def comp5 : CompRing := { log2 := 4, base := 0x7000, gen := 1, vector := 3, irqEn := true, thr := 1, time := 10 }

/-- The device with a ring of each kind. -/
def withRings (d : Dev) : Dev :=
  { d with rings := { fills := [(1, fill1)], drains := [(2, drain2)], comps := [(5, comp5)] } }

def zeros (n : Nat) : Bytes := List.replicate n 0
def log0 : LogRec := { seq := 0, kind := 1, code := 0, time := 0, object := 0 }
def staged3 : Dev := { on with stage.qtes := [(3, qc)] }
def staged7 : Dev := { on with stage.qtes := [(3, { qc with cap := 0 })] }
def sealedOn : Dev := { on with tier.journal := [.sealed [] 0 0] }
def twoWaiting : State := { dev := on, pending := [.pwrPaceWrite 3, .bootStart] }
def binds1 : Bindings := { tags := [{ port := 0, tag := 1, qid := 3 }] }

-- Rings, seal, keys, relays

/-- One item in near segment 7 of chain position 0. -/
def oneSeg : Queue :=
  { cfg := { qc with persist := true }, items := [{ data := 9 }], nextPos := 1
    chain := [{ pos := 0, used := 1, near := some 7 }] }
def sealing : Dev := { on with queues := [(3, oneSeg)], epoch.cfgChanged := false }
def sealedNow : Dev := { sealing with tier.journal := [.sealed [] 0 0] }
def keyV (gen : Nat) : KeyVal := { key := zeros 64, gen, persist := false }
def twoKeys : Dev := { on with keys.slots := [(2, { installed := some (keyV 1), pending := some (keyV 2), counter := 2 })] }
def oneKey : Dev := { on with keys.slots := [(2, { installed := some (keyV 1), counter := 1 })] }
/-- A queue bound to slot 2 uses its key. -/
def usedKey : Dev := { oneKey with queues := [(3, { oneSeg with cfg.slot := 2, cfg.persist := false })] }
def erasing : Dev := { usedKey with epoch.eraseFence := some 2 }
/-- A wrapped key for slot 2 with generation counter `g`. -/
def wrapped (g : Nat) : Bytes :=
  natLe 4 0x4B573334 ++ natLe 4 (1 + 2 * 256 + g * 65536) ++ zeros 216
/-- A cascade ring with node 1 present. -/
def ring : Dev :=
  { on with
    regs.casEn := true, regs.casNodes := 3, cas.up := true
    cas.peers := [(1, { st := .present, boots := 1, lineage := 7, credits := 4 })] }
def relaying : Dev :=
  { withTimer .relayPass 20000 on with
    adm.run := some { opcode := 0x61, cid := 7, addr := 0, len := 8, origin := .host, kind := .relayFw }
    cas.relayPasses := 1, cas.relayMask := 2, cas.relayImage := zeros 8 }
def relayed : Dev := { relaying with tb.timers := [{ id := .relayBeacon, start := some 0 }], tb.now := 512 * 10000 }
def relayDone : Dev := { relayed with cas.relayPasses := 3 }
/-- A header from node 1 to this node. -/
def hd : FlitHdr := { src := 1, dst := 0, seq := 0, ack := 0, crd := 0, ackv := false }
def cmdTo (op : Nat) : CmdPl := { tag := 9, abandon := false, opcode := BitVec.ofNat 8 op, cmd := cm 0, buf := [] }
def rspFrom : RspPl := { tag := 9, passed := false, status := 0, result0 := 0, result1 := 0, record := [] }
def hostRun1 : AdmRun := { opcode := 0x20, cid := 7, addr := 0, len := 0, origin := .host, kind := .relay 1 9 false }
def relayWait : Dev := { ring with adm.en := false, adm.fetch := none, adm.run := some hostRun1 }
def roundRun : AdmRun := { hostRun1 with kind := .round 3 }
def timedOut : Dev :=
  { withTimer .admin 100000 (withQueue qc [] on) with
    adm.fetch := none, adm.run := some roundRun
    queues := [(3, { cfg := qc, ctl.flush := [.admin] })] }
def admOff : Dev := { on with adm.en := false, adm.fetch := none, regs.sqLog2 := 4, regs.cqLog2 := 16 }
def admBad : Dev := { admOff with regs.cqLog2 := 17 }
def mirrorDue : Dev :=
  { withTimer (.mirror 3) 1000 on with
    regs.mirrorEn := true, queues := [(3, { cfg := qc, items := [{ data := 9 }], mirrorHeld := true })] }

-- Power and boot

def stepping : Dev := { on with pwr.stepTo := some 4 }
def busyGov : Dev :=
  { withTimer .govUp 8 on with
    pwr.govEn := true, tier.progQ := List.replicate 4 { what := .spill 3 0 } }
def idleGov : Dev := { withTimer .govDown 500 on with pwr.govEn := true }
def listenOn : Dev := { on with tb.tickRun := false, tb.timers := [{ id := .idle, start := none }] }
def offDev : Dev :=
  { Dev.reset with pwr.vin := false, ports.p0.strap := true, regs.casEn := false }
def offWaiting : State := { dev := offDev, pending := [.ingressBeat 0 true false false 5] }
def linkScope : Dev := { on with regs.perstLink := true }
def standbyDue : Dev := { on with pwr.standbyPend := true }
def held : Dev := { Dev.reset with boot.status := .hold }
def training : Dev := { Dev.reset with pwr.perst := false, boot.status := .rom, link.training := true }
def waiting : Dev := { on with boot.status := .waitImage, boot.len := 8, boot.off := 0 }
def copying : Dev := { waiting with boot.busy := true, boot.buf := [(0, 1), (7, 2)] }
def failedImage : Dev := { on with boot.status := .failed, boot.err := 0x92 }
def verifying : Dev := { on with boot.status := .verifying }
def lane3 : Lane := { group := 3, lane := 1 }
def noWatchdog : Dev := { on with regs.wdogRst := false }
def oneLaneUsed : Dev := { on with rep.lanesField := [{ group := 3, lane := 0 }] }
def offHeld : Dev := { offDev with pwr.perst := true }

-- Fuses and test mode

def fuseOp (mode : BitVec 2) (row : BitVec 8) (op : BitVec 2 := 0) : Dev :=
  { on with fuse.busy := true, fuse.run := some (op, mode, row) }
def burn1 : BurnRun := { row := 200, word := 1, steps := [(32, .burned), (33, .failWeak)], code := 0x89, bit := 1 }
def burning : Dev := { on with fuse.busy := true, fuse.burn := some burn1 }
def otpShut : Dev := { on with fuse.otpLock := 0x42 }
def testOn : Dev := { on with ecc.en := true, ecc.buf := [(5, { data := 7 })] }
def testRun : Dev := { on with ecc.busy := true, ecc.run := some (false, 1), ecc.nearSeg := [(1, { data := 6, check := 1, valid := true })] }
def overOn : Dev := { on with err.overflow := true }

-- Ports and turnstile

def pin16 : Pce := { en := true, width := 2, qid := 3 }
def closing : Pce := { pin16 with en := false }
def opened : PceRun := { isOpen := true }
/-- Ingress port 1 is open with 16 bits. -/
def fixedIn : Dev := { on with ports.i1 := { pce := pin16, run := opened, ff := false, flushPrev := some false } }
def fullIn : Dev := { on with ports.i1 := { pce := pin16, run := { opened with ovf := 65535 }, ff := true } }
def taggedIn : Dev :=
  { on with ports.i1 := { pce := { pin16 with tagged := true }, run := opened, ff := false, tag := some 4095, tagQid := some 3 } }
def unmappedIn : Dev := { on with ports.i1 := { pce := { pin16 with tagged := true }, run := opened, ff := false } }
/-- Egress port 1 is open in pull mode with one item of queue 3. -/
def pull : EPort :=
  { pce := pin16, run := opened, esb := [.item 3 { data := 0x1122 } 1], visible := 1, ef := false, hiZ := false
    rtPrev := some false, mrkPrev := some false, dropPrev := some false }
def pulling : Dev := { withQueue qc [{ data := 5 }] on with ports.e1 := pull }
def dryPull : Dev := { on with ports.e1 := { pull with esb := [], visible := 0, ef := true, pce.tagged := true } }
def emptyPull : Dev := { withQueue qc [] on with ports.e1 := { pull with esb := [], visible := 0, ef := true } }
def pushing : Dev := { pulling with ports.e1 := { pull with pce.push := true } }
def drySkid : Dev := { pulling with ports.e1 := { pull with pce.push := true, skid := some 0 } }
def crossing (x : EventXing) : Dev := { withQueue qc [] on with ports.e1 := { pull with xing := x } }
def asking : EventXing := { busy := true }
def crossIn (x : EventXing) : Dev :=
  { on with ports.i1.xing := x, queues := [(3, { cfg := qc, lock := some (.port 1) })] }
def eventIn : Dev :=
  { on with ports.i1 := { pce := pin16, run := opened, ff := false, ev := [.commit (some closing) false (some 1)] } }
def eventOpen : Dev := { on with ports.e1 := { ev := [.commit (some pin16) false none] } }
def eventClose : Dev :=
  { withQueue qc [{ data := 5 }] on with
    ports.e1 := { pull with ev := [.commit (some closing) false (some 1)] } }
def burst1 : Burst := { prod := .port 1, qid := 3, items := [{ data := 1 }], stamp := 0, beats := 1 }
def visBeat : Dev :=
  { on with ports.i1 := { pce := pin16, run := opened, latched := some burst1, isb := [.beat 1 false 3 none 0 2, .beat 2 false 3 none 0 2] } }
def waitsLock : Dev :=
  { withTimer (.stall 3) 1000 pulling with regs.stallTo := 1000 }
def parkedOn : Dev := { on with ports.e1.run := { parked := true, isOpen := true } }
def unparking : Dev := { on with ports.e1.run := { parked := true, unparkPend := true, isOpen := true } }
def armedPair : Dev := { on with ports.p1 := { strap := true, armed := true, pointB := true, trackTag := some 7 } }
def latePair : Dev := { withTimer (.handover 1) 10000 on with ports.p1 := { strap := true, armed := true } }
def backPair : Dev := { on with ports.p1 := { strap := true, handed := true, returning := true, pointB := true } }
/-- Queue 3 with a flush request and two items. -/
def flushing : Dev := { on with queues := [(3, { cfg := qc, items := [{ data := 1 }, { data := 2 }], ctl.flush := [.admin] })] }
def fencedQ : Dev := { flushing with epoch.allFence := true }
def queuedOne : Queue :=
  { cfg := { qc with pkt := true }, items := [{ data := 1 }], nextPos := 1, chain := [{ pos := 0, used := 1, near := some 0, all := [{ data := 1 }] }]
    inPkt := true }
def admitting : Dev := { on with queues := [(3, queuedOne)], ports.i0.latched := some { burst1 with prod := .port 0 } }
def stageOne : Stage := { qtes := [(3, {}), (9, qc)] }
def atInstant : Dev :=
  { withQueue qc [] on with epoch.fence := true, epoch.now := 0xFFFFFFFF, epoch.taken := some stageOne, stage := stageOne }
/-- The beat a port would drive. -/
def nextOf (d : Dev) (p : EPort) : Driven :=
  match nextBeat (cfgOf d) p with
  | some r => r
  | none => { d := 0, eop := false, tagv := false, port := p }
def crossRt : Dev := crossing { asking with rt := some 3 }
def crossMrk : Dev := crossing { asking with mrk := some 3 }
def crossDrop : Dev := crossing { asking with drop := some 3 }
def crossAck : Dev := crossing { asking with latched := true, pMrk := some 3 }
def crossAbort : Dev := crossIn { asking with rt := some 0 }
def burst0 : Burst := { burst1 with prod := .port 0 }
def undelivered : List Item := [{ data := 0x1122 }]

/-- An uncorrectable word of the table SRAM. -/
def flawBad : SramFlaw := { mem := 0, addr := 48, uncorrectable := true }

/-- A corrected word of the table SRAM. -/
def flawOk : SramFlaw := { mem := 0, addr := 48, uncorrectable := false }

-- Sweeps, rings, host link

def sweepingOn : Dev := { withRings on with sweep.running := true }
def standbyOn : Dev := { on with pwr.standby := true, boot.status := .powerUp, adm := {}, link.up := false }
def sweepDue : Dev := { withTimer .sweep 2 on with link.reads := [] }
def sweepHeld : Dev := { withTimer .sweep 2 on with sweep.running := true }
/-- Doorbell 65 of the block says that fill ring 1 has 16 descriptors. -/
def doorbells : List DWord := (List.range 256).map fun i => if i = 65 then 0x100000010 else 0
/-- A fill descriptor: 8 bytes to queue 3; and one with a reserved bit set. -/
def fillOk : Bytes := natLe 8 0x9000 ++ natLe 4 8 ++ natLe 4 (3 + 0x20000) ++ zeros 16
def fillBad : Bytes := natLe 8 0x9000 ++ natLe 4 8 ++ natLe 4 (3 + 0x80000000) ++ zeros 16
def arrived (bs : Bytes) : Dev :=
  { withRings (withQueue qc [] on) with rings.fills := [(1, { fill1 with arrived := [bs] })] }
def fillRun1 : FillRun := { addr := 0x9000, len := 8, qid := 3, sop := false, eop := true, cookie := 1, stamp := 0 }
def lateFill : Dev :=
  { withTimer (.desc 1) 640 (withRings on) with rings.fills := [(1, { fill1 with cur := some fillRun1 })] }
def reading (w : ReadFor) : ReadReq := { tag := 5, what := w, addr := 0x5000, len := 32 }
def fillFetch : Dev := { withRings on with link.reads := [reading (.fillDesc 1)], rings.fills := [(1, { fill1 with tail := 1, issued := 1 })] }
def drainFetch : Dev :=
  { withTimer (.read 5) 1000000 (withRings on) with link.reads := [reading (.drainDesc 2)] }
def drainOk : Bytes := natLe 8 0x9000 ++ natLe 4 64 ++ natLe 4 0 ++ zeros 16
def buf1 : DrainBuf := { addr := 0x9000, len := 64, cookie := 1 }
def drainArrived : Dev := { withRings on with rings.drains := [(2, { drain2 with arrived := [drainOk] })] }
def bind2 : BindEnt := { target := 2, index := 0, qid := 3, tag := 0, weight := 1 }
def drainReadyOn : Dev :=
  { withRings (withQueue qc [{ data := 9 }] on) with
    queues := [(3, { cfg := qc, items := [{ data := 9 }], waited := true })]
    bind.drain := [bind2], rings.drains := [(2, { drain2 with bufs := [buf1] })] }
def xfer1 : Xfer := { qid := 3, buf := buf1, ew := 0, items := [{ data := 9 }], ended := true }
def drainEnded : Dev :=
  { withRings (withQueue qc [] on) with
    bind.drain := [bind2], rings.drains := [(2, { drain2 with bufs := [buf1], xfer := some xfer1 })] }
def drainWaits : Dev := { withTimer (.drainWait 3) 10 drainReadyOn with queues := [(3, { cfg := qc, items := [{ data := 9 }] })] }
def irqDue : Dev :=
  { withTimer (.irq 5) 10 (withRings on) with
    rings.comps := [(5, { comp5 with unreported := 1, vector := 31 })], link.vectors := [(31, { masked := false })] }
def comp31 : CompRing := { comp5 with unreported := 1, vector := 31 }
def pendVec : Dev := { on with link.pba := 0x80000001 }
def idleLink : Dev := { on with link.reads := [], link.aspmL1 := true }
def asleep : Dev := { idleLink with link.lstate := .l12, link.clkreq := false }
def fillGot : FillRing := { fill1 with arrived := [fillOk] }
def fillGotBad : FillRing := { fill1 with arrived := [fillBad] }
def fillLate : FillRing := { fill1 with cur := some fillRun1 }
def fillAsked : FillRing := { fill1 with tail := 1, issued := 1 }
def drainGot : DrainRing := { drain2 with arrived := [drainOk] }
def drainBuf : DrainRing := { drain2 with bufs := [buf1] }
def drainXfer : DrainRing := { drain2 with bufs := [buf1], xfer := some xfer1 }

-- Tiers and scrubber

def spillProg : Prog := { what := .spill 3 0 }
def spilling : Queue := { oneSeg with cfg.persist := false, chain := [{ pos := 0, used := 1, near := some 7, prog := .queued }] }
def programming : Dev := { on with queues := [(3, spilling)], tier.progQ := [spillProg] }
def lowBucket : Dev := { programming with tier.level := 4095 }
def flying : Prog := { spillProg with seg := some 9, items := [{ data := 9 }] }
def verifyDue : Dev :=
  { on with
    queues := [(3, { oneSeg with chain := [{ pos := 0, used := 1, near := some 7, prog := .started }] })]
    tier.active := [flying], tier.deep := [(9, .busy)] }
def deepOnly : Dev :=
  { on with
    queues := [(3, { oneSeg with chain := [{ pos := 0, used := 1, deep := some { seg := 9 }, reading := true }] })]
    tier.deep := [(9, .copy 3 0 0 0 [{ data := 9 }])] }
def journalDue : Dev := { withTimer .journal 1000000 on with tier.gathered := [.unseal], tier.jSegs := 94 }
def scrubbing : Dev := { on with rep.nearPos := 62 }
def upset1 : Dev :=
  { on with rep.nearPos := 448, queues := [(3, oneSeg)], rep.upset := [(3584, 1)] }
def seg7 : ChainSeg := { pos := 0, used := 1, near := some 7 }
def segQueued : ChainSeg := { seg7 with prog := .queued }
def segStarted : ChainSeg := { seg7 with prog := .started }
def segRead : ChainSeg := { seg7 with near := none, deep := some { seg := 9 }, reading := true }
def ref9 : DeepRef := { seg := 9 }

-- The cascade ring

def casOff : Dev := { on with cas := {} }
def trainingRing : Dev := { ring with cas.up := false, cas.training := true, cas.trainSeen := 62 }
def trained : Dev := { trainingRing with cas.trainSeen := 63 }
def peerNode : Dev := { ring with cas.node := 2 }
def unit1 : SentFlit := { seq := 255, type := 8, payload := [1] }
def peer1 : Peer := { st := .present, boots := 1, lineage := 7, credits := 4 }
def withPeer (p : Peer) (d : Dev) : Dev := { d with cas.peers := [(1, p)] }
def sentOne : Peer := { peer1 with unacked := [unit1], attempts := 7 }
def spent : Peer := { sentOne with attempts := 8 }
def owing : Peer := { peer1 with ackDue := true, owedCredits := 16 }
def sent : Dev := withPeer sentOne (withTimer (.retry 1) 20 ring)
def sentAll : Dev := withPeer spent (withTimer (.retry 1) 20 ring)
def ackHd : FlitHdr := { hd with ackv := true, ack := 0, crd := 15 }
def oddHd : FlitHdr := { hd with seq := 1 }
def pushPl : PushPl := { qid := 3, opens := false, ends := true, abort := false, ragged := false, stamp := 0, data := [1, 2, 3] }
def beaconDue : Dev := withTimer .beacon 1000 ring
def beaconPl : BeaconPl := { lineage := 7, epoch := 5, boots := 1, sealing := true, pstate := 1 }
def ringAlone : Dev := { ring with cas.peers := [] }
def silent : Dev := withTimer (.beaconTo 1) 4000 ring
def peerLoading : Dev :=
  { on with cas.node := 2, boot.status := .loading, link.up := false, link.reads := [], adm := {} }
def peerVerified : Dev := { peerLoading with boot.status := .verifying, cas.verified := true }
def popPl : PopReqPl :=
  { qid := 3, limit := 64, packed := false, arm := false, done := false, ret := false, tag := 2, dmin := 1, wait := 10 }
def armPl : PopReqPl := { popPl with arm := true }
def donePl : PopReqPl := { popPl with done := true }
def retPl : PopReqPl := { popPl with ret := true }
def rspPl : PopRspPl :=
  { qid := 3, sop := true, eop := true, aborted := false, ctUnderrun := false, ragged := false, damaged := false
    ready := false, tag := 2, data := [1, 2] }
def readyPl : PopRspPl := { rspPl with ready := true }
def heldQueue : Queue := { cfg := qc, items := [{ data := 1 }], held := [(2, [{ data := 5 }])] }
def popOn : Dev := { ring with queues := [(3, heldQueue)] }
def bind13 : BindEnt := { bind2 with qid := 0x1003 }
def remoteXfer : Xfer := { qid := 0x1003, buf := buf1, ew := 0, remote := some 2 }
def drainRemote : DrainRing := { drain2 with bufs := [buf1], xfer := some remoteXfer }
def remoteOn : Dev := { withRings ring with bind.drain := [bind13], rings.drains := [(2, drainRemote)] }
def segPl : SegPl := { handle := 9, persist := true, first := 0, count := 126, borrower := 3, data := zeros 4096 }
def loan9 : Loan := { node := 1, lineage := 7, persist := true, borrower := 3, seg := 9, data := [] }
def lender : Dev := { ring with tier.loans := [(9, loan9)], tier.deep := [(9, .lent 9)] }
def noLoans : Dev := { ring with queues := [(3, { cfg := { qc with deepQuota := 8192 } })] }
def borrow (h : Option Nat) : Prog := { what := .borrow 3 0 1 0 h }
def borrower (h : Option Nat) : Dev :=
  { ring with
    queues := [(3, { oneSeg with chain := [segStarted] })], tier.active := [borrow h] }
def loanRef : LoanRef := { node := 1, handle := 9, lineage := 7 }
def segLent : ChainSeg := { pos := 0, used := 1, loan := some loanRef, reading := true }
def segHole : ChainSeg := { segLent with reading := false, hole := true }
def readBack : Dev := { ring with queues := [(3, { oneSeg with chain := [segLent] })] }
def holed : Dev := withPeer { peer1 with reclaiming := true } { ring with queues := [(3, { oneSeg with chain := [segHole] })] }
def holeDue : Dev := { withTimer (.hole 1) 60000000 holed with cas.peers := [(1, { peer1 with st := .lost })] }
def heldOne : Nat × List Item := (2, [{ data := 5 }])
def armOn : Dev := { ring with queues := [(3, { cfg := qc })] }

-- SPDM, JTAG

def agreed : Dev := { on with spdm := { version := true, caps := true, algs := true } }
def inRom : Dev := { on with boot.status := .rom, adm := {}, link.reads := [] }
def scanWait : Dev := { on with boot.status := .waitImage }
def loupeOn : Dev := { on with jtag.addr := 0x98, jtag.autoinc := true }
def sramOn : Dev := { on with jtag.space := 4, jtag.addr := 0xFFFC }
def haltedOn : Dev := { sramOn with jtag.halted := true }
def burnHalt : Dev := { on with fuse.burn := some burn1 }
def haltDue : Dev := { on with jtag.haltPend := true }
def lockedPart : Dev := { on with fuse.shdSec := 4 }
def lockedTail : Dev := { on with jtag.fails := 3 }
def noRead : Dev := { on with fuse.secWord := 4, jtag.unlocked := some 2 }

/-! ### The hypotheses of the statements can be met -/

theorem witness_StepRunsTheFrontCommand :
    twoWaiting.pending = (Instr.pwrPaceWrite 3) :: [Instr.bootStart] := by
  decide

theorem witness_EmptyQueueMovesTheTimeBase :
    (stt on).pending = [] := by
  decide

theorem witness_StagingCommandsChangeTheStagingAreaAlone :
    AceRoom (stt on).dev ∧ Takes 0x10 (cm 3 0 128 2) 5 (stt on).dev ∧ 0 < (cm 3 0 128 2).arg1.toNat ∧ (cm 3 0
      128 2).arg1.toNat ≤ 1024 ∧ (bitsOf (cm 3 0 128 2).arg0.toNat 0 12) + (cm 3 0 128 2).arg1.toNat ≤ 4096 ∧
      (cm 3 0 128 2).len.toNat = (cm 3 0 128 2).arg1.toNat * 64 ∧ (stageQtes (bitsOf (cm 3 0 128 2).arg0.toNat
      0 12) ((List.range (cm 3 0 128 2).arg1.toNat).map fun i => parseQte (sliceBytes (zeros 128) (64 * i) 64))
      (stt on).dev.stage.qtes).length ≤ 1024 ∧ Takes 0x11 (cm 5 0 64) 5 (stt on).dev ∧ (bitsOf (cm 5 0
      64).arg0.toNat 0 4) ≠ 0 ∧ (cm 5 0 64).len.toNat = 32 * ((List.range 4).filter (bitOf (bitsOf (cm 5 0
      64).arg0.toNat 0 4))).length ∧ Takes 0x12 (cm 0 0 8 1) 5 (stt on).dev ∧ 0 < (cm 0 0 8 1).arg1.toNat ∧ (cm
      0 0 8 1).arg1.toNat ≤ 2048 ∧ (cm 0 0 8 1).len.toNat = 8 * (cm 0 0 8 1).arg1.toNat ∧ applyEntries (stt
      on).dev.stage.entries.length 0 (parseBinds (sliceBytes (natLe 8 0x3001000001) 0 (8 * (cm 0 0 8
      1).arg1.toNat)) (cm 0 0 8 1).arg1.toNat) ((stt on).dev.stage.bind.getD (stt on).dev.bind) = .inl binds1 ∧
      Takes 0x1A (cm 0) 5 (stt on).dev := by
  and_intros <;> decide

theorem witness_CheckReportsAndCommitRaisesTheFence :
    AceRoom (stt staged3).dev ∧ Takes 0x18 (cm 0) 5 (stt staged3).dev ∧ Takes 0x19 (cm 0) 5 (stt staged3).dev ∧
      busyNow (stt staged3).dev = false ∧ checkStage (stt staged3).dev [] = none ∧ AceRoom (stt staged7).dev ∧
      Takes 0x19 (cm 0) 5 (stt staged7).dev ∧ busyNow (stt staged7).dev = false ∧ checkStage (stt staged7).dev
      [] = some (0x23, 3) := by
  and_intros <;> decide

theorem witness_QueueCommandsLatchOneControlRequest :
    tblWf {} (stt (withQueue qc [] on)).dev.queues = true ∧ (queueOf (stt (withQueue qc [] on)).dev (bitsOf (cm
      3).arg0.toNat 0 12)).cfg.valid = true ∧ Takes 0x20 (cm 3) 5 (stt (withQueue qc [] on)).dev ∧ Takes 0x21
      (cm 3) 5 (stt (withQueue qc [] on)).dev ∧ Takes 0x22 (cm 3) 5 (stt (withQueue qc [] on)).dev ∧ (cm
      3).flags.getLsbD 0 = false ∧ (queueOf (stt (withQueue qc [] on)).dev (bitsOf (cm 3 1).arg0.toNat 0
      12)).cfg.valid = true ∧ Takes 0x22 (cm 3 1) 5 (stt (withQueue qc [] on)).dev ∧ (cm 3 1).flags.getLsbD 0 =
      true ∧ Takes 0x23 (cm 3) 5 (stt (withQueue qc [] on)).dev ∧ AceRoom (stt (withQueue qc [] on)).dev ∧
      (queueOf (stt (withQueue qc [] on)).dev (bitsOf (cm 4).arg0.toNat 0 12)).cfg.valid = false ∧ Takes 0x20
      (cm 4) 5 (stt (withQueue qc [] on)).dev ∧ Takes 0x21 (cm 4) 5 (stt (withQueue qc [] on)).dev ∧ Takes 0x22
      (cm 4) 5 (stt (withQueue qc [] on)).dev ∧ Takes 0x23 (cm 4) 5 (stt (withQueue qc [] on)).dev := by
  and_intros <;> decide

theorem witness_ReadCountersLatchesOrWritesItsRecord :
    Takes 0x24 (cm 3 1) 5 (stt (withRings (withQueue qc [] on))).dev ∧ tblWf {} (stt (withRings (withQueue qc
      [] on))).dev.queues = true ∧ 3 = bitsOf (cm 3 1).arg0.toNat 0 12 ∧ bitsOf (cm 3 1).flags.toNat 1 2 = 0 ∧
      Takes 0x24 (cm 3 3) 5 (stt (withRings (withQueue qc [] on))).dev ∧ bitsOf (cm 3 3).flags.toNat 1 2 = 1 ∧
      (cm 3 3).arg0.toNat ≤ 3 ∧ AceRoom (stt (withRings (withQueue qc [] on))).dev ∧ Takes 0x24 (cm 0x41 5) 5
      (stt (withRings (withQueue qc [] on))).dev ∧ bitsOf (cm 0x41 5).flags.toNat 1 2 = 2 ∧ bitsOf (cm 0x41
      5).arg0.toNat 6 2 = 1 ∧ tblFind (stt (withRings (withQueue qc [] on))).dev.rings.fills (bitsOf (cm 0x41
      5).arg0.toNat 0 6) = some fill1 := by
  and_intros <;> decide

theorem witness_ReportsWriteTheirRecordAlone :
    AceRoom (stt on).dev ∧ Takes 0x50 (cm 0) 5 (stt on).dev ∧ 64 ≤ (cm 0).len.toNat ∧ Takes 0x51 (cm 0) 5 (stt
      on).dev ∧ Takes 0x52 (cm 0) 5 (stt on).dev ∧ Takes 0x60 (cm 0) 5 (stt on).dev ∧ Takes 0x42 (cm 0) 5 (stt
      on).dev ∧ 128 ≤ (cm 0).len.toNat ∧ AceRoom (stt { on with err.log := [log0], err.logSeq := 1 }).dev ∧
      Takes 0x70 (cm 0) 5 (stt { on with err.log := [log0], err.logSeq := 1 }).dev ∧ 32 ≤ (cm 0).len.toNat ∧
      [log0] = logFrom (cm 0).arg0.toNat ((cm 0).len.toNat / 32) (stt { on with err.log := [log0], err.logSeq
      := 1 }).dev.err.log ∧ [log0].getLast? = some log0 := by
  and_intros <;> decide

theorem witness_PowerRequestSetsListenOrPendsStandby :
    Takes 0x31 (cm 0) 5 (stt on).dev ∧ AceRoom (stt on).dev ∧ bitsOf (cm 0).arg0.toNat 0 2 = 0 ∧ (stt
      on).dev.pwr.standbyPend = false ∧ (stt on).dev.link.lstate ≠ .l12 ∧ (stt on).dev.pwr.perst = false ∧
      Takes 0x31 (cm 1) 5 (stt on).dev ∧ bitsOf (cm 1).arg0.toNat 0 2 = 1 ∧ Takes 0x31 (cm 2) 5 (stt
      sealedOn).dev ∧ AceRoom (stt sealedOn).dev ∧ bitsOf (cm 2).arg0.toNat 0 2 = 2 ∧ busyNow (stt
      sealedOn).dev = false ∧ journalSealed (stt sealedOn).dev = true ∧ (stt sealedOn).dev.pwr.standbyPend =
      false ∧ Takes 0x31 (cm 2) 5 (stt on).dev ∧ busyNow (stt on).dev = false ∧ journalSealed (stt on).dev =
      false := by
  and_intros <;> decide

theorem witness_RingCreateListsTheRing :
    4 ≤ (bitsOf (cm (5 + 4 * 256 + 3 * 65536) 8).arg0.toNat 8 8) ∧ (bitsOf (cm (5 + 4 * 256 + 3 * 65536)
      8).arg0.toNat 8 8) ≤ 16 ∧ Takes 0x01 (cm (5 + 4 * 256 + 3 * 65536) 8) 5 (stt on).dev ∧ AceRoom (stt
      on).dev ∧ bitsOf (cm (5 + 4 * 256 + 3 * 65536) 8).flags.toNat 0 2 = 0 ∧ tblFind (stt on).dev.rings.comps
      (bitsOf (cm (5 + 4 * 256 + 3 * 65536) 8).arg0.toNat 0 6) = none ∧ baseOk 16 (bitsOf (cm (5 + 4 * 256 + 3
      * 65536) 8).arg0.toNat 8 8) (cm (5 + 4 * 256 + 3 * 65536) 8).addr.toNat = true ∧ 4 ≤ (bitsOf (cm (1 + 16
      * 256 + 5 * 16777216) 1).arg0.toNat 8 8) ∧ (bitsOf (cm (1 + 16 * 256 + 5 * 16777216) 1).arg0.toNat 8 8) ≤
      16 ∧ Takes 0x01 (cm (1 + 16 * 256 + 5 * 16777216) 1) 5 (stt { on with rings.comps := [(5, comp5)] }).dev
      ∧ AceRoom (stt { on with rings.comps := [(5, comp5)] }).dev ∧ bitsOf (cm (1 + 16 * 256 + 5 * 16777216)
      1).flags.toNat 0 2 = 1 ∧ tblFind (stt { on with rings.comps := [(5, comp5)] }).dev.rings.fills (bitsOf
      (cm (1 + 16 * 256 + 5 * 16777216) 1).arg0.toNat 0 6) = none ∧ (tblFind (stt { on with rings.comps := [(5,
      comp5)] }).dev.rings.comps (bitsOf (cm (1 + 16 * 256 + 5 * 16777216) 1).arg0.toNat 24 6)).isSome = true ∧
      baseOk 32 (bitsOf (cm (1 + 16 * 256 + 5 * 16777216) 1).arg0.toNat 8 8) (cm (1 + 16 * 256 + 5 * 16777216)
      1).addr.toNat = true ∧ 4 ≤ (bitsOf (cm (2 + 4 * 256 + 5 * 16777216) 2).arg0.toNat 8 8) ∧ (bitsOf (cm (2 +
      4 * 256 + 5 * 16777216) 2).arg0.toNat 8 8) ≤ 16 ∧ Takes 0x01 (cm (2 + 4 * 256 + 5 * 16777216) 2) 5 (stt {
      on with rings.comps := [(5, comp5)] }).dev ∧ bitsOf (cm (2 + 4 * 256 + 5 * 16777216) 2).flags.toNat 0 2 =
      2 ∧ tblFind (stt { on with rings.comps := [(5, comp5)] }).dev.rings.drains (bitsOf (cm (2 + 4 * 256 + 5 *
      16777216) 2).arg0.toNat 0 6) = none ∧ (tblFind (stt { on with rings.comps := [(5, comp5)]
      }).dev.rings.comps (bitsOf (cm (2 + 4 * 256 + 5 * 16777216) 2).arg0.toNat 24 6)).isSome = true ∧ baseOk
      32 (bitsOf (cm (2 + 4 * 256 + 5 * 16777216) 2).arg0.toNat 8 8) (cm (2 + 4 * 256 + 5 * 16777216)
      2).addr.toNat = true := by
  and_intros <;> decide

theorem witness_RingDeleteTakesTheRingAway :
    Takes 0x02 (cm 5) 5 (stt { on with rings.comps := [(5, comp5)] }).dev ∧ AceRoom (stt { on with rings.comps
      := [(5, comp5)] }).dev ∧ bitsOf (cm 5).flags.toNat 0 2 = 0 ∧ tblFind (stt { on with rings.comps := [(5,
      comp5)] }).dev.rings.comps (bitsOf (cm 5).arg0.toNat 0 6) = some comp5 ∧ tblSorted (stt { on with
      rings.comps := [(5, comp5)] }).dev.rings.comps = true ∧ (∀ x ∈ (stt { on with rings.comps := [(5, comp5)]
      }).dev.rings.fills, x.2.cq ≠ (bitsOf (cm 5).arg0.toNat 0 6)) ∧ (∀ x ∈ (stt { on with rings.comps := [(5,
      comp5)] }).dev.rings.drains, x.2.cq ≠ (bitsOf (cm 5).arg0.toNat 0 6)) ∧ Takes 0x02 (cm 1 1) 5 (stt
      (withRings on)).dev ∧ AceRoom (stt (withRings on)).dev ∧ bitsOf (cm 1 1).flags.toNat 0 2 = 1 ∧ tblFind
      (stt (withRings on)).dev.rings.fills (bitsOf (cm 1 1).arg0.toNat 0 6) = some fill1 ∧ tblSorted (stt
      (withRings on)).dev.rings.fills = true ∧ Takes 0x02 (cm 2 2) 5 (stt (withRings on)).dev ∧ bitsOf (cm 2
      2).flags.toNat 0 2 = 2 ∧ tblFind (stt (withRings on)).dev.rings.drains (bitsOf (cm 2 2).arg0.toNat 0 6) =
      some drain2 ∧ tblSorted (stt (withRings on)).dev.rings.drains = true := by
  and_intros <;> decide

theorem witness_SealFencesAndProgramsNearOnlySegments :
    Takes 0x30 (cm 0) 5 (stt sealing).dev ∧ busyNow (stt sealing).dev = false ∧ (stt
      sealing).dev.tier.exhausted = false ∧ (stt sealing).dev.epoch.cfgChanged = false ∧ journalSealed (stt
      sealing).dev = false ∧ sealWork (stt sealing).dev ≠ [] ∧ Takes 0x30 (cm 0) 5 (stt sealedNow).dev ∧
      busyNow (stt sealedNow).dev = false ∧ (stt sealedNow).dev.tier.exhausted = false ∧ (stt
      sealedNow).dev.epoch.cfgChanged = false ∧ journalSealed (stt sealedNow).dev = true ∧ AceRoom (stt
      sealedNow).dev := by
  and_intros <;> decide

theorem witness_KeyLoadInstallsOrHoldsTheKey :
    tblWf {} (stt usedKey).dev.keys.slots = true ∧ Takes 0x40 (cm 2 0 224) 5 (stt usedKey).dev ∧ AceRoom (stt
      usedKey).dev ∧ 2 ≤ (bitsOf (cm 2 0 224).arg0.toNat 0 4) ∧ wrapOk (cm 2 0 224) (wrapped 1) = true ∧ leAt
      (wrapped 1) 6 2 = (slotOf (stt usedKey).dev (bitsOf (cm 2 0 224).arg0.toNat 0 4)).counter ∧ keyStoreOk
      (stt usedKey).dev = true ∧ ((slotOf (stt usedKey).dev (bitsOf (cm 2 0 224).arg0.toNat 0 4)).installed =
      none → (slotOf (stt usedKey).dev (bitsOf (cm 2 0 224).arg0.toNat 0 4)).pending = none) ∧ ((slotOf (stt
      usedKey).dev (bitsOf (cm 2 0 224).arg0.toNat 0 4)).installed ≠ none → useCount (stt usedKey).dev (bitsOf
      (cm 2 0 224).arg0.toNat 0 4) ≠ 0) ∧ tblWf {} (stt twoKeys).dev.keys.slots = true ∧ (slotOf (stt
      twoKeys).dev (2 : BitVec 4).toNat).pending = some (keyV 2) ∧ useCount (stt twoKeys).dev (2 : BitVec
      4).toNat = 0 ∧ (stt twoKeys).dev.epoch.eraseFence ≠ some (2 : BitVec 4).toNat := by
  and_intros <;> decide

theorem witness_KeyEraseFencesAndItsEffectClearsTheSlot :
    Takes 0x41 (cm 2) 5 (stt usedKey).dev ∧ busyNow (stt usedKey).dev = false ∧ 2 ≤ (bitsOf (cm 2).arg0.toNat 0
      4) ∧ (slotOf (stt usedKey).dev (bitsOf (cm 2).arg0.toNat 0 4)).installed.isSome = true ∧ keyStoreOk (stt
      usedKey).dev = true ∧ (stt erasing).dev.epoch.eraseFence = some 2 ∧ (stt erasing).dev.epoch.allFence =
      false ∧ (stt erasing).dev.pwr.standby = false ∧ tblWf {} (stt erasing).dev.keys.slots = true ∧ (stt
      erasing).dev.rings.fills = [] ∧ (stt erasing).dev.tier.active = [] := by
  and_intros <;> decide

theorem witness_FirmwareRelayMakesItsPasses :
    Takes 0x61 (cm 2 0 8) 5 (stt on).dev ∧ (([1, 2, 3].filter fun n => (cm 2 0 8).arg0.getLsbD n && !isPresent
      (stt on).dev n).foldl (fun m n => m + 2 ^ n) 0) ≠ 0 ∧ (zeros 8).length = (cm 2 0 8).len.toNat ∧ fwExec
      (stt relaying).dev = true ∧ timerDue (stt relaying).dev .relayPass 20000 = true ∧ fwExec (stt
      relayed).dev = true ∧ timerDue (stt relayed).dev .relayBeacon 10000 = true ∧ (stt
      relayed).dev.cas.relayPasses < 3 ∧ fwExec (stt relayDone).dev = true ∧ timerDue (stt relayDone).dev
      .relayBeacon 10000 = true ∧ 3 ≤ (stt relayDone).dev.cas.relayPasses ∧ (∀ r, (stt relayDone).dev.adm.run =
      some r → r.kind = .relayFw) ∧ (stt relayDone).dev.adm.run.isSome = true := by
  and_intros <;> decide

theorem witness_OtherOpcodesAndOtherNodes :
    (0xEE : BitVec 8).toNat ∉ opcodes ∧ Takes (0xEE : BitVec 8).toNat { (cm 0) with flags := 0, addr := 0, len
      := 0 } 5 (stt on).dev ∧ AceRoom (stt on).dev ∧ (0x20 : BitVec 8).toNat ∈ opcodes ∧ (stt on).dev.adm.fetch
      = some 5 ∧ fwExec (stt on).dev = true ∧ cmdShape (cm 0x1003 0x40) = true ∧ targetNode (0x20 : BitVec
      8).toNat (cm 0x1003 0x40) = some 1 ∧ 1 ≠ ownNode (stt on).dev ∧ (tblGet {} (stt on).dev.cas.peers 1).st ≠
      .present ∧ (stt ring).dev.adm.fetch = some 5 ∧ fwExec (stt ring).dev = true ∧ 1 ≠ ownNode (stt ring).dev
      ∧ (tblGet {} (stt ring).dev.cas.peers 1).st = .present ∧ InTurn hd (stt ring).dev ∧ (cmdTo 0x1A).abandon
      = false ∧ (stt ring).dev.adm.run = none ∧ (cmdTo 0x1A).opcode = 0x1A ∧ (cmdTo 0xEE).abandon = false ∧
      (cmdTo 0xEE).opcode.toNat ∉ opcodes ∧ InTurn hd (stt relayWait).dev ∧ AceRoom (stt relayWait).dev ∧ (stt
      relayWait).dev.adm.run = some hostRun1 ∧ hostRun1.kind = .relay hd.src.toNat rspFrom.tag.toNat false ∧
      hostRun1.origin = .host ∧ (stt relayWait).dev.adm.en = false ∧ rspFrom.record = [] := by
  and_intros <;> decide

theorem witness_AdminTimeoutAbandonsTheCommand :
    timerDue (stt timedOut).dev .admin (stt timedOut).dev.regs.adminTimeout = true ∧ (stt timedOut).dev.adm.run
      = some roundRun ∧ roundRun.origin = .host ∧ roundRun.kind = .round 3 ∧ AceRoom (stt timedOut).dev ∧ tblWf
      {} (stt timedOut).dev.queues = true ∧ timerDue (stt (withTimer .admin 100000 on)).dev .admin (stt
      (withTimer .admin 100000 on)).dev.regs.adminTimeout = true ∧ (stt (withTimer .admin 100000
      on)).dev.adm.run = none ∧ (stt (withTimer .admin 100000 on)).dev.adm.fetch = some 5 ∧ AceRoom (stt
      (withTimer .admin 100000 on)).dev := by
  and_intros <;> decide

theorem witness_AdminAndMirrorEnables :
    hostReach (stt admOff).dev = true ∧ (stt admOff).dev.adm.en = false ∧ 4 ≤ (stt admOff).dev.regs.sqLog2 ∧
      (stt admOff).dev.regs.sqLog2 ≤ 16 ∧ 4 ≤ (stt admOff).dev.regs.cqLog2 ∧ (stt admOff).dev.regs.cqLog2 ≤ 16
      ∧ hostReach (stt admBad).dev = true ∧ (stt admBad).dev.adm.en = false ∧ ((stt admBad).dev.regs.sqLog2 < 4
      ∨ 16 < (stt admBad).dev.regs.sqLog2 ∨ (stt admBad).dev.regs.cqLog2 < 4 ∨ 16 < (stt
      admBad).dev.regs.cqLog2) ∧ hostReach (stt on).dev = true ∧ (queueOf (stt mirrorDue).dev (3 : BitVec
      12).toNat).mirrorHeld = true ∧ timerDue (stt mirrorDue).dev (.mirror (3 : BitVec 12).toNat) (stt
      mirrorDue).dev.regs.mirrorHold = true ∧ mirrorOn (stt mirrorDue).dev = true ∧ canIssue (stt
      mirrorDue).dev = true ∧ 16 ≤ (stt mirrorDue).dev.link.mps ∧ (stt mirrorDue).dev.adm.mirrorBase % 4096 = 0
      ∧ tblWf {} (stt mirrorDue).dev.queues = true := by
  and_intros <;> decide

theorem witness_PaceMovesOneStepTowardItsGoal :
    hostReach (stt on).dev = true ∧ (stt stepping).dev.pwr.stepTo = some 4 ∧ (stt busyGov).dev.pwr.govEn = true
      ∧ backlog (stt busyGov).dev = true ∧ timerDue (stt busyGov).dev .govUp (stt busyGov).dev.pwr.govUp = true
      ∧ (stt busyGov).dev.pwr.stepTo = none ∧ (stt busyGov).dev.pwr.paceNow < (stt busyGov).dev.pwr.paceMax ∧
      (stt idleGov).dev.pwr.govEn = true ∧ backlog (stt idleGov).dev = false ∧ timerDue (stt idleGov).dev
      .govDown (stt idleGov).dev.pwr.govDown = true ∧ (stt idleGov).dev.pwr.stepTo = none ∧ (stt
      idleGov).dev.pwr.paceMin < (stt idleGov).dev.pwr.paceNow := by
  and_intros <;> decide

theorem witness_TimeCaptureIsOneValue :
    hostReach (stt on).dev = true ∧ (stt on).dev.pwr.vin = true ∧ awake (stt listenOn).dev = true ∧ (stt
      listenOn).dev.tb.tickRun = false ∧ ((stt listenOn).dev.tb.slowclk && listening (stt listenOn).dev) =
      false := by
  and_intros <;> decide

theorem witness_OffIsLeftOnlyByPor :
    (stt on).dev.pwr.vin = true := by
  decide

theorem witness_PorAndSoftResetBoot :
    (stt offHeld).dev.pwr.perst = true ∧ (0xA4 : BitVec 8) ≠ 0xA5 ∧ hostReach (stt on).dev = true ∧ ((stt
      on).dev.rep.core0Fail && (stt on).dev.rep.core1Fail) = false := by
  and_intros <;> decide

theorem witness_PerstResetsByItsScope :
    (stt linkScope).dev.pwr.perst = false ∧ awake (stt linkScope).dev = true ∧ (stt
      linkScope).dev.pwr.standbyPend = false ∧ fwRunning (stt linkScope).dev = true ∧ (stt
      linkScope).dev.regs.perstLink = true ∧ (stt linkScope).dev.rings = {} ∧ (stt linkScope).dev.adm.run =
      none ∧ (stt standbyDue).dev.pwr.perst = false ∧ awake (stt standbyDue).dev = true ∧ (stt
      standbyDue).dev.pwr.standbyPend = true ∧ (stt held).dev.pwr.perst = true ∧ awake (stt held).dev = true ∧
      (stt held).dev.boot.status = .hold ∧ (stt held).dev.link.up = false ∧ ownNode (stt held).dev = 0 ∧ ((stt
      held).dev.rep.core0Fail && (stt held).dev.rep.core1Fail) = false := by
  and_intros <;> decide

theorem witness_FirmwareDownloadCommands :
    (stt training).dev.link.training = true ∧ (stt training).dev.pwr.perst = false ∧ awake (stt training).dev =
      true ∧ hostReach (stt waiting).dev = true ∧ mailbox (stt waiting).dev = true ∧ (stt
      waiting).dev.boot.busy = false ∧ (65534 : BitVec 16).toNat + [1, 2].length ≤ 65536 ∧ tblWf 0 (stt
      waiting).dev.boot.buf = true ∧ bootBusy (stt waiting).dev = false ∧ (stt copying).dev.boot.busy = true ∧
      (stt copying).dev.jtag.halted = false ∧ (stt copying).dev.boot.held = 0 ∧ tblWf 0 (stt
      copying).dev.boot.image = true ∧ hostReach (stt failedImage).dev = true ∧ (stt
      failedImage).dev.boot.status = .failed ∧ (stt failedImage).dev.boot.err ≠ 0x96 ∧ (stt
      failedImage).dev.boot.busy = false := by
  and_intros <;> decide

theorem witness_ImageVerifiedFailsOrStartsTheFirmware :
    (stt verifying).dev.boot.status = .verifying ∧ (stt verifying).dev.jtag.halted = false := by
  and_intros <;> decide

theorem witness_LaneStallPendsOrIsFatal :
    lane3 = { group := (3 : BitVec 11).toNat, lane := (1 : BitVec 3).toNat } ∧ awake (stt noWatchdog).dev =
      true ∧ (3 : BitVec 11).toNat < 1152 ∧ (∀ y ∈ (stt noWatchdog).dev.rep.lanesFactory ++ (stt
      noWatchdog).dev.rep.lanesField, y.group ≠ (3 : BitVec 11).toNat) ∧ (stt
      noWatchdog).dev.rep.lanePend.length < 4 ∧ lane3 ∉ (stt noWatchdog).dev.rep.lanePend ∧ (stt
      noWatchdog).dev.regs.wdogRst = false ∧ awake (stt on).dev = true ∧ (∀ y ∈ (stt on).dev.rep.lanesFactory
      ++ (stt on).dev.rep.lanesField, y.group ≠ (3 : BitVec 11).toNat) ∧ (stt on).dev.rep.lanePend.length < 4 ∧
      lane3 ∉ (stt on).dev.rep.lanePend ∧ (stt on).dev.regs.wdogRst = true ∧ awake (stt oneLaneUsed).dev = true
      ∧ (∃ x ∈ (stt oneLaneUsed).dev.rep.lanesFactory ++ (stt oneLaneUsed).dev.rep.lanesField, x.group = (3 :
      BitVec 11).toNat) := by
  and_intros <;> decide

theorem witness_FuseOperationsStartAndEnd :
    hostReach (stt on).dev = true ∧ fuseReady (stt on).dev = true ∧ (2 : BitVec 2) ≠ 3 ∧ (stt (fuseOp 1
      200)).dev.fuse.busy = true ∧ (stt (fuseOp 1 200)).dev.pwr.standby = false ∧ (stt (fuseOp 1
      200)).dev.fuse.burn = none ∧ fwExec (stt (fuseOp 1 200)).dev = true ∧ (stt (fuseOp 1 200)).dev.fuse.run =
      some (0, (1 : BitVec 2), (200 : BitVec 8)) ∧ ((200 : BitVec 8).toNat < 16 ∨ 23 < (200 : BitVec 8).toNat)
      ∧ (stt (fuseOp 0 16)).dev.fuse.busy = true ∧ (stt (fuseOp 0 16)).dev.pwr.standby = false ∧ (stt (fuseOp 0
      16)).dev.fuse.burn = none ∧ fwExec (stt (fuseOp 0 16)).dev = true ∧ (stt (fuseOp 0 16)).dev.fuse.run =
      some (0, (0 : BitVec 2), (16 : BitVec 8)) ∧ 16 ≤ (16 : BitVec 8).toNat ∧ (16 : BitVec 8).toNat ≤ 23 ∧
      (stt (fuseOp 0 200 2)).dev.fuse.busy = true ∧ (stt (fuseOp 0 200 2)).dev.pwr.standby = false ∧ (stt
      (fuseOp 0 200 2)).dev.fuse.burn = none ∧ fwExec (stt (fuseOp 0 200 2)).dev = true ∧ (stt (fuseOp 0 200
      2)).dev.fuse.run = some (2, (0 : BitVec 2), (200 : BitVec 8)) ∧ rowLocked (stt (fuseOp 0 200 2)).dev (200
      : BitVec 8).toNat = false ∧ 0 < 8 ∧ (redirOf (stt (fuseOp 0 200 2)).dev 0).valid = false ∧ (∀ j < 0,
      (redirOf (stt (fuseOp 0 200 2)).dev j).valid = true) := by
  and_intros <;> decide

theorem witness_FusesLocksAndOverridesOnlySet :
    (stt burning).dev.fuse.busy = true ∧ (stt burning).dev.pwr.standby = false ∧ (stt burning).dev.fuse.burn =
      some burn1 ∧ tblWf 0 (stt burning).dev.fuse.lo = true ∧ tblWf 0 (stt burning).dev.fuse.hi = true ∧
      hostReach (stt on).dev = true ∧ (stt on).dev.fuse.otpLock.getLsbD 1 = false ∧ (stt
      otpShut).dev.fuse.otpLock.getLsbD 1 = true ∧ (stt otpShut).dev.fuse.otpLock.getLsbD 6 = true := by
  and_intros <;> decide

theorem witness_EccTestOperations :
    hostReach (stt testOn).dev = true ∧ (stt testOn).dev.ecc.en = true ∧ (stt testOn).dev.ecc.busy = false ∧
      fwRunning (stt testOn).dev = true ∧ tblWf {} (stt testOn).dev.ecc.nearSeg = true ∧ (stt
      testRun).dev.ecc.busy = true ∧ (stt testRun).dev.ecc.run = some (false, (1 : BitVec 9)) ∧ (tblGet {} (stt
      testRun).dev.ecc.nearSeg (1 : BitVec 9).toNat).valid = true := by
  and_intros <;> decide

theorem witness_CaptureNumbersAndKeepsRecords :
    on.err.fifo.length ≤ 16 ∧ on.err.fifo = [] ∧ overOn.err.overflow = true := by
  and_intros <;> decide

theorem witness_ErrorRegistersReadAndClear :
    hostReach (stt on).dev = true := by
  decide

theorem witness_SpillBurstLowersTheLevel :
    hostReach (stt on).dev = true := by
  decide

theorem witness_RegisterWritesReadBackOrStop :
    hostReach (stt on).dev = true ∧ (5 : BitVec 14).toNat % 4 ≠ 0 ∧ fuseReady (stt on).dev = true ∧ bitOf
      (0x10003 : Word).toNat 16 = true ∧ bitsOf (0x10003 : Word).toNat 0 2 = 3 ∧ (stt on).dev.ecc.busy = false
      ∧ fwRunning (stt on).dev = true ∧ bitOf (0x27 : Word).toNat 5 = true ∧ bitOf (0x27 : Word).toNat 0 = true
      ∧ bitsOf (0x27 : Word).toNat 1 2 = 3 := by
  and_intros <;> decide

theorem witness_IngressBeatsAreStoredOrCounted :
    portOpen (stt fixedIn).dev (1 : Fin 2) = true ∧ inBypass (stt fixedIn).dev (1 : Fin 2) = false ∧ (pairOf
      (stt fixedIn).dev (1 : Fin 2)).armed = false ∧ (pairOf (stt fixedIn).dev (1 : Fin 2)).returning = false ∧
      (iport (stt fixedIn).dev (1 : Fin 2)).pce.tagged = false ∧ (iport (stt fixedIn).dev (1 : Fin 2)).ff =
      false ∧ portOpen (stt fullIn).dev (1 : Fin 2) = true ∧ inBypass (stt fullIn).dev (1 : Fin 2) = false ∧
      (pairOf (stt fullIn).dev (1 : Fin 2)).armed = false ∧ (pairOf (stt fullIn).dev (1 : Fin 2)).returning =
      false ∧ (iport (stt fullIn).dev (1 : Fin 2)).pce.tagged = false ∧ (iport (stt fullIn).dev (1 : Fin 2)).ff
      = true ∧ portOpen (stt taggedIn).dev (1 : Fin 2) = true ∧ inBypass (stt taggedIn).dev (1 : Fin 2) = false
      ∧ (pairOf (stt taggedIn).dev (1 : Fin 2)).armed = false ∧ (pairOf (stt taggedIn).dev (1 : Fin
      2)).returning = false ∧ (iport (stt taggedIn).dev (1 : Fin 2)).pce.tagged = true ∧ (iport (stt
      taggedIn).dev (1 : Fin 2)).ff = false ∧ (iport (stt taggedIn).dev (1 : Fin 2)).tagBeats = 0 ∧ (iport (stt
      taggedIn).dev (1 : Fin 2)).tag = some 4095 ∧ (iport (stt taggedIn).dev (1 : Fin 2)).tagQid = some 3 ∧
      portOpen (stt unmappedIn).dev (1 : Fin 2) = true ∧ inBypass (stt unmappedIn).dev (1 : Fin 2) = false ∧
      (pairOf (stt unmappedIn).dev (1 : Fin 2)).armed = false ∧ (pairOf (stt unmappedIn).dev (1 : Fin
      2)).returning = false ∧ (iport (stt unmappedIn).dev (1 : Fin 2)).pce.tagged = true ∧ (iport (stt
      unmappedIn).dev (1 : Fin 2)).ff = false ∧ (iport (stt unmappedIn).dev (1 : Fin 2)).tagBeats = 0 ∧ (iport
      (stt unmappedIn).dev (1 : Fin 2)).tagQid = none ∧ (iport (stt unmappedIn).dev (1 : Fin 2)).pce.width = 2
      ∧ (iport (stt unmappedIn).dev (1 : Fin 2)).partBits = 0 := by
  and_intros <;> decide

theorem witness_PulsesAreCarriedAcross :
    inBypass (stt fixedIn).dev (1 : Fin 2) = false ∧ portOpen (stt fixedIn).dev (1 : Fin 2) = true ∧ (iport
      (stt fixedIn).dev (1 : Fin 2)).flushPrev = some false ∧ (iport (stt fixedIn).dev (1 : Fin 2)).xing.busy =
      false ∧ inBypass (stt pulling).dev (1 : Fin 2) = false ∧ portOpen (stt pulling).dev ((1 : Fin 2) + 2) =
      true ∧ (eport (stt pulling).dev (1 : Fin 2)).pce.tagged = false ∧ (eport (stt pulling).dev (1 : Fin
      2)).xing.busy = false ∧ (eport (stt pulling).dev (1 : Fin 2)).rtPrev = some false ∧ (eport (stt
      pulling).dev (1 : Fin 2)).mrkPrev = some false ∧ (eport (stt pulling).dev (1 : Fin 2)).dropPrev = some
      false := by
  and_intros <;> decide

theorem witness_CrossingsLatchAndFree :
    (runOf (stt crossRt).dev (3 : Fin 4)).parked = false ∧ tblWf {} (stt crossRt).dev.queues = true ∧ (xingOf
      (stt crossRt).dev (3 : Fin 4)).busy = true ∧ (xingOf (stt crossRt).dev (3 : Fin 4)).latched = false ∧ 2 ≤
      (3 : Fin 4).val ∧ isLocal (stt crossRt).dev 3 = true ∧ (xingOf (stt crossRt).dev (3 : Fin 4)).rt = some 3
      ∧ (xingOf (stt crossRt).dev (3 : Fin 4)).mrk = none ∧ (xingOf (stt crossRt).dev (3 : Fin 4)).drop = none
      ∧ (runOf (stt crossMrk).dev (3 : Fin 4)).parked = false ∧ tblWf {} (stt crossMrk).dev.queues = true ∧
      (xingOf (stt crossMrk).dev (3 : Fin 4)).busy = true ∧ (xingOf (stt crossMrk).dev (3 : Fin 4)).latched =
      false ∧ isLocal (stt crossMrk).dev 3 = true ∧ (xingOf (stt crossMrk).dev (3 : Fin 4)).rt = none ∧ (xingOf
      (stt crossMrk).dev (3 : Fin 4)).mrk = some 3 ∧ (xingOf (stt crossMrk).dev (3 : Fin 4)).drop = none ∧
      (runOf (stt crossDrop).dev (3 : Fin 4)).parked = false ∧ tblWf {} (stt crossDrop).dev.queues = true ∧
      (xingOf (stt crossDrop).dev (3 : Fin 4)).busy = true ∧ (xingOf (stt crossDrop).dev (3 : Fin 4)).latched =
      false ∧ isLocal (stt crossDrop).dev 3 = true ∧ (xingOf (stt crossDrop).dev (3 : Fin 4)).rt = none ∧
      (xingOf (stt crossDrop).dev (3 : Fin 4)).mrk = none ∧ (xingOf (stt crossDrop).dev (3 : Fin 4)).drop =
      some 3 ∧ (runOf (stt crossAbort).dev (1 : Fin 4)).parked = false ∧ tblWf {} (stt crossAbort).dev.queues =
      true ∧ (xingOf (stt crossAbort).dev (1 : Fin 4)).busy = true ∧ (xingOf (stt crossAbort).dev (1 : Fin
      4)).latched = false ∧ (1 : Fin 4).val < 2 ∧ (stt crossAbort).dev.cas.peers = [] ∧ (runOf (stt
      crossAck).dev (3 : Fin 4)).parked = false ∧ tblWf {} (stt crossAck).dev.queues = true ∧ (xingOf (stt
      crossAck).dev (3 : Fin 4)).busy = true ∧ (xingOf (stt crossAck).dev (3 : Fin 4)).latched = true := by
  and_intros <;> decide

theorem witness_PortEventsTakeEffect :
    evOf (stt eventIn).dev (1 : Fin 4) = .commit (some closing) false (some 1) :: ([] : List PortEv) ∧ (1 : Fin 4).val < 2
      ∧ evOf (stt eventOpen).dev (3 : Fin 4) = .commit (some pin16) false none :: ([] : List PortEv) ∧ 2 ≤ (3 : Fin 4).val
      ∧ (pceOf (stt eventOpen).dev (3 : Fin 4)).en = false ∧ pin16.en = true ∧ evOf (stt eventClose).dev (3 : Fin 4) = .commit (some closing) false (some 1) :: ([] : List PortEv) ∧ (pceOf (stt eventClose).dev (3 : Fin 4)).en =
      true ∧ closing.en = false ∧ undelivered ≠ [] ∧ (eport (stt eventClose).dev ((3 : Fin 4) - 2)).esb =
      undelivered.map (fun i => .item 3 i (1 : BitVec 2)) ∧ (eport (stt eventClose).dev ((3 : Fin 4) -
      2)).driven = 0 ∧ tblWf {} (stt eventClose).dev.queues = true := by
  and_intros <;> decide

theorem witness_BeatsAndValuesCross :
    awake (stt visBeat).dev = true ∧ (iport (stt visBeat).dev (1 : Fin 2)).run.parked = false ∧ (iport (stt
      visBeat).dev (1 : Fin 2)).latched = some burst1 ∧ (1 : Fin 4).val = (1 : Fin 2).val ∧ portOpen (stt
      fixedIn).dev (1 : Fin 4) = true ∧ inBypass (stt fixedIn).dev (1 : Fin 2) = false ∧ (3 : Fin 4).val = (1 :
      Fin 2).val + 2 ∧ portOpen (stt pulling).dev (3 : Fin 4) = true := by
  and_intros <;> decide

theorem witness_EgressPortsDriveTheNextBeat :
    drives (stt pulling).dev (1 : Fin 2) = true ∧ (eport (stt pulling).dev (1 : Fin 2)).under = none ∧ (eport
      (stt pulling).dev (1 : Fin 2)).pce.push = false ∧ (eport (stt pulling).dev (1 : Fin 2)).ef = false ∧
      nextBeat (cfgOf (stt pulling).dev) (eport (stt pulling).dev (1 : Fin 2)) = some (nextOf pulling pull) ∧
      drives (stt dryPull).dev (1 : Fin 2) = true ∧ (eport (stt dryPull).dev (1 : Fin 2)).under = none ∧ (eport
      (stt dryPull).dev (1 : Fin 2)).pce.push = false ∧ (eport (stt dryPull).dev (1 : Fin 2)).ef = true ∧
      (eport (stt dryPull).dev (1 : Fin 2)).run.isOpen = true ∧ underQueue (eport (stt dryPull).dev (1 : Fin
      2)) = none ∧ drives (stt emptyPull).dev (1 : Fin 2) = true ∧ (eport (stt emptyPull).dev (1 : Fin
      2)).under = none ∧ (eport (stt emptyPull).dev (1 : Fin 2)).pce.push = false ∧ (eport (stt emptyPull).dev (1
      : Fin 2)).ef = true ∧ (eport (stt emptyPull).dev (1 : Fin 2)).run.isOpen = true ∧ underQueue (eport (stt
      emptyPull).dev (1 : Fin 2)) = some 3 ∧ (queueOf (stt emptyPull).dev (3 % 4096)).cfg.valid = true ∧
      emptyItem (cfgOf (stt emptyPull).dev 3) 3 (eport (stt emptyPull).dev (1 : Fin 2)) = { v := 0, ew := 0 } ∧ (eport (stt
      emptyPull).dev (1 : Fin 2)).begun = none ∧ tblWf {} (stt emptyPull).dev.queues = true ∧ drives (stt
      pushing).dev (1 : Fin 2) = true ∧ (eport (stt pushing).dev (1 : Fin 2)).under = none ∧ (eport (stt
      pushing).dev (1 : Fin 2)).pce.push = true ∧ nextBeat (cfgOf (stt pushing).dev) { (eport (stt pushing).dev
      (1 : Fin 2)) with skid := none } = some (nextOf pushing pushing.ports.e1) ∧ drives (stt drySkid).dev (1 :
      Fin 2) = true ∧ (eport (stt drySkid).dev (1 : Fin 2)).under = none ∧ (eport (stt drySkid).dev (1 : Fin
      2)).pce.push = true ∧ (eport (stt drySkid).dev (1 : Fin 2)).skid = some 0 := by
  and_intros <;> decide

theorem witness_StalledPortsParkAndReopen :
    portWaits (stt waitsLock).dev (3 : Fin 4) = true ∧ timerDue (stt waitsLock).dev (.stall (3 : Fin 4)) (stt
      waitsLock).dev.regs.stallTo = true ∧ 3 = bitsOf (cm 3).arg0.toNat 0 2 ∧ Takes 0x25 (cm 3) 5 (stt
      parkedOn).dev ∧ AceRoom (stt parkedOn).dev ∧ (runOf (stt parkedOn).dev 3).parked = true ∧ Takes 0x25 (cm
      3) 5 (stt on).dev ∧ AceRoom (stt on).dev ∧ (runOf (stt on).dev 3).parked = false ∧ (runOf (stt
      unparking).dev (3 : Fin 4)).parked = true ∧ (runOf (stt unparking).dev (3 : Fin 4)).unparkPend = true := by
  and_intros <;> decide

theorem witness_ThroughPathsChangeHands :
    (pairOf (stt armedPair).dev (1 : Fin 2)).armed = true ∧ (pairOf (stt armedPair).dev (1 : Fin 2)).pointB =
      true ∧ (pairOf (stt latePair).dev (1 : Fin 2)).armed = true ∧ (timerDue (stt latePair).dev (.handover (1
      : Fin 2)) 10000 || timerDue (stt latePair).dev (.noClock (1 : Fin 2)) 16) = true ∧ (pairOf (stt
      backPair).dev (1 : Fin 2)).returning = true ∧ (pairOf (stt backPair).dev (1 : Fin 2)).pointB = true := by
  and_intros <;> decide

theorem witness_RoundsServeControlsThenPushes :
    (stt flushing).dev.err.fatal = false ∧ sramInUse (stt flushing).dev flawBad.mem.toNat = true ∧ isLocal (stt
      flushing).dev (3 : BitVec 14).toNat = true ∧ flawBad.uncorrectable = true ∧ (stt fencedQ).dev.err.fatal =
      false ∧ sramInUse (stt fencedQ).dev flawOk.mem.toNat = true ∧ isLocal (stt fencedQ).dev (3 : BitVec
      14).toNat = true ∧ flawOk.uncorrectable = false ∧ roundBlocked (stt fencedQ).dev ((3 : BitVec 14).toNat %
      4096) = true ∧ roundBlocked (stt flushing).dev ((3 : BitVec 14).toNat % 4096) = false ∧ tblWf {} (stt
      flushing).dev.queues = true ∧ (queueOf (stt flushing).dev ((3 : BitVec 14).toNat % 4096)).cfg.valid =
      true ∧ (queueOf (stt flushing).dev ((3 : BitVec 14).toNat % 4096)).cfg.persist = false ∧ portOpen (stt
      flushing).dev 2 = false ∧ portOpen (stt flushing).dev 3 = false ∧ (stt flushing).dev.rings.drains = [] ∧
      (queueOf (stt flushing).dev ((3 : BitVec 14).toNat % 4096)).ptx = none ∧ (∀ p, p ∈ producers (stt
      flushing).dev → p ≠ .port 0 → latchedOf (stt flushing).dev (3 : BitVec 14).toNat p = none) ∧ latchedOf
      (stt flushing).dev (3 : BitVec 14).toNat (.port 0) = none ∧ isLocal (stt admitting).dev (3 : BitVec
      14).toNat = true ∧ roundBlocked (stt admitting).dev ((3 : BitVec 14).toNat % 4096) = false ∧ tblWf {}
      (stt admitting).dev.queues = true ∧ (queueOf (stt admitting).dev ((3 : BitVec 14).toNat %
      4096)).cfg.valid = true ∧ (queueOf (stt admitting).dev ((3 : BitVec 14).toNat % 4096)).cfg.persist =
      false ∧ portOpen (stt admitting).dev 2 = false ∧ portOpen (stt admitting).dev 3 = false ∧ (stt
      admitting).dev.rings.drains = [] ∧ (queueOf (stt admitting).dev ((3 : BitVec 14).toNat % 4096)).ptx =
      none ∧ (∀ p, p ∈ producers (stt admitting).dev → p ≠ .port 0 → latchedOf (stt admitting).dev (3 : BitVec
      14).toNat p = none) ∧ latchedOf (stt admitting).dev (3 : BitVec 14).toNat (.port 0) = some burst0 ∧
      burst0.prod = .port 0 ∧ recheck (stt admitting).dev burst0 = none ∧ burst0.abort = false ∧ burst0.sop =
      false ∧ releaseUnused ((3 : BitVec 14).toNat % 4096) (stt admitting).dev = (stt admitting).dev ∧ (queueOf
      (stt admitting).dev ((3 : BitVec 14).toNat % 4096)).ctl = {} ∧ (queueOf (stt admitting).dev ((3 : BitVec
      14).toNat % 4096)).discards = [] ∧ tailReady (queueOf (stt admitting).dev ((3 : BitVec 14).toNat % 4096))
      = true ∧ ((queueOf (stt admitting).dev ((3 : BitVec 14).toNat % 4096)).lock = none ∨ (queueOf (stt
      admitting).dev ((3 : BitVec 14).toNat % 4096)).lock = some (.port 0)) ∧ (queueOf (stt admitting).dev ((3
      : BitVec 14).toNat % 4096)).cfg.overwrite = false ∧ burstFits (stt admitting).dev (queueOf (stt
      admitting).dev ((3 : BitVec 14).toNat % 4096)) burst0.items.length = true ∧ waitsForFirmware (stt
      admitting).dev (queueOf (stt admitting).dev ((3 : BitVec 14).toNat % 4096)) burst0.items.length = false ∧
      burst0.items.length ≤ segItems (queueOf (stt admitting).dev ((3 : BitVec 14).toNat % 4096)).cfg.ew := by
  and_intros <;> decide

theorem witness_CommitInstantMakesTheStageLive :
    (stt atInstant).dev.epoch.fence = true ∧ (stt atInstant).dev.epoch.allFence = false ∧ (stt
      atInstant).dev.epoch.taken = some stageOne ∧ tblSorted stageOne.qtes = true ∧ tblWf {} (stt
      atInstant).dev.queues = true := by
  and_intros <;> decide

theorem witness_SweepsReadTheDoorbells :
    200 ≤ 200 ∧ (stt sweepingOn).dev.pwr.vin = true ∧ (stt sweepingOn).dev.pwr.standby = false ∧ fwRunning (stt
      sweepingOn).dev = true ∧ (stt sweepingOn).dev.pwr.perst = false ∧ (stt sweepingOn).dev.link.bme = true ∧
      (stt sweepingOn).dev.err.fatal = false ∧ (stt sweepingOn).dev.adm.en = true ∧ (stt
      sweepingOn).dev.sweep.running = true ∧ (stt standbyOn).dev.pwr.vin = true ∧ (stt
      standbyOn).dev.pwr.standby = true ∧ 49 < 50 ∧ timerDue (stt sweepHeld).dev .sweep (stt
      sweepHeld).dev.sweep.interval = true ∧ fwRunning (stt sweepHeld).dev = true ∧ (stt
      sweepHeld).dev.err.fatal = false ∧ (stt sweepHeld).dev.adm.en = true ∧ (stt sweepHeld).dev.sweep.running
      = true ∧ timerDue (stt sweepDue).dev .sweep (stt sweepDue).dev.sweep.interval = true ∧ fwRunning (stt
      sweepDue).dev = true ∧ (stt sweepDue).dev.err.fatal = false ∧ (stt sweepDue).dev.adm.en = true ∧ (stt
      sweepDue).dev.sweep.running = false ∧ canIssue (stt sweepDue).dev = true ∧ (stt sweepDue).dev.link.reads
      = [] ∧ 128 ≤ (stt sweepDue).dev.link.mrrs := by
  and_intros <;> decide

theorem witness_FillDescriptorsRunOrAreRefused :
    tblFind (stt (arrived fillOk)).dev.rings.fills (1 : BitVec 6).toNat = some fillGot ∧ fillGot.arrived =
      fillOk :: ([] : List Bytes) ∧ fillGot.cur = none ∧ fwExec (stt (arrived fillOk)).dev = true ∧ cqFull (stt
      (arrived fillOk)).dev fillGot.cq = false ∧ (parseFill fillOk).bad = false ∧ fillQueueOk (stt (arrived
      fillOk)).dev (parseFill fillOk).qid = true ∧ ((parseFill fillOk).len % ewBytes (ewOf (stt (arrived
      fillOk)).dev (parseFill fillOk).qid) = 0 ∨ (parseFill fillOk).eop = true) ∧ tblFind (stt (arrived
      fillBad)).dev.rings.fills (1 : BitVec 6).toNat = some fillGotBad ∧ fillGotBad.arrived = fillBad :: ([] :
      List Bytes) ∧ fillGotBad.cur = none ∧ fwExec (stt (arrived fillBad)).dev = true ∧ cqFull (stt (arrived
      fillBad)).dev fillGotBad.cq = false ∧ (parseFill fillBad).bad = true ∧ tblFind (stt (arrived
      fillBad)).dev.rings.comps fillGotBad.cq = some comp5 ∧ comp5.waiting = [] ∧ tblFind (stt
      lateFill).dev.rings.fills (1 : BitVec 6).toNat = some fillLate ∧ fillLate.cur = some fillRun1 ∧ timerDue
      (stt lateFill).dev (.desc (1 : BitVec 6).toNat) fillLate.timeout = true := by
  and_intros <;> decide

theorem witness_DeviceReadsEnd :
    (stt drainFetch).dev.link.up = true ∧ (stt drainFetch).dev.pwr.perst = false ∧ readOf (stt drainFetch).dev
      9 = none ∧ (stt fillFetch).dev.link.up = true ∧ (stt fillFetch).dev.pwr.perst = false ∧ 5 < (stt
      fillFetch).dev.link.nextTag ∧ readOf (stt fillFetch).dev 5 = some (reading (.fillDesc 1)) ∧ (reading
      (.fillDesc 1)).what = .fillDesc 1 ∧ tblFind (stt fillFetch).dev.rings.fills 1 = some fillAsked ∧ readOf
      (stt drainFetch).dev 5 = some (reading (.drainDesc 2)) ∧ (reading (.drainDesc 2)).what = .drainDesc 2 ∧
      tblFind (stt drainFetch).dev.rings.drains 2 = some drain2 ∧ (stt drainFetch).dev.link.ctoDis = false ∧
      timerDue (stt drainFetch).dev (.read 5) (ctoTicks (stt drainFetch).dev) = true := by
  and_intros <;> decide

theorem witness_DrainTransfersAndMessages :
    tblFind (stt drainArrived).dev.rings.drains (2 : BitVec 6).toNat = some drainGot ∧ cqFull (stt
      drainArrived).dev drainGot.cq = false ∧ drainGot.arrived = drainOk :: ([] : List Bytes) ∧ fwExec (stt
      drainArrived).dev = true ∧ tblFind (stt drainReadyOn).dev.rings.drains (2 : BitVec 6).toNat = some
      drainBuf ∧ cqFull (stt drainReadyOn).dev drainBuf.cq = false ∧ drainBuf.bufs = buf1 :: ([] : List
      DrainBuf) ∧ drainBuf.xfer = none ∧ dmaAllowed (stt drainReadyOn).dev = true ∧ fwRunning (stt
      drainReadyOn).dev = true ∧ arbNext ((stt drainReadyOn).dev.bind.drain.filter fun bind2 => bind2.target =
      (2 : BitVec 6).toNat) drainBuf.arbB drainBuf.arbG (bindReady (stt drainReadyOn).dev drainBuf) = some
      (bind2, 0, 1) ∧ isLocal (stt drainReadyOn).dev bind2.qid = true ∧ tblFind (stt
      drainEnded).dev.rings.drains (2 : BitVec 6).toNat = some drainXfer ∧ cqFull (stt drainEnded).dev
      drainXfer.cq = false ∧ drainXfer.xfer = some xfer1 ∧ xfer1.ended = true ∧ xfer1.remote = none ∧ canIssue
      (stt drainEnded).dev = true ∧ 64 ≤ (stt drainEnded).dev.link.mps ∧ tblFind (stt
      drainEnded).dev.rings.comps drainXfer.cq = some comp5 ∧ comp5.waiting = [] ∧ tblWf {} (stt
      drainEnded).dev.queues = true ∧ tblWf {} (stt drainWaits).dev.queues = true ∧ (queueOf (stt
      drainWaits).dev (3 : BitVec 12).toNat).armed = none ∧ timerDue (stt drainWaits).dev (.drainWait (3 :
      BitVec 12).toNat) (drainWaitOf (stt drainWaits).dev (3 : BitVec 12).toNat) = true ∧ tblFind (stt
      irqDue).dev.rings.comps (5 : BitVec 6).toNat = some comp31 ∧ timerDue (stt irqDue).dev (.irq (5 : BitVec
      6).toNat) comp31.time = true ∧ (stt irqDue).dev.link.msixEn = true ∧ (stt irqDue).dev.link.funcMask =
      false ∧ (msixEntry (stt irqDue).dev comp31.vector).masked = false ∧ canIssue (stt irqDue).dev = true := by
  and_intros <;> decide

theorem witness_HostLinkCommands :
    hostReach (stt pendVec).dev = true ∧ (stt pendVec).dev.link.msixEn = true ∧ (stt pendVec).dev.link.funcMask
      = false ∧ (stt pendVec).dev.link.pba.getLsbD (31 : BitVec 5).toNat = true ∧ canIssue (stt pendVec).dev =
      true ∧ tblWf {} (stt pendVec).dev.link.vectors = true ∧ cfgReach (stt on).dev = true ∧ (stt
      idleLink).dev.link.up = true ∧ (stt idleLink).dev.pwr.perst = false ∧ (stt idleLink).dev.link.aspmL1 =
      true ∧ (stt idleLink).dev.link.lstate = .l0 ∧ linkIdle (stt idleLink).dev = true ∧ awake (stt
      idleLink).dev = true ∧ (stt idleLink).dev.link.lstate ≠ .l12 ∧ (stt asleep).dev.link.up = true ∧ (stt
      asleep).dev.pwr.perst = false ∧ awake (stt asleep).dev = true ∧ (stt asleep).dev.link.lstate = .l12 ∧
      (stt on).dev.link.up = true ∧ (stt on).dev.pwr.perst = false ∧ awake (stt on).dev = true := by
  and_intros <;> decide

set_option maxRecDepth 20000 in
theorem witness_DeepProgramsReadsAndJournal :
    tblWf {} (stt programming).dev.queues = true ∧ fwExec (stt programming).dev = true ∧ tierBusy (stt
      programming).dev = false ∧ (stt programming).dev.fuse.burn = none ∧ (stt programming).dev.tier.progQ =
      [spillProg] ∧ spillProg.what = .spill 3 0 ∧ spillProg.again = false ∧ segAt (queueOf (stt
      programming).dev 3) 0 = some segQueued ∧ segQueued.near = some 7 ∧ segQueued.deep = none ∧ segQueued.loan
      = none ∧ (queueOf (stt programming).dev 3).cfg.valid = true ∧ (stt programming).dev.rep.upset = [] ∧
      slotUsable (stt programming).dev (queueOf (stt programming).dev 3).cfg.slot.toNat = true ∧ deepCopies
      (stt programming).dev 3 (queueOf (stt programming).dev 3) < (queueOf (stt programming).dev
      3).cfg.deepQuota ∧ 4096 ≤ (stt programming).dev.tier.level ∧ tblWf {} (stt lowBucket).dev.queues = true ∧
      fwExec (stt lowBucket).dev = true ∧ tierBusy (stt lowBucket).dev = false ∧ (stt lowBucket).dev.fuse.burn
      = none ∧ (stt lowBucket).dev.tier.progQ = [spillProg] ∧ segAt (queueOf (stt lowBucket).dev 3) 0 = some
      segQueued ∧ (queueOf (stt lowBucket).dev 3).cfg.valid = true ∧ (stt lowBucket).dev.rep.upset = [] ∧
      slotUsable (stt lowBucket).dev (queueOf (stt lowBucket).dev 3).cfg.slot.toNat = true ∧ deepCopies (stt
      lowBucket).dev 3 (queueOf (stt lowBucket).dev 3) < (queueOf (stt lowBucket).dev 3).cfg.deepQuota ∧ (stt
      lowBucket).dev.tier.level < 4096 ∧ tblWf {} (stt verifyDue).dev.queues = true ∧ (stt
      verifyDue).dev.tier.active = [flying] ∧ flying.seg = some (9 : BitVec 14).toNat ∧ flying.what = .spill 3
      0 ∧ segAt (queueOf (stt verifyDue).dev 3) 0 = some segStarted ∧ (stt verifyDue).dev.tier.sealRun = none ∧
      tblWf {} (stt deepOnly).dev.queues = true ∧ fwExec (stt deepOnly).dev = true ∧ segAt (queueOf (stt
      deepOnly).dev (3 : BitVec 12).toNat) 0 = some segRead ∧ segRead.deep = some ref9 ∧ segRead.reading = true
      ∧ segRead.near = none ∧ canTakeNear (stt deepOnly).dev (queueOf (stt deepOnly).dev (3 : BitVec 12).toNat)
      = true ∧ copyReads (stt deepOnly).dev (queueOf (stt deepOnly).dev (3 : BitVec 12).toNat).cfg.slot.toNat
      ref9.gen = true ∧ tblWf {} (stt journalDue).dev.queues = true ∧ timerDue (stt journalDue).dev .journal
      1000000 = true ∧ (stt journalDue).dev.tier.exhausted = false ∧ (stt journalDue).dev.tier.gathered ≠ [] ∧
      (stt journalDue).dev.tier.jSegs < 95 := by
  and_intros <;> decide

set_option maxRecDepth 20000 in
theorem witness_ScrubStepsMoveTheWalks :
    groupDue (stt scrubbing).dev (stt scrubbing).dev.regs.scrubNearEn .scrubNear (stt
      scrubbing).dev.regs.nearGap = true ∧ nearGroupFrom (stt scrubbing).dev (stt scrubbing).dev.rep.nearPos =
      some 62 ∧ nearGroupFrom (stt scrubbing).dev (62 + 1) = some 63 ∧ (stt scrubbing).dev.rep.upset = [] ∧
      groupDue (stt upset1).dev (stt upset1).dev.regs.scrubNearEn .scrubNear (stt upset1).dev.regs.nearGap =
      true ∧ nearGroupFrom (stt upset1).dev (stt upset1).dev.rep.nearPos = some 448 ∧ nearGroupFrom (stt
      upset1).dev (448 + 1) = some 449 ∧ (stt upset1).dev.rep.upset = [(3584, 1)] ∧ 3584 / 8 = 448 ∧ nearOwner
      (stt upset1).dev (3584 / 512) = some (3, seg7) ∧ 3584 % 512 * 8 < seg7.used * ewBytes (queueOf (stt
      upset1).dev 3).cfg.ew ∧ (decodeUpset 1).cls = 1 ∧ (∀ y ∈ (stt upset1).dev.rep.nearSuspects, y.addr ≠
      3584) ∧ groupDue (stt deepOnly).dev (stt deepOnly).dev.regs.scrubDeepEn .scrubDeep (stt
      deepOnly).dev.regs.deepGap = true ∧ sectorFrom (stt deepOnly).dev (stt deepOnly).dev.rep.deepPos = some
      1152 ∧ sectorFrom (stt deepOnly).dev (1152 + 1) = some 1153 ∧ (stt deepOnly).dev.keys.slots = [] := by
  and_intros <;> decide

theorem witness_RingUnitsAreAcknowledgedOrResent :
    hostReach (stt casOff).dev = true ∧ (stt casOff).dev.regs.casEn = false ∧ ringOn (stt trainingRing).dev =
      true ∧ ownNode (stt trainingRing).dev = 0 ∧ (stt trainingRing).dev.cas.training = true ∧ (stt
      trainingRing).dev.cas.trainSeen + 1 < 64 ∧ ringOn (stt trained).dev = true ∧ ownNode (stt trained).dev =
      0 ∧ (stt trained).dev.cas.training = true ∧ 64 ≤ (stt trained).dev.cas.trainSeen + 1 ∧ ringOn (stt
      peerNode).dev = true ∧ ownNode (stt peerNode).dev ≠ 0 ∧ ForMe ackHd (stt sent).dev ∧ ackHd.ackv = true ∧
      (peerOf (stt sent).dev ackHd.src.toNat).unacked = unit1 :: ([] : List SentFlit) ∧ (unit1.seq + flitUnits
      unit1.payload) % 256 = ackHd.ack.toNat ∧ (peerOf (stt sent).dev ackHd.src.toNat).waiting = [] ∧ (peerOf
      (stt sent).dev ackHd.src.toNat).abortQ = [] ∧ (peerOf (stt sent).dev 1).unacked ≠ [] ∧ ForMe hd (stt
      sent).dev ∧ hd.src.toNat = 1 ∧ hd.ackv = false ∧ (peerOf (stt sent).dev 1).attempts < 8 ∧ (1 : BitVec
      2).toNat = 1 ∧ ringOn (stt sent).dev = true ∧ timerDue (stt sent).dev (.retry 1) 20 = true ∧ (peerOf (stt
      sent).dev 1).st = .present ∧ (peerOf (stt sentAll).dev 1).unacked ≠ [] ∧ ringOn (stt sentAll).dev = true
      ∧ timerDue (stt sentAll).dev (.retry 1) 20 = true ∧ (peerOf (stt sentAll).dev 1).st = .present ∧ 8 ≤
      (peerOf (stt sentAll).dev 1).attempts ∧ ringOn (stt (withPeer owing ring)).dev = true ∧ (peerOf (stt
      (withPeer owing ring)).dev (1 : BitVec 2).toNat).st = .present ∧ (peerOf (stt (withPeer owing ring)).dev
      (1 : BitVec 2).toNat).ackDue = true ∧ (stt (withPeer owing ring)).dev.cas.standbyAfterRsp = false ∧
      ringOn (stt ring).dev = true ∧ ForMe oddHd (stt ring).dev ∧ oddHd.ackv = false ∧ oddHd.seq.toNat ≠
      (peerOf (stt ring).dev oddHd.src.toNat).rxSeq ∧ (peerOf (stt ring).dev oddHd.src.toNat).nakSent = false := by
  and_intros <;> decide

theorem witness_BeaconsAndImagesMakePresence :
    ringOn (stt beaconDue).dev = true ∧ fwExec (stt beaconDue).dev = true ∧ timerDue (stt beaconDue).dev
      .beacon (stt beaconDue).dev.regs.casBeacon = true ∧ ringOn (stt ring).dev = true ∧ fwExec (stt ring).dev
      = true ∧ (stt ring).dev.cas.held = [] ∧ (stt ring).dev.cas.standbyAfterRsp = false ∧ hd.src.toNat ≠
      ownNode (stt ring).dev ∧ (stt ring).dev.cas.up = true ∧ (stt ring).dev.cas.training = false ∧ (peerOf
      (stt ring).dev hd.src.toNat).st = .present ∧ (peerOf (stt ring).dev hd.src.toNat).boots = beaconPl.boots
      ∧ (peerOf (stt ring).dev hd.src.toNat).lineage = beaconPl.lineage ∧ ringOn (stt ringAlone).dev = true ∧
      fwExec (stt ringAlone).dev = true ∧ (stt ringAlone).dev.cas.held = [] ∧ (stt
      ringAlone).dev.cas.standbyAfterRsp = false ∧ hd.src.toNat ≠ ownNode (stt ringAlone).dev ∧ (stt
      ringAlone).dev.cas.up = true ∧ (stt ringAlone).dev.cas.training = false ∧ (peerOf (stt ringAlone).dev
      hd.src.toNat).st ≠ .present ∧ timerOn (stt ringAlone).dev (.beaconTo hd.src.toNat) = false ∧ fwExec (stt
      silent).dev = true ∧ isPresent (stt silent).dev (1 : BitVec 2).toNat = true ∧ timerDue (stt silent).dev
      (.beaconTo (1 : BitVec 2).toNat) (4 * (stt silent).dev.regs.casBeacon) = true ∧ ringOn (stt
      peerLoading).dev = false ∧ waitsForImage (stt peerLoading).dev = true ∧ (stt peerLoading).dev.boot.status
      = .loading ∧ tblFind (stt peerLoading).dev.boot.relayed 1 = none ∧ (14079 : BitVec 24).toNat ≠ 1 ∧
      ownNode (stt peerVerified).dev ≠ 0 ∧ fwRunning (stt peerVerified).dev = false ∧ awake (stt
      peerVerified).dev = true ∧ (stt peerVerified).dev.cas.verified = true ∧ (4 : BitVec 4).getLsbD (ownNode
      (stt peerVerified).dev) = true := by
  and_intros <;> decide

theorem witness_RingMovesBurstsAndTransfers :
    InTurn hd (stt popOn).dev ∧ tblWf {} (stt popOn).dev.queues = true ∧ popPl.done = false ∧ popPl.ret = false
      ∧ popPl.arm = false ∧ (queueOf (stt popOn).dev popPl.qid.toNat).ptx = none ∧ (queueOf (stt popOn).dev
      popPl.qid.toNat).cfg.valid = true ∧ InTurn hd (stt armOn).dev ∧ tblWf {} (stt armOn).dev.queues = true ∧
      armPl.done = false ∧ armPl.ret = false ∧ armPl.arm = true ∧ drainReady (queueOf (stt armOn).dev
      armPl.qid.toNat) armPl.packed (armPl.dmin.toNat * 64) armPl.wait.toNat 0xFFFFFF = false ∧ donePl.done = true ∧ retPl.done
      = false ∧ retPl.ret = true ∧ (queueOf (stt popOn).dev retPl.qid.toNat).ptx = none ∧ (queueOf (stt
      popOn).dev retPl.qid.toNat).held.find? (fun heldOne => heldOne.1 = retPl.tag.toNat) = some heldOne ∧
      heldOne.2 ≠ [] ∧ tblFind (stt popOn).dev.rings.drains rspPl.tag.toNat = none ∧ rspPl.ready = false ∧
      InTurn hd (stt remoteOn).dev ∧ tblWf {} (stt remoteOn).dev.queues = true ∧ tblFind (stt
      remoteOn).dev.rings.drains readyPl.tag.toNat = some drainRemote ∧ readyPl.ready = true ∧ (hd.src.toNat *
      4096 + readyPl.qid.toNat) ∉ drainRemote.ready ∧ (stt remoteOn).dev.bind.drain.any (fun b => b.target =
      readyPl.tag.toNat && b.qid = (hd.src.toNat * 4096 + readyPl.qid.toNat)) = true ∧ tblFind (stt
      remoteOn).dev.rings.drains rspPl.tag.toNat = some drainRemote ∧ drainRemote.xfer = some remoteXfer ∧
      remoteXfer.remote = some rspPl.tag.toNat ∧ remoteXfer.qid = (hd.src.toNat * 4096 + rspPl.qid.toNat) ∧
      remoteXfer.ended = false ∧ rspPl.data ≠ [] := by
  and_intros <;> decide

theorem witness_LendersServeTheirBorrowers :
    InTurn hd (stt noLoans).dev ∧ lendable (stt noLoans).dev = 0 ∧ InTurn hd (stt ring).dev ∧ 0 < lendable (stt
      ring).dev ∧ tblFind (stt ring).dev.tier.loans 0 = none ∧ InTurn hd (stt lender).dev ∧ loanTo (stt
      lender).dev hd.src.toNat segPl.handle.toNat = some loan9 ∧ lentRuns (stt lender).dev segPl.handle.toNat =
      false ∧ loan9.data = [] ∧ segPl.first.toNat + segPl.count.toNat < 128 ∧ tblSorted (stt
      lender).dev.tier.loans = true := by
  and_intros <;> decide

theorem witness_BorrowersFollowTheirLenders :
    InTurn hd (stt (borrower none)).dev ∧ tblWf {} (stt (borrower none)).dev.queues = true ∧ borrowing (stt
      (borrower none)).dev hd.src.toNat segPl.borrower.toNat none = some (borrow none) ∧ (borrow none).what =
      .borrow 3 0 1 0 none ∧ stillNear (stt (borrower none)).dev 3 0 = true ∧ (stt (borrower
      none)).dev.tier.sealRun = none ∧ (queueOf (stt (borrower none)).dev 3).cfg.tier ≠ 2 ∧ InTurn hd (stt
      (borrower (some 9))).dev ∧ tblWf {} (stt (borrower (some 9))).dev.queues = true ∧ borrowing (stt
      (borrower (some 9))).dev hd.src.toNat 0 (some segPl.handle.toNat) = some (borrow (some 9)) ∧ (borrow
      (some 9)).what = .borrow 3 0 1 0 (some segPl.handle.toNat) ∧ segAt (queueOf (stt (borrower (some 9))).dev
      3) 0 = some segStarted ∧ (stt (borrower (some 9))).dev.tier.sealRun = none ∧ stillNear (stt (borrower
      (some 9))).dev 3 0 = true ∧ InTurn hd (stt readBack).dev ∧ tblWf {} (stt readBack).dev.queues = true ∧ 3
      = segPl.borrower.toNat % 4096 ∧ canTakeNear (stt readBack).dev (queueOf (stt readBack).dev 3) = true ∧
      (queueOf (stt readBack).dev 3).chain.find? (fun x => x.reading && x.near.isNone && (x.loan.map fun l =>
      (l.node, l.handle)) = some (hd.src.toNat, segPl.handle.toNat)) = some segLent ∧ InTurn hd (stt holed).dev
      ∧ tblWf {} (stt holed).dev.queues = true ∧ chained (stt holed).dev hd.src.toNat segPl.handle.toNat = true
      ∧ (peerOf (stt holed).dev hd.src.toNat).reclaiming = true ∧ fwExec (stt holeDue).dev = true ∧ (stt
      holeDue).dev.regs.casHoleTo ≠ 0 ∧ tblWf {} (stt holeDue).dev.queues = true ∧ timerDue (stt holeDue).dev
      (.hole (1 : BitVec 2).toNat) (stt holeDue).dev.regs.casHoleTo = true := by
  and_intros <;> decide

theorem witness_SpdmRequestsAreAnswered :
    DoeReady (stt agreed).dev ∧ (stt agreed).dev.spdm.version = true ∧ DoeReady (stt on).dev ∧ (stt
      on).dev.spdm.version = false ∧ (stt agreed).dev.spdm.caps = true ∧ (stt on).dev.spdm.caps = false ∧ (stt
      on).dev.spdm.algs = false ∧ (stt agreed).dev.spdm.algs = true ∧ 1 ≠ 0 ∧ (stt inRom).dev.link.up = true ∧
      (stt inRom).dev.pwr.perst = false ∧ awake (stt inRom).dev = true ∧ (stt inRom).dev.spdm.doeBusy = false ∧
      (stt inRom).dev.boot.status = .rom := by
  and_intros <;> decide

theorem witness_JtagAndLoupeActAsAllowed :
    awake (stt scanWait).dev = true ∧ awake (stt loupeOn).dev = true ∧ loupeShut (stt loupeOn).dev = false ∧
      mayRead (stt loupeOn).dev = true ∧ (stt loupeOn).dev.jtag.space = 0 ∧ (stt loupeOn).dev.jtag.addr.toNat <
      0x4000 ∧ awake (stt noRead).dev = true ∧ loupeShut (stt noRead).dev = false ∧ mayRead (stt noRead).dev =
      false ∧ awake (stt haltedOn).dev = true ∧ loupeShut (stt haltedOn).dev = false ∧ mayControl (stt
      haltedOn).dev = true ∧ (stt haltedOn).dev.jtag.space = 4 ∧ (stt haltedOn).dev.jtag.addr.toNat < 65536 ∧
      tblWf 0 (stt haltedOn).dev.boot.iSram = true ∧ (stt haltedOn).dev.jtag.halted = true ∧ awake (stt
      sramOn).dev = true ∧ loupeShut (stt sramOn).dev = false ∧ mayControl (stt sramOn).dev = true ∧ (stt
      sramOn).dev.jtag.space = 4 ∧ (stt sramOn).dev.jtag.addr.toNat < 65536 ∧ tblWf 0 (stt
      sramOn).dev.boot.iSram = true ∧ (stt sramOn).dev.jtag.halted = false ∧ awake (stt on).dev = true ∧
      loupeShut (stt on).dev = false ∧ mayControl (stt on).dev = true ∧ (stt on).dev.jtag.halted = false ∧
      lockedSeq (stt on).dev = 0 ∧ awake (stt burnHalt).dev = true ∧ loupeShut (stt burnHalt).dev = false ∧
      mayControl (stt burnHalt).dev = true ∧ (stt burnHalt).dev.jtag.halted = false ∧ lockedSeq (stt
      burnHalt).dev ≠ 0 ∧ (stt haltedOn).dev.cas.held = [] ∧ (stt haltedOn).dev.spdm.held = none ∧ (stt
      haltedOn).dev.cas.standbyAfterRsp = false ∧ awake (stt haltDue).dev = true ∧ (stt
      haltDue).dev.jtag.haltPend = true ∧ lockedSeq (stt haltDue).dev = 0 ∧ (stt on).dev.jtag.fails < 3 ∧ awake
      (stt lockedTail).dev = true ∧ 3 ≤ (stt lockedTail).dev.jtag.fails := by
  and_intros <;> decide

/-- Without copies, retired segments and wear the lowest deep segment is chosen (R328). -/
theorem foldl_stays {α β : Type} (f : α → β → α) (a : α) (h : ∀ n, f a n = a) (l : List β) : l.foldl f a = a := by
  induction l with
  | nil => rfl
  | cons b l ih => rw [List.foldl_cons, h, ih]

theorem chooseDeep_fresh (d : Dev) (h1 : d.tier.deep = []) (h2 : d.tier.deepRetired = []) (h3 : d.tier.wear = []) :
    chooseDeep d = some 0 := by
  have e : List.range 8192 = 0 :: (List.range 8191).map Nat.succ := List.range_succ_eq_map
  rw [chooseDeep, e, List.foldl_cons]
  simp only [h1, h2, tblFind, Option.isSome_none, List.not_mem_nil, decide_false, Bool.or_self, Bool.false_eq_true,
    if_false]
  exact foldl_stays _ _ (fun n => by simp [wearOf, h3, tblGet, tblFind]) _

theorem reserve_programming : sealNeed programming < deepPool programming := by decide

theorem witness_DeepProgramsReadsAndJournal_segment : takeDeep programming = some 0 :=
  (if_pos reserve_programming).trans (chooseDeep_fresh _ rfl rfl rfl)

theorem witness_LendersServeTheirBorrowers_segment :
    chooseDeep ring = some 0 ∧ tblFind ring.tier.loans 0 = none :=
  ⟨chooseDeep_fresh _ rfl rfl rfl, rfl⟩

theorem witness_SpdmRequestsAreAnswered_chain : (0 : BitVec 16).toNat < (certChain agreed).length := by
  simp [certChain, natLe]

theorem witness_OffIsLeftOnlyByPor_step :
    Off offWaiting.dev = true ∧ offWaiting.pending ≠ [] ∧
      (∀ n t0 t1 c0 c1 rest, offWaiting.pending ≠ .por n t0 t1 c0 c1 :: rest) ∧ ∃ t, step offWaiting = .next t := by
  refine ⟨by decide, by decide, ?_, _, rfl⟩
  intro n t0 t1 c0 c1 rest h
  cases h

theorem witness_TablesStayCanonical_step : Canon twoWaiting.dev = true ∧ ∃ t, step twoWaiting = .next t :=
  ⟨by decide, _, rfl⟩

theorem witness_TimeCaptureIsOneValue_steps :
    (∃ t, exec .slowclkLost (stt on) = .next t) ∧ (stt on).pending = [] ∧ ∃ t, step (stt on) = .next t :=
  ⟨⟨_, rfl⟩, rfl, _, rfl⟩

/-! ### Further clauses -/

/-- A commit runs over an empty stage. -/
def committing : Dev := { on with epoch.taken := some {} }
def fenced : Dev := { sealedOn with epoch.fence := true }
def askedStandby : Dev :=
  { sealedOn with pwr.standbyPend := true, pwr.heldPces := [(3, pin16)], epoch.allFence := true }
def runOfKind (k : RunKind) : AdmRun := { roundRun with kind := k }
def timedKind (k : RunKind) : Dev := { timedOut with adm.run := some (runOfKind k) }
def mirrorChanged : Dev := { mirrorDue with queues := [(3, { cfg := qc, mirrorHeld := true, eor := { avail := 1 } })] }
def noMaster : Dev := { on with link.bme := false }
def resetLinkOnly : Dev := { linkScope with pwr.perst := true, link.up := false }
def standbyLow : Dev := { standbyOn with pwr.perst := true }
def redirs : Tbl (Redir × Redir × Redir) :=
  (List.range 8).map fun k => let r : Redir := { row := 9, valid := true }; (k, r, r, r)
def sparesUsed : Dev := { fuseOp 0 200 2 with fuse.redir := redirs }
def rowShut : Dev := { fuseOp 0 200 2 with fuse.otpLock := 0xFF }
def deepTest : Dev := { testRun with ecc.run := some (true, 5), ecc.deepSeg := [(5, { check := Config.deepCheck 0 })] }
/-- The switches of pair 1 conduct. -/
def throughOn : Dev := { on with ports.p1 := { strap := true, ball := true } }
def racing : Dev :=
  { withTimer (.stall 1) 1000 fixedIn with
    regs.stallTo := 1000, queues := [(3, { cfg := qc, lock := some (.port 1) })] }
def flushBusy : Dev := { fixedIn with ports.i1.xing := asking }
def pulsesBusy : Dev := { pulling with ports.e1.xing := asking }
def armEvent : Dev :=
  { on with
    ports.i1 := { pce := pin16, run := opened, ev := [.arm] }, ports.e1 := pull, ports.p1 := { strap := true } }
def cutEvent : Dev := { on with ports.e1 := { pull with ev := [.cut [(3, .flush)]] } }
def beatOne : Dev :=
  { on with
    ports.i1 := { pce := pin16, run := opened, isb := [.beat 1 false 3 none 0 2] }
    queues := [(3, { cfg := { qc with ew := 1 } })] }
def idlePush : Dev := { pulling with ports.e1 := { pull with pce.push := true, esb := [], visible := 0 } }
def stillClock : Dev := { withTimer (.noClock 1) 16 on with ports.p1 := { strap := true, armed := true } }
def waitingStandby : Dev := { atInstant with epoch.allFence := true }
def fillBehind : FillRing := { fillLate with arrived := [fillBad] }
def badBehind : Dev := { arrived fillBad with rings.fills := [(1, fillBehind)] }
def fillIn (r : FillRing) : Dev := { lateFill with rings.fills := [(1, r)] }
def drainL12 : Dev := { drainEnded with link.lstate := .l12 }
def subOn : Dev := { idleLink with link.l1ss.aspmL12 := true }
def ringQueue : Dev := { ring with queues := [(3, { cfg := qc })] }
def rspBytes : RspPl := { rspFrom with record := [1] }

theorem witness_EveryCommandCompletes_kinds :
    goesReserved on .idcode = false ∧ goesReserved on (.fuseRead 0 3) = true := by
  and_intros <;> decide

theorem witness_StagingCommands_meanwhile :
    TakesAny 0x1A { cm 0 with addr := 1 } 5 on ∧ cmdShape { cm 0 with addr := 1 } = false ∧ AceRoom committing ∧
      Takes 0x10 (cm 3 0 128 2) 5 committing ∧ TakesAny 0x1A (cm 0) 5 committing ∧ committing.epoch.taken ≠ none := by
  and_intros <;> decide

theorem witness_CheckReports_busy : AceRoom fenced ∧ Takes 0x19 (cm 0) 5 fenced ∧ busyNow fenced = true := by
  and_intros <;> decide

theorem witness_ReadCounters_rings :
    let d := withRings on
    Takes 0x24 (cm 5 5) 5 d ∧ AceRoom d ∧ bitsOf (cm 5 5).flags.toNat 1 2 = 2 ∧ bitsOf (cm 5 5).arg0.toNat 6 2 = 0 ∧
      tblFind d.rings.comps (bitsOf (cm 5 5).arg0.toNat 0 6) = some comp5 ∧
      Takes 0x24 (cm 0x82 5) 5 d ∧ bitsOf (cm 0x82 5).arg0.toNat 6 2 = 2 ∧
      tblFind d.rings.drains (bitsOf (cm 0x82 5).arg0.toNat 0 6) = some drain2 ∧
      Takes 0x24 (cm 0x43 5) 5 d ∧ bitsOf (cm 0x43 5).arg0.toNat 6 2 = 1 ∧
      tblFind d.rings.fills (bitsOf (cm 0x43 5).arg0.toNat 0 6) = none := by
  and_intros <;> decide

theorem witness_PowerRequest_pending :
    Takes 0x31 (cm 1) 5 askedStandby ∧ AceRoom askedStandby ∧ askedStandby.pwr.standbyPend = true ∧
      tblSorted askedStandby.pwr.heldPces = true ∧ (∀ x ∈ askedStandby.pwr.heldPces, x.1 < 4) ∧
      Takes 0x31 (cm 2) 5 askedStandby ∧ busyNow askedStandby = false ∧ journalSealed askedStandby = true ∧
      Takes 0x31 (cm 2) 5 fenced ∧ AceRoom fenced ∧ busyNow fenced = true ∧ sealedOn.pwr.heldPces = [] ∧
      Takes 0x31 (cm 3) 5 on ∧ bitsOf (cm 3).arg0.toNat 0 2 = 3 := by
  and_intros <;> decide

theorem witness_RingCreate_refused :
    let d := withRings on
    Takes 0x01 (cm 5) 5 d ∧ AceRoom d ∧ bitsOf (cm 5).flags.toNat 0 2 = 0 ∧
      tblFind d.rings.comps (bitsOf (cm 5).arg0.toNat 0 6) = some comp5 ∧ Takes 0x01 (cm 1 1) 5 on ∧
      bitsOf (cm 1 1).flags.toNat 0 2 = 1 ∧ tblFind on.rings.fills 1 = none ∧
      tblFind on.rings.comps (bitsOf (cm 1 1).arg0.toNat 24 6) = none ∧ tblWf {} on.queues = true := by
  and_intros <;> decide

theorem witness_Seal_refused :
    Takes 0x30 (cm 0) 5 fenced ∧ AceRoom fenced ∧ busyNow fenced = true ∧
      Takes 0x30 (cm 0) 5 { sealing with tier.exhausted := true } ∧
      AceRoom { sealing with tier.exhausted := true } ∧ busyNow { sealing with tier.exhausted := true } = false := by
  and_intros <;> decide

theorem witness_KeyLoad_refused :
    Takes 0x40 (cm 1 0 224) 5 on ∧ AceRoom on ∧ bitsOf (cm 1 0 224).arg0.toNat 0 4 < 2 ∧
      Takes 0x40 (cm 2 0 224) 5 on ∧ wrapOk (cm 2 0 224) (zeros 224) = false ∧ wrapOk (cm 2 0 224) (wrapped 7) = true ∧
      leAt (wrapped 7) 6 2 ≠ (slotOf on 2).counter ∧ leAt (wrapped 0) 6 2 = (slotOf on 2).counter ∧
      wrapOk (cm 2 0 224) (wrapped 0) = true ∧ tblWf {} on.keys.slots = true ∧ (slotOf on 2).installed = none ∧
      (slotOf on 2).pending = none := by
  and_intros <;> decide

theorem witness_KeyErase_refused :
    AceRoom fenced ∧ Takes 0x41 (cm 2) 5 fenced ∧ busyNow fenced = true ∧ Takes 0x41 (cm 1) 5 on ∧ AceRoom on ∧
      busyNow on = false ∧ bitsOf (cm 1).arg0.toNat 0 4 < 2 ∧ Takes 0x41 (cm 2) 5 on ∧ (slotOf on 2).installed = none := by
  and_intros <;> decide

theorem witness_FirmwareRelay_ends :
    Takes 0x61 (cm 0 0 8) 5 on ∧ AceRoom on ∧
      (([1, 2, 3].filter fun n => (cm 0 0 8).arg0.getLsbD n && !isPresent on n).foldl (fun m n => m + 2 ^ n) 0) = 0 ∧
      AceRoom relayDone ∧ (relayDone.adm.run.map fun r => (r.kind, r.origin)) = some (.relayFw, .host) := by
  and_intros <;> decide

theorem witness_OtherNodes_relayed :
    ring.cas.up = true ∧ (tblGet {} ring.cas.peers 1).waiting = [] ∧ (tblGet {} ring.cas.peers 1).unacked = [] ∧
      InTurn hd ringQueue ∧ ringQueue.adm.run = none ∧
      (relayedBody 0x20 (cm 3) [] [] (runOfKind .commit) (accepted hd (cmdUnitBytes (cmdTo 0x20)) ringQueue)).2 = none ∧
      (relayedBody 0x1A (cm 3) [] [] (runOfKind .commit) (accepted hd (cmdUnitBytes (cmdTo 0x1A)) ringQueue)).2 ≠ none ∧
      rspBytes.record ≠ [] := by
  and_intros <;> decide

theorem witness_AdminTimeout_kinds :
    let d := timedKind .commit
    timerDue d .admin d.regs.adminTimeout = true ∧ d.adm.run = some (runOfKind .commit) ∧
      (runOfKind .commit).origin = .host ∧ AceRoom d ∧ (timedKind .sealing).adm.run = some (runOfKind .sealing) := by
  and_intros <;> decide

theorem witness_Mirror_kinds :
    (hostReach admOff = true ∧ admOff.adm.en = false) ∧ on.adm.en = true ∧ on.regs.mirrorEn = false ∧
      hostReach noMaster = true ∧ noMaster.adm.en = true ∧ noMaster.regs.mirrorEn = false ∧ dmaAllowed noMaster = false ∧
      canIssue on = true ∧ 16 ≤ on.link.mps ∧ on.adm.mirrorBase % 4096 = 0 ∧ tblWf {} on.queues = true ∧
      (queueOf mirrorChanged 3).eor ≠ (queueOf mirrorChanged 3).mirror ∧
      (queueOf mirrorDue 3).eor = (queueOf mirrorDue 3).mirror ∧ timerDue mirrorChanged (.mirror 3) 1000 = true := by
  and_intros <;> decide

theorem witness_Perst_kinds :
    on.pwr.perst = false ∧ awake on = true ∧ on.pwr.standbyPend = false ∧ (fwRunning on && on.regs.perstLink) = false ∧
      standbyLow.pwr.perst = true ∧ standbyLow.pwr.vin = true ∧ standbyLow.pwr.standby = true ∧ held.pwr.vin = true ∧
      resetLinkOnly.pwr.perst = true ∧ awake resetLinkOnly = true ∧ resetLinkOnly.boot.status ≠ .hold := by
  and_intros <;> decide

theorem witness_Download_kinds :
    training.boot.status = .rom ∧ { training with boot.status := .fwRunning }.boot.status ≠ .rom ∧
      hostReach copying = true ∧ bootBusy copying = true ∧ bootBusy failedImage = false := by
  and_intros <;> decide

theorem witness_Fuse_redirections :
    rowLocked rowShut 200 = true ∧ rowShut.fuse.run = some (2, 0, 200) ∧ rowShut.fuse.busy = true ∧ fwExec rowShut = true ∧
      rowLocked sparesUsed 200 = false ∧ sparesUsed.fuse.run = some (2, 0, 200) ∧
      ∀ j < 8, (redirOf sparesUsed j).valid = true := by
  and_intros <;> decide

theorem witness_EccTest_deep :
    deepTest.ecc.busy = true ∧ deepTest.ecc.run = some (true, 5) ∧ (5 : BitVec 9).toNat < 128 ∧
      (tblGet {} deepTest.ecc.deepSeg 5).check = Config.deepCheck (tblGet {} deepTest.ecc.deepSeg 5).data :=
  ⟨rfl, rfl, by decide, rfl⟩

theorem witness_Registers_alignment :
    (0x641 : BitVec 14).toNat % 4 ≠ 0 ∧ (0x644 : BitVec 14).toNat % 8 ≠ 0 ∧ (0x164 : BitVec 14).toNat % 8 ≠ 0 := by
  and_intros <;> decide

theorem witness_Ingress_kinds :
    (pairOf armedPair 1).armed = true ∧ switchConducts throughOn 1 = true ∧ (pairOf throughOn 1).armed = false ∧
      (pairOf throughOn 1).returning = false ∧ portOpen racing 1 = true ∧ inBypass racing 1 = false ∧
      switchConducts racing 1 = false ∧ (pairOf racing 1).armed = false ∧ raceLost 1 racing = true ∧
      (iport racing 1).pce.tagged = false ∧ (iport racing 1).ff = false ∧ raceLost 1 fixedIn = false ∧
      switchConducts fixedIn 1 = false ∧ raceLost 1 fullIn = false ∧ raceLost 1 taggedIn = false ∧
      raceLost 1 unmappedIn = false ∧ (iport taggedIn 1).pce.width = 2 ∧ (iport taggedIn 1).partBits = 0 := by
  and_intros <;> decide

theorem witness_Pulses_busy :
    portOpen flushBusy 1 = true ∧ (iport flushBusy 1).flushPrev = some false ∧ (iport flushBusy 1).xing.busy = true ∧
      (iport flushBusy 1).xing.pRt = none ∧ pulseQueue (eport pulling 1) = some 3 ∧ portOpen pulsesBusy 3 = true ∧
      inBypass pulsesBusy 1 = false ∧ pulseQueue (eport pulsesBusy 1) = some 3 ∧ (eport pulsesBusy 1).xing.busy = true ∧
      (eport pulsesBusy 1).fresh = false ∧ (eport pulsesBusy 1).xing.pRt = none ∧
      (eport pulsesBusy 1).xing.pMrk = none ∧ (eport pulsesBusy 1).xing.pDrop = none ∧
      (eport pulsesBusy 1).rtPrev = some false := by
  and_intros <;> decide

theorem witness_PortEvents_armAndCut :
    evOf armEvent 1 = [.arm] ∧ inBypass armEvent 1 = true ∧ portOpen armEvent 1 = true ∧ portOpen armEvent 3 = true ∧
      evOf cutEvent 3 = [.cut [(3, .flush)]] ∧ headStays (eport cutEvent 1) = 0 ∧ (eport cutEvent 1).midPkt = false ∧
      finishing (eport eventOpen 1) = false ∧ (eport eventClose 1).under = none := by
  and_intros <;> decide

theorem witness_Beats_lone :
    awake beatOne = true ∧ (iport beatOne 1).run.parked = false ∧ (iport beatOne 1).latched = none ∧
      (iport beatOne 1).vis = 0 ∧ (iport beatOne 1).asmBits = 0 ∧ (iport beatOne 1).asmBeats = 0 ∧
      (iport beatOne 1).asmKey = none ∧ (iport beatOne 1).isb = [.beat 1 false 3 none 0 2] ∧
      portBits 2 = 8 * ewBytes (ewOf beatOne 3) := by
  and_intros <;> decide

theorem witness_Egress_kinds :
    drives throughOn 1 = false ∧ switchConducts throughOn 1 = true ∧ switchConducts pulling 1 = false ∧
      drives idlePush 1 = true ∧ switchConducts idlePush 1 = false ∧ (eport idlePush 1).under = none ∧
      (eport idlePush 1).pce.push = true ∧ (eport idlePush 1).pce.cont = false ∧ (eport idlePush 1).midPkt = false ∧
      nextBeat (cfgOf idlePush) (eport idlePush 1) = none := by
  and_intros <;> decide

theorem witness_ThroughPaths_limits :
    timerDue latePair (.noClock 1) 16 = false ∧ timerDue latePair (.handover 1) 10000 = true ∧
      (pairOf stillClock 1).armed = true ∧ timerDue stillClock (.noClock 1) 16 = true := by
  and_intros <;> decide

theorem witness_CommitInstant_waits : waitingStandby.epoch.allFence = true := by decide

theorem witness_Sweeps_kick :
    sweepDue.pwr.vin = true ∧ sweepDue.pwr.standby = false ∧ fwRunning sweepDue = true ∧ sweepDue.adm.en = true ∧
      sweepDue.sweep.running = false ∧ canIssue sweepDue = true ∧ sweepDue.link.reads = [] ∧ 128 ≤ sweepDue.link.mrrs := by
  and_intros <;> decide

theorem witness_FillDescriptors_timeouts :
    tblFind badBehind.rings.fills 1 = some fillBehind ∧ fillBehind.cur ≠ none ∧ fillBehind.arrived = [fillBad] ∧
      cqFull badBehind fillBehind.cq = false ∧ fwExec badBehind = true ∧ (parseFill fillBad).bad = true ∧
      tblFind badBehind.rings.comps fillBehind.cq = some comp5 ∧
      timerDue (fillIn fillGot) (.desc 1) fillGot.timeout = true ∧ fillGot.cur = none ∧ fillGot.arrived = [fillOk] ∧
      timerDue (fillIn fill1) (.desc 1) fill1.timeout = true ∧ fill1.cur = none ∧ fill1.arrived = [] := by
  and_intros <;> decide

theorem witness_DrainTransfers_link :
    (2 : BitVec 6).toNat ∉ drainReadyOn.epoch.fencedRings ∧ dmaAllowed drainL12 = true ∧ drainL12.link.lstate = .l12 ∧
      cqFull drainL12 drainXfer.cq = false ∧ tblFind drainL12.rings.drains 2 = some drainXfer := by
  and_intros <;> decide

theorem witness_HostLink_substates :
    l12Allowed subOn = true ∧ linkIdle subOn = true ∧ subOn.link.lstate ≠ .l12 ∧ awake subOn = true ∧
      cfgReach subOn = true := by
  and_intros <;> decide

set_option maxRecDepth 20000 in
theorem witness_Tiers_firmware :
    fwExec journalDue = true ∧ upsetClass 1 = 1 ∧ tblWf {} haltedOn.queues = true ∧ on.spdm.doeBusy = false := by
  and_intros <;> decide

/-! ### Ill-formed commands -/

theorem test_wf_buffers :
    (Instr.stageQueues (cm 3 0 64 1) (zeros 63)).wf = false ∧ (Instr.stagePorts (cm 1 0 32) (zeros 33)).wf = false ∧
      (Instr.stageBindings (cm 0 0 8 1) []).wf = false ∧ (Instr.keyLoad (cm 2 0 224) (zeros 223)).wf = false ∧
      (Instr.peerFirmware (cm 2 0 8) (zeros 9)).wf = false ∧
      (Instr.relayedAdminCommand 0x20 (cm 3 0 0) [0]).wf = false := by
  simp only [Instr.wf, bufferFits, zeros, List.length_replicate]
  decide

theorem test_wf_opcodes :
    (Instr.relayedAdminCommand 0xEE (cm 3 0 0) []).wf = false ∧ (Instr.invalidOpcode 0x20 (cm 3)).wf = false := by decide

theorem test_wf_offsets :
    (Instr.bar2Write 65535 [1, 2]).wf = false ∧ (Instr.shadowOverrideWrite 0x541 0).wf = false ∧
      (Instr.turnstileRound 3 [(262144, 1)] []).wf = false ∧
      (Instr.turnstileRound 3 [] [{ mem := 7, addr := 0, uncorrectable := false }]).wf = false ∧ (Instr.scrubNearGroup [(262144, 1)]).wf = false := by decide

theorem test_wf_lengths :
    (Instr.fuseBurn 200 0 (List.replicate 33 .burned)).wf = false ∧ (Instr.sweep (List.replicate 255 0)).wf = false ∧
      (Instr.deepReadComplete 3 0 (List.replicate 129 .clean)).wf = false ∧
      (Instr.push hd { pushPl with data := zeros 65 }).wf = false ∧ (Instr.img hd 0 (zeros 8)).wf = false ∧
      (Instr.unlockResp (zeros 207)).wf = false ∧ (Instr.dmaReadCompletion 5 .ok (zeros 513)).wf = false := by
  simp only [Instr.wf, zeros, List.length_replicate]
  decide

theorem test_wf_accepts :
    (Instr.stageQueues (cm 3 0 128 2) (zeros 128)).wf = true ∧ (Instr.invalidOpcode 0xEE (cm 3)).wf = true ∧
      (Instr.registerWrite 0x108 (.dword 1)).wf = true ∧ (Instr.push hd pushPl).wf = true := by
  simp only [Instr.wf, bufferFits, zeros, List.length_replicate]
  decide

/-! ### No row of the table gives bits -/

theorem test_no_bits : decodeTableWord 16 0x1234 = none ∧ (State.reset.withFetchWord 32 7) = State.reset := by decide

/-! ### Worked values -/

/-- The device as a test sees it after one command. -/
def after (c : Instr) (d : Dev) : Dev :=
  match exec c (stt d) with
  | .next t => t.dev
  | _ => d

set_option maxRecDepth 20000 in
/-- EPOCH_NOW goes from 0xFFFFFFFF to 1 (R303). -/
theorem test_epoch_wraps : (after .commitInstant atInstant).epoch.now = 1 := by decide

set_option maxRecDepth 20000 in
/-- A 14-bit pressure threshold above 8704 is held at 8704. -/
theorem test_wakeFree_clamps : (after (.registerWrite 0x108 (.dword 0x3FFF)) on).regs.wakeFree = 8704 := by decide

set_option maxRecDepth 20000 in
/-- The first key generation after 0xFFFF is 1 (R538). -/
theorem test_generation_wraps : nextGen 0xFFFF = 1 ∧ nextGen 0 = 1 := by decide

set_option maxRecDepth 20000 in
/-- IDCODE of the part (R574). -/
theorem test_idcode : (after .idcode on).jtag.out = [0xCF, 0x15, 0x40, 0x13] := by decide

set_option maxRecDepth 20000 in
/-- A flush leaves neither stored items nor a chain. -/
theorem test_flush : (queueOf (after (.turnstileRound 3 [] []) flushing) 3).items = [] := by decide

set_option maxRecDepth 20000 in
/-- A burst is admitted behind the items there. -/
theorem test_push :
    (queueOf (after (.turnstileRound 3 [] []) admitting) 3).items.map (·.data) = [1, 1] := by decide

/-- The core that the host reads is the model's step and reset. -/
theorem test_core : Sys2Proof.core.reset = State.reset := rfl

end Sys2Proof.Tests
end

section
/-!
The write of TIER_SPILL_BURST: the burst it stores, the level it leaves, and its frame (R347, R595).
-/

namespace Sys2Proof.Machine

/-- The burst is stored in the range of R595. -/
@[simp] theorem setBurst_spillBurst (v : Nat) (d : Dev) :
    (setBurst v d).regs.spillBurst = max 1 (min 1048576 v) := rfl

/-- The new level in bytes is the lesser of the old level and the burst just stored, which is in MiB. -/
theorem setBurst_level (v : Nat) (d : Dev) :
    (setBurst v d).tier.level = min d.tier.level ((setBurst v d).regs.spillBurst * 2 ^ 20) := by
  have mib (b : Nat) : Int.ofNat (b * 2 ^ 20) = (b : Int) * 2 ^ 20 := by simp
  exact congrArg (min d.tier.level) (mib _)

/-- Only the burst, the level and the lowest level seen can move. -/
theorem setBurst_frame (v : Nat) (d : Dev) :
    setBurst v d = { d with
      regs.spillBurst := (setBurst v d).regs.spillBurst
      tier.level := (setBurst v d).tier.level
      tier.minLevel := (setBurst v d).tier.minLevel } := rfl

theorem exec_tierSpillBurstWrite (v : BitVec 21) (s : State) :
    exec (.tierSpillBurstWrite v) s = execTierSpillBurstWrite v s := by
  rfl

/-- While the host reaches the registers, the command completes with the device that took the value. -/
theorem completes_tierSpillBurstWrite {s : State} {v : BitVec 21} {P : Dev → Prop}
    (reach : hostReach s.dev = true) (holds : P (setBurst v.toNat s.dev)) :
    Completes (.tierSpillBurstWrite v) s P := by
  refine ⟨{ s with dev := setBurst v.toNat s.dev }, ?_, rfl, holds⟩
  simp [exec_tierSpillBurstWrite, execTierSpillBurstWrite, reach]

/-- Settles O33: the new level is the minimum of the old level and the stored burst, so it is the burst when
that is the lower one and the old level otherwise. -/
theorem spillBurstLowersTheLevel : Obligations.SpillBurstLowersTheLevel := by
  intro s v reach
  apply completes_tierSpillBurstWrite reach
  refine ⟨setBurst_spillBurst v.toNat s.dev, fun above => ?_, fun within => ?_, setBurst_frame v.toNat s.dev⟩
  · exact (setBurst_level v.toNat s.dev).trans (min_eq_right above.le)
  · exact (setBurst_level v.toNat s.dev).trans (min_eq_left within)

end Sys2Proof.Machine
end

section
/-!
The state OFF (R470): what a device there lacks, and the few changes a step can make to it.
-/

namespace Sys2Proof.Machine

/-- `Off`, taken apart: what a device in OFF lacks. -/
structure InOff (d : Dev) : Prop where
  vin : d.pwr.vin = false
  standbyPend : d.pwr.standbyPend = false
  stepTo : d.pwr.stepTo = none
  govEn : d.pwr.govEn = false
  status : d.boot.status = .powerUp
  bootBusy : d.boot.busy = false
  linkUp : d.link.up = false
  training : d.link.training = false
  reads : d.link.reads = []
  timers : d.tb.timers = []
  fetch : d.adm.fetch = none
  fence : d.epoch.fence = false
  eraseFence : d.epoch.eraseFence = none
  fuseBusy : d.fuse.busy = false
  eccBusy : d.ecc.busy = false
  sweeping : d.sweep.running = false
  active : d.tier.active = []
  fills : d.rings.fills = []
  drains : d.rings.drains = []
  comps : d.rings.comps = []
  queues : d.queues = []
  slots : d.keys.slots = []
  i0 : d.ports.i0 = {}
  i1 : d.ports.i1 = {}
  e0 : d.ports.e0 = {}
  e1 : d.ports.e1 = {}
  armed0 : d.ports.p0.armed = false
  returning0 : d.ports.p0.returning = false
  armed1 : d.ports.p1.armed = false
  returning1 : d.ports.p1.returning = false

theorem inOff_of_off {d : Dev} (off : Off d = true) : InOff d := by
  simp only [Off, portsCold, Bool.and_eq_true, Bool.not_eq_true', Option.isNone_iff_eq_none,
    List.isEmpty_iff, beq_iff_eq] at off
  constructor <;> simp only [off]

namespace InOff

variable {d : Dev} (h : InOff d)
include h

/-! ### What a command finds there -/

theorem awake : awake d = false := by simp [Machine.awake, h.vin]

theorem hostReach : hostReach d = false := by simp [Machine.hostReach, h.linkUp]

theorem cfgReach : cfgReach d = false := by simp [Machine.cfgReach, h.linkUp]

theorem fwRunning : fwRunning d = false := by simp [Machine.fwRunning, h.status]

theorem fwExec : fwExec d = false := by simp [Machine.fwExec, h.fwRunning]

theorem ringOn : ringOn d = false := by simp [Machine.ringOn, h.fwRunning]

theorem ringBypassed : ringBypassed d = true := by simp [Machine.ringBypassed, h.vin]

theorem timerDue (id : TimerId) (n : Nat) : timerDue d id n = false := by
  simp [Machine.timerDue, timerOf, h.timers]

theorem timerOn (id : TimerId) : timerOn d id = false := by simp [Machine.timerOn, timerOf, h.timers]

theorem iport (i : Nat) : iport d i = {} := by simp [Machine.iport, h.i0, h.i1]

theorem eport (e : Nat) : eport d e = {} := by simp [Machine.eport, h.e0, h.e1]

theorem runOf (k : Nat) : runOf d k = {} := by simp [Machine.runOf, h.iport, h.eport]

theorem xingOf (k : Nat) : xingOf d k = {} := by simp [Machine.xingOf, h.iport, h.eport]

theorem evOf (k : Nat) : evOf d k = [] := by simp [Machine.evOf, h.iport, h.eport]

theorem portOpen (k : Nat) : portOpen d k = false := by simp [Machine.portOpen, h.runOf]

theorem drives (e : Nat) : drives d e = false := by
  simp [Machine.drives, h.eport, finishing, headStays]

theorem armed (n : Nat) : (pairOf d n).armed = false := by
  unfold pairOf; split
  · exact h.armed0
  · exact h.armed1

theorem returning (n : Nat) : (pairOf d n).returning = false := by
  unfold pairOf; split
  · exact h.returning0
  · exact h.returning1

theorem queueOf (q : Nat) : queueOf d q = {} := by simp [Machine.queueOf, h.queues, tblGet, tblFind]

theorem slotOf (k : Nat) : slotOf d k = {} := by simp [Machine.slotOf, h.slots, tblGet, tblFind]

theorem stopTimer (id : TimerId) : stopTimer id d = d := by
  calc Machine.stopTimer id d = { d with tb.timers := [] } := by simp [Machine.stopTimer, h.timers]
    _ = d := by rw [← h.timers]

end InOff

/-! ### What a step can change -/

/-- A message that has passed a conducting switch of a through-path or of the cascade ring. -/
def PassesSwitch (m : OutMsg) : Prop :=
  (∃ n en v eop tag, m = .through n en v eop tag) ∨ (∃ n asserted, m = .throughHold n asserted) ∨
    ∃ type src dst seq payload, m = .forward type src dst seq payload

/-- Levels at balls and messages through switches, and nothing else. -/
def BallsOnly (d e : Dev) : Prop :=
  ∃ (perst perstLink clkreq wake b0 b1 : Bool) (beats : List OutMsg), (∀ m ∈ beats, PassesSwitch m) ∧
    e = { d with
      pwr.perst := perst, pwr.perstLink := perstLink, link.clkreq := clkreq, link.wakePin := wake
      ports.p0.ball := b0, ports.p1.ball := b1, out := d.out ++ beats }

/-- The outcome of a command that completes and changes balls only. -/
def StaysOff (s : State) (r : Host.Outcome State Fault Refusal) : Prop :=
  ∃ t : State, r = .next t ∧ BallsOnly s.dev t.dev

theorem ballsOnly_levels (d : Dev) (perst perstLink clkreq wake b0 b1 : Bool) : BallsOnly d { d with
    pwr.perst := perst, pwr.perstLink := perstLink, link.clkreq := clkreq, link.wakePin := wake
    ports.p0.ball := b0, ports.p1.ball := b1 } :=
  ⟨perst, perstLink, clkreq, wake, b0, b1, [], by simp, by simp⟩

theorem BallsOnly.refl (d : Dev) : BallsOnly d d := ballsOnly_levels d ..

theorem ballsOnly_of_eq {d e : Dev} (same : e = d) : BallsOnly d e := same ▸ .refl d

theorem ballsOnly_emit {m : OutMsg} (passes : PassesSwitch m) (d : Dev) : BallsOnly d (emit m d) :=
  ⟨d.pwr.perst, d.pwr.perstLink, d.link.clkreq, d.link.wakePin, d.ports.p0.ball, d.ports.p1.ball, [m],
    by simpa using passes, rfl⟩

/-- The levels at the balls are no part of what OFF says. -/
theorem BallsOnly.off_eq {d e : Dev} (change : BallsOnly d e) : Off e = Off d := by
  obtain ⟨_, _, _, _, _, _, _, _, rfl⟩ := change
  rfl

theorem BallsOnly.govEn_eq {d e : Dev} (change : BallsOnly d e) : e.pwr.govEn = d.pwr.govEn := by
  obtain ⟨_, _, _, _, _, _, _, _, rfl⟩ := change
  rfl

/-- Nor are they any part of what the commands look for. -/
theorem InOff.kept {d e : Dev} (h : InOff d) (change : BallsOnly d e) : InOff e := by
  obtain ⟨_, _, _, _, _, _, _, _, rfl⟩ := change
  cases h
  constructor <;> assumption

theorem act_staysOff {f : Dev → Dev} {s : State} (change : BallsOnly s.dev (f s.dev)) : StaysOff s (act f s) :=
  ⟨_, rfl, change⟩

/-- With the governor off, a command that may change the backlog signal has no further effect (R26). -/
theorem actBacklog_staysOff {f : Dev → Dev} {s : State} (off : s.dev.pwr.govEn = false)
    (change : BallsOnly s.dev (f s.dev)) : StaysOff s (actBacklog f s) := by
  have untracked : govTrack (f s.dev) = f s.dev := by simp [govTrack, change.govEn_eq, off]
  exact act_staysOff (by simpa only [untracked] using change)

theorem act_idle {f : Dev → Dev} {s : State} (same : f s.dev = s.dev) : StaysOff s (act f s) :=
  act_staysOff (ballsOnly_of_eq same)

theorem InOff.actBacklog_idle {f : Dev → Dev} {s : State} (h : InOff s.dev) (same : f s.dev = s.dev) :
    StaysOff s (actBacklog f s) :=
  actBacklog_staysOff h.govEn (ballsOnly_of_eq same)

/-! ### Commands that find nothing to do -/

/-- No admin command is being fetched. -/
theorem InOff.admin {d : Dev} (h : InOff d) (op : Nat) (c : AdmCmd) (buf : Bytes)
    (body : AdmRun → Dev → Dev × Option AdmRes) : admin op c buf body d = d := by
  simp only [Machine.admin, h.fetch]

theorem InOff.admin_staysOff {s : State} (h : InOff s.dev) {op : Nat} {c : AdmCmd} {buf : Bytes}
    {body : AdmRun → Dev → Dev × Option AdmRes} : StaysOff s (act (Machine.admin op c buf body) s) :=
  act_idle (h.admin ..)

/-- The host does not reach the registers. -/
theorem InOff.hostWrite_staysOff {s : State} (h : InOff s.dev) {f : Dev → Dev} :
    StaysOff s (act (fun d => if Machine.hostReach d then f d else d) s) :=
  act_idle (if_neg (Bool.eq_false_iff.mp h.hostReach))

/-- The link is down, so no request reaches the DOE mailbox. -/
theorem InOff.doe_staysOff {s : State} (h : InOff s.dev) {i : Instr} : StaysOff s (act (doeRequest i) s) :=
  act_idle (by simp [doeRequest, h.linkUp])

/-- The TAP takes no scan. -/
theorem InOff.tapScan_staysOff {s : State} (h : InOff s.dev) {f : Dev → Dev} :
    StaysOff s (act (fun d => if Machine.awake d then f d else d) s) :=
  act_idle (if_neg (Bool.eq_false_iff.mp h.awake))

theorem InOff.scanCtrl {d : Dev} (h : InOff d) (autoinc : Bool) (f : Dev → Dev) : scanCtrl autoinc f d = d := by
  simp [Machine.scanCtrl, h.awake]

theorem InOff.writeBar0 {d : Dev} (h : InOff d) (writes : List (Nat × Nat)) : writeBar0 writes d = d :=
  List.foldl_fixed' (fun x => by simp [h.hostReach]) writes

/-- A GO that the part does not take is no reserved operation. -/
theorem InOff.writesReserved {d : Dev} (h : InOff d) (writes : List (Nat × Nat)) :
    writesReserved writes d = false := by
  induction writes with
  | nil => rfl
  | cons x writes ih => simp [Machine.writesReserved, h.hostReach, h.writeBar0, ih]

theorem InOff.registerWrite_staysOff {s : State} (h : InOff s.dev) (off : BitVec 14) (w : HostWrite) :
    StaysOff s (execRegisterWrite off w s) := by
  simp only [execRegisterWrite, h.writesReserved, Bool.false_eq_true, if_false]
  exact act_idle (h.writeBar0 _)

theorem InOff.fuseRead_staysOff {s : State} (h : InOff s.dev) (row : BitVec 8) (mode : BitVec 2) :
    StaysOff s (execFuseRead row mode s) := by
  simp only [execFuseRead, h.hostReach, Bool.false_and, Bool.false_eq_true, if_false]
  exact h.hostWrite_staysOff

theorem InOff.loupeWrite_staysOff {s : State} (h : InOff s.dev) (v : Word) : StaysOff s (execLoupeWrite v s) := by
  simp only [execLoupeWrite, loupeReserved, h.awake, Bool.false_and, Bool.false_eq_true, if_false]
  exact act_idle (by simp [doLoupeWrite, h.awake])

/-- The array takes no disturbance, no SRAM is read and no turnstile makes a round. -/
theorem InOff.turnstileRound {d : Dev} (h : InOff d) (qid : Nat) (upsets : List (Nat × BitVec 74))
    (sram : List SramFlaw) : turnstileRound qid upsets (sram.foldl (fun d f => sramRead f d) d) = d := by
  have unread : sram.foldl (fun d f => sramRead f d) d = d :=
    List.foldl_fixed' (fun f => by simp [sramRead, sramInUse, h.fwRunning, h.fwExec]) sram
  rw [unread]
  simp [Machine.turnstileRound, addUpsets, h.awake, localRound, roundBlocked, remoteRound, h.fwRunning]

/-! ### Balls and switches -/

/-- A unit on the cascade ring passes the switches, which conduct without a supply (R637). -/
theorem InOff.passBy {d : Dev} (h : InOff d) (type src dst seq : Nat) (payload : Bytes) :
    BallsOnly d (passBy type src dst seq payload d) := by
  simpa only [Machine.passBy, h.ringBypassed, if_true]
    using ballsOnly_emit (.inr (.inr ⟨type, src, dst, seq, payload, rfl⟩)) d

theorem InOff.standbyCheck {d : Dev} (h : InOff d) : standbyCheck d = d := by
  simp [Machine.standbyCheck, h.standbyPend]

/-- No unit is taken up: it passes by. -/
theorem InOff.routed {d : Dev} (h : InOff d) (u : FlitHdr) (type : Nat) (payload : Bytes) (reply : Bool)
    (f : Dev → Dev) : BallsOnly d (Machine.standbyCheck (routed u type payload reply f d)) := by
  have passes := h.passBy type u.src.toNat u.dst.toNat u.seq.toNat payload
  simpa [Machine.routed, h.ringOn, (h.kept passes).standbyCheck] using passes

theorem InOff.imgFlit {d : Dev} (h : InOff d) (u : FlitHdr) (chunk : Nat) (data : Bytes) :
    BallsOnly d (imgFlit u chunk data d) := by
  have passes := h.passBy 11 u.src.toNat u.dst.toNat 0 (imgPayload chunk data)
  simpa [Machine.imgFlit, h.ringOn, waitsForImage, (h.kept passes).awake] using passes

theorem InOff.joinFlit {d : Dev} (h : InOff d) (u : FlitHdr) (mask : BitVec 4) (lost : Unread) :
    BallsOnly d (joinFlit u mask lost d) := by
  have passes := h.passBy 12 u.src.toNat u.dst.toNat 0 (natLe 1 mask.toNat)
  simpa [Machine.joinFlit, h.ringOn, (h.kept passes).awake] using passes

theorem InOff.trainFlit {d : Dev} (h : InOff d) : BallsOnly d (trainFlit d) := by
  simpa [Machine.trainFlit, h.ringOn] using h.passBy 0 0 0 0 trainPayload

theorem InOff.beaconFlit {d : Dev} (h : InOff d) (u : FlitHdr) (b : BeaconPl) : BallsOnly d (beaconFlit u b d) := by
  simpa [Machine.beaconFlit, h.ringOn] using h.passBy 3 u.src.toNat u.dst.toNat 0 (beaconBytes b)

/-- What a pair's switches show of a level at one side's balls (R145). -/
theorem ballsOnly_switch {m : OutMsg} (passes : PassesSwitch m) (n : Nat) (d : Dev) :
    BallsOnly d (if switchConducts d n then emit m d else d) := by
  split
  · exact ballsOnly_emit passes d
  · exact .refl d

/-- A port that POR has left as it is captures no beat. -/
theorem InOff.ingressBeat {d : Dev} (h : InOff d) (i : Nat) (en tag eop : Bool) (v : BitVec 16) :
    BallsOnly d (ingressBeat i en tag eop v d) := by
  have passes := ballsOnly_switch (.inl ⟨i, en, v, eop, tag, rfl⟩) i d
  have after := h.kept passes
  simpa [Machine.ingressBeat, after.stopTimer, after.armed, watchReturn, after.returning, after.portOpen, edgeSeen,
    after.timerOn] using passes

/-- It drives none either. -/
theorem InOff.egressPush {d : Dev} (h : InOff d) (e : Nat) (hold : Bool) : BallsOnly d (egressPush e hold d) := by
  have passes := ballsOnly_switch (.inr (.inl ⟨e, hold, rfl⟩)) e d
  simpa [Machine.egressPush, (h.kept passes).drives] using passes

theorem ballsOnly_tpEn (n : Nat) (level : Bool) (d : Dev) :
    BallsOnly d (putPair n { pairOf d n with ball := level } d) := by
  unfold putPair pairOf
  split
  · exact ballsOnly_levels d _ _ _ _ level _
  · exact ballsOnly_levels d _ _ _ _ _ level

/-- The edges of PERST# move its level, and with it CLKREQ# and WAKE#, alone. -/
theorem InOff.perstAssert {d : Dev} (h : InOff d) : BallsOnly d (perstAssert d) := by
  unfold Machine.perstAssert
  split
  · exact .refl d
  · rw [if_pos (by simp [Machine.awake, h.vin])]
    exact ballsOnly_levels d true _ false ..

theorem InOff.perstDeassert {d : Dev} (h : InOff d) : BallsOnly d (perstDeassert d) := by
  unfold Machine.perstDeassert
  split
  · exact .refl d
  · rw [if_pos (by simp [h.vin])]
    exact ballsOnly_levels d false false _ false ..

/-! ### A command in OFF -/

/-- Each command but POR completes there: it meets one of a few reasons to do nothing, or touches balls and switches
only. -/
theorem exec_staysOff {s : State} (h : InOff s.dev) (c : Instr)
    (notPor : ∀ n t0 t1 c0 c1, c ≠ .por n t0 t1 c0 c1) : StaysOff s (exec c s) := by
  unfold exec
  cases c with
  | por => exact (notPor _ _ _ _ _ rfl).elim
  -- no admin command is being fetched
  | ringCreate | ringDelete | stageQueues | stagePorts | stageBindings | epochCheck | epochCommit | epochDiscard
  | queueFlush | queueDropPacket | queueMark | queueRetransmit | queueReadCounters | portUnpark | powerRequestActive
  | powerRequestListen | powerRequestStandby | keyLoad | keyErase | keyStatus | wearReport | scrubReport | remapReport
  | peerStatus | peerFirmware | logRead => exact h.admin_staysOff
  | sealCmd => exact h.actBacklog_idle (h.admin ..)
  | invalidOpcode | relayedAdminCommand => exact act_idle (by simp [invalidOpcode, relayedCommand, h.admin])
  -- the host does not reach the registers
  | hifMirrorEnWrite | adminEnable | adminDisable | pwrSoftReset | pwrPaceWrite | pwrGovEnWrite | pwrPaceRangeWrite
  | pwrGovWindowWrite | tbNowCapture | bootLoadChunk | bootStart | bootRestart | bar2Write | fuseBurn | fuseRedirect
  | otpLockWrite | shadowOverrideWrite | rcFieldRead | errCapPop | errFirstClr | tierSpillBurstWrite
  | casEnable => exact h.hostWrite_staysOff
  | eccTestWrite | eccTestProgram | eccTestRead => exact act_idle (by simp [eccCommand, h.hostReach])
  | fuseRead row mode => exact h.fuseRead_staysOff row mode
  | registerWrite off w => exact h.registerWrite_staysOff off w
  -- the link is down
  | getVersion | getCapabilities | negotiateAlgorithms | getDigests | getCertificate | challenge | getMeasurements
  | doeDiscovery | spdmUnsupportedRequest => exact h.doe_staysOff
  | unsupportedRequest | poisonedTlpReceived | receiverErrorCmd => exact act_idle (by simp [onLink, h.linkUp])
  | dmaReadCompletion | hostInterfaceReset | l1EntryRequest | l12Entry | l12Exit =>
    exact act_idle (by simp [readCompletion, hostInterfaceReset, l1Entry, l12Entry, l12Exit, h.linkUp])
  | linkUp => exact act_idle (by simp [linkUp, h.training])
  | configSpaceWrite | busMasterChange => exact act_idle (by simp [busMaster, h.cfgReach])
  | msixUnmask u => exact act_idle (by cases u <;> simp [msixUnmask, h.hostReach, h.cfgReach])
  -- VIN is away
  | slowclkPresent | slowclkLost | kick | vinLoss =>
    exact act_idle (by simp [slowclkPresent, slowclkLost, kick, h.vin])
  | tickOscRestarted | weaveLaneStall => exact act_idle (by simp [tickOscRestarted, laneStall, h.awake])
  | beatVisible => exact h.actBacklog_idle (by simp [beatVisible, h.awake])
  | clamp | highz | samplePreload | idcode | bypass | tapReset => exact h.tapScan_staysOff
  | extest | loupeAddr | loupeRead | shuttleHalt | unlockChal | unlockResp =>
    exact act_idle (by simp [doExtest, doLoupeAddr, doLoupeRead, shuttleHalts, doUnlockChal, doUnlockResp, h.awake])
  | loupeWrite v => exact h.loupeWrite_staysOff v
  | haltReq | stepCmd => exact act_idle (h.scanCtrl ..)
  | resume => exact h.actBacklog_idle (h.scanCtrl ..)
  | flitCrcFail => exact act_idle (by simp [crcFail, h.ringOn, h.awake])
  -- no timer runs
  | adminTimeout | sweepTimerExpiry | drainWaitExpiry | journalTimerExpiry | govUpWindowExpiry | govDownWindowExpiry
  | beaconTimer | relayPassWaitExpiry | relayBeaconWaitExpiry | mirrorHoldExpiry =>
    exact act_idle (by
      simp [adminTimeout, sweepTimer, drainWaitExpiry, journalTimer, govUpExpiry, govDownExpiry, beaconTimer,
        relayPassWait, relayBeaconWait, mirrorHold, h.timerDue])
  | retryTimeout | beaconTimeout | holeTimeout | portClockStall =>
    exact h.actBacklog_idle (by simp [retryTimeout, beaconTimeout, holeTimeout, portStall, h.timerDue])
  -- firmware does not run
  | deepProgramStart | deepReadComplete | scrubDeepGroup =>
    exact h.actBacklog_idle (by simp [programStart, deepRead, scrubDeep, groupDue, h.fwExec])
  | scrubNearGroup => exact act_idle (by simp [scrubNear, addUpsets, groupDue, h.awake, h.fwExec])
  | ackTimerExpiry => exact act_idle (by simp [ackTimer, h.ringOn])
  | turnstileRound => exact h.actBacklog_idle (h.turnstileRound ..)
  -- nothing is under way that could end
  | commitInstant | deepProgramVerified =>
    exact h.actBacklog_idle (by simp [commitInstant, programVerified, h.fence, h.active])
  | keyInstallPending | keyEraseEffect | paceStepSettled | chunkCopyDone | imageVerified | fuseOpDone | eccTestDone
  | sweep | completionTimeout =>
    exact act_idle (by
      simp [settleKey, h.slotOf, eraseInstant, h.eraseFence, paceSettled, h.stepTo, copyDone, h.bootBusy,
        imageVerified, h.status, fuseDone, h.fuseBusy, eccDone, h.eccBusy, sweepBlock, h.sweeping, completionTimeout,
        readOf, h.reads])
  -- there are no rings
  | fillDescriptorFetch | descTimeout | drainDescriptorFetch | drainGrant | drainTransferEnd | completionIrqTimer =>
    exact act_idle (by
      simp [fillFetch, descTimeout, drainFetch, drainGrant, drainEnd, irqTimer, h.fills, h.drains, h.comps, tblFind])
  -- the ports are closed, with nothing stored, and no pair is handed over
  | flushPulse | rtPulse | mrkPulse | dropPulse | valueCrossingAccept =>
    exact act_idle (by simp [flushPulse, outPulse, valueAccept, h.portOpen])
  | eventCrossingLatch | eventCrossingFree =>
    exact act_idle (by simp [crossingLatch, crossingFree, h.xingOf])
  | egressRead => exact act_idle (by simp [egressRead, h.drives])
  | portEventEffect | portReopen =>
    exact h.actBacklog_idle (by simp [portEventEffect, portReopen, h.evOf, h.runOf])
  | handover | handoverForced | switchReturn =>
    exact act_idle (by simp [forceHandOver, h.armed, h.returning])
  -- balls and switches
  | tpEnChange => exact act_staysOff (ballsOnly_tpEn ..)
  | perstAssert => exact act_staysOff h.perstAssert
  | perstDeassert => exact act_staysOff h.perstDeassert
  | ingressBeat => exact actBacklog_staysOff h.govEn (h.ingressBeat ..)
  | egressPushBeat => exact act_staysOff (h.egressPush ..)
  | train => exact act_staysOff h.trainFlit
  | beacon => exact actBacklog_staysOff h.govEn (h.beaconFlit ..)
  | img => exact act_staysOff (h.imgFlit ..)
  | join => exact act_staysOff (h.joinFlit ..)
  | push | popRsp | readReq | reclaim | rsp => exact act_staysOff (h.routed ..)
  | ack | nak | popReq | loanReq | loanGrant | loanRefuse | segWrite | verifyOk | verifyFail | readRsp | segRelease
  | loanList | listEnd | cmd => exact actBacklog_staysOff h.govEn (h.routed ..)

/-- In OFF a step that does not run POR changes balls only. -/
theorem step_ballsOnly {s t : State} (off : Off s.dev = true) (next : step s = .next t)
    (notPor : ∀ n t0 t1 c0 c1 rest, s.pending ≠ .por n t0 t1 c0 c1 :: rest) : BallsOnly s.dev t.dev := by
  have h := inOff_of_off off
  unfold step at next
  split at next
  case h_1 =>
    cases next
    exact ballsOnly_of_eq (by simp [idleTick, h.vin])
  case h_2 c rest front =>
    have notNow n t0 t1 c0 c1 : c ≠ .por n t0 t1 c0 c1 := fun isPor => notPor n t0 t1 c0 c1 rest (isPor ▸ front)
    obtain ⟨u, ends, change⟩ := exec_staysOff (s := { s with pending := rest }) h c notNow
    cases ends.symm.trans next
    exact change

/-! ### Into OFF -/

theorem foldl_markBit_frame (row : Nat) (bits : List (Nat × BurnOutcome)) (d : Dev) :
    bits.foldl (fun d x => markBit row x d) d =
      { d with fuse := (bits.foldl (fun d x => markBit row x d) d).fuse } := by
  induction bits generalizing d with
  | nil => rfl
  | cons x bits ih => exact ih (markBit row x d)

/-- An interrupted fuse operation leaves its mark on the fuses, and takes a free value for how far it came (R514). -/
theorem cutFuse_frame (record : Bool) (d : Dev) :
    cutFuse record d = { d with fuse := (cutFuse record d).fuse, free := (cutFuse record d).free } := by
  unfold cutFuse
  split
  · dsimp only
    rw [foldl_markBit_frame]
    split <;> rfl
  · rfl

/-- At POR the node keeps its number alone of the ring: no peer is left. -/
theorem resetCas_por (c : Cas) : resetCas .por c = { node := c.node } := by
  have noPeers : ((c.peers.map fun e => (e.1, resetPeer .por e.2)).filter fun e => e.2 ≠ {}) = [] := by
    simp only [List.filter_eq_nil_iff, List.mem_map]
    rintro _ ⟨e, -, rfl⟩
    simp [resetPeer]
  simp only [resetCas, noPeers]

/-- Losing VIN leads into OFF, from any state. -/
theorem off_loseVin (d : Dev) : Off (loseVin d) = true := by
  simp [loseVin, deviceReset, Off, resetPwr, resetTime, resetRegs, resetHostLink, resetLink, resetTier, resetFuse,
    resetJtag, resetCas_por, resetPair, portsCold]

/-- What is stored for good stays, and so does what has been put out; volatile keys and queues go. -/
theorem loseVin_keeps (d : Dev) :
    (loseVin d).tier.deep = d.tier.deep ∧ (loseVin d).tier.cells = d.tier.cells ∧
    (loseVin d).tier.wear = d.tier.wear ∧ (loseVin d).tier.image = d.tier.image ∧
    (loseVin d).keys.recA = d.keys.recA ∧ (loseVin d).keys.recB = d.keys.recB ∧
    (loseVin d).keys.slots = [] ∧ (loseVin d).queues = [] ∧ (loseVin d).out = d.out := by
  unfold loseVin deviceReset
  rw [cutFuse_frame]
  exact ⟨rfl, rfl, rfl, rfl, rfl, rfl, rfl, rfl, rfl⟩

theorem exec_vinLoss {s : State} (vin : s.dev.pwr.vin = true) :
    exec .vinLoss s = .next { s with dev := loseVin s.dev } := by
  simp [exec, execVinLoss, vin]

/-! ### Out of OFF -/

/-- A change of BOOT_STATUS touches the boot and the host side alone (R475). -/
theorem setBoot_frame (b : BootStatus) (d : Dev) : HostOnly { d with boot.status := b } (setBoot b d) := by
  have told (changed : Prop) [Decidable changed] (e : Dev) : HostOnly e (if changed then msix 0 e else e) := by
    split
    · exact hostOnly_msix 0 e
    · rfl
  cases b with
  | powerUp | hold | bist => rfl
  | rom | waitImage | loading | verifying | fwStarting | fwRunning | failed => exact told _ _

@[simp] theorem setBoot_pwr (b : BootStatus) (d : Dev) : (setBoot b d).pwr = d.pwr := by
  rw [setBoot_frame b d]

@[simp] theorem setBoot_spdm (b : BootStatus) (d : Dev) : (setBoot b d).spdm = d.spdm := by
  rw [setBoot_frame b d]

@[simp] theorem takeSsid_pwr (d : Dev) : (takeSsid d).pwr = d.pwr := by
  unfold takeSsid
  extract_lets
  split <;> rfl

@[simp] theorem takeSsid_spdm (d : Dev) : (takeSsid d).spdm = d.spdm := by
  unfold takeSsid
  extract_lets
  split <;> rfl

/-- With no request held in the DOE mailbox, nothing is answered when BAR2 opens. -/
theorem openBar2_pwr {d : Dev} (noRequest : d.spdm.held = none) : (openBar2 d).pwr = d.pwr := by
  have unheld : (setBoot .waitImage { d with boot.buf := [] }).spdm.held = none := by rw [setBoot_spdm]; exact noRequest
  simp only [openBar2, flushDoe, unheld]
  exact setBoot_pwr ..

/-- Then the boot leaves the supply as it finds it, whatever becomes of the cores. -/
theorem bootCores_pwr {d : Dev} (noRequest : d.spdm.held = none) : (bootCores d).pwr = d.pwr := by
  have start : (setBoot .bist d).pwr = d.pwr := setBoot_pwr ..
  unfold bootCores
  extract_lets bist _ _ _ patched _ rom
  split
  · exact (setBoot_pwr ..).trans start
  · have atRom : rom.pwr = d.pwr := (setBoot_pwr ..).trans start
    have unheld : rom.spdm.held = none :=
      (congrArg Spdm.held (setBoot_spdm .rom _)).trans ((congrArg Spdm.held (setBoot_spdm .bist d)).trans noRequest)
    split
    · exact (openBar2_pwr unheld).trans atRom
    · exact atRom

theorem bootFull_pwr {d : Dev} (noRequest : d.spdm.held = none) : (bootFull d).pwr = d.pwr := by
  unfold bootFull
  have sensed := takeSsid_pwr (bootSense (sampleStraps { d with link.clkreq := !d.pwr.perst }))
  have emptied := takeSsid_spdm (bootSense (sampleStraps { d with link.clkreq := !d.pwr.perst }))
  unfold bootOn
  split
  · exact (setBoot_pwr ..).trans sensed
  · exact (bootCores_pwr ((congrArg Spdm.held emptied).trans noRequest)).trans sensed

/-- POR finds VIN above its threshold and an empty mailbox. -/
theorem coldBoot_vin (node : BitVec 2) (t0 t1 c0 c1 : Bool) (d : Dev) :
    (coldBoot node t0 t1 c0 c1 d).pwr.vin = true :=
  congrArg Pwr.vin (bootFull_pwr rfl)

theorem off_of_vin {d : Dev} (vin : d.pwr.vin = true) : Off d = false := by simp [Off, vin]

/-- Settles O21: VIN loss resets to OFF; there each command but POR finds its reason to do nothing, but for levels
and passing beats; POR brings VIN back. -/
theorem offIsLeftOnlyByPor : Obligations.OffIsLeftOnlyByPor := by
  refine ⟨fun s vin => ?_, fun s t off next notPor => ?_, fun s n t0 t1 c0 c1 => ?_⟩
  · exact ⟨_, exec_vinLoss vin, rfl, off_loseVin s.dev, loseVin_keeps s.dev⟩
  · have change := step_ballsOnly off next notPor
    exact ⟨change.off_eq.trans off, change⟩
  · exact ⟨_, rfl, rfl, off_of_vin (coldBoot_vin ..)⟩

end Sys2Proof.Machine
end

section
/-!
Fuse operations: what a GO starts (R506), and how a READ (R507, R508) and a REDIRECT (R516, R517) end.
-/

namespace Sys2Proof.Machine

/-- A command that acts on the device alone completes with what it makes of the device. -/
theorem completes_of_exec_eq_act {c : Instr} {f : Dev → Dev} {s : State} {P : Dev → Prop}
    (runs : exec c s = act f s) (holds : P (f s.dev)) : Completes c s P :=
  ⟨_, runs, rfl, holds⟩

/-! ### GO -/

/-- A GO that gives its fields as the register holds them stores them as they are. -/
theorem fuseCtl_toNat (op : Nat) (mode : BitVec 2) (word : BitVec 3) (row : BitVec 8) (d : Dev) :
    fuseCtl op mode.toNat word.toNat row.toNat d =
      { d with fuse.op := BitVec.ofNat 2 op, fuse.mode := mode, fuse.word := word, fuse.row := row } := by
  simp [fuseCtl]

/-- The fields of a GO do not decide whether it is taken. -/
@[simp] theorem fuseReady_fuseCtl (op mode word row : Nat) (d : Dev) :
    fuseReady (fuseCtl op mode word row d) = fuseReady d := rfl

/-- A READ or REDIRECT that is taken is under way. -/
theorem fuseGo_run {op : Nat} {mode : BitVec 2} {word : BitVec 3} {row : BitVec 8} {d : Dev}
    (ready : fuseReady d = true) (noBurn : op ≠ 1) :
    fuseGo op mode.toNat word.toNat row.toNat [] d = { d with
      fuse.op := BitVec.ofNat 2 op, fuse.mode := mode, fuse.word := word, fuse.row := row
      fuse.busy := true, fuse.run := some (BitVec.ofNat 2 op, mode, row) } := by
  calc fuseGo op mode.toNat word.toNat row.toNat [] d
      = { fuseCtl op mode.toNat word.toNat row.toNat d with
          fuse.busy := true, fuse.run := some (BitVec.ofNat 2 op, mode, row) } := by simp [fuseGo, ready, noBurn]
    _ = _ := by rw [fuseCtl_toNat]

/-- So is a BURN, with what becomes of its bits. -/
theorem fuseGo_burn {mode : BitVec 2} {word : BitVec 3} {row : BitVec 8} {outcomes : List BurnOutcome} {d : Dev}
    (ready : fuseReady d = true) :
    fuseGo 1 mode.toNat word.toNat row.toNat outcomes d = burnStart row.toNat word.toNat outcomes { d with
      fuse.op := 1, fuse.mode := mode, fuse.word := word, fuse.row := row } := by
  calc fuseGo 1 mode.toNat word.toNat row.toNat outcomes d
      = burnStart row.toNat word.toNat outcomes (fuseCtl 1 mode.toNat word.toNat row.toNat d) := by
        simp [fuseGo, ready]
    _ = _ := congrArg (burnStart row.toNat word.toNat outcomes) (fuseCtl_toNat ..)

/-- The start of a BURN touches BUSY and the burn under way alone. -/
theorem burnStart_frame (row word : Nat) (outcomes : List BurnOutcome) (d : Dev) :
    burnStart row word outcomes d =
      { d with fuse.busy := true, fuse.burn := (burnStart row word outcomes d).fuse.burn } := rfl

/-- The burn under way is of the row and word named; in a locked region it pulses nothing (R500). -/
theorem burnStart_burn (row word : Nat) (outcomes : List BurnOutcome) (d : Dev) :
    ∃ b, (burnStart row word outcomes d).fuse.burn = some b ∧ b.row = row ∧ b.word = word ∧
      (rowLocked d row = true → b.code = 0x88 ∧ b.steps = []) := by
  refine ⟨_, rfl, ?_⟩
  split
  case isTrue refused => exact ⟨rfl, rfl, fun _ => ⟨rfl, rfl⟩⟩
  case isFalse pulses => exact ⟨rfl, rfl, fun locked => absurd (by simp [burnRefused, locked]) pulses⟩

section Go

variable {s : State} {P : Dev → Prop} (reach : hostReach s.dev = true) (ready : fuseReady s.dev = true)
include reach ready

/-- A FUSE_READ of a mode that the spec knows (R614) completes with the operation under way. -/
theorem completes_fuseRead {row : BitVec 8} {mode : BitVec 2} (known : mode ≠ 3)
    (holds : P { s.dev with
      fuse.op := 0, fuse.mode := mode, fuse.row := row, fuse.busy := true, fuse.run := some (0, mode, row) }) :
    Completes (.fuseRead row mode) s P := by
  refine completes_of_exec_eq_act (c := .fuseRead row mode)
    (if_neg (by simp only [known, decide_false, Bool.and_false, Bool.false_eq_true, not_false_eq_true])) ?_
  rw [if_pos reach, fuseGo_run ready (by decide)]
  exact holds

theorem completes_fuseRedirect {row : BitVec 8}
    (holds : P { s.dev with
      fuse.op := 2, fuse.row := row, fuse.busy := true, fuse.run := some (2, s.dev.fuse.mode, row) }) :
    Completes (.fuseRedirect row) s P := by
  refine completes_of_exec_eq_act (c := .fuseRedirect row) rfl ?_
  rw [if_pos reach, fuseGo_run ready (by decide)]
  exact holds

theorem completes_fuseBurn {row : BitVec 8} {word : BitVec 3} {outcomes : List BurnOutcome}
    (holds : P (burnStart row.toNat word.toNat outcomes { s.dev with
      fuse.op := 1, fuse.word := word, fuse.row := row })) :
    Completes (.fuseBurn row word outcomes) s P := by
  refine completes_of_exec_eq_act (c := .fuseBurn row word outcomes) rfl ?_
  rw [if_pos reach, fuseGo_burn ready]
  exact holds

end Go

/-! ### The end of a READ -/

/-- A fully burned bit reads 1 in NORMAL mode, whatever the weak bits read as (R508). -/
theorem rowHi_and_not_rowWith (d : Dev) (r : Nat) (f : BitVec 256) : rowHi d r &&& ~~~ rowWith d r f = 0 := by
  unfold rowWith
  split
  case isTrue noWeak => exact BitVec.and_not_self _
  case isFalse weak =>
    ext i hi
    simp +contextual

/-- A bit without any burn reads 0 in NORMAL mode, where every fully burned bit holds a burn (R508). -/
theorem rowWith_and_not_rowLo {d : Dev} {r : Nat} (f : BitVec 256) (holdsBurn : rowHi d r &&& ~~~ rowLo d r = 0) :
    rowWith d r f &&& ~~~ rowLo d r = 0 := by
  unfold rowWith
  split
  case isTrue noWeak => exact holdsBurn
  case isFalse weak =>
    calc (rowHi d r ||| rowLo d r &&& f) &&& ~~~ rowLo d r
        = rowHi d r &&& ~~~ rowLo d r ||| rowLo d r &&& f &&& ~~~ rowLo d r := by
          ext i hi; simp [Bool.and_or_distrib_right]
      _ = rowLo d r &&& f &&& ~~~ rowLo d r := by simp [holdsBurn]
      _ = 0 := by ext i hi; simp +contextual

/-- Rows 16 to 23 read as 0 (R507). -/
theorem readEnd_secret (mode : BitVec 2) {row : BitVec 8} (d : Dev) (low : 16 ≤ row.toNat) (high : row.toNat ≤ 23) :
    readEnd mode row d = fuseResult 0x88 { d with fuse.data := 0 } := by
  simp [readEnd, low, high]

/-- Every other row reads as its mode shows it (R508). -/
theorem readEnd_open (mode : BitVec 2) {row : BitVec 8} (d : Dev) (opens : row.toNat < 16 ∨ 23 < row.toNat) :
    readEnd mode row d = fuseResult 0 { d with
      fuse.data := if mode = 1 then rowLo d row.toNat else if mode = 2 then rowHi d row.toNat else burnedRow d row.toNat
      free := d.free + 1 } :=
  if_neg (by simp; omega)

/-! ### The end of a REDIRECT -/

theorem redirectEnd_locked {row : BitVec 8} {d : Dev} (locked : rowLocked d row.toNat = true) :
    redirectEnd row d = fuseResult 0x88 d :=
  if_pos locked

/-- When no spare is free, the array stays. -/
theorem redirectEnd_noSpare {row : BitVec 8} {d : Dev} (unlocked : rowLocked d row.toNat = false)
    (used : ∀ j < 8, (redirOf d j).valid = true) : redirectEnd row d = fuseResult 0x8B d := by
  have noneFree : ((List.range 8).find? fun j => !(redirOf d j).valid) = none := by simpa using used
  simp [redirectEnd, unlocked, noneFree]

/-- The lowest free spare takes the row, in all three copies of its entry. -/
theorem redirectEnd_lowest {row : BitVec 8} {d : Dev} {k : Nat} (unlocked : rowLocked d row.toNat = false)
    (isSpare : k < 8) (free : (redirOf d k).valid = false) (below : ∀ j < k, (redirOf d j).valid = true) :
    let entry : Redir := { row, valid := true }
    redirectEnd row d = fuseResult 0 { d with fuse.redir := tblPut d.fuse.redir k (entry, entry, entry) } := by
  have lowest : ((List.range 8).find? fun j => !(redirOf d j).valid) = some k := by
    simpa [List.find?_range_eq_some, isSpare, free] using below
  simp [redirectEnd, unlocked, lowest]

/-- Three copies that agree are sensed as what they hold. -/
theorem redirOf_put_same {d e : Dev} {k : Nat} {x : Redir}
    (put : e.fuse.redir = tblPut d.fuse.redir k (x, x, x)) : redirOf e k = x := by
  simp [redirOf, put, tblGet, tblFind_put_same, majBits, maj]

/-- Every other entry is sensed as before. -/
theorem redirOf_put_other {d e : Dev} {j k : Nat} {x : Redir × Redir × Redir}
    (put : e.fuse.redir = tblPut d.fuse.redir k x) (other : j ≠ k) : redirOf e j = redirOf d j := by
  simp [redirOf, put, tblGet, tblFind_put_other _ _ other]

/-! ### FUSE_OP_DONE -/

section Done

variable {s : State} {mode : BitVec 2} {row : BitVec 8} {P : Dev → Prop}
  (busy : s.dev.fuse.busy = true) (powered : s.dev.pwr.standby = false) (noBurn : s.dev.fuse.burn = none)
  (runs : fwExec s.dev = true)
include busy powered noBurn runs

/-- A READ under way ends. -/
theorem completes_fuseOpDone_read (reading : s.dev.fuse.run = some (0, mode, row))
    (holds : P (readEnd mode row { s.dev with fuse.run := none })) : Completes .fuseOpDone s P := by
  refine completes_of_exec_eq_act (f := fuseDone) rfl ?_
  simpa [fuseDone, busy, powered, noBurn, runs, reading] using holds

/-- A REDIRECT under way ends. -/
theorem completes_fuseOpDone_redirect (redirecting : s.dev.fuse.run = some (2, mode, row))
    (holds : P (redirectEnd row { s.dev with fuse.run := none })) : Completes .fuseOpDone s P := by
  refine completes_of_exec_eq_act (f := fuseDone) rfl ?_
  simpa [fuseDone, busy, powered, noBurn, runs, redirecting] using holds

end Done

/-- Settles O27: a GO that is taken stores its fields and starts; an operation under way ends as the row it names, its
lock and the spares allow. -/
theorem fuseOperationsStartAndEnd : Obligations.FuseOperationsStartAndEnd := by
  refine ⟨fun s reach ready =>
      ⟨fun row mode known => ?read, fun row word outcomes => ?burn, fun row => ?redirect⟩,
    fun s busy powered noBurn runs => ⟨fun mode row reading opens => ?readOpen,
      fun mode row reading low high => ?readSecret,
      fun mode row k redirecting unlocked isSpare free below => ?takeSpare,
      fun mode row redirecting => ⟨fun locked => ?rowLocked, fun unlocked used => ?noSpare⟩⟩⟩
  case read => exact completes_fuseRead reach ready known rfl
  case burn => exact completes_fuseBurn reach ready ⟨rfl, burnStart_burn .., burnStart_frame ..⟩
  case redirect => exact completes_fuseRedirect reach ready rfl
  case readOpen =>
    apply completes_fuseOpDone_read busy powered noBurn runs reading
    rw [readEnd_open mode _ opens]
    refine ⟨rfl, rfl, fun lo => ?_, fun hi => ?_, fun normal holdsBurn => ?_, rfl⟩
    · exact if_pos lo
    · subst hi; rfl
    · subst normal
      exact ⟨rowWith_and_not_rowLo _ holdsBurn, rowHi_and_not_rowWith ..⟩
  case readSecret =>
    apply completes_fuseOpDone_read busy powered noBurn runs reading
    rw [readEnd_secret mode _ low high]
    exact ⟨rfl, rfl, rfl⟩
  case takeSpare =>
    apply completes_fuseOpDone_redirect busy powered noBurn runs redirecting
    rw [redirectEnd_lowest (d := { s.dev with fuse.run := none }) unlocked isSpare free below]
    exact ⟨rfl, rfl, redirOf_put_same rfl, fun j other => redirOf_put_other rfl other⟩
  case rowLocked =>
    apply completes_fuseOpDone_redirect busy powered noBurn runs redirecting
    rw [redirectEnd_locked (d := { s.dev with fuse.run := none }) locked]
    exact ⟨rfl, rfl, rfl⟩
  case noSpare =>
    apply completes_fuseOpDone_redirect busy powered noBurn runs redirecting
    rw [redirectEnd_noSpare (d := { s.dev with fuse.run := none }) unlocked used]
    exact ⟨rfl, rfl, rfl⟩

end Sys2Proof.Machine
end

section
/-!
The enabling write of HIF_ADM_EN as activity: it can stop the sweep timer at once (R240, R242), and then an LTR message
leaves (R208).
-/

namespace Sys2Proof.Machine

/-! ### Activity that stops the sweep timer -/

/-- While LTR is enabled and the link is up in L0, the message leaves at once (R208). -/
theorem sendLtr_out {us : Nat} {d : Dev} (ltr : d.link.ltrEn = true) (up : d.link.up = true)
    (released : d.pwr.perst = false) (l0 : d.link.lstate = .l0) : (sendLtr us d).out = d.out ++ [ltrMsg us] := by
  simp [sendLtr, emitHost, mayLeave, ltrMsg, ltr, up, released, l0]

/-- When HIF_SWEEP_IDLE_STOP is not above HIF_SWEEP_FAST, the first timed sweep after an activity would fall at the stop
or after it: the timer stops at the activity itself (R242), and HIF_LTR_IDLE is reported (R208). -/
theorem activity_out_of_idleStop {d : Dev} (stops : d.regs.sweepIdle ≠ 0) (early : d.regs.sweepIdle ≤ d.regs.sweepFast)
    (noStall : someStall d = false) (ltr : d.link.ltrEn = true) (up : d.link.up = true)
    (released : d.pwr.perst = false) (l0 : d.link.lstate = .l0) :
    (activity d).out = d.out ++ [ltrMsg d.regs.ltrIdle] := by
  unfold activity armSweep
  extract_lets _ since
  have due : d.regs.sweepIdle * 512 ≤ since + d.regs.sweepFast * 512 :=
    (Nat.mul_le_mul_right 512 early).trans (Nat.le_add_left _ since)
  rw [if_pos ⟨stops, due, congrArg not noStall⟩]
  exact sendLtr_out ltr up released l0

@[simp] theorem activity_regs (d : Dev) : (activity d).regs = d.regs := by
  rw [hostOnly_activity d]

/-! ### The enabling write -/

/-- What an enabling write takes over when both sizes are in range (R227). -/
def admLatched (d : Dev) : Dev :=
  { d with
    adm.en := true, adm.halted := false, adm.cfgErr := false
    adm.sqBase := pageOf d.regs.sqBase, adm.cqBase := pageOf d.regs.cqBase
    adm.sqLog2 := d.regs.sqLog2, adm.cqLog2 := d.regs.cqLog2, adm.gen := d.regs.admGen
    adm.dbBase := pageOf d.regs.dbBase, adm.mirrorBase := pageOf d.regs.mirrorBase
    adm.tail := 0, adm.head := 0, adm.fetched := 0, adm.written := 0, adm.phase := true }

theorem mirrorFull_off {d : Dev} (off : d.regs.mirrorEn = false) : mirrorFull d = d := by
  simp [mirrorFull, off]

/-- While firmware runs with the mirror off, the write latches the pair and is activity (R227, R240). -/
theorem adminEnable_mirrorOff {d : Dev} (off : d.adm.en = false) (sq : 4 ≤ d.regs.sqLog2 ∧ d.regs.sqLog2 ≤ 16)
    (cq : 4 ≤ d.regs.cqLog2 ∧ d.regs.cqLog2 ≤ 16) (noMirror : d.regs.mirrorEn = false) (runs : fwRunning d = true) :
    adminEnable d = activity (admLatched d) := by
  have inRange : ¬ (d.regs.sqLog2 < 4 || 16 < d.regs.sqLog2 || d.regs.cqLog2 < 4 || 16 < d.regs.cqLog2) = true := by
    simp only [Bool.or_eq_true, decide_eq_true_eq]
    omega
  calc adminEnable d
      = mirrorFull (if fwRunning (admLatched d) then activity (admLatched d) else admLatched d) := by
        rw [adminEnable, if_neg (by simp [off]), if_neg inRange]
        rfl
    _ = mirrorFull (activity (admLatched d)) := congrArg mirrorFull (if_pos runs)
    _ = activity (admLatched d) := mirrorFull_off ((congrArg Regs.mirrorEn (activity_regs _)).trans noMirror)

theorem exec_adminEnable {s : State} (reach : hostReach s.dev = true) :
    exec .adminEnable s = .next { s with dev := adminEnable s.dev } := by
  simp [exec, execAdminEnable, reach]

/-! ### The counterexample -/

/-- A driver that has set HIF_SWEEP_IDLE_STOP to the 2 ticks of HIF_SWEEP_FAST, and ring sizes of 2^4, before it enables
the admin pair; firmware runs, and the link is up in L0 with LTR enabled. -/
def enablingWithShortIdleStop : State :=
  { dev := { Dev.reset with
      pwr.perst := false, boot.status := .fwRunning, link.up := true, link.bme := true, link.ltrEn := true
      regs.sqLog2 := 4, regs.cqLog2 := 4, regs.sweepIdle := 2 }
    pending := [] }

/-- There the enabling write puts out an LTR message of 50 ms, the default of HIF_LTR_IDLE. -/
theorem adminEnable_shortIdleStop_out : (adminEnable enablingWithShortIdleStop.dev).out = [ltrMsg 50000] := by
  rw [adminEnable_mirrorOff rfl (by decide) (by decide) rfl rfl]
  exact activity_out_of_idleStop (by decide) (by decide) rfl rfl rfl rfl rfl

/-- Refutes O18: with the mirror off, the first clause lets an enabling write change the admin pair, the time base and
the sweep engine alone. As activity it can stop the sweep timer at once (HIF_SWEEP_IDLE_STOP = HIF_SWEEP_FAST = 2), and
then it puts out an LTR message. -/
theorem not_adminAndMirrorEnables : ¬ Obligations.AdminAndMirrorEnables := by
  rintro ⟨enables, -⟩
  have reach : hostReach enablingWithShortIdleStop.dev = true := by decide
  obtain ⟨t, runs, -, -, frame⟩ :=
    enables enablingWithShortIdleStop reach rfl (by decide) (by decide) (by decide) (by decide)
  cases (exec_adminEnable reach).symm.trans runs
  have silent : (adminEnable enablingWithShortIdleStop.dev).out = [] := congrArg Dev.out (frame rfl)
  exact absurd (adminEnable_shortIdleStop_out.symm.trans silent) (List.cons_ne_nil _ _)

end Sys2Proof.Machine
end

section
/-!
The queue of commands: a step runs its front, an empty one moves the time base, and every command completes or names a
reserved operation. The registers after POR.
-/

namespace Sys2Proof.Machine

/-! ### One step -/

theorem step_cons {s : State} {c : Instr} {rest : List Instr} (front : s.pending = c :: rest) :
    step s = exec c { s with pending := rest } := by
  unfold step
  rw [front]

theorem step_nil {s : State} (empty : s.pending = []) : step s = .next { s with dev := idleTick s.dev } := by
  unfold step
  rw [empty]

/-- Settles O1. -/
theorem stepRunsTheFrontCommand : Obligations.StepRunsTheFrontCommand :=
  fun _ _ _ front => step_cons front

/-! ### The move of the time base -/

/-- What one move adds to the time base, in 1/512 tick. -/
def idleLength (d : Dev) : Nat :=
  if d.pwr.vin then
    if d.tb.tickRun then
      match d.tb.osc with
      | some n => (d.tb.oscFrac + 500000) / n
      | none => 512
    else if d.tb.slowclk then 15625 else 0
  else 0

/-- The frame of a move of the time base: what `EmptyQueueMovesTheTimeBase` says of the device after it. -/
structure TimeMoved (d e : Dev) : Prop where
  now : e.tb.now = d.tb.now + idleLength d
  frame : e = { d with
    tb.now := e.tb.now, tb.timers := e.tb.timers, tb.win := e.tb.win, tb.osc := e.tb.osc
    tb.oscFrac := e.tb.oscFrac, tier.level := e.tier.level, tier.frac := e.tier.frac
    tier.throttle := e.tier.throttle, free := e.free }
  timers : d.tb.tickRun = true → e.tb.timers = d.tb.timers
  measure : (d.tb.tickRun && d.tb.discipline) = false → e.tb.win = d.tb.win ∧ e.tb.osc = d.tb.osc ∧ e.free = d.free

theorem measureTick_undisciplined {d : Dev} (free : d.tb.discipline = false) : measureTick d = d := by
  simp [measureTick, free]

theorem tickLength_fst (d : Dev) :
    (tickLength d).1 = match d.tb.osc with
      | some n => (d.tb.oscFrac + 500000) / n
      | none => 512 := by
  unfold tickLength
  cases d.tb.osc <;> rfl

theorem timeMoved_oscTick {d : Dev} (vin : d.pwr.vin = true) (run : d.tb.tickRun = true) : TimeMoved d (oscTick d) where
  now := by
    unfold oscTick
    rw [measureTick_frame]
    simp [advanceTime, idleLength, vin, run, tickLength_fst]
  frame := by
    unfold oscTick
    rw [measureTick_frame]
    rfl
  timers _ := by
    unfold oscTick
    rw [measureTick_frame]
    rfl
  measure undisciplined := by
    have free : d.tb.discipline = false := by simpa [run] using undisciplined
    have still : oscTick d = advanceTime (tickLength d).1 { d with tb.oscFrac := (tickLength d).2 } :=
      measureTick_undisciplined free
    rw [still]
    exact ⟨rfl, rfl, rfl⟩

theorem timeMoved_edge {d : Dev} (vin : d.pwr.vin = true) (stopped : d.tb.tickRun = false)
    (slow : d.tb.slowclk = true) : TimeMoved d (bindTimers (advanceTime 15625 d)) where
  now := by simp [bindTimers, advanceTime, idleLength, vin, stopped, slow]
  frame := rfl
  timers run := by simp [stopped] at run
  measure _ := ⟨rfl, rfl, rfl⟩

theorem timeMoved_self {d : Dev} (still : idleLength d = 0) : TimeMoved d d where
  now := by simp [still]
  frame := rfl
  timers _ := rfl
  measure _ := ⟨rfl, rfl, rfl⟩

theorem timeMoved_idleTick (d : Dev) : TimeMoved d (idleTick d) := by
  unfold idleTick
  split
  next off => exact timeMoved_self (by simp_all [idleLength])
  next on =>
    have vin : d.pwr.vin = true := by simpa using on
    split
    next run => exact timeMoved_oscTick vin run
    next stopped =>
      split
      next slow => exact timeMoved_edge vin (by simpa using stopped) slow
      next none => exact timeMoved_self (by simp [idleLength, stopped, none])

/-- Settles O2: each branch of `idleTick` moves the time base by its own length and leaves the rest. -/
theorem emptyQueueMovesTheTimeBase : Obligations.EmptyQueueMovesTheTimeBase := by
  intro s empty
  obtain ⟨now, frame, timers, measure⟩ := timeMoved_idleTick s.dev
  exact ⟨_, step_nil empty, empty, now, frame, timers, measure⟩

/-! ### Every command -/

/-- Only a FUSE_READ, a register write of the host and one of the Loupe can be such a GO. -/
theorem goesReserved_kinds {d : Dev} {c : Instr} (reserved : goesReserved d c = true) :
    (∃ row, c = .fuseRead row 3) ∨ (∃ off v, c = .registerWrite off v) ∨ ∃ v, c = .loupeWrite v := by
  unfold goesReserved at reserved
  split at reserved
  · obtain ⟨-, rfl⟩ : _ ∧ _ = _ := by simpa using reserved
    exact .inl ⟨_, rfl⟩
  · exact .inr (.inl ⟨_, _, rfl⟩)
  · exact .inr (.inr ⟨_, rfl⟩)
  · cases reserved

/-- A command that is no such GO has a next state with the same queue; one that is faults. -/
theorem exec_next_or_faults (c : Instr) (s : State) :
    (goesReserved s.dev c = false ∧ ∃ t : State, exec c s = .next t ∧ t.pending = s.pending) ∨
      (goesReserved s.dev c = true ∧ exec c s = .fault .reservedOperation) := by
  cases c
  case fuseRead row mode =>
    cases go : goesReserved s.dev (.fuseRead row mode)
    · exact .inl ⟨rfl, _, if_neg (ne_true_of_eq_false go), rfl⟩
    · exact .inr ⟨rfl, if_pos go⟩
  case registerWrite off w =>
    cases go : goesReserved s.dev (.registerWrite off w)
    · exact .inl ⟨rfl, _, if_neg (ne_true_of_eq_false go), rfl⟩
    · exact .inr ⟨rfl, if_pos go⟩
  case loupeWrite v =>
    cases go : goesReserved s.dev (.loupeWrite v)
    · exact .inl ⟨rfl, _, if_neg (ne_true_of_eq_false go), rfl⟩
    · exact .inr ⟨rfl, if_pos go⟩
  all_goals exact .inl ⟨rfl, _, rfl, rfl⟩

/-- Settles O3: `exec_next_or_faults` for the command. The stop of a reserved GO is the model's choice (log entry 12), as is
that a command which cannot occur in a state leaves it alone (log entry 10). -/
theorem everyCommandCompletesOrNamesAReservedOperation :
    Obligations.EveryCommandCompletesOrNamesAReservedOperation := by
  intro c s
  obtain ⟨plain, next⟩ | ⟨reserved, faults⟩ := exec_next_or_faults c s
  · exact ⟨fun _ => next, fun reserved => absurd (plain.symm.trans reserved) Bool.false_ne_true⟩
  · exact ⟨fun plain => absurd (plain.symm.trans reserved) Bool.false_ne_true,
      fun _ => ⟨faults, goesReserved_kinds reserved⟩⟩

/-! ### After POR -/

set_option maxRecDepth 20000 in
/-- Settles O59. -/
theorem resetLeavesTheResetColumn : Obligations.ResetLeavesTheResetColumn := by
  unfold Obligations.ResetLeavesTheResetColumn
  decide

end Sys2Proof.Machine
end

section
/-!
The canonical form of the stored tables, table by table (O60), and how folds and table updates keep it.
-/

namespace Sys2Proof.Machine

def queuesWf (t : Tbl (Queue)) : Bool := tblWf {} t

def slotsWf (t : Tbl (KeySlot)) : Bool := tblWf {} t

def vectorsWf (t : Tbl (MsixEntry)) : Bool := tblWf {} t

def testWordsWf (t : Tbl (TestWord)) : Bool := tblWf {} t

def rowsWf (t : Tbl (BitVec 256)) : Bool := tblWf 0 t

def bytesWf (t : Tbl (Byte)) : Bool := tblWf 0 t

def wordsWf (t : Tbl (Word)) : Bool := tblWf 0 t

/-- What `Canon` says of the tables, one by one. -/
def canonOf (queues : Tbl Queue) (slots recA recB : Tbl KeySlot) (vectors : Tbl MsixEntry) (nearSeg : Tbl TestWord)
    (lo hi : Tbl (BitVec 256)) (buf image : Tbl Byte) (iSram dSram : Tbl Word) (comps : Tbl CompRing)
    (fills : Tbl FillRing) (drains : Tbl DrainRing) (loans : Tbl Loan) (qtes during : Tbl QCfg) (taken : Option Stage)
    (im : Option Image) : Bool :=
  queuesWf queues && slotsWf slots && slotsWf recA && slotsWf recB && vectorsWf vectors && testWordsWf nearSeg &&
    rowsWf lo && rowsWf hi && bytesWf buf && bytesWf image && wordsWf iSram && wordsWf dSram &&
    tblSorted comps && tblSorted fills && tblSorted drains && tblSorted loans && tblSorted qtes && tblSorted during &&
    ((taken.map fun st => tblSorted st.qtes).getD true) &&
    ((im.map fun im => tblSorted im.qtes && tblSorted im.loans).getD true)

@[simp] theorem canon_mk (pwr : Pwr) (tb boot regs link out adm rings sweep stage bind epoch ports queues tier rep
    ecc fuse
    keys spdm err jtag cas free) :
    Canon { pwr, tb, boot, regs, link, out, adm, rings, sweep, stage, bind, epoch, ports, queues, tier, rep, ecc, fuse
            keys, spdm, err, jtag, cas, free } =
    canonOf queues keys.slots keys.recA.slots keys.recB.slots link.vectors ecc.nearSeg fuse.lo fuse.hi boot.buf
        boot.image
      boot.iSram boot.dSram rings.comps rings.fills rings.drains tier.loans stage.qtes epoch.during.qtes epoch.taken
      tier.image := rfl

@[simp] theorem canonOf_fields (d : Dev) :
    canonOf d.queues d.keys.slots d.keys.recA.slots d.keys.recB.slots d.link.vectors d.ecc.nearSeg d.fuse.lo
    d.fuse.hi d.boot.buf d.boot.image d.boot.iSram d.boot.dSram d.rings.comps d.rings.fills d.rings.drains
    d.tier.loans d.stage.qtes d.epoch.during.qtes d.epoch.taken d.tier.image = Canon d :=
  rfl

@[simp] theorem canon_ite (c : Prop) [Decidable c] (a b : Dev) :
    Canon (if c then a else b) = if c then Canon a else Canon b := apply_ite Canon c a b

theorem canon_foldl {β : Type} (f : Dev → β → Dev) (l : List β) (keeps : ∀ d x, Canon (f d x) = Canon d) :
    ∀ d, Canon (l.foldl f d) = Canon d := by
  induction l with
  | nil => intro d; rfl
  | cons x l ih => intro d; rw [List.foldl_cons, ih, keeps]

theorem canon_foldl_keeps {β : Type} (f : Dev → β → Dev) (l : List β) (keeps : ∀ d x, Canon d = true → Canon (f d x)
    = true) :
    ∀ d, Canon d = true → Canon (l.foldl f d) = true := by
  induction l with
  | nil => intro d h; exact h
  | cons x l ih => intro d h; exact ih _ (keeps d x h)

theorem canonOf_eq (queues slots recA recB vectors nearSeg lo hi buf image iSram dSram comps fills drains loans qtes
    during taken im) :
    canonOf queues slots recA recB vectors nearSeg lo hi buf image iSram dSram comps fills drains loans qtes during
        taken im = true ↔
    (queuesWf queues = true ∧ slotsWf slots = true ∧ slotsWf recA = true ∧ slotsWf recB = true ∧ vectorsWf vectors =
        true ∧ testWordsWf nearSeg = true ∧ rowsWf lo = true ∧ rowsWf hi = true ∧ bytesWf buf = true ∧ bytesWf image
        = true ∧ wordsWf iSram = true ∧ wordsWf dSram = true) ∧
    (tblSorted comps = true ∧ tblSorted fills = true ∧ tblSorted drains = true ∧ tblSorted loans = true ∧
    tblSorted qtes = true ∧ tblSorted during = true ∧ ((taken.map fun st => tblSorted st.qtes).getD true) = true ∧
    ((im.map fun im => tblSorted im.qtes && tblSorted im.loans).getD true) = true) := by
  simp [canonOf, and_assoc]

theorem canon_tables {d : Dev} (h : Canon d = true) :
    (queuesWf d.queues = true ∧ slotsWf d.keys.slots = true ∧ slotsWf d.keys.recA.slots = true ∧ slotsWf
        d.keys.recB.slots = true ∧ vectorsWf d.link.vectors = true ∧ testWordsWf d.ecc.nearSeg = true ∧ rowsWf
        d.fuse.lo = true ∧ rowsWf d.fuse.hi = true ∧ bytesWf d.boot.buf = true ∧ bytesWf d.boot.image = true ∧
        wordsWf d.boot.iSram = true ∧ wordsWf d.boot.dSram = true) ∧
    tblSorted d.rings.comps = true ∧ tblSorted d.rings.fills = true ∧ tblSorted d.rings.drains = true ∧ tblSorted
        d.tier.loans = true ∧ tblSorted d.stage.qtes = true ∧ tblSorted d.epoch.during.qtes = true ∧
    (d.epoch.taken.map fun st => tblSorted st.qtes).getD true = true ∧
    (d.tier.image.map fun im => tblSorted im.qtes && tblSorted im.loans).getD true = true :=
  (canonOf_eq ..).1 ((canonOf_fields d).trans h)

section At
variable {d : Dev} (h : Canon d = true)
include h
@[simp] theorem canon_at_queues : queuesWf d.queues = true := (canon_tables h).1.1

@[simp] theorem canon_at_keys_slots : slotsWf d.keys.slots = true := (canon_tables h).1.2.1

@[simp] theorem canon_at_keys_recA_slots : slotsWf d.keys.recA.slots = true := (canon_tables h).1.2.2.1

@[simp] theorem canon_at_keys_recB_slots : slotsWf d.keys.recB.slots = true := (canon_tables h).1.2.2.2.1

@[simp] theorem canon_at_link_vectors : vectorsWf d.link.vectors = true := (canon_tables h).1.2.2.2.2.1

@[simp] theorem canon_at_ecc_nearSeg : testWordsWf d.ecc.nearSeg = true := (canon_tables h).1.2.2.2.2.2.1

@[simp] theorem canon_at_fuse_lo : rowsWf d.fuse.lo = true := (canon_tables h).1.2.2.2.2.2.2.1

@[simp] theorem canon_at_fuse_hi : rowsWf d.fuse.hi = true := (canon_tables h).1.2.2.2.2.2.2.2.1

@[simp] theorem canon_at_boot_buf : bytesWf d.boot.buf = true := (canon_tables h).1.2.2.2.2.2.2.2.2.1

@[simp] theorem canon_at_boot_image : bytesWf d.boot.image = true := (canon_tables h).1.2.2.2.2.2.2.2.2.2.1

@[simp] theorem canon_at_boot_iSram : wordsWf d.boot.iSram = true := (canon_tables h).1.2.2.2.2.2.2.2.2.2.2.1

@[simp] theorem canon_at_boot_dSram : wordsWf d.boot.dSram = true := (canon_tables h).1.2.2.2.2.2.2.2.2.2.2.2

@[simp] theorem canon_at_rings_comps : tblSorted d.rings.comps = true := (canon_tables h).2.1

@[simp] theorem canon_at_rings_fills : tblSorted d.rings.fills = true := (canon_tables h).2.2.1

@[simp] theorem canon_at_rings_drains : tblSorted d.rings.drains = true := (canon_tables h).2.2.2.1

@[simp] theorem canon_at_tier_loans : tblSorted d.tier.loans = true := (canon_tables h).2.2.2.2.1

@[simp] theorem canon_at_stage_qtes : tblSorted d.stage.qtes = true := (canon_tables h).2.2.2.2.2.1

@[simp] theorem canon_at_epoch_during_qtes : tblSorted d.epoch.during.qtes = true := (canon_tables h).2.2.2.2.2.2.1

@[simp] theorem canon_at_taken : (d.epoch.taken.map fun st => tblSorted st.qtes).getD true = true :=
  (canon_tables h).2.2.2.2.2.2.2.1

@[simp] theorem canon_at_image :
    (d.tier.image.map fun im => tblSorted im.qtes && tblSorted im.loans).getD true = true :=
  (canon_tables h).2.2.2.2.2.2.2.2
end At

@[simp] theorem queuesWf_set {z : Queue} {t : Tbl (Queue)} (hz : z = {}) (h : queuesWf t = true) (k : Nat) (v :
    Queue) :
    queuesWf (tblSet z t k v) = true := by
  subst hz; exact tblWf_set h k v

@[simp] theorem queuesWf_modify {z : Queue} {t : Tbl (Queue)} (hz : z = {}) (h : queuesWf t = true) (k : Nat) (f :
    Queue → Queue) :
    queuesWf (tblModify z t k f) = true := by
  subst hz; exact tblWf_modify h k f

@[simp] theorem queuesWf_nil : queuesWf [] = true := rfl

@[simp] theorem slotsWf_set {z : KeySlot} {t : Tbl (KeySlot)} (hz : z = {}) (h : slotsWf t = true) (k : Nat) (v :
    KeySlot) :
    slotsWf (tblSet z t k v) = true := by
  subst hz; exact tblWf_set h k v

@[simp] theorem slotsWf_modify {z : KeySlot} {t : Tbl (KeySlot)} (hz : z = {}) (h : slotsWf t = true) (k : Nat) (f :
    KeySlot → KeySlot) :
    slotsWf (tblModify z t k f) = true := by
  subst hz; exact tblWf_modify h k f

@[simp] theorem slotsWf_nil : slotsWf [] = true := rfl

@[simp] theorem vectorsWf_set {z : MsixEntry} {t : Tbl (MsixEntry)} (hz : z = {}) (h : vectorsWf t = true) (k : Nat)
    (v : MsixEntry) :
    vectorsWf (tblSet z t k v) = true := by
  subst hz; exact tblWf_set h k v

@[simp] theorem vectorsWf_modify {z : MsixEntry} {t : Tbl (MsixEntry)} (hz : z = {}) (h : vectorsWf t = true) (k :
    Nat) (f : MsixEntry → MsixEntry) :
    vectorsWf (tblModify z t k f) = true := by
  subst hz; exact tblWf_modify h k f

@[simp] theorem vectorsWf_nil : vectorsWf [] = true := rfl

@[simp] theorem testWordsWf_set {z : TestWord} {t : Tbl (TestWord)} (hz : z = {}) (h : testWordsWf t = true) (k :
    Nat) (v : TestWord) :
    testWordsWf (tblSet z t k v) = true := by
  subst hz; exact tblWf_set h k v

@[simp] theorem testWordsWf_modify {z : TestWord} {t : Tbl (TestWord)} (hz : z = {}) (h : testWordsWf t = true) (k :
    Nat) (f : TestWord → TestWord) :
    testWordsWf (tblModify z t k f) = true := by
  subst hz; exact tblWf_modify h k f

@[simp] theorem testWordsWf_nil : testWordsWf [] = true := rfl

@[simp] theorem rowsWf_set {z : BitVec 256} {t : Tbl (BitVec 256)} (hz : z = 0) (h : rowsWf t = true) (k : Nat) (v :
    BitVec 256) :
    rowsWf (tblSet z t k v) = true := by
  subst hz; exact tblWf_set h k v

@[simp] theorem rowsWf_modify {z : BitVec 256} {t : Tbl (BitVec 256)} (hz : z = 0) (h : rowsWf t = true) (k : Nat) (f
    : BitVec 256 → BitVec 256) :
    rowsWf (tblModify z t k f) = true := by
  subst hz; exact tblWf_modify h k f

@[simp] theorem rowsWf_nil : rowsWf [] = true := rfl

@[simp] theorem bytesWf_set {z : Byte} {t : Tbl (Byte)} (hz : z = 0) (h : bytesWf t = true) (k : Nat) (v : Byte) :
    bytesWf (tblSet z t k v) = true := by
  subst hz; exact tblWf_set h k v

@[simp] theorem bytesWf_modify {z : Byte} {t : Tbl (Byte)} (hz : z = 0) (h : bytesWf t = true) (k : Nat) (f : Byte →
    Byte) :
    bytesWf (tblModify z t k f) = true := by
  subst hz; exact tblWf_modify h k f

@[simp] theorem bytesWf_nil : bytesWf [] = true := rfl

@[simp] theorem wordsWf_set {z : Word} {t : Tbl (Word)} (hz : z = 0) (h : wordsWf t = true) (k : Nat) (v : Word) :
    wordsWf (tblSet z t k v) = true := by
  subst hz; exact tblWf_set h k v

@[simp] theorem wordsWf_modify {z : Word} {t : Tbl (Word)} (hz : z = 0) (h : wordsWf t = true) (k : Nat) (f : Word →
    Word) :
    wordsWf (tblModify z t k f) = true := by
  subst hz; exact tblWf_modify h k f

@[simp] theorem wordsWf_nil : wordsWf [] = true := rfl

@[simp] theorem tblSorted_put' {α : Type} {t : Tbl α} (h : tblSorted t = true) (k : Nat) (v : α) :
    tblSorted (tblPut t k v) = true := tblSorted_put h k v

@[simp] theorem tblSorted_erase' {α : Type} {t : Tbl α} (h : tblSorted t = true) (k : Nat) :
    tblSorted (tblErase t k) = true := tblSorted_erase h k

@[simp] theorem tblSorted_nil {α : Type} : tblSorted ([] : Tbl α) = true := rfl

theorem tblSorted_map_snd {α : Type} (g : Nat × α → α) (t : Tbl α) :
    tblSorted (t.map fun e => (e.1, g e)) = tblSorted t := by
  induction t with
  | nil => rfl
  | cons e t ih => cases t with
    | nil => rfl
    | cons e' t =>
      simp only [List.map_cons, tblSorted] at ih ⊢
      rw [ih]

@[simp] theorem tblSorted_adjust {α : Type} (t : Tbl α) (k : Nat) (f : α → α) :
    tblSorted (tblAdjust t k f) = tblSorted t := by
  rw [← tblSorted_map_snd (fun e => if e.1 = k then f e.2 else e.2) t]
  unfold tblAdjust
  congr 2; funext e; split <;> rfl

theorem tblAbove_filter {α : Type} {k : Nat} {t : Tbl α} (p : Nat × α → Bool) (h : tblAbove k t) :
    tblAbove k (t.filter p) :=
  fun e he => h e (List.mem_of_mem_filter he)

@[simp] theorem tblSorted_filter {α : Type} (p : Nat × α → Bool) {t : Tbl α} (h : tblSorted t = true) :
    tblSorted (t.filter p) = true := by
  induction t with
  | nil => rfl
  | cons e t ih =>
    obtain ⟨ha, hs⟩ := tblSorted_cons.1 h
    rw [List.filter_cons]; split
    · exact tblSorted_cons.2 ⟨tblAbove_filter p ha, ih hs⟩
    · exact ih hs

theorem tblSorted_filterMap {α β : Type} {g : Nat × α → Option (Nat × β)} (keeps : ∀ e x, g e = some x → x.1 = e.1)
    {t : Tbl α} (h : tblSorted t = true) : tblSorted (t.filterMap g) = true := by
  induction t with
  | nil => rfl
  | cons e t ih =>
    obtain ⟨above, sorted⟩ := tblSorted_cons.1 h
    cases hg : g e with
    | none => rw [List.filterMap_cons_none hg]; exact ih sorted
    | some x =>
      rw [List.filterMap_cons_some hg]
      refine tblSorted_cons.2 ⟨fun y hy => ?_, ih sorted⟩
      obtain ⟨e', he', hy'⟩ := List.mem_filterMap.1 hy
      rw [keeps e x hg, keeps e' y hy']
      exact above e' he'

theorem tblWf_map {α : Type} [DecidableEq α] {dflt : α} (f : α → α) {t : Tbl α} (h : tblWf dflt t = true) :
    tblWf dflt (tblMap dflt f t) = true := by
  have hs : tblSorted t = true := (Bool.and_eq_true _ _ ▸ h).1
  unfold tblWf tblMap
  rw [Bool.and_eq_true]
  refine ⟨tblSorted_filter _ ((tblSorted_map_snd (fun e => f e.2) t).trans hs), ?_⟩
  simp

theorem tblSorted_map_keys {α β : Type} {g : Nat × α → Nat × β} (keeps : ∀ e, (g e).1 = e.1) (t : Tbl α) :
    tblSorted (t.map g) = tblSorted t := by
  induction t with
  | nil => rfl
  | cons e t ih => cases t with
    | nil => rfl
    | cons e' t =>
      have first : ∀ e : Nat × α, (g e) = (e.1, (g e).2) := fun e => Prod.ext (keeps e) rfl
      rw [List.map_cons, first e']at ih
      rw [List.map_cons, List.map_cons, first e, first e']
      simp only [tblSorted, ih]

@[simp] theorem queuesWf_map {z : Queue} {t : Tbl Queue} (hz : z = {}) (f : Queue → Queue) (h : queuesWf t = true) :
    queuesWf (tblMap z f t) = true := by
  subst hz; exact tblWf_map f h

theorem queuesWf_sorted {t : Tbl Queue} (h : queuesWf t = true) : tblSorted t = true := (Bool.and_eq_true _ _ ▸ h).1
end Sys2Proof.Machine
end

namespace Sys2Proof.Machine

@[simp] theorem canon_startTimer (id : TimerId) (d : Dev) : Canon (startTimer id d) = Canon d := by simp [startTimer]

@[simp] theorem canon_stopTimer (id : TimerId) (d : Dev) : Canon (stopTimer id d) = Canon d := by simp [stopTimer]

@[simp] theorem canon_pauseTimers (p : TimerId → Bool) (d : Dev) : Canon (pauseTimers p d) = Canon d :=
  by simp [pauseTimers]

@[simp] theorem canon_resumeTimers (p : TimerId → Bool) (d : Dev) : Canon (resumeTimers p d) = Canon d :=
  by simp [resumeTimers]

@[simp] theorem canon_bindTimers (d : Dev) : Canon (bindTimers d) = Canon d := by simp [bindTimers]

@[simp] theorem canon_advanceTime (k : Nat) (d : Dev) : Canon (advanceTime k d) = Canon d := by simp [advanceTime]

@[simp] theorem canon_takeFree (d : Dev) : Canon (takeFree d).2 = Canon d := by simp [takeFree]

@[simp] theorem canon_measureTick (d : Dev) : Canon (measureTick d) = Canon d := by
  unfold measureTick
  split
  · simp
  · simp only []
    split <;> simp

@[simp] theorem canon_oscTick (d : Dev) : Canon (oscTick d) = Canon d := by simp [oscTick]

@[simp] theorem canon_idleTick (d : Dev) : Canon (idleTick d) = Canon d := by simp [idleTick]

@[simp] theorem canon_emit (m : OutMsg) (d : Dev) : Canon (emit m d) = Canon d := by simp [emit]

@[simp] theorem canon_emitFlit (type dst seq : Nat) (payload : Bytes) (d : Dev) :
    Canon (emitFlit type dst seq payload d) = Canon d := by
  unfold emitFlit
  split <;> simp

@[simp] theorem canon_emitCast (type : Nat) (payload : Bytes) (d : Dev) : Canon (emitCast type payload d) = Canon d :=
  by simp [emitCast]

@[simp] theorem canon_emitHost (m : OutMsg) (d : Dev) : Canon (emitHost m d) = Canon d := by simp [emitHost]

@[simp] theorem canon_sendLtr (us : Nat) (d : Dev) : Canon (sendLtr us d) = Canon d := by simp [sendLtr]

@[simp] theorem canon_startWork (d : Dev) : Canon (startWork d) = Canon d := by simp [startWork]

@[simp] theorem canon_memWrite (addr : Nat) (data : Bytes) (ro : Bool) (d : Dev) :
    Canon (memWrite addr data ro d) = Canon d := by simp [memWrite, canon_foldl]

@[simp] theorem canon_memReadOne (what : ReadFor) (addr len : Nat) (d : Dev) :
    Canon (memReadOne what addr len d) = Canon d := by simp [memReadOne]

@[simp] theorem canon_memRead (what : ReadFor) (addr len : Nat) (d : Dev) :
    Canon (memRead what addr len d) = Canon d := by simp [memRead, canon_foldl]

@[simp] theorem canon_dropRead (tag : Nat) (d : Dev) : Canon (dropRead tag d) = Canon d := by simp [dropRead]

@[simp] theorem canon_dropReadsFor (what : ReadFor) (d : Dev) : Canon (dropReadsFor what d) = Canon d :=
  by simp [dropReadsFor, canon_foldl]

@[simp] theorem canon_aerSet (e : Aer) (d : Dev) : Canon (aerSet e d) = Canon d := by simp [aerSet]

@[simp] theorem canon_msix (v : Nat) (d : Dev) : Canon (msix v d) = Canon d := by simp [msix]

@[simp] theorem canon_setBoot (b : BootStatus) (d : Dev) : Canon (setBoot b d) = Canon d := by
  unfold setBoot
  split <;> simp

@[simp] theorem canon_logRec (kind code object cid opcode result1 : Nat) (d : Dev) :
    Canon (logRec kind code object cid opcode result1 d) = Canon d := by simp [logRec]

@[simp] theorem canon_capture (fatal : Bool) (code src obj : Nat) (d : Dev) :
    Canon (capture fatal code src obj d) = Canon d := by simp [capture]

@[simp] theorem canon_recordErr (code src obj : Nat) (d : Dev) : Canon (recordErr code src obj d) = Canon d :=
  by simp [recordErr]

@[simp] theorem canon_lateSuccess (cid opcode cookie : Nat) (d : Dev) :
    Canon (lateSuccess cid opcode cookie d) = Canon d := by simp [lateSuccess]

@[simp] theorem canon_startSweep (timed kicked : Bool) (d : Dev) : Canon (startSweep timed kicked d) = Canon d :=
  by simp [startSweep]

@[simp] theorem canon_triggerSweep (timed kicked : Bool) (d : Dev) : Canon (triggerSweep timed kicked d) = Canon d :=
  by simp [triggerSweep]

@[simp] theorem canon_resumeSweep (d : Dev) : Canon (resumeSweep d) = Canon d := by simp [resumeSweep]

@[simp] theorem canon_armSweep (d : Dev) : Canon (armSweep d) = Canon d := by simp [armSweep]

@[simp] theorem canon_activity (d : Dev) : Canon (activity d) = Canon d := by simp [activity]

@[simp] theorem canon_putCe (c : Nat) (r : CompRing) (cookie lenStatus hi : Nat) (d : Dev) (h : Canon d = true) :
    Canon (putCe c r cookie lenStatus hi d) = true := by simp [putCe, h, canonOf_eq]

@[simp] theorem canon_postCe (c : Nat) (cookie lenStatus hi : Nat) (d : Dev) (h : Canon d = true) :
    Canon (postCe c cookie lenStatus hi d) = true := by
  unfold postCe
  split <;> simp [h, canonOf_eq]

@[simp] theorem canon_fetchAdmin (d : Dev) : Canon (fetchAdmin d) = Canon d := by simp [fetchAdmin]

theorem canon_askLink {f : Dev → Dev} (keeps : ∀ d, Canon (f d) = Canon d) (d : Dev) :
    Canon (askLink f d) = Canon d := by
  unfold askLink
  split <;> simp [keeps]

@[simp] theorem canon_fetchNext (d : Dev) : Canon (fetchNext d) = Canon d := canon_askLink canon_fetchAdmin d

@[simp] theorem canon_writeAce (cid : BitVec 16) (status r0 r1 : Nat) (d : Dev) :
    Canon (writeAce cid status r0 r1 d) = Canon d := by simp [writeAce]

@[simp] theorem canon_postAce (cid : BitVec 16) (status r0 r1 : Nat) (d : Dev) :
    Canon (postAce cid status r0 r1 d) = Canon d := by simp [postAce]

@[simp] theorem canon_flushAce (d : Dev) : Canon (flushAce d) = Canon d := by
  unfold flushAce
  split <;> simp

@[simp] theorem canon_wakeReport (d : Dev) : Canon (wakeReport d) = Canon d := by simp [wakeReport]

@[simp] theorem canon_wakeFire (pressure : Bool) (queue : Option Nat) (d : Dev) :
    Canon (wakeFire pressure queue d) = Canon d := by simp [wakeFire]

@[simp] theorem canon_putQueue (qid : Nat) (q : Queue) (d : Dev) (h : Canon d = true) :
    Canon (putQueue qid q d) = true := by simp [putQueue, h, canonOf_eq]

@[simp] theorem canon_onQueue (qid : Nat) (f : Queue → Queue) (d : Dev) (h : Canon d = true) :
    Canon (onQueue qid f d) = true := by simp [onQueue, h]

@[simp] theorem canon_mirrorWrite (qid : Nat) (d : Dev) (h : Canon d = true) : Canon (mirrorWrite qid d) = true :=
  by simp [mirrorWrite, h]

@[simp] theorem canon_mirrorUpdate (qid : Nat) (d : Dev) (h : Canon d = true) : Canon (mirrorUpdate qid d) = true :=
  by simp [mirrorUpdate, h]

@[simp] theorem canon_flushHeld (d : Dev) : Canon (flushHeld d) = Canon d := by
  unfold flushHeld
  rw [canon_foldl]
  · simp
  · intro d m
    cases m <;> simp

@[simp] theorem canon_flushCe (n c : Nat) (d : Dev) (h : Canon d = true) : Canon (flushCe n c d) = true := by
  induction n generalizing d with
  | zero => exact h
  | succ n ih =>
    unfold flushCe
    split
    · exact h
    · split
      · exact h
      · split
        · exact h
        · exact ih _ (canon_putCe _ _ _ _ _ _ h)

@[simp] theorem canon_mirrorFull (d : Dev) (h : Canon d = true) : Canon (mirrorFull d) = true := by
  unfold mirrorFull
  split
  · exact h
  · split
    · exact canon_foldl_keeps _ _ (fun d i h => canon_mirrorWrite i d h) _ (by simpa using h)
    · simpa using h

@[simp] theorem canon_mirrorResync (d : Dev) (h : Canon d = true) : Canon (mirrorResync d) = true := by
  unfold mirrorResync
  split
  · exact h
  · split
    · exact canon_mirrorFull d h
    · exact canon_foldl_keeps _ _ (fun d e h => by simp [h]) _ h
end Sys2Proof.Machine

section
/-!
PACE and the governor leave the tables in their canonical form (O60).
-/

namespace Sys2Proof.Machine

@[simp] theorem canon_stopWindows (d : Dev) : Canon (stopWindows d) = Canon d := by simp [stopWindows]

@[simp] theorem canon_govRefresh (d : Dev) : Canon (govRefresh d) = Canon d := by simp [govRefresh]

@[simp] theorem canon_govTrack (d : Dev) : Canon (govTrack d) = Canon d := by simp [govTrack]

@[simp] theorem canon_paceStep (goal : Nat) (d : Dev) : Canon (paceStep goal d) = Canon d := by simp [paceStep]

@[simp] theorem canon_paceNext (d : Dev) : Canon (paceNext d) = Canon d := by simp [paceNext]

@[simp] theorem canon_setPace (v : Nat) (d : Dev) : Canon (setPace v d) = Canon d := by simp [setPace]

@[simp] theorem canon_setGovEn (v : Bool) (d : Dev) : Canon (setGovEn v d) = Canon d := by simp [setGovEn]

@[simp] theorem canon_setRange (lo hi : Nat) (d : Dev) : Canon (setRange lo hi d) = Canon d := by simp [setRange]

@[simp] theorem canon_setWindows (up down : Nat) (d : Dev) : Canon (setWindows up down d) = Canon d :=
  by simp [setWindows]

@[simp] theorem canon_paceSettled (d : Dev) : Canon (paceSettled d) = Canon d := by
  unfold paceSettled
  split <;> simp

@[simp] theorem canon_govUpExpiry (d : Dev) : Canon (govUpExpiry d) = Canon d := by simp [govUpExpiry]

@[simp] theorem canon_govDownExpiry (d : Dev) : Canon (govDownExpiry d) = Canon d := by simp [govDownExpiry]

@[simp] theorem canon_captureTime (d : Dev) : Canon (captureTime d) = Canon d := by simp [captureTime]

@[simp] theorem canon_endDiscipline (d : Dev) : Canon (endDiscipline d) = Canon d := by simp [endDiscipline]

@[simp] theorem canon_stopOscIfListening (d : Dev) : Canon (stopOscIfListening d) = Canon d :=
  by simp [stopOscIfListening]

@[simp] theorem canon_slowclkPresent (d : Dev) : Canon (slowclkPresent d) = Canon d := by simp [slowclkPresent]

@[simp] theorem canon_slowclkLost (d : Dev) : Canon (slowclkLost d) = Canon d := by simp [slowclkLost]

@[simp] theorem canon_tickOscRestarted (d : Dev) : Canon (tickOscRestarted d) = Canon d := by simp [tickOscRestarted]

end Sys2Proof.Machine
end

section
/-!
Queue and chain operations keep the tables in their canonical form (O60).
-/

namespace Sys2Proof.Machine

@[simp] theorem canon_addWear (seg : Nat) (d : Dev) : Canon (addWear seg d) = Canon d := by simp [addWear]

@[simp] theorem canon_writeWearCopy (d : Dev) : Canon (writeWearCopy d) = Canon d :=
  by simp [writeWearCopy, canon_foldl]

@[simp] theorem canon_countProgram (seg : Nat) (d : Dev) : Canon (countProgram seg d) = Canon d :=
  by simp [countProgram]

@[simp] theorem canon_writeImage (d : Dev) (h : Canon d = true) : Canon (writeImage d) = true := by
  unfold writeImage
  extract_lets +onlyGivenNames first e
  have he : Canon e = true := canon_foldl_keeps _ _ (fun d i h => by simp [h]) _ h
  clear_value e
  have sorted : tblSorted (makeImage e (livePces e)).qtes = true := by
    refine tblSorted_filterMap (fun e x hx => ?_) (queuesWf_sorted (canon_at_queues he))
    split at hx
    · cases hx
    · cases hx; rfl
  have loans : tblSorted (makeImage e (livePces e)).loans = true := tblSorted_filter _ (canon_at_tier_loans he)
  simp [canonOf_eq, he, sorted, loans]

@[simp] theorem canon_freeReleased (recs : List JRec) (d : Dev) : Canon (freeReleased recs d) = Canon d := by
  unfold freeReleased
  rw [canon_foldl]
  intro d r
  split
  · split <;> simp
  · rfl

@[simp] theorem canon_flushJournal (d : Dev) (h : Canon d = true) : Canon (flushJournal d) = true := by
  unfold flushJournal
  simp only []
  split
  all_goals try split
  all_goals simp [h]

@[simp] theorem canon_addRecord (r : JRec) (d : Dev) (h : Canon d = true) : Canon (addRecord r d) = true :=
  by simp [addRecord, h]

@[simp] theorem canon_writeUnseal (d : Dev) (h : Canon d = true) : Canon (writeUnseal d) = true :=
  by simp [writeUnseal, h]

set_option maxRecDepth 20000 in
theorem fillShorts_succ (n : Nat) (d : Dev) : fillShorts (n + 1) d = match d.tier.shorts with
    | [] => d
    | qid :: rest =>
      if !isShort (queueOf d qid) then fillShorts n { d with tier.shorts := rest }
      else match nearFree d with
        | none => d
        | some g => fillShorts n (putQueue qid { queueOf d qid with resvFree := (queueOf d qid).resvFree ++ [g] } d)
            := rfl

@[simp] theorem canon_fillShorts (n : Nat) (d : Dev) (h : Canon d = true) : Canon (fillShorts n d) = true := by
  induction n generalizing d with
  | zero => exact h
  | succ n ih =>
    rw [fillShorts_succ]
    split
    · exact h
    · split
      · exact ih _ (by simpa using h)
      · split
        · exact h
        · exact ih _ (canon_putQueue _ _ _ h)

@[simp] theorem canon_noteShort (qid : Nat) (d : Dev) : Canon (noteShort qid d) = Canon d := by simp [noteShort]

@[simp] theorem canon_settleShorts (d : Dev) (h : Canon d = true) : Canon (settleShorts d) = true :=
  by simp [settleShorts, h]

@[simp] theorem canon_wipeNear (n : Nat) (d : Dev) : Canon (wipeNear n d) = Canon d := by simp [wipeNear]

@[simp] theorem canon_writeRepair (d : Dev) : Canon (writeRepair d) = Canon d := by simp [writeRepair]

@[simp] theorem canon_retireNear (n : Nat) (d : Dev) : Canon (retireNear n d) = Canon d := by simp [retireNear]

@[simp] theorem canon_retireDeep (seg : Nat) (d : Dev) : Canon (retireDeep seg d) = Canon d := by simp [retireDeep]

@[simp] theorem canon_giveNear (qid n : Nat) (d : Dev) (h : Canon d = true) : Canon (giveNear qid n d) = true :=
  by simp [giveNear, h]

theorem canon_takeNear {qid n : Nat} {r : Bool} {d e : Dev} (h : Canon d = true) (takes : takeNear qid d = some (n,
    r, e)) :
    Canon e = true := by
  unfold takeNear at takes
  simp only [] at takes
  split at takes
  · cases takes
  · split at takes
    · cases takes; exact canon_putQueue _ _ _ h
    · obtain ⟨_, _, eq⟩ := Option.map_eq_some_iff.1 takes
      cases eq; exact h

@[simp] theorem canon_freeDeep (qid seg : Nat) (named : Bool) (d : Dev) (h : Canon d = true) :
    Canon (freeDeep qid seg named d) = true := by simp [freeDeep, h]

@[simp] theorem canon_sendItems (src : Option Producer) (node type : Nat) (payload : Bytes) (d : Dev) :
    Canon (sendItems src node type payload d) = Canon d := by
  unfold sendItems
  split <;> simp

@[simp] theorem canon_sendSeq (node type : Nat) (payload : Bytes) (d : Dev) :
    Canon (sendSeq node type payload d) = Canon d := by simp [sendSeq]

@[simp] theorem canon_giveLoan (qid : Nat) (persist hole : Bool) (l : LoanRef) (d : Dev) (h : Canon d = true) :
    Canon (giveLoan qid persist hole l d) = true := by simp [giveLoan, h]

@[simp] theorem canon_releaseSeg (qid : Nat) (persist : Bool) (s : ChainSeg) (d : Dev) (h : Canon d = true) :
    Canon (releaseSeg qid persist s d) = true := by
  unfold releaseSeg
  extract_lets +onlyGivenNames d1 d2 d3
  have h1 : Canon d1 = true := by unfold d1; cases s.near <;> simp [h]
  have h2 : Canon d2 = true := by unfold d2; cases s.deep <;> simp [h1]
  have h3 : Canon d3 = true := by unfold d3; cases s.loan <;> simp [h2]
  simp [h3]

@[simp] theorem canon_releaseUnused (qid : Nat) (d : Dev) (h : Canon d = true) : Canon (releaseUnused qid d) = true := by
  unfold releaseUnused
  extract_lets q live tail stays
  split
  · exact h
  · exact canon_foldl_keeps _ _ (fun d s h => canon_releaseSeg _ _ s d h) _ (canon_putQueue _ _ _ h)

@[simp] theorem canon_settleBare (k qid : Nat) (d : Dev) (h : Canon d = true) : Canon (settleBare k qid d) = true := by
  induction k generalizing d with
  | zero => simpa [settleBare] using h
  | succ k ih =>
    unfold settleBare
    simp only []
    split
    · exact h
    · split
      · exact ih _ (canon_putQueue _ _ _ h)
      · generalize (if fwExec d = true then nearFree d else none) = g
        cases g with
        | some n => exact ih _ (canon_putQueue _ _ _ h)
        | none => exact h

@[simp] theorem canon_queueProgram (qid pos : Nat) (d : Dev) (h : Canon d = true) :
    Canon (queueProgram qid pos d) = true := by simp [queueProgram, h]

@[simp] theorem canon_spillCheck (k qid : Nat) (d : Dev) (h : Canon d = true) : Canon (spillCheck k qid d) = true := by
  induction k generalizing d with
  | zero => simpa [spillCheck] using h
  | succ k ih =>
    unfold spillCheck
    simp only []
    split
    · split
      · exact ih _ (canon_queueProgram _ _ _ h)
      · exact h
    · exact h

@[simp] theorem canon_spillAll (d : Dev) (h : Canon d = true) : Canon (spillAll d) = true := by
  unfold spillAll
  exact canon_foldl_keeps _ _ (fun d x h => by simp [h]) _ (by simp [h])

@[simp] theorem canon_readCheck (qid : Nat) (d : Dev) (h : Canon d = true) : Canon (readCheck qid d) = true := by
  unfold readCheck
  extract_lets q
  split
  · exact h
  · refine canon_foldl_keeps _ _ (fun d s h => ?_) _ h
    split
    · have hq := canon_onQueue qid (fun q => { q with
        chain := q.chain.map fun t => if t.pos = s.pos then { t with reading := true } else t }) d h
      split
      · simpa using hq
      · exact hq
    · exact h

@[simp] theorem canon_addTail (qid : Nat) (d : Dev) (h : Canon d = true) : Canon (addTail qid d) = true := by
  unfold addTail
  split
  · exact h
  case _ n r e takes =>
    have he := canon_takeNear h takes
    simp only []
    split
    · split <;> simp [he]
    · simp [he]

@[simp] theorem canon_dropTailCopy (qid : Nat) (d : Dev) (h : Canon d = true) : Canon (dropTailCopy qid d) = true := by
  unfold dropTailCopy
  simp only []
  split
  all_goals try split
  all_goals simp [h]

@[simp] theorem canon_admitItem (qid : Nat) (i : Item) (d : Dev) (h : Canon d = true) :
    Canon (admitItem qid i d) = true := by
  unfold admitItem
  simp only []
  split <;> simp [h]

@[simp] theorem canon_makeRoom (fuel qid n : Nat) (d : Dev) (h : Canon d = true) :
    Canon (makeRoom fuel qid n d) = true := by
  induction fuel generalizing d with
  | zero => simpa [makeRoom] using h
  | succ fuel ih =>
    unfold makeRoom
    simp only []
    split
    · exact h
    · split
      · exact h
      · split
        · exact h
        · exact ih _ (canon_releaseUnused _ _ (canon_putQueue _ _ _ h))

end Sys2Proof.Machine
end

section
/-!
Key slots, ring pumps and descriptors keep the tables in their canonical form (O60).
-/

namespace Sys2Proof.Machine

@[simp] theorem canon_putSlot (slot : Nat) (k : KeySlot) (d : Dev) (h : Canon d = true) :
    Canon (putSlot slot k d) = true := by simp [putSlot, h, canonOf_eq]

@[simp] theorem canon_drawIvs (n : Nat) (d : Dev) : Canon (drawIvs n d).2 = Canon d := by
  induction n generalizing d with
  | zero => rfl
  | succ n ih => simp [drawIvs, ih]

theorem queuesWf_keyRecord (d : Dev) : slotsWf (keyRecord d) = true := by
  unfold keyRecord
  exact List.foldlRecOn (motive := fun t => slotsWf t = true) _ _ rfl fun t h e _ => slotsWf_set rfl h _ _

@[simp] theorem canon_newRecord (d : Dev) : Canon (newRecord d).2 = Canon d := by simp [newRecord]

@[simp] theorem canon_writeKeyRecord (d : Dev) (h : Canon d = true) : Canon (writeKeyRecord d) = true := by
  have hx : Canon (newRecord d).2 = true := by simp [h]
  have hr : slotsWf (newRecord d).1.slots = true := queuesWf_keyRecord d
  unfold writeKeyRecord
  extract_lets +onlyGivenNames x
  split <;> simp [canonOf_eq, hx, hr, x]

@[simp] theorem canon_settleKey (slot : Nat) (d : Dev) (h : Canon d = true) : Canon (settleKey slot d) = true := by
  unfold settleKey
  simp only []
  split
  · split
    · exact canon_writeKeyRecord _ (canon_putSlot _ _ _ h)
    · exact h
  · exact h

@[simp] theorem canon_settleKeys (d : Dev) (h : Canon d = true) : Canon (settleKeys d) = true := by
  unfold settleKeys
  exact canon_foldl_keeps _ _ (fun d x h => by simp [h]) _ (by simp [h])

@[simp] theorem canon_requestAbort (qid : Nat) (p : Producer) (d : Dev) (h : Canon d = true) :
    Canon (requestAbort qid p d) = true := by simp [requestAbort, h]

@[simp] theorem canon_onPeer (node : Nat) (f : Peer → Peer) (d : Dev) : Canon (onPeer node f d) = Canon d :=
  by simp [onPeer]

@[simp] theorem canon_sendAbort (node qid : Nat) (d : Dev) : Canon (sendAbort node qid d) = Canon d := by
  unfold sendAbort
  simp only []
  split <;> simp

@[simp] theorem canon_abortOwned (p : Producer) (d : Dev) (h : Canon d = true) : Canon (abortOwned p d) = true := by
  unfold abortOwned
  extract_lets +onlyGivenNames d1
  have h1 : Canon d1 = true := canon_foldl_keeps _ _ (fun d e h => by split <;> simp [h]) _ h
  refine canon_foldl_keeps _ _ (fun d e h => ?_) _ h1
  exact canon_foldl_keeps _ _ (fun d o h => by simp [h]) _ (by simp [h])

@[simp] theorem canon_forgetDiscards (p : Producer) (d : Dev) (h : Canon d = true) :
    Canon (forgetDiscards p d) = true := by simp [forgetDiscards, h, canonOf_eq]

@[simp] theorem canon_putFill (f : Nat) (r : FillRing) (d : Dev) (h : Canon d = true) :
    Canon (putFill f r d) = true := by simp [putFill, h, canonOf_eq]

@[simp] theorem canon_putDrain (n : Nat) (r : DrainRing) (d : Dev) (h : Canon d = true) :
    Canon (putDrain n r d) = true := by simp [putDrain, h, canonOf_eq]

@[simp] theorem canon_fetchFill (f : Nat) (d : Dev) (h : Canon d = true) : Canon (fetchFill f d) = true := by
  unfold fetchFill
  split <;> simp [h]

@[simp] theorem canon_readFill (n f : Nat) (d : Dev) (h : Canon d = true) : Canon (readFill n f d) = true := by
  induction n generalizing d with
  | zero => exact h
  | succ n ih =>
    unfold readFill
    split
    · exact h
    · split
      · exact h
      · simp only []
        split
        · exact ih _ (by simp [h])
        · exact h

@[simp] theorem canon_fetchDrain (n : Nat) (d : Dev) (h : Canon d = true) : Canon (fetchDrain n d) = true := by
  unfold fetchDrain
  split <;> simp [h]

@[simp] theorem canon_latchFill (f : Nat) (d : Dev) (h : Canon d = true) : Canon (latchFill f d) = true := by
  unfold latchFill
  split
  · exact h
  · split
    · simp only []
      split
      · exact h
      · exact canon_putFill _ _ _ h
    · exact h

@[simp] theorem canon_pumpRings (d : Dev) (h : Canon d = true) : Canon (pumpRings d) = true := by
  unfold pumpRings
  extract_lets +onlyGivenNames d1
  have h1 : Canon d1 = true :=
    canon_foldl_keeps _ _ (fun d e h => canon_latchFill _ _ (canon_readFill _ _ _ (canon_fetchFill _ _ h))) _ h
  exact canon_foldl_keeps _ _ (fun d e h => canon_fetchDrain _ _ h) _ h1

@[simp] theorem canon_pump (d : Dev) (h : Canon d = true) : Canon (pump d) = true := by
  unfold pump askLink
  split <;> simp [h]

@[simp] theorem canon_orphanReads (w : ReadFor) (cookie : Nat) (d : Dev) : Canon (orphanReads w cookie d) = Canon d :=
  by simp [orphanReads]

@[simp] theorem canon_settlePauses (d : Dev) : Canon (settlePauses d) = Canon d := by simp [settlePauses]

@[simp] theorem canon_startTraining (d : Dev) : Canon (startTraining d) = Canon d := by simp [startTraining]

@[simp] theorem canon_armDesc (f : Nat) (d : Dev) : Canon (armDesc f d) = Canon d := by
  unfold armDesc
  split
  · rfl
  · split <;> simp

@[simp] theorem canon_finishFill (f status : Nat) (ragged : Bool) (d : Dev) (h : Canon d = true) :
    Canon (finishFill f status ragged d) = true := by
  unfold finishFill
  split
  · exact h
  · split
    · exact h
    · extract_lets +onlyGivenNames _ cnt d1 d2 d3
      have h1 : Canon d1 = true := by simp [d1, h]
      have h2 : Canon d2 = true := by simp [d2, h1]
      have h3 : Canon d3 = true := by simp [d3, h2]
      simp [h3]

@[simp] theorem canon_fillAdmitted (f k : Nat) (ragged : Bool) (d : Dev) (h : Canon d = true) :
    Canon (fillAdmitted f k ragged d) = true := by
  unfold fillAdmitted
  simp only []
  split
  all_goals try split
  all_goals simp [h]

@[simp] theorem canon_abortRingOn (f qid : Nat) (d : Dev) (h : Canon d = true) : Canon (abortRingOn f qid d) = true :=
  by simp [abortRingOn, h]

@[simp] theorem canon_drainWaitCheck (qid : Nat) (d : Dev) (h : Canon d = true) :
    Canon (drainWaitCheck qid d) = true := by simp [drainWaitCheck, h]

end Sys2Proof.Machine
end

section
/-!
Integrity, firmware resumption and admin command bodies keep the tables in their canonical form (O60).
-/

namespace Sys2Proof.Machine

@[simp] theorem canon_addUpsets (us : List (Nat × BitVec 74)) (d : Dev) : Canon (addUpsets us d) = Canon d :=
  by simp [addUpsets]

@[simp] theorem canon_retireNearSeg (n : Nat) (d : Dev) (h : Canon d = true) : Canon (retireNearSeg n d) = true := by
  unfold retireNearSeg
  simp only []
  split
  · have h1 : Canon { d with queues := tblMap {} (fun q => { q with
        resvFree := q.resvFree.filter (· ≠ n) }) d.queues } = true := by simp [canonOf_eq, h]
    have h2 := (canon_retireNear n _).trans h1
    exact canon_settleShorts _ (canon_foldl_keeps _ _ (fun d e h => by simp [h]) _ h2)
  · split
    · split <;> simp [h]
    · exact canon_settleShorts _ (by simp [h])

@[simp] theorem canon_hardFaultNear (a : Nat) (d : Dev) (h : Canon d = true) : Canon (hardFaultNear a d) = true := by
  unfold hardFaultNear
  extract_lets +onlyGivenNames seg
  split
  · exact h
  · extract_lets +onlyGivenNames _ d1 _ d2
    have h2 : Canon d2 = true := by simp [d2, d1, h]
    split
    · exact canon_retireNearSeg _ _ h2
    · split
      · exact canon_retireNearSeg _ _ h2
      · simp [h2]

@[simp] theorem canon_faultFound (a : Nat) (d : Dev) (h : Canon d = true) : Canon (faultFound a d) = true :=
  by simp [faultFound, h]

@[simp] theorem canon_correctedNear (a : Nat) (d : Dev) (h : Canon d = true) : Canon (correctedNear a d) = true :=
  by simp [correctedNear, h]

@[simp] theorem canon_firmwareResumes (d : Dev) (h : Canon d = true) : Canon (firmwareResumes d) = true := by
  unfold firmwareResumes
  split
  · exact h
  · extract_lets +onlyGivenNames due _ d1
    have h1 : Canon d1 = true := canon_foldl_keeps _ _ (fun d a h => canon_hardFaultNear _ _ h) _ (by simp [h])
    exact canon_settleShorts _ (canon_foldl_keeps _ _ (fun d e h => canon_spillCheck _ _ _ (canon_releaseUnused _ _
        h)) _ h1)

@[simp] theorem canon_readNear (a : Nat) (d : Dev) (h : Canon d = true) : Canon (readNear a d) = true := by
  unfold readNear
  simp only []
  split
  all_goals try split
  all_goals simp [h]

@[simp] theorem canon_readTail (qid : Nat) (d : Dev) (h : Canon d = true) : Canon (readTail qid d) = true := by
  unfold readTail
  extract_lets q
  split
  · exact h
  · extract_lets off
    split
    · exact h
    · split
      · exact h
      · extract_lets a
        split
        · split <;> simp [h]
        · exact h

@[simp] theorem canon_readForPop (qid n : Nat) (d : Dev) (h : Canon d = true) : Canon (readForPop qid n d) = true := by
  unfold readForPop
  split
  · simp [h]
  · exact canon_foldl_keeps _ _ (fun d x h => by simp [h]) _ (by simp [h])

@[simp] theorem canon_putI (i : Nat) (p : IPort) (d : Dev) : Canon (putI i p d) = Canon d := by simp [putI]

@[simp] theorem canon_putE (e : Nat) (p : EPort) (d : Dev) : Canon (putE e p d) = Canon d := by simp [putE]

@[simp] theorem canon_putPair (n : Nat) (p : PairSt) (d : Dev) : Canon (putPair n p d) = Canon d := by simp [putPair]

@[simp] theorem canon_putRun (k : Nat) (r : PceRun) (d : Dev) : Canon (putRun k r d) = Canon d := by simp [putRun]

@[simp] theorem canon_putEv (k : Nat) (e : List PortEv) (d : Dev) : Canon (putEv k e d) = Canon d := by simp [putEv]

@[simp] theorem canon_putXing (k : Nat) (x : EventXing) (d : Dev) : Canon (putXing k x d) = Canon d :=
  by simp [putXing]

@[simp] theorem canon_issueEv (k : Nat) (e : PortEv) (d : Dev) : Canon (issueEv k e d) = Canon d := by simp [issueEv]

@[simp] theorem canon_cancelArm (k : Nat) (d : Dev) : Canon (cancelArm k d) = Canon d := by simp [cancelArm]

@[simp] theorem canon_portAssemble (i : Nat) (d : Dev) (h : Canon d = true) : Canon (portAssemble i d) = true :=
  by simp [portAssemble, h]

@[simp] theorem canon_leaveArb (e : Nat) (d : Dev) : Canon (leaveArb e d) = Canon d := by simp [leaveArb]

@[simp] theorem canon_refreshFlags (d : Dev) : Canon (refreshFlags d) = Canon d := by simp [refreshFlags]

@[simp] theorem canon_stallCheck (k : Nat) (d : Dev) : Canon (stallCheck k d) = Canon d := by simp [stallCheck]

@[simp] theorem canon_stallChecks (d : Dev) : Canon (stallChecks d) = Canon d := by simp [stallChecks]

@[simp] theorem canon_edgeSeen (k : Nat) (d : Dev) : Canon (edgeSeen k d) = Canon d := by simp [edgeSeen]

@[simp] theorem canon_pumpFlags (d : Dev) (h : Canon d = true) : Canon (pumpFlags d) = true := by simp [pumpFlags, h]

@[simp] theorem canon_logOutcome (r : AdmRun) (res : AdmRes) (d : Dev) : Canon (logOutcome r res d) = Canon d :=
  by simp [logOutcome]

@[simp] theorem canon_answerRing (op node tag : Nat) (res : AdmRes) (d : Dev) :
    Canon (answerRing op node tag res d) = Canon d := by simp [answerRing]

@[simp] theorem canon_deliver (r : AdmRun) (res : AdmRes) (d : Dev) (h : Canon d = true) :
    Canon (deliver r res d) = true := by
  unfold deliver
  simp only []
  split
  all_goals try split
  all_goals simp [h]

@[simp] theorem canon_finishBg (p : RunKind → Bool) (res : AdmRes) (d : Dev) : Canon (finishBg p res d) = Canon d := by
  unfold finishBg
  split <;> simp

@[simp] theorem canon_finishRun (p : RunKind → Bool) (res : AdmRes) (d : Dev) (h : Canon d = true) :
    Canon (finishRun p res d) = true := by
  unfold finishRun
  split <;> simp [h]

@[simp] theorem canon_runsOn (r : AdmRun) (kind : RunKind) (d : Dev) : Canon (runsOn r kind d).1 = Canon d :=
  by simp [runsOn]

@[simp] theorem canon_ends (res : AdmRes) (d : Dev) : Canon (ends res d).1 = Canon d := by simp [ends]

@[simp] theorem canon_runBody (r : AdmRun) {body : AdmRun → Dev → Dev × Option AdmRes} (d : Dev) (h : Canon (body r
    d).1 = true) :
    Canon (runBody r body d) = true := by
  unfold runBody
  simp only []
  split <;> simp [h]

theorem canon_unlessBusy {body : AdmRun → Dev → Dev × Option AdmRes} (r : AdmRun) (d : Dev) (h : Canon d = true)
    (hb : Canon (body r d).1 = true) : Canon (unlessBusy body r d).1 = true := by
  unfold unlessBusy
  split
  · exact h
  · exact hb

@[simp] theorem canon_relay (op node : Nat) (c : AdmCmd) (buf : Bytes) (r : AdmRun) (d : Dev) :
    Canon (relay op node c buf r d).1 = Canon d := by
  unfold relay
  split <;> simp

theorem canon_admin {body : AdmRun → Dev → Dev × Option AdmRes} (op : Nat) (c : AdmCmd) (buf : Bytes) (d : Dev)
    (keeps : ∀ r d, Canon d = true → Canon (body r d).1 = true) (h : Canon d = true) : Canon (admin op c buf body d)
        = true := by
  unfold admin
  split
  · exact h
  · split
    · exact h
    · extract_lets +onlyGivenNames _ d1 d2 r
      have h1 : Canon d1 = true := by simp [d1, h]
      have h2 : Canon d2 = true := by simp [d2, h1]
      split
      · simp [h2]
      · split
        · simp [h2]
        · split
          · exact canon_runBody _ _ (keeps _ _ h2)
          · exact canon_runBody _ _ (by simp [h2])

@[simp] theorem canon_reportBody (c : AdmCmd) (least : Nat) (record : Dev → Bytes) (r : AdmRun) (d : Dev) :
    Canon (reportBody c least record r d).1 = Canon d := by
  unfold reportBody
  split <;> rfl

end Sys2Proof.Machine
end

section
/-!
Turnstile rounds keep the tables in their canonical form (O60).
-/

namespace Sys2Proof.Machine

@[simp] theorem canon_takeBurst (b : Burst) (d : Dev) (h : Canon d = true) : Canon (takeBurst b d) = true := by
  unfold takeBurst
  cases b.prod <;> simp [h]

@[simp] theorem canon_discardBurst (code : Nat) (b : Burst) (d : Dev) (h : Canon d = true) :
    Canon (discardBurst code b d) = true := by
  unfold discardBurst
  cases b.prod <;> simp [h]

@[simp] theorem canon_admitBurst (qid : Nat) (b : Burst) (d : Dev) (h : Canon d = true) :
    Canon (admitBurst qid b d) = true :=
  canon_onQueue _ _ _ (canon_foldl_keeps _ _ (fun d i h => canon_admitItem _ _ _ h) _ (canon_readTail _ _ h))

@[simp] theorem canon_tryAdmit (qid : Nat) (b : Burst) (retain : Bool) (d : Dev) (h : Canon d = true) :
    Canon (tryAdmit qid b retain d) = true := by
  unfold tryAdmit
  extract_lets +onlyGivenNames q n
  split
  · exact h
  · extract_lets +onlyGivenNames d1 q1
    have h1 : Canon d1 = true := by unfold d1; split <;> simp [h]
    split
    · exact canon_takeBurst _ _ (canon_putQueue _ _ _ h1)
    · have h2 := canon_admitBurst qid b d1 h1
      split
      · simp only []
        split <;> simp [h2]
      · exact h1

@[simp] theorem canon_pushOne (gq : Nat) (p : Producer) (d : Dev) (h : Canon d = true) :
    Canon (pushOne gq p d) = true := by
  unfold pushOne
  extract_lets +onlyGivenNames qid
  split
  · exact h
  · split
    · exact canon_takeBurst _ _ (canon_onQueue _ _ _ h)
    · split
      · exact canon_discardBurst _ _ _ (canon_putQueue _ _ _ h)
      · extract_lets +onlyGivenNames q
        split
        · exact canon_discardBurst _ _ _ (canon_putQueue _ _ _ h)
        · extract_lets +onlyGivenNames d1 q1 mine
          have h1 : Canon d1 = true := by unfold d1; split <;> simp [h]
          split
          · exact canon_tryAdmit _ _ _ _ h1
          · split
            · exact canon_tryAdmit _ _ _ _ h1
            · exact canon_takeBurst _ _ (canon_putQueue _ _ _ h1)

theorem canon_mapDrains {g : Nat × DrainRing → Nat × DrainRing} (keeps : ∀ e, (g e).1 = e.1) (d : Dev) :
    Canon { d with rings.drains := d.rings.drains.map g } = Canon d := by
  simp only [canon_mk, canonOf, tblSorted_map_keys keeps]
  rfl

@[simp] theorem canon_cutConsumers (gq : Nat) (why : EsbCut) (d : Dev) (h : Canon d = true) :
    Canon (cutConsumers gq why d) = true := by
  unfold cutConsumers
  extract_lets +onlyGivenNames cut d1 q holds
  have hc : ∀ e d, Canon (cut e d) = Canon d := fun e d => by simp [cut]
  have h1 : Canon d1 = true := by simp [d1, hc, h]
  split
  · exact h1
  · extract_lets +onlyGivenNames f
    have hf : Canon f.2 = true := by simp [f, h1]
    refine canon_onQueue _ _ _ ((canon_mapDrains (fun e => ?_) f.2).trans hf)
    split
    · split <;> rfl
    · rfl

@[simp] theorem canon_noteRewound (gq n : Nat) (d : Dev) (h : Canon d = true) : Canon (noteRewound gq n d) = true := by
  refine canon_onQueue _ _ _ ((canon_mapDrains (fun e => ?_) d).trans h)
  split
  · split <;> rfl
  · rfl

@[simp] theorem canon_rtFails (srcs : List CtlSrc) (d : Dev) : Canon (rtFails srcs d) = Canon d :=
  canon_foldl _ _ (fun d s => by cases s <;> simp) d

@[simp] theorem canon_controlPhase (gq : Nat) (d : Dev) (h : Canon d = true) : Canon (controlPhase gq d) = true := by
  unfold controlPhase
  extract_lets +onlyGivenNames qid q c aborts live
  split
  · exact canon_putQueue _ _ _ h
  · extract_lets +onlyGivenNames q1 atRtx dropped d1 d2 d3 d4
    have h1 : Canon d1 = true := canon_putQueue _ _ _ h
    have h2 : Canon d2 = true := by unfold d2; split <;> simp [h1]
    have h3 : Canon d3 = true := by
      unfold d3
      split
      · exact h2
      · split <;> simp [h2]
    have h4 : Canon d4 = true := by unfold d4; split <;> simp [h3]
    exact canon_releaseUnused _ _ h4

@[simp] theorem canon_emptyPops (qid : Nat) (d : Dev) (h : Canon d = true) : Canon (emptyPops qid d) = true :=
  by simp [emptyPops, h]

@[simp] theorem canon_popEgress (e gq : Nat) (g : Option (BindEnt × Nat × Nat)) (d : Dev) (h : Canon d = true) :
    Canon (popEgress e gq g d) = true := by
  unfold popEgress
  extract_lets +onlyGivenNames qid q p
  split
  · simp [h]
  · extract_lets +onlyGivenNames ew room n
    split
    · exact h
    · extract_lets +onlyGivenNames d1 q1 t d2
      have h2 : Canon d2 = true := canon_releaseUnused _ _ (canon_putQueue _ _ _ (canon_readForPop _ _ _ h))
      simp [h2]

@[simp] theorem canon_popDrain (n gq : Nat) (d : Dev) (h : Canon d = true) : Canon (popDrain n gq d) = true := by
  unfold popDrain
  extract_lets +onlyGivenNames qid
  split
  · exact h
  · split
    · exact h
    · split
      · exact h
      · exact canon_releaseUnused _ _ (canon_putDrain _ _ _ (canon_putQueue _ _ _ (canon_readForPop _ _ _ h)))

@[simp] theorem canon_popPeer (qid : Nat) (d : Dev) (h : Canon d = true) : Canon (popPeer qid d) = true := by
  unfold popPeer
  extract_lets +onlyGivenNames q
  split
  · exact h
  · extract_lets +onlyGivenNames used k d1
    have h1 : Canon d1 = true := canon_readForPop _ _ _ h
    simp [h1]

@[simp] theorem canon_popPhase (gq : Nat) (d : Dev) (h : Canon d = true) : Canon (popPhase gq d) = true := by
  unfold popPhase
  extract_lets +onlyGivenNames qid d1
  have h1 : Canon d1 = true := canon_emptyPops _ _ h
  split
  · exact canon_popEgress _ _ _ _ h1
  · split
    · exact canon_popEgress _ _ _ _ h1
    · split
      · exact canon_popDrain _ _ _ h1
      · exact canon_popPeer _ _ h1

@[simp] theorem canon_wakeRound (qid : Nat) (was : Bool) (d : Dev) : Canon (wakeRound qid was d) = Canon d :=
  by simp [wakeRound]

@[simp] theorem canon_readCounters (qid : Nat) (d : Dev) (h : Canon d = true) : Canon (readCounters qid d) = true := by
  unfold readCounters
  extract_lets +onlyGivenNames q
  split
  · exact h
  · simp [h]

@[simp] theorem canon_readyCheck (qid : Nat) (d : Dev) (h : Canon d = true) : Canon (readyCheck qid d) = true := by
  unfold readyCheck
  simp only []
  split <;> simp [h]

@[simp] theorem canon_leaveDrains (d : Dev) : Canon (leaveDrains d) = Canon d :=
  canon_mapDrains (fun e => by split <;> rfl) d

@[simp] theorem canon_endRound (qid : Nat) (was : Bool) (d : Dev) (h : Canon d = true) :
    Canon (endRound qid was d) = true := by
  unfold endRound
  extract_lets +onlyGivenNames d1 d2 d3 d4 d5 d6
  have h1 : Canon d1 = true :=
    canon_readCheck _ _ (canon_spillAll _ (canon_spillCheck _ _ _ (canon_settleBare _ _ _ h)))
  have h3 : Canon d3 = true := by simp [d3, d2, h1]
  have h5 : Canon d5 = true := canon_readyCheck _ _ (canon_drainWaitCheck _ _ h3)
  have h6 : Canon d6 = true := canon_mirrorUpdate _ _ (canon_readCounters _ _ h5)
  simp [h6]

@[simp] theorem canon_roundBody (gq : Nat) (d : Dev) (h : Canon d = true) : Canon (roundBody gq d) = true :=
  canon_foldl_keeps _ _ (fun d p h => canon_pushOne _ _ _ h) _ (canon_popPhase _ _ (canon_controlPhase _ _ h))

@[simp] theorem canon_localRound (gq : Nat) (d : Dev) (h : Canon d = true) : Canon (localRound gq d) = true := by
  unfold localRound
  extract_lets +onlyGivenNames qid
  split
  · exact h
  · extract_lets +onlyGivenNames q st adm d1 breaks
    have h1 : Canon d1 = true := canon_roundBody _ _ h
    split
    · exact h
    · extract_lets +onlyGivenNames d2 d3 d4
      have h2 : Canon d2 = true := by
        unfold d2
        split
        · exact canon_roundBody _ _ (canon_writeUnseal _ h)
        · exact h1
      have h3 : Canon d3 = true := canon_endRound _ _ _ h2
      have h4 : Canon d4 = true := by unfold d4; split <;> simp [h3]
      simp [h4]

@[simp] theorem canon_sendBurst (gq : Nat) (b : Burst) (d : Dev) (h : Canon d = true) :
    Canon (sendBurst gq b d) = true := by
  simp [sendBurst, h]

@[simp] theorem canon_pushRemote (gq : Nat) (pr : Producer) (d : Dev) (h : Canon d = true) :
    Canon (pushRemote gq pr d) = true := by
  unfold pushRemote
  extract_lets +onlyGivenNames node qid
  split
  · exact h
  · extract_lets +onlyGivenNames p mine
    split
    · exact canon_discardBurst _ _ _ h
    · split
      · simp only []
        split <;> simp [h]
      · split
        · simp [h]
        · extract_lets +onlyGivenNames d1
          have h1 : Canon d1 = true := by unfold d1; split <;> simp [h]
          simp [h1]

@[simp] theorem canon_remoteRound (gq : Nat) (d : Dev) (h : Canon d = true) : Canon (remoteRound gq d) = true := by
  unfold remoteRound
  split
  · exact h
  · extract_lets +onlyGivenNames ps
    have h1 := canon_foldl_keeps _ ps (fun d p h => canon_pushRemote gq p d h) _ h
    simp [h1]

@[simp] theorem canon_turnstileRound (gq : Nat) (upsets : List (Nat × BitVec 74)) (d : Dev) (h : Canon d = true) :
    Canon (turnstileRound gq upsets d) = true := by
  simp [turnstileRound, h]

end Sys2Proof.Machine
end

section
/-!
Stream ports and crossings keep the tables in their canonical form (O60).
-/

namespace Sys2Proof.Machine

@[simp] theorem canon_tagBeat (i : Nat) (v : Nat) (d : Dev) : Canon (tagBeat i v d) = Canon d := by simp [tagBeat]

@[simp] theorem canon_storeBeat (i qid : Nat) (tag : Option Nat) (stamp : Nat) (eop : Bool) (v : BitVec 16) (d : Dev)
    :
    Canon (storeBeat i qid tag stamp eop v d) = Canon d := by simp [storeBeat]

@[simp] theorem canon_dataBeat (i : Nat) (eop : Bool) (v : BitVec 16) (d : Dev) :
    Canon (dataBeat i eop v d) = Canon d := by
  unfold dataBeat
  extract_lets +onlyGivenNames p
  split
  · simp
  · split
    · simp
    · simp only []
      split <;> simp

@[simp] theorem canon_portStall (k : Nat) (d : Dev) (h : Canon d = true) : Canon (portStall k d) = true :=
  by simp [portStall, h]

@[simp] theorem canon_captureBeat (i : Nat) (en tag eop : Bool) (v : BitVec 16) (d : Dev) (h : Canon d = true) :
    Canon (captureBeat i en tag eop v d) = true := by simp [captureBeat, h]

@[simp] theorem canon_watchReturn (i : Nat) (en tag eop : Bool) (v : BitVec 16) (d : Dev) :
    Canon (watchReturn i en tag eop v d) = Canon d := by simp [watchReturn]

@[simp] theorem canon_ingressBeat (i : Nat) (en tag eop : Bool) (v : BitVec 16) (d : Dev) (h : Canon d = true) :
    Canon (ingressBeat i en tag eop v d) = true := by simp [ingressBeat, h]

@[simp] theorem canon_flushPulse (i : Nat) (level : Bool) (d : Dev) : Canon (flushPulse i level d) = Canon d :=
  by simp [flushPulse]

@[simp] theorem canon_outPulse (e : Nat) (pin : PulsePin) (level : Bool) (d : Dev) :
    Canon (outPulse e pin level d) = Canon d := by
  unfold outPulse
  split
  · simp
  · simp only []
    split <;> simp

@[simp] theorem canon_latchPin (q : Option Nat) (f : Ctl → Ctl) (d : Dev) (h : Canon d = true) :
    Canon (latchPin q f d) = true := by
  unfold latchPin
  split <;> simp [h]

@[simp] theorem canon_latchAbort (i : Nat) (d : Dev) (h : Canon d = true) : Canon (latchAbort i d) = true := by
  unfold latchAbort
  have h1 := canon_foldl_keeps (fun d (e : Nat × Queue) =>
    if e.2.lock = some (.port i) && e.2.cfg.valid then requestAbort e.1 (.port i) d else d) d.queues
    (fun d e h => by split <;> simp [h]) d h
  exact canon_foldl_keeps _ _ (fun d e h => canon_foldl_keeps _ _ (fun d o h => by simp [h]) _ h) _ h1

@[simp] theorem canon_crossingLatch (k : Nat) (d : Dev) (h : Canon d = true) : Canon (crossingLatch k d) = true := by
  unfold crossingLatch
  extract_lets +onlyGivenNames x
  split
  · exact h
  · extract_lets +onlyGivenNames d1
    have h1 : Canon d1 = true := by simp [d1, h]
    split
    · exact canon_latchAbort _ _ h1
    · extract_lets +onlyGivenNames d2 d3 d4
      have h3 : Canon d3 = true := by simp [d3, d2, h1]
      simp [d4, h3]

@[simp] theorem canon_crossingFree (k : Nat) (d : Dev) : Canon (crossingFree k d) = Canon d := by simp [crossingFree]

@[simp] theorem canon_beatVisible (i : Nat) (d : Dev) (h : Canon d = true) : Canon (beatVisible i d) = true :=
  by simp [beatVisible, h]

@[simp] theorem canon_valueAccept (k : Nat) (kind : ValueKind) (d : Dev) : Canon (valueAccept k kind d) = Canon d := by
  unfold valueAccept
  split
  · simp
  · simp only []
    split <;> simp

@[simp] theorem canon_driveBeat (e : Nat) (v : BitVec 16) (eop tagv : Bool) (p : EPort) (d : Dev) :
    Canon (driveBeat e v eop tagv p d) = Canon d := by simp [driveBeat]

@[simp] theorem canon_afterBeat (e : Nat) (d : Dev) : Canon (afterBeat e d) = Canon d := by simp [afterBeat]

@[simp] theorem canon_mustTake (gq : Nat) (d : Dev) (h : Canon d = true) : Canon (mustTake gq d) = true :=
  by simp [mustTake, h]

@[simp] theorem canon_driveUnder (e : Nat) (u : EmptyItem) (p : EPort) (d : Dev) :
    Canon (driveUnder e u p d) = Canon d := by simp [driveUnder]

@[simp] theorem canon_driveEmpty (e gq : Nat) (p : EPort) (d : Dev) (h : Canon d = true) :
    Canon (driveEmpty e gq p d) = true := by simp [driveEmpty, h]

@[simp] theorem canon_readNothing (e : Nat) (p : EPort) (d : Dev) : Canon (readNothing e p d) = Canon d :=
  by simp [readNothing]

@[simp] theorem canon_egressRead (e : Nat) (d : Dev) (h : Canon d = true) : Canon (egressRead e d) = true := by
  unfold egressRead
  split
  · exact h
  · extract_lets +onlyGivenNames d1 p
    have h1 : Canon d1 = true := by simp [d1, h]
    split
    · simp [h1]
    · split
      · simp [h1]
      · split
        · split <;> simp [h1]
        · simp [h1]

@[simp] theorem canon_gatedPop (e : Nat) (hold : Bool) (d : Dev) (h : Canon d = true) :
    Canon (gatedPop e hold d) = true := by
  unfold gatedPop
  simp only []
  split <;> simp [h]

@[simp] theorem canon_egressPush (e : Nat) (hold : Bool) (d : Dev) (h : Canon d = true) :
    Canon (egressPush e hold d) = true := by
  unfold egressPush
  extract_lets +onlyGivenNames d0
  have h0 : Canon d0 = true := by unfold d0; split <;> simp [h]
  split
  · exact h0
  · extract_lets +onlyGivenNames d1 p p1
    have h1 : Canon d1 = true := by simp [d1, h0]
    split
    · simp [h1]
    · simp only []
      split
      · simp [h1]
      · split
        · simp [h1]
        · split
          · split <;> simp [h1]
          · simp [h1]

@[simp] theorem canon_returnEsb (e : Nat) (d : Dev) (h : Canon d = true) : Canon (returnEsb e d) = true := by
  unfold returnEsb
  exact canon_foldl_keeps _ _ (fun d x h => by simp [h]) _ (by simp [h])

@[simp] theorem canon_closeEgress (e : Nat) (np : Pce) (d : Dev) (h : Canon d = true) :
    Canon (closeEgress e np d) = true := by simp [closeEgress, h]

@[simp] theorem canon_openEgress (e : Nat) (np : Pce) (d : Dev) : Canon (openEgress e np d) = Canon d :=
  by simp [openEgress]

@[simp] theorem canon_changeEgress (e : Nat) (np : Pce) (d : Dev) : Canon (changeEgress e np d) = Canon d :=
  by simp [changeEgress]

@[simp] theorem canon_applyEgress (e : Nat) (np : Pce) (d : Dev) (h : Canon d = true) :
    Canon (applyEgress e np d) = true := by simp [applyEgress, h]

@[simp] theorem canon_applyCuts (e : Nat) (cuts : List (Nat × EsbCut)) (d : Dev) :
    Canon (applyCuts e cuts d) = Canon d := by simp [applyCuts, canon_foldl]

@[simp] theorem canon_armPair (n : Nat) (d : Dev) : Canon (armPair n d) = Canon d := by simp [armPair]

@[simp] theorem canon_armOpened (n : Nat) (d : Dev) : Canon (armOpened n d) = Canon d := by simp [armOpened]

@[simp] theorem canon_applyEvent (k : Nat) (ev : PortEv) (d : Dev) (h : Canon d = true) :
    Canon (applyEvent k ev d) = true := by
  unfold applyEvent
  cases ev with
  | commit pce remap take =>
    simp only []
    split
    · simp [h]
    · cases pce <;> simp [h]
  | arm => simp [h]
  | cut l => simp [h]

@[simp] theorem canon_portEventEffect (k : Nat) (d : Dev) (h : Canon d = true) : Canon (portEventEffect k d) = true := by
  unfold portEventEffect
  split <;> simp [h]

@[simp] theorem canon_reopenEgress (e : Nat) (d : Dev) : Canon (reopenEgress e d) = Canon d := by simp [reopenEgress]

@[simp] theorem canon_portReopen (k : Nat) (d : Dev) : Canon (portReopen k d) = Canon d := by simp [portReopen]

@[simp] theorem canon_handOver (n : Nat) (forced level : Bool) (d : Dev) :
    Canon (handOver n forced level d) = Canon d := by simp [handOver]

@[simp] theorem canon_forceHandOver (n : Nat) (d : Dev) : Canon (forceHandOver n d) = Canon d :=
  by simp [forceHandOver]

end Sys2Proof.Machine
end

section
/-!
Rings, doorbells and descriptors keep the tables in their canonical form (O60).
-/

namespace Sys2Proof.Machine

@[simp] theorem canon_armBind (b : BindEnt) (d : Dev) : Canon (armBind b d) = Canon d := by
  unfold armBind
  split <;> simp

@[simp] theorem canon_armRing (n : Nat) (d : Dev) : Canon (armRing n d) = Canon d := by simp [armRing, canon_foldl]

@[simp] theorem canon_endPeerXfer (qid tag : Nat) (done ret : Bool) (d : Dev) :
    Canon (endPeerXfer qid tag done ret d) = Canon d := by simp [endPeerXfer]

@[simp] theorem canon_ringWaits (n : Nat) (d : Dev) (h : Canon d = true) : Canon (ringWaits n d) = true := by
  unfold ringWaits
  exact canon_foldl_keeps _ _ (fun d x h => by simp [h]) _ (by simp [h])

theorem canon_fst_ite {γ : Type} {c : Prop} [Decidable c] {a b : Dev × γ} (ha : Canon a.1 = true) (hb : Canon b.1 =
    true) :
    Canon (if c then a else b).1 = true := by
  split
  · exact ha
  · exact hb

@[simp] theorem canon_ringCreate (c : AdmCmd) (r : AdmRun) (d : Dev) (h : Canon d = true) :
    Canon (ringCreate c r d).1 = true := by
  unfold ringCreate
  extract_lets +onlyGivenNames fl a0 kind id log2 cq base gen a2 inUse
  clear_value kind
  by_cases h3 : kind = 3
  · simpa [h3] using h
  · rw [if_neg h3]
    split
    · exact h
    · split
      · exact h
      · refine canon_fst_ite h ?_
        · simp only [canon_ends, canon_activity]
          split
          · simp [canonOf_eq, h]
          · simp [h]
          · exact canon_ringWaits _ _ (by simp [h])

@[simp] theorem canon_forsake (w : ReadFor) (d : Dev) : Canon (forsake w d) = Canon d := by simp [forsake]

@[simp] theorem canon_dropFill (f : Nat) (d : Dev) (h : Canon d = true) : Canon (dropFill f d) = true := by
  unfold dropFill
  have h1 : Canon { stopTimer (.desc f) (forsake (.fillDesc f) (forsake (.fillData f) d)) with
      rings.fills := tblErase d.rings.fills f } = true := by simp [canonOf_eq, h]
  exact canon_forgetDiscards _ _ (canon_abortOwned _ _ h1)

@[simp] theorem canon_returnXfer (x : Xfer) (d : Dev) (h : Canon d = true) : Canon (returnXfer x d) = true := by
  unfold returnXfer
  split <;> simp [h]

@[simp] theorem canon_dropDrain (n : Nat) (d : Dev) (h : Canon d = true) : Canon (dropDrain n d) = true := by
  unfold dropDrain
  simp only []
  have h1 : Canon { forsake (.drainDesc n) d with rings.drains := tblErase d.rings.drains n } = true := by
    simp [canonOf_eq, h]
  have h2 := canon_ringWaits n _ h1
  split
  · simp [h2]
  · exact h2

@[simp] theorem canon_dropComp (c : Nat) (d : Dev) (h : Canon d = true) : Canon (dropComp c d) = true :=
  by simp [dropComp, h, canonOf_eq]

@[simp] theorem canon_ringDelete (c : AdmCmd) (r : AdmRun) (d : Dev) (h : Canon d = true) :
    Canon (ringDelete c r d).1 = true := by
  unfold ringDelete
  extract_lets +onlyGivenNames id
  split
  · split
    · exact h
    · split
      · exact h
      · simp [h]
  · split <;> simp [h]
  · split <;> simp [h]
  · exact h

@[simp] theorem canon_sweepTimer (d : Dev) : Canon (sweepTimer d) = Canon d := by simp [sweepTimer]

@[simp] theorem canon_countStale (d : Dev) : Canon (countStale d) = Canon d := by simp [countStale]

@[simp] theorem canon_seeDoorbell (i : Nat) (w : DWord) (x : Bool × Dev) (h : Canon x.2 = true) :
    Canon (seeDoorbell i w x).2 = true := by
  unfold seeDoorbell
  extract_lets +onlyGivenNames d n
  have hd : Canon d = true := h
  split
  · split
    · exact h
    · simp only []
      split
      · simp [hd]
      · exact h
      · simp [hd]
      · simp only []
        split <;> simp [hd]
  · split
    · exact h
    · split
      · split
        · exact h
        · split
          · simp [hd]
          · exact h
          · simp [hd]
          · simp [hd]
      · split
        · split
          · exact h
          · split
            · simp [hd]
            · exact h
            · simp [hd]
            · simp [hd]
        · split
          · exact h
          · split
            · simp [hd]
            · exact h
            · simp [canonOf_eq, hd]
            · simp [canonOf_eq, hd]

@[simp] theorem canon_afterHeads (d : Dev) (h : Canon d = true) : Canon (afterHeads d) = true := by
  unfold afterHeads
  have h1 := canon_foldl_keeps (fun d (e : Nat × CompRing) => flushCe e.2.waiting.length e.1 d) d.rings.comps
    (fun d e h => canon_flushCe _ _ _ h) d h
  exact canon_pump _ (by simp [h1])

@[simp] theorem canon_endSweep (changed failed : Bool) (d : Dev) : Canon (endSweep changed failed d) = Canon d :=
  by simp [endSweep]

theorem canon_foldl_snd {β γ : Type} (f : γ × Dev → β → γ × Dev) (l : List β)
    (keeps : ∀ x b, Canon x.2 = true → Canon (f x b).2 = true) : ∀ x, Canon x.2 = true → Canon (l.foldl f x).2 = true
        := by
  induction l with
  | nil => intro x h; exact h
  | cons b l ih => intro x h; exact ih _ (keeps x b h)

@[simp] theorem canon_sweepBlock (block : List DWord) (d : Dev) (h : Canon d = true) :
    Canon (sweepBlock block d) = true := by
  unfold sweepBlock
  split
  · exact h
  · extract_lets +onlyGivenNames d1 x
    have h1 : Canon d1 = true := by simp [d1, h]
    have hx : Canon x.2 = true := canon_foldl_snd _ _ (fun x i h => canon_seeDoorbell _ _ x h) _ h1
    clear_value x
    exact canon_afterHeads _ (by simp [hx])

@[simp] theorem canon_refuseFill (f : Nat) (x : FillDesc) (status qid : Nat) (d : Dev) (h : Canon d = true) :
    Canon (refuseFill f x status qid d) = true := by
  unfold refuseFill
  split
  · exact h
  · extract_lets +onlyGivenNames _ cnt d1 d2
    have h1 : Canon d1 = true := canon_putFill _ _ _ h
    have h2 : Canon d2 = true := by unfold d2; split <;> simp [h1]
    exact canon_pump _ (by simp [h2])

@[simp] theorem canon_fillFetch (f : Nat) (d : Dev) (h : Canon d = true) : Canon (fillFetch f d) = true := by
  unfold fillFetch
  simp only []
  split
  all_goals try split
  all_goals simp [h]

@[simp] theorem canon_descTimeout (f : Nat) (d : Dev) (h : Canon d = true) : Canon (descTimeout f d) = true := by
  unfold descTimeout
  split
  · exact h
  · split
    · exact h
    · split
      · exact canon_finishFill _ _ _ _ (canon_abortRingOn _ _ _ h)
      · refine canon_refuseFill _ _ _ _ _ ?_
        split <;> simp [h]
      · simp [h]

@[simp] theorem canon_descLost (drain : Bool) (n : Nat) (d : Dev) (h : Canon d = true) :
    Canon (descLost drain n d) = true := by
  unfold descLost
  extract_lets +onlyGivenNames d1
  have h1 : Canon d1 = true := by simp [d1, h]
  split
  · split
    · exact h1
    · exact canon_pump _ (canon_postCe _ _ _ _ _ (canon_putDrain _ _ _ h1))
  · split
    · exact h1
    · exact canon_pump _ ((canon_armDesc _ _).trans
        (canon_postCe _ _ _ _ _ (canon_putFill _ _ _ (canon_abortOwned _ _ h1))))

@[simp] theorem canon_readFailed (r : ReadReq) (d : Dev) (h : Canon d = true) : Canon (readFailed r d) = true := by
  unfold readFailed
  split <;> simp [h]

@[simp] theorem canon_deliverFill (n f : Nat) (d : Dev) (h : Canon d = true) : Canon (deliverFill n f d) = true := by
  induction n generalizing d with
  | zero => simpa [deliverFill] using h
  | succ n ih =>
    unfold deliverFill
    split
    · exact h
    · split
      · exact h
      · simp only []
        split
        · exact ih _ (by simp [h])
        · exact ih _ (canon_putFill _ _ _ (by simp [h]))

@[simp] theorem canon_readArrived (r : ReadReq) (data : Bytes) (d : Dev) (h : Canon d = true) :
    Canon (readArrived r data d) = true := by
  unfold readArrived
  simp only []
  split
  all_goals try split
  all_goals simp [h]

@[simp] theorem canon_afterRead (d : Dev) (h : Canon d = true) : Canon (afterRead d) = true := by simp [afterRead, h]

@[simp] theorem canon_readCompletion (tag : Nat) (st : CplStatus) (data : Bytes) (d : Dev) (h : Canon d = true) :
    Canon (readCompletion tag st data d) = true := by
  unfold readCompletion
  split
  · exact h
  · split
    · simp [h]
    · refine canon_afterRead _ ?_
      cases st <;> simp [h]

@[simp] theorem canon_completionTimeout (tag : Nat) (d : Dev) (h : Canon d = true) :
    Canon (completionTimeout tag d) = true := by
  unfold completionTimeout
  split <;> simp [h]

@[simp] theorem canon_drainFetch (n : Nat) (d : Dev) (h : Canon d = true) : Canon (drainFetch n d) = true := by
  unfold drainFetch
  split
  · exact h
  · split
    · exact h
    · split
      · exact h
      · simp only []
        split
        · exact canon_pump _ (canon_postCe _ _ _ _ _ (canon_putDrain _ _ _ h))
        · exact canon_pump _ (canon_putDrain _ _ _ h)

@[simp] theorem canon_drainGrant (n : Nat) (d : Dev) (h : Canon d = true) : Canon (drainGrant n d) = true := by
  unfold drainGrant
  split
  · exact h
  · split
    · split
      · exact h
      · split
        · exact h
        · simp [h]
    · exact h

@[simp] theorem canon_drainWaitExpiry (qid : Nat) (d : Dev) (h : Canon d = true) :
    Canon (drainWaitExpiry qid d) = true := by simp [drainWaitExpiry, h]

@[simp] theorem canon_drainEnd (n : Nat) (d : Dev) (h : Canon d = true) : Canon (drainEnd n d) = true := by
  unfold drainEnd
  split
  · exact h
  · split
    · exact h
    · split
      · exact h
      · split
        · simp [h]
        · extract_lets +onlyGivenNames bs d1 d2 d3 d4
          have h2 : Canon d2 = true := by simp [d2, d1, h]
          have h3 : Canon d3 = true := canon_postCe _ _ _ _ _ h2
          have h4 : Canon d4 = true := by
            unfold d4
            split
            · simp only []
              split <;> simp [h3]
            · simp [h3]
          exact canon_pump _ h4

@[simp] theorem canon_irqTimer (c : Nat) (d : Dev) (h : Canon d = true) : Canon (irqTimer c d) = true := by
  unfold irqTimer
  split <;> simp [h, canonOf_eq]

@[simp] theorem canon_mirrorHold (qid : Nat) (d : Dev) (h : Canon d = true) : Canon (mirrorHold qid d) = true :=
  by simp [mirrorHold, h]

end Sys2Proof.Machine
end

section
/-!
Admin commands keep the tables in their canonical form (O60).
-/

namespace Sys2Proof.Machine

@[simp] theorem canon_queueCtl (f : Ctl → Ctl) (c : AdmCmd) (r : AdmRun) (d : Dev) (h : Canon d = true) :
    Canon (queueCtl f c r d).1 = true := by
  unfold queueCtl
  simp only []
  split <;> simp [h]

@[simp] theorem canon_flushBody (c : AdmCmd) (u1 : AdmRun) (d : Dev) (h : Canon d = true) :
    Canon (flushBody c u1 d).1 = true := by simp [flushBody, h]

@[simp] theorem canon_dropBody (c : AdmCmd) (u1 : AdmRun) (d : Dev) (h : Canon d = true) :
    Canon (dropBody c u1 d).1 = true := by simp [dropBody, h]

@[simp] theorem canon_markBody (c : AdmCmd) (u1 : AdmRun) (d : Dev) (h : Canon d = true) :
    Canon (markBody c u1 d).1 = true := by simp [markBody, h]

@[simp] theorem canon_rtxBody (c : AdmCmd) (u1 : AdmRun) (d : Dev) (h : Canon d = true) :
    Canon (rtxBody c u1 d).1 = true := by simp [rtxBody, h]

theorem canon_ringRecord {kind id : Nat} {clear : Bool} {d : Dev} {x : Bytes × Dev} (h : Canon d = true)
    (hx : ringRecord kind id clear d = some x) : Canon x.2 = true := by
  unfold ringRecord at hx
  split at hx
  · obtain ⟨r, _, rfl⟩ := Option.map_eq_some_iff.1 hx
    exact h
  · obtain ⟨r, _, rfl⟩ := Option.map_eq_some_iff.1 hx
    simp [h]
  · obtain ⟨r, _, rfl⟩ := Option.map_eq_some_iff.1 hx
    simp [h]
  · cases hx

@[simp] theorem canon_portRecord (k : Nat) (clear : Bool) (d : Dev) : Canon (portRecord k clear d).2 = Canon d :=
  by simp [portRecord]

@[simp] theorem canon_countersBody (c : AdmCmd) (r : AdmRun) (d : Dev) (h : Canon d = true) :
    Canon (countersBody c r d).1 = true := by
  unfold countersBody
  extract_lets +onlyGivenNames clear a0 addr
  split
  · simp [h]
  · split
    · exact h
    · simp [h]
  · split
    · exact h
    · split
      · exact h
      · next x hx => simp [canon_ringRecord h hx]
  · exact h

@[simp] theorem canon_unparkBody (c : AdmCmd) (u1 : AdmRun) (d : Dev) : Canon (unparkBody c u1 d).1 = Canon d := by
  unfold unparkBody
  simp only []
  split <;> simp

@[simp] theorem canon_logBody (c : AdmCmd) (u1 : AdmRun) (d : Dev) : Canon (logBody c u1 d).1 = Canon d := by
  unfold logBody
  split <;> simp

@[simp] theorem canon_invalidBody (u1 : AdmRun) (d : Dev) : Canon (invalidBody u1 d).1 = Canon d :=
  by simp [invalidBody]

@[simp] theorem canon_invalidOpcode (op : Nat) (c : AdmCmd) (d : Dev) (h : Canon d = true) :
    Canon (invalidOpcode op c d) = true := by
  unfold invalidOpcode
  split
  · exact h
  · exact canon_admin _ _ _ _ (fun r d h => by simp [h]) h

@[simp] theorem canon_relayedCommand (op : Nat) (c : AdmCmd) (buf : Bytes) (d : Dev) (h : Canon d = true) :
    Canon (relayedCommand op c buf d) = true := by
  unfold relayedCommand
  split
  · exact canon_admin _ _ _ _ (fun r d h => by simp [h]) h
  · exact h

@[simp] theorem canon_abandon (k : RunKind) (d : Dev) (h : Canon d = true) : Canon (abandon k d) = true := by
  unfold abandon
  split <;> simp [canonOf_eq, h]

@[simp] theorem canon_adminTimeout (d : Dev) (h : Canon d = true) : Canon (adminTimeout d) = true := by
  unfold adminTimeout
  split
  · exact h
  · split
    · split
      · exact h
      · simp [h]
    · split
      · exact h
      · exact h
      · split
        · split
          · exact h
          · simp [h]
        · exact canon_deliver _ _ _ (canon_abandon _ _ (by simp [h]))
      · exact canon_deliver _ _ _ (canon_abandon _ _ (by simp [h]))

@[simp] theorem canon_adminEnable (d : Dev) (h : Canon d = true) : Canon (adminEnable d) = true :=
  by simp [adminEnable, h]

@[simp] theorem canon_adminDisable (d : Dev) : Canon (adminDisable d) = Canon d := by
  unfold adminDisable
  simp only []
  split <;> simp

@[simp] theorem canon_setMirrorEn (v : Bool) (d : Dev) (h : Canon d = true) : Canon (setMirrorEn v d) = true :=
  by simp [setMirrorEn, h]

end Sys2Proof.Machine
end

section
/-!
Staging, check and commit keep the tables in their canonical form (O60).
-/

namespace Sys2Proof.Machine

theorem canon_staged {f : Stage → Stage} (sorted : ∀ s, tblSorted s.qtes = true → tblSorted (f s).qtes = true) (d :
    Dev)
    (h : Canon d = true) : Canon (staged f d) = true := by
  unfold staged
  have h1 := sorted _ (canon_at_stage_qtes h)
  have h2 := sorted _ (canon_at_epoch_during_qtes h)
  have h3 : tblSorted (if d.epoch.taken.isSome = true then f d.epoch.during else d.epoch.during).qtes = true := by
    split <;> simp [h, h2]
  simp [canonOf_eq, h, h1, h3]

theorem tblSorted_stageQtes (first : Nat) (cs : List QCfg) (t : Tbl QCfg) (h : tblSorted t = true) :
    tblSorted (stageQtes first cs t) = true := by
  induction cs generalizing first t with
  | nil => exact h
  | cons c cs ih => exact ih _ _ (tblSorted_put h _ _)

@[simp] theorem canon_stageQueues (c : AdmCmd) (buf : Bytes) (r : AdmRun) (d : Dev) (h : Canon d = true) :
    Canon (stageQueues c buf r d).1 = true := by
  unfold stageQueues
  extract_lets +onlyGivenNames first n
  split
  · exact h
  · simp only []
    split
    · exact h
    · exact canon_staged (fun s hs => tblSorted_stageQtes _ _ _ hs) d h

@[simp] theorem canon_stagePorts (c : AdmCmd) (buf : Bytes) (r : AdmRun) (d : Dev) (h : Canon d = true) :
    Canon (stagePorts c buf r d).1 = true := by
  unfold stagePorts
  extract_lets +onlyGivenNames mask ports
  split
  · exact h
  · exact canon_staged (fun _ hs => by exact hs) d h

@[simp] theorem canon_stageBindings (c : AdmCmd) (buf : Bytes) (r : AdmRun) (d : Dev) (h : Canon d = true) :
    Canon (stageBindings c buf r d).1 = true := by
  unfold stageBindings
  extract_lets +onlyGivenNames n
  split
  · exact h
  · simp only []
    split
    · exact h
    · exact canon_staged (fun _ hs => by exact hs) d h

@[simp] theorem canon_discardBody (r : AdmRun) (d : Dev) (h : Canon d = true) : Canon (discardBody r d).1 = true :=
  canon_staged (fun _ _ => rfl) d h

@[simp] theorem canon_checkBody (ew : List (Nat × BitVec 2)) (u1 : AdmRun) (d : Dev) :
    Canon (checkBody ew u1 d).1 = Canon d := by simp [checkBody]

@[simp] theorem canon_commitBody (ew : List (Nat × BitVec 2)) (r : AdmRun) (d : Dev) (h : Canon d = true) :
    Canon (commitBody ew r d).1 = true := by
  unfold commitBody
  split
  · exact h
  · simp [canonOf_eq, h]

@[simp] theorem canon_commitQte (qid : Nat) (cfg : QCfg) (now : Word) (seq : Nat) (d : Dev) (h : Canon d = true) :
    Canon (commitQte qid cfg now seq d) = true := by
  unfold commitQte
  extract_lets +onlyGivenNames gq d1 q d2 d3
  have h1 : Canon d1 = true := by unfold d1; split <;> simp [h]
  have h2 : Canon d2 = true := by simp [d2, h1]
  have h3 : Canon d3 = true := canon_releaseUnused _ _ h2
  simp [h3]

@[simp] theorem canon_commitPair (staged : List Nat) (n : Nat) (d : Dev) : Canon (commitPair staged n d) = Canon d :=
  by simp [commitPair]

@[simp] theorem canon_commitPorts (st : Stage) (old : Bindings) (stamp : Nat) (d : Dev) :
    Canon (commitPorts st old stamp d) = Canon d := by simp [commitPorts]

@[simp] theorem canon_commitDrains (old new : Bindings) (d : Dev) (h : Canon d = true) :
    Canon (commitDrains old new d) = true := by
  refine canon_foldl_keeps _ _ (fun d e h => ?_) _ h
  extract_lets +onlyGivenNames a b
  split
  · exact h
  · exact canon_foldl_keeps _ _ (fun d x h => by simp [h]) _ (canon_putDrain _ _ _ h)

@[simp] theorem canon_commitInstant (d : Dev) (h : Canon d = true) : Canon (commitInstant d) = true := by
  unfold commitInstant
  split
  · extract_lets +onlyGivenNames persists d1 now stamp old new was
    have h1 : Canon d1 = true := by unfold d1; split <;> simp [h]
    clear_value d1
    extract_lets +onlyGivenNames _ d2 d3 d4 d5 d6 d7 d8
    have h2 : Canon d2 = true := by
      have hs : tblSorted (stageAfter d1.epoch.during new).qtes = true := canon_at_epoch_during_qtes h1
      simp [d2, canonOf_eq, h1, hs]
    have h3 : Canon d3 = true := canon_foldl_keeps _ _ (fun d e h => canon_commitQte _ _ _ _ _ h) _ h2
    have h5 : Canon d5 = true := by simp [d5, d4, h3]
    have h6 : Canon d6 = true := canon_foldl_keeps _ _ (fun d b h => by split <;> simp [h]) _ h5
    have h7 : Canon d7 = true := by
      refine canon_foldl_keeps _ _ (fun d e h => ?_) _ h6
      extract_lets +onlyGivenNames c1 c2
      have hc1 : Canon c1 = true := canon_onQueue _ _ _ (canon_readCheck _ _ (canon_spillCheck _ _ _ h))
      have hc2 : Canon c2 = true := canon_drainWaitCheck _ _ ((canon_wakeRound _ _ _).trans hc1)
      split
      · exact canon_mirrorWrite _ _ hc2
      · exact hc2
    have h8 : Canon d8 = true := canon_finishRun _ _ _ h7
    simp [h8]
  · exact h

end Sys2Proof.Machine
end

section
/-!
Deep programs, seals and reads keep the tables in their canonical form (O60).
-/

namespace Sys2Proof.Machine

@[simp] theorem canon_onSeg (qid pos : Nat) (f : ChainSeg → ChainSeg) (d : Dev) (h : Canon d = true) :
    Canon (onSeg qid pos f d) = true := by simp [onSeg, h]

@[simp] theorem canon_readNearSeg (n : Nat) (d : Dev) (h : Canon d = true) : Canon (readNearSeg n d) = true := by
  unfold readNearSeg
  exact canon_foldl_keeps _ _ (fun d x h => by simp [h]) _ (by simp [h])

theorem canon_queueRelocation {seg : Nat} {d e : Dev} (h : Canon d = true) (he : queueRelocation seg d = some e) :
    Canon e = true := by
  unfold queueRelocation at he
  split at he
  · cases he
  · cases he; simp [h]

@[simp] theorem canon_retireDeepSeg (seg : Nat) (d : Dev) (h : Canon d = true) : Canon (retireDeepSeg seg d) = true := by
  have kept : ∀ e, Canon e = true → Canon ((queueRelocation seg e).getD e) = true := fun e he => by
    cases hq : queueRelocation seg e with
    | none => exact he
    | some x => exact canon_queueRelocation he hq
  unfold retireDeepSeg
  split
  · extract_lets +onlyGivenNames _ d1
    have h1 : Canon d1 = true := by unfold d1; split <;> exact h
    split
    · exact h1
    · exact kept _ h1
  · extract_lets +onlyGivenNames _ d1
    have h1 : Canon d1 = true := by unfold d1; split <;> exact h
    split
    · exact h1
    · exact kept _ h1
  · simp [h]

@[simp] theorem canon_hardFaultDeep (a : Nat) (d : Dev) (h : Canon d = true) : Canon (hardFaultDeep a d) = true := by
  unfold hardFaultDeep
  extract_lets +onlyGivenNames seg
  split
  · exact h
  · extract_lets +onlyGivenNames _ d1
    have h1 : Canon d1 = true := by simp [d1, h]
    split
    · exact canon_retireDeepSeg _ _ h1
    · split
      · exact canon_retireDeepSeg _ _ h1
      · simp [h1]

@[simp] theorem canon_twoBit (a : Nat) (d : Dev) (h : Canon d = true) : Canon (twoBit a d).2 = true := by
  unfold twoBit
  simp only []
  split
  all_goals try split
  all_goals simp [h]

@[simp] theorem canon_deepLost (a : Nat) (d : Dev) : Canon (deepLost a d) = Canon d := by simp [deepLost]

@[simp] theorem canon_debit (d : Dev) : Canon (debit d) = Canon d := by simp [debit]

@[simp] theorem canon_beginProgram (p : Prog) (seg : Nat) (d : Dev) : Canon (beginProgram p seg d) = Canon d :=
  by simp [beginProgram]

@[simp] theorem canon_claimSeg (seg : Nat) (d : Dev) : Canon (claimSeg seg d) = Canon d := by simp [claimSeg]

@[simp] theorem canon_dropCached (qid : Nat) (d : Dev) (h : Canon d = true) : Canon (dropCached qid d) = true := by
  unfold dropCached
  extract_lets +onlyGivenNames q
  split
  · exact h
  · split
    · split <;> simp [h]
    · exact h

@[simp] theorem canon_endSeal (status : Nat) (d : Dev) (h : Canon d = true) : Canon (endSeal status d) = true := by
  unfold endSeal
  split
  · exact h
  · extract_lets +onlyGivenNames mine d1
    have h1 : Canon d1 = true := canon_foldl_keeps _ _ (fun d p h => by split <;> simp [h]) _ h
    exact canon_finishRun _ _ _ (by simp [h1])

/-- A program that starts, leaves the line or waits leaves the tables in their form. -/
def Start.KeepsCanon : Start → Prop
  | .begun d => Canon d = true
  | .dropped d => Canon d = true
  | .waits d => Canon d = true
  | .blocked => True

theorem canon_startChain (p : Prog) (isSeal : Bool) (qid pos : Nat) (d : Dev) (h : Canon d = true) :
    (startChain p isSeal qid pos d).KeepsCanon := by
  have gone : Canon (onQueue qid (setProg pos .none) d) = true := canon_onQueue _ _ _ h
  unfold startChain
  simp only []
  split
  · exact gone
  · split
    · exact gone
    · split
      · exact gone
      · have hc : Canon (if isSeal = true then d else dropCached qid d) = true := by split <;> simp [h]
        generalize (if isSeal = true then d else dropCached qid d) = e at hc
        generalize (if (!slotUsable e (queueOf e qid).cfg.slot.toNat) = true then none
          else if isSeal = true then chooseDeep e
          else if deepCopies e qid (queueOf e qid) < (queueOf e qid).cfg.deepQuota then takeDeep e else none) = own
        cases own with
        | some g =>
          simp only []
          split
          · trivial
          · refine (canon_beginProgram ..).trans ((canon_claimSeg ..).trans (canon_onQueue _ _ _ ?_))
            split <;> simp [hc]
        | none =>
          simp only []
          split
          · exact canon_endSeal _ _ (canon_onQueue _ _ _ hc)
          · split
            · exact (canon_sendSeq ..).trans (by simp [hc])
            · split
              · exact hc
              · exact canon_onQueue _ _ _ hc

theorem canon_startOne (p : Prog) (d : Dev) (h : Canon d = true) : (startOne p d).KeepsCanon := by
  unfold startOne
  split
  · split
    · exact h
    · exact canon_startChain _ _ _ _ _ h
  · exact canon_startChain _ _ _ _ _ h
  · split
    · exact h
    · split
      · trivial
      · exact (canon_beginProgram ..).trans (by simp [h])
  · extract_lets +onlyGivenNames live
    clear_value live
    split
    · show Canon _ = true
      split <;> simp [h]
    · split
      · show Canon _ = true
        simp [h]
      · exact (canon_beginProgram ..).trans ((canon_claimSeg ..).trans (by simp [h]))
  · exact h

@[simp] theorem canon_scanProgs (kept ps : List Prog) (d : Dev) (h : Canon d = true) :
    Canon (scanProgs kept ps d) = true := by
  induction ps generalizing kept d with
  | nil => simp [scanProgs, h]
  | cons p ps ih =>
    have hs := canon_startOne p d h
    unfold scanProgs
    cases hp : startOne p d with
    | begun e =>
      rw [hp] at hs
      have he : Canon e = true := hs
      simp only []
      split
      · exact ih _ _ h
      · simp [he]
    | dropped e => rw [hp] at hs; exact ih _ _ hs
    | waits e => rw [hp] at hs; exact ih _ _ hs
    | blocked => simp [h]

@[simp] theorem canon_programStart (d : Dev) (h : Canon d = true) : Canon (programStart d) = true :=
  by simp [programStart, h]

@[simp] theorem canon_sealCheck (d : Dev) (h : Canon d = true) : Canon (sealCheck d) = true := by
  unfold sealCheck
  split
  · exact h
  · split
    · exact h
    · split
      · exact canon_endSeal _ _ h
      · exact canon_endSeal _ _ (canon_flushJournal _ (canon_addRecord _ _ h))

@[simp] theorem canon_sealProgress (qid pos : Nat) (counts : Bool) (d : Dev) (h : Canon d = true) :
    Canon (sealProgress qid pos counts d) = true := by
  unfold sealProgress
  split <;> simp [h]

@[simp] theorem canon_releaseNear (qid pos : Nat) (d : Dev) (h : Canon d = true) :
    Canon (releaseNear qid pos d) = true := by
  unfold releaseNear
  split <;> simp [h]

@[simp] theorem canon_writeCells (seg slot : Nat) (ew : BitVec 2) (is : List Item) (d : Dev) :
    Canon (writeCells seg slot ew is d) = Canon d := by simp [writeCells]

@[simp] theorem canon_verifiedChain (p : Prog) (isSeal : Bool) (qid pos seg : Nat) (d : Dev) (h : Canon d = true) :
    Canon (verifiedChain p isSeal qid pos seg d) = true := by
  unfold verifiedChain
  extract_lets +onlyGivenNames q
  split
  · exact canon_freeDeep _ _ _ _ h
  · extract_lets +onlyGivenNames r d1 _ d2 d3 d4
    have h1 : Canon d1 = true := canon_onSeg _ _ _ _ h
    have h2 : Canon d2 = true := (canon_writeCells ..).trans h1
    have h3 : Canon d3 = true := by unfold d3; split <;> simp [h2]
    have h4 : Canon d4 = true := by unfold d4; split <;> simp [h3]
    exact canon_sealProgress _ _ _ _ h4

@[simp] theorem canon_verifiedLoan (loan node seg : Nat) (data : Bytes) (d : Dev) (h : Canon d = true) :
    Canon (verifiedLoan loan node seg data d) = true := by
  unfold verifiedLoan
  split
  · exact canon_freeDeep _ _ _ _ h
  · extract_lets +onlyGivenNames l src d1 d2
    have h1 : Canon d1 = true := by simp [d1, src, canonOf_eq, h]
    have h2 : Canon d2 = true := by
      unfold d2
      split
      · exact canon_flushJournal _ (canon_addRecord _ _ h1)
      · exact h1
    simp [h2]

@[simp] theorem canon_verifiedMove (p : Prog) (source seg : Nat) (d : Dev) (h : Canon d = true) :
    Canon (verifiedMove p source seg d) = true := by
  unfold verifiedMove
  split
  · extract_lets +onlyGivenNames q
    split
    · exact canon_freeDeep _ _ _ _ h
    · extract_lets +onlyGivenNames named d1 _ d2 _ d3 d4
      have h1 : Canon d1 = true := canon_onSeg _ _ _ _ h
      have h3 : Canon d3 = true := by
        unfold d3
        split
        · exact (canon_writeCells ..).trans h1
        · exact h1
      have h4 : Canon d4 = true := by unfold d4; split <;> simp [h3]
      exact canon_freeDeep _ _ _ _ h4
  · split
    · exact canon_freeDeep _ _ _ _ h
    · extract_lets +onlyGivenNames l src d1 d2
      have h1 : Canon d1 = true := by simp [d1, src, canonOf_eq, h]
      have h2 : Canon d2 = true := by unfold d2; split <;> simp [h1]
      exact canon_freeDeep _ _ _ _ h2
  · exact canon_freeDeep _ _ _ _ h

@[simp] theorem canon_programFailed (p : Prog) (seg : Nat) (d : Dev) (h : Canon d = true) :
    Canon (programFailed p seg d) = true := by
  unfold programFailed
  extract_lets +onlyGivenNames f d1 bad
  have h1 : Canon d1 = true := by simp [d1, f, h]
  split
  · refine (canon_sendSeq ..).trans ((canon_onPeer ..).trans (canon_hardFaultDeep _ _ ?_))
    simp [canonOf_eq, h1]
  · have h2 : Canon (hardFaultDeep (seg * 128 + bad) { d1 with tier.deep := tblErase d1.tier.deep seg }) = true :=
      canon_hardFaultDeep _ _ (by simp [h1])
    generalize hardFaultDeep (seg * 128 + bad) _ = e at h2
    have h3 : ∀ w : ProgFor, Canon (match w with
      | .spill qid pos => onQueue qid (setProg pos .queued) e
      | .seal qid pos => onQueue qid (setProg pos (if p.spills then .queued else .kept false)) e
      | _ => e) = true := fun w => by split <;> simp [h2]
    exact (canon_mk ..).trans ((canonOf_fields _).trans (h3 _))

@[simp] theorem canon_programVerified (seg : Nat) (ok : Bool) (d : Dev) (h : Canon d = true) :
    Canon (programVerified seg ok d) = true := by
  unfold programVerified
  split
  · exact h
  · extract_lets +onlyGivenNames _ d1 d2
    have h1 : Canon d1 = true := h
    have h2 : Canon d2 = true := by
      unfold d2
      split
      · exact canon_programFailed _ _ _ h1
      · split <;> simp [h1]
    exact canon_settleKeys _ h2

@[simp] theorem canon_readSector (qid pos seg k : Nat) (r : DeepRead) (d : Dev) (h : Canon d = true) :
    Canon (readSector qid pos seg k r d) = true := by
  unfold readSector
  split <;> simp [h]

theorem canon_arriveNear (qid pos gen : Nat) {f : Dev → Dev} (keeps : ∀ d, Canon d = true → Canon (f d) = true) (d :
    Dev)
    (h : Canon d = true) : Canon (arriveNear qid pos gen f d) = true := by
  unfold arriveNear
  split
  · exact h
  · next takes =>
    have he := canon_takeNear h takes
    extract_lets +onlyGivenNames d1 q d2
    have h1 : Canon d1 = true := keeps _ (by simp [he])
    have h2 : Canon d2 = true := by unfold d2; split <;> simp [h1]
    exact canon_settleKeys _ h2

@[simp] theorem canon_deepRead (qid pos : Nat) (reads : List DeepRead) (d : Dev) (h : Canon d = true) :
    Canon (deepRead qid pos reads d) = true := by
  unfold deepRead
  extract_lets +onlyGivenNames q
  split
  · exact h
  · split
    · exact h
    · split
      · exact h
      · split
        · exact h
        · exact canon_arriveNear _ _ _ (fun d h => canon_foldl_keeps _ _ (fun d k h => canon_readSector _ _ _ _ _ _
            h) _ h) _ h

@[simp] theorem canon_journalTimer (d : Dev) (h : Canon d = true) : Canon (journalTimer d) = true :=
  by simp [journalTimer, h]

@[simp] theorem canon_setBurst (v : Nat) (d : Dev) : Canon (setBurst v d) = Canon d := by simp [setBurst]

@[simp] theorem canon_sealStart (d : Dev) (h : Canon d = true) : Canon (sealStart d) = true := by
  unfold sealStart
  extract_lets +onlyGivenNames d1 d2 work new mine took d3 asked
  have h2 : Canon d2 = true := by unfold d2; split <;> simp [d1, h]
  have h3 : Canon d3 = true := canon_foldl_keeps _ _ (fun d x h => canon_onQueue _ _ _ h) _ h2
  exact canon_sealCheck _ (by simp [h3])

@[simp] theorem canon_sealBody (r : AdmRun) (d : Dev) (h : Canon d = true) : Canon (sealBody r d).1 = true := by
  unfold sealBody
  simp only []
  split
  all_goals try split
  all_goals simp [h]

end Sys2Proof.Machine
end

section
/-!
Scrub walks and checker test mode keep the tables in their canonical form (O60).
-/

namespace Sys2Proof.Machine

@[simp] theorem canon_nearGroup (g : Nat) (d : Dev) (h : Canon d = true) : Canon (nearGroup g d) = true := by
  unfold nearGroup
  exact canon_foldl_keeps _ _ (fun d x h => by simp [h]) _ (by simp [h])

@[simp] theorem canon_scrubNear (upsets : List (Nat × BitVec 74)) (d : Dev) (h : Canon d = true) :
    Canon (scrubNear upsets d) = true := by
  unfold scrubNear
  extract_lets +onlyGivenNames d1
  have h1 : Canon d1 = true := by simp [d1, h]
  split
  · exact h1
  · extract_lets +onlyGivenNames d2 d3
    have h3 : Canon d3 = true := by unfold d3; split <;> simp [d2, h1]
    split
    · exact h3
    · next g _ =>
      extract_lets +onlyGivenNames d4
      have h4 : Canon d4 = true := canon_nearGroup _ _ h3
      split
      · exact h4
      · exact (canon_stopTimer ..).trans h4

@[simp] theorem canon_deferMove (d : Dev) : Canon (deferMove d) = Canon d := by simp [deferMove]

@[simp] theorem canon_moveAway (seg : Nat) (d : Dev) (h : Canon d = true) : Canon (moveAway seg d) = true := by
  unfold moveAway
  extract_lets +onlyGivenNames move
  have hm : Canon move = true := by
    unfold move
    split
    · exact h
    · cases hq : queueRelocation seg d with
      | none => simp [h]
      | some e => exact canon_queueRelocation h hq
  clear_value move
  split
  · extract_lets +onlyGivenNames q
    split
    · exact h
    · split
      · split
        · exact canon_freeDeep _ _ _ _ (canon_onSeg _ _ _ _ h)
        · exact h
      · split
        · simp [h]
        · exact hm
  · exact hm
  · exact h

@[simp] theorem canon_scrubLost (a : Nat) (d : Dev) (h : Canon d = true) : Canon (scrubLost a d) = true := by
  unfold scrubLost
  simp only []
  split
  all_goals try split
  all_goals simp [h]

@[simp] theorem canon_deepGroup (a : Nat) (r : DeepRead) (d : Dev) (h : Canon d = true) :
    Canon (deepGroup a r d) = true := by
  unfold deepGroup
  split <;> simp [h]

@[simp] theorem canon_scrubDeep (r : DeepRead) (d : Dev) (h : Canon d = true) : Canon (scrubDeep r d) = true := by
  unfold scrubDeep
  split
  · exact h
  · extract_lets +onlyGivenNames d2 d3
    have h3 : Canon d3 = true := by unfold d3; split <;> simp [d2, h]
    split
    · exact h3
    · next a _ =>
      extract_lets +onlyGivenNames d4
      have h4 : Canon d4 = true := canon_deepGroup _ _ _ h3
      split
      · exact canon_settleKeys _ h4
      · exact canon_settleKeys _ ((canon_stopTimer ..).trans h4)

@[simp] theorem canon_eccGo (op : Nat) (deep valid : Bool) (index : Nat) (d : Dev) (h : Canon d = true) :
    Canon (eccGo op deep valid index d) = true := by
  unfold eccGo
  extract_lets +onlyGivenNames i _ d1
  have h1 : Canon d1 = true := h
  clear_value d1
  split
  · exact h1
  · extract_lets +onlyGivenNames _ d2 e
    have h2 : Canon d2 = true := h1
    have he : e = d2.ecc := rfl
    clear_value d2 e
    subst he
    split
    · simp_all [canonOf_eq]
    · exact h2
    · exact h2
    · exact h2

@[simp] theorem canon_eccDone (d : Dev) : Canon (eccDone d) = Canon d := by
  unfold eccDone
  split
  · simp
  · simp only []
    split <;> simp

@[simp] theorem canon_eccCommand (op : Nat) (deep valid : Bool) (index : Nat) (d : Dev) (h : Canon d = true) :
    Canon (eccCommand op deep valid index d) = true := by simp [eccCommand, h]

end Sys2Proof.Machine
end

section
/-!
Fuse operations keep the tables in their canonical form (O60).
-/

namespace Sys2Proof.Machine

@[simp] theorem canon_takeSsid (d : Dev) : Canon (takeSsid d) = Canon d := by simp [takeSsid]

@[simp] theorem canon_senseFuses (d : Dev) : Canon (senseFuses d) = Canon d := by simp [senseFuses]

@[simp] theorem canon_romStep (d : Dev) : Canon (romStep d) = Canon d := by simp [romStep]

@[simp] theorem canon_fuseCtl (op mode word row : Nat) (d : Dev) : Canon (fuseCtl op mode word row d) = Canon d :=
  by simp [fuseCtl]

@[simp] theorem canon_burnStart (row word : Nat) (outcomes : List BurnOutcome) (d : Dev) :
    Canon (burnStart row word outcomes d) = Canon d := by simp [burnStart]

@[simp] theorem canon_markBit (row : Nat) (x : Nat × BurnOutcome) (d : Dev) (h : Canon d = true) :
    Canon (markBit row x d) = true := by simp [markBit, h, canonOf_eq]

@[simp] theorem canon_burnEnd (b : BurnRun) (d : Dev) (h : Canon d = true) : Canon (burnEnd b d) = true := by
  unfold burnEnd
  extract_lets +onlyGivenNames d1 weak _ d2
  have h1 : Canon d1 = true := canon_foldl_keeps _ _ (fun d x h => canon_markBit _ _ _ h) _ h
  have h2 : Canon d2 = true := h1
  clear_value d1 d2
  split <;> exact h2

@[simp] theorem canon_fuseResult (code : Nat) (d : Dev) : Canon (fuseResult code d) = Canon d := by simp [fuseResult]

@[simp] theorem canon_readEnd (mode : BitVec 2) (row : BitVec 8) (d : Dev) : Canon (readEnd mode row d) = Canon d :=
  by simp [readEnd]

@[simp] theorem canon_redirectEnd (row : BitVec 8) (d : Dev) : Canon (redirectEnd row d) = Canon d := by
  unfold redirectEnd
  split <;> simp

@[simp] theorem canon_fuseDone (d : Dev) (h : Canon d = true) : Canon (fuseDone d) = true := by
  unfold fuseDone
  split
  · exact h
  · split
    · exact canon_burnEnd _ _ h
    · split
      · exact h
      · split
        · exact h
        · split
          · exact (canon_redirectEnd ..).trans h
          · exact (canon_readEnd ..).trans h

@[simp] theorem canon_fuseGo (op mode word row : Nat) (outcomes : List BurnOutcome) (d : Dev) :
    Canon (fuseGo op mode word row outcomes d) = Canon d := by simp [fuseGo]

@[simp] theorem canon_cutFuse (record : Bool) (d : Dev) (h : Canon d = true) : Canon (cutFuse record d) = true := by
  unfold cutFuse
  split
  · extract_lets +onlyGivenNames f d1 k done d2 _ d3
    have h1 : Canon d1 = true := h
    have h2 : Canon d2 = true := canon_foldl_keeps _ _ (fun d x h => canon_markBit _ _ _ h) _ h1
    have h3 : Canon d3 = true := h2
    clear_value d2 d3
    split <;> exact h3
  · exact h

@[simp] theorem canon_setLock (v : BitVec 8) (d : Dev) : Canon (setLock v d) = Canon d := by simp [setLock]

@[simp] theorem canon_setShadow (off : Nat) (v : Word) (d : Dev) : Canon (setShadow off v d) = Canon d :=
  by simp [setShadow]

end Sys2Proof.Machine
end

section
/-!
Key commands keep the tables in their canonical form (O60).
-/

namespace Sys2Proof.Machine

@[simp] theorem canon_keyLoadBody (c : AdmCmd) (buf : Bytes) (r : AdmRun) (d : Dev) (h : Canon d = true) :
    Canon (keyLoadBody c buf r d).1 = true := by
  unfold keyLoadBody
  extract_lets +onlyGivenNames slot k
  repeat' split
  all_goals first
    | exact h
    | exact canon_settleKey _ _ (canon_writeKeyRecord _ (canon_putSlot _ _ _ h))

@[simp] theorem canon_eraseUnseal (slot : Nat) (d : Dev) (h : Canon d = true) : Canon (eraseUnseal slot d) = true :=
  by simp [eraseUnseal, h]

@[simp] theorem canon_keyEraseBody (c : AdmCmd) (r : AdmRun) (d : Dev) (h : Canon d = true) :
    Canon (keyEraseBody c r d).1 = true := by
  unfold keyEraseBody
  extract_lets +onlyGivenNames slot
  split
  · exact h
  · split
    · exact h
    · split
      · exact h
      · exact canon_eraseUnseal _ _ h

@[simp] theorem canon_eraseNear (q : Queue) (d : Dev) : Canon (eraseNear q d) = Canon d :=
  by simp [eraseNear, canon_foldl]

@[simp] theorem canon_eraseFill (slot : Nat) (e : Nat × FillRing) (d : Dev) (h : Canon d = true) :
    Canon (eraseFill slot e d) = true := by
  unfold eraseFill
  split <;> simp [h]

@[simp] theorem canon_eraseBorrow (slot : Nat) (p : Prog) (d : Dev) (h : Canon d = true) :
    Canon (eraseBorrow slot p d) = true := by
  unfold eraseBorrow
  split
  · split
    · exact h
    · extract_lets +onlyGivenNames _ d1
      have h1 : Canon d1 = true := canon_onQueue _ _ _ h
      clear_value d1
      split
      · exact (canon_sendSeq ..).trans h1
      · exact h1
  · exact h

@[simp] theorem canon_eraseProg (slot : Nat) (p : Prog) (d : Dev) (h : Canon d = true) :
    Canon (eraseProg slot p d) = true := by
  unfold eraseProg
  split <;> simp [h]

@[simp] theorem canon_eraseInstant (d : Dev) (h : Canon d = true) : Canon (eraseInstant d) = true := by
  unfold eraseInstant
  split
  · exact h
  · next slot _ =>
    split
    · exact h
    · extract_lets +onlyGivenNames d1 n bound d2 d3 _ d4 d5 d6 d7
      have h1 : Canon d1 = true := canon_eraseUnseal _ _ h
      have h2 : Canon d2 = true := canon_writeKeyRecord _ (canon_putSlot _ _ _ h1)
      have h3 : Canon d3 = true :=
        canon_foldl_keeps _ _ (fun d e h => canon_onQueue _ _ _ ((canon_eraseNear ..).trans h)) _ h2
      have h4 : Canon d4 = true :=
        (canon_mapDrains (g := fun e => (e.1, eraseXfer d3 slot e.2)) (fun _ => rfl) d3).trans h3
      have h5 : Canon d5 = true := canon_foldl_keeps _ _ (fun d e h => canon_eraseFill _ _ _ h) _ h4
      have h6 : Canon d6 = true :=
        canon_foldl_keeps _ _ (fun d p h => canon_eraseProg _ _ _ (canon_eraseBorrow _ _ _ h)) _ h5
      have h7 : Canon d7 = true := canon_writeKeyRecord _ h6
      clear_value d7
      exact canon_finishRun _ _ _ h7

@[simp] theorem canon_keyStatusBody (c : AdmCmd) (u1 : AdmRun) (d : Dev) : Canon (keyStatusBody c u1 d).1 = Canon d := by
  unfold keyStatusBody
  split <;> simp

@[simp] theorem canon_deriveKeys (d : Dev) : Canon (deriveKeys d) = Canon d := by simp [deriveKeys]

theorem slotsWf_storedKeys {d : Dev} (h : Canon d = true) {r : KeyRec} (hr : storedKeys d = some r) :
    slotsWf r.slots = true := by
  unfold storedKeys at hr
  simp only [] at hr
  split at hr
  · cases hr; exact canon_at_keys_recB_slots h
  · split at hr
    · cases hr; exact canon_at_keys_recA_slots h
    · cases hr

@[simp] theorem canon_restoreKeys (lost : Bool) (d : Dev) (h : Canon d = true) : Canon (restoreKeys lost d) = true := by
  unfold restoreKeys
  split
  · simp [canonOf_eq, h]
  · split
    · next hr _ => simp [canonOf_eq, h, slotsWf_storedKeys h hr]
    · extract_lets +onlyGivenNames f
      refine (canon_logRec ..).trans ?_
      have hf : Canon f.2 = true := h
      simp [canonOf_eq, hf]

end Sys2Proof.Machine
end

section
/-!
Boot step 9 keeps the tables in their canonical form (O60).
-/

namespace Sys2Proof.Machine

@[simp] theorem canon_replayFault (a : Nat) (d : Dev) : Canon (replayFault a d) = Canon d := by
  unfold replayFault
  split <;> simp

@[simp] theorem canon_rebuildRemap (d : Dev) : Canon (rebuildRemap d) = Canon d :=
  by simp [rebuildRemap, canon_foldl]

@[simp] theorem canon_backNear (d : Dev) (h : Canon d = true) : Canon (backNear d) = true := by
  refine canon_foldl_keeps _ _ (fun d e h => canon_foldl_keeps _ _ (fun d s h => ?_) _ h) _ h
  split
  · exact canon_onQueue _ _ _ h
  · exact h

@[simp] theorem canon_releaseMapped (x : Replay) (kept : List Nat) (d : Dev) (h : Canon d = true) :
    Canon (releaseMapped x kept d) = true :=
  canon_foldl_keeps _ _ (fun _ _ h => canon_foldl_keeps _ _ (fun _ _ h => canon_freeDeep _ _ _ _ h) _ h) _ h

@[simp] theorem canon_releaseLoans (x : Replay) (d : Dev) (h : Canon d = true) : Canon (releaseLoans x d) = true := by
  refine canon_foldl_keeps _ _ (fun d e h => canon_foldl_keeps _ _ (fun d s h => ?_) _ h) _ h
  split
  · exact h
  · exact canon_giveLoan _ _ _ _ _ h

theorem tblSorted_replayRec {x : Replay} (h : tblSorted x.loans = true) (r : JRec) :
    tblSorted (replayRec x r).loans = true := by
  cases r <;> simp [replayRec, h]

theorem tblSorted_replay {d : Dev} (h : Canon d = true) : tblSorted (replay d).loans = true := by
  have him := canon_at_image h
  unfold replay
  split
  · rfl
  · next im hd =>
    have sorted : tblSorted im.qtes = true ∧ tblSorted im.loans = true := by simpa [hd] using him
    exact List.foldlRecOn (motive := fun x : Replay => tblSorted x.loans = true) _ _ sorted.2 fun x h r _ =>
        tblSorted_replayRec h r

theorem restoredQueue_fst (d : Dev) (x : Replay) (clean : Bool) (e : Nat × QCfg) :
    (restoredQueue d x clean e).1 = e.1 := by
  unfold restoredQueue
  extract_lets +onlyGivenNames ms held
  clear_value ms held
  split
  · rfl
  · split <;> rfl

theorem queuesWf_filter {t : Tbl Queue} (h : tblSorted t = true) : queuesWf (t.filter fun e => e.2 ≠ {}) = true := by
  unfold queuesWf tblWf
  simp [tblSorted_filter _ h]

theorem canon_restoreTier (x : Replay) (hx : tblSorted x.loans = true) (clean : Bool) (d : Dev) (h : Canon d = true) :
    Canon (restoreTier x clean d) = true := by
  have him := canon_at_image h
  have hq : tblSorted (((d.tier.image.map (·.qtes)).getD []).map (restoredQueue d x clean)) = true := by
    rw [tblSorted_map_keys (restoredQueue_fst d x clean)]
    cases hd : d.tier.image with
    | none => rfl
    | some im =>
      have sorted : tblSorted im.qtes = true ∧ tblSorted im.loans = true := by simpa [hd] using him
      exact sorted.1
  unfold restoreTier
  extract_lets +onlyGivenNames qs loans kept named src d1 d2 d3 pend _ d4
  have h1 : Canon d1 = true := by
    have hl : tblSorted loans = true := tblSorted_filter _ hx
    have hw : queuesWf (qs.filter fun e => e.2 ≠ {}) = true := queuesWf_filter hq
    simp only [d1, src, canon_mk, canonOf_eq]
    simpa [h, hl] using hw
  have h2 : Canon d2 = true := canon_backNear _ (canon_releaseLoans _ _ (canon_releaseMapped _ _ _ h1))
  have h3 : Canon d3 = true := canon_foldl_keeps _ _ (fun d e h => canon_releaseUnused _ _ h) _ h2
  have h4 : Canon d4 = true := canon_foldl_keeps _ _ (fun d s h => canon_retireDeepSeg _ _ h) _ h3
  clear_value d4
  refine canon_foldl_keeps _ _ (fun d s h => ?_) _ h4
  split <;> simp [h]

theorem canon_wear (wear : Tbl Nat) (since : Nat) (estimated : Bool) (d : Dev) :
    Canon { d with tier.wear := wear, tier.wearSince := since, tier.estimated := estimated } = Canon d := rfl

@[simp] theorem canon_restoreWear (lost clean : Bool) (d : Dev) : Canon (restoreWear lost clean d) = Canon d := by
  unfold restoreWear
  split
  · exact canon_wear ..
  · split
    · exact canon_wear ..
    · split
      · exact canon_wear ..
      · exact canon_wear ..

@[simp] theorem canon_restoreLevel (x : Replay) (clean : Bool) (d : Dev) : Canon (restoreLevel x clean d) = Canon d :=
  by simp [restoreLevel]

theorem canon_settleSet (n : Nat) (c : CheckSet) (d : Dev) : Canon (settleSet n c d).2 = Canon d := by
  induction n generalizing c d with
  | zero => rfl
  | succ n ih =>
    unfold settleSet
    split
    · rfl
    · exact (ih _ _).trans (canon_logRec ..)

@[simp] theorem canon_bootPort (k : Nat) (p : Pce) (d : Dev) (h : Canon d = true) : Canon (bootPort k p d) = true :=
  by simp [bootPort, h]

@[simp] theorem canon_bootPair (n : Nat) (d : Dev) : Canon (bootPair n d) = Canon d := by simp [bootPair]

@[simp] theorem canon_bootQueue (qid : Nat) (d : Dev) (h : Canon d = true) : Canon (bootQueue qid d) = true :=
  canon_drainWaitCheck _ _ (canon_onQueue _ _ _ (canon_readCheck _ _ (canon_spillCheck _ _ _ h)))

@[simp] theorem canon_applyEpoch0 (d : Dev) (h : Canon d = true) : Canon (applyEpoch0 d) = true := by
  have he : Canon { d with epoch := {} } = true := by
    simp only [canon_mk, canonOf_eq]
    simp [h]
  unfold applyEpoch0
  split
  · exact he
  · next im hd =>
    extract_lets +onlyGivenNames c0 r c changed _ _ d1 d2 d3 d4 d5
    have hr : Canon r.2 = true := (canon_settleSet ..).trans he
    clear_value r
    have h1 : Canon d1 = true := hr
    have h2 : Canon d2 = true := canon_foldl_keeps _ _ (fun d e h => canon_onQueue _ _ _ h) _ h1
    have h3 : Canon d3 = true :=
      canon_settleShorts _ ((canon_foldl _ _ (fun d e => canon_noteShort _ _) _).trans h2)
    have h4 : Canon d4 = true := canon_foldl_keeps _ _ (fun d e h => canon_bootPort _ _ _ h) _ h3
    have h5 : Canon d5 = true := canon_foldl_keeps _ _ (fun d e h => canon_bootQueue _ _ h) _ h4
    clear_value d5
    simp [h5]

@[simp] theorem canon_restoreLineage (d : Dev) : Canon (restoreLineage d) = Canon d := by
  unfold restoreLineage
  split <;> simp

@[simp] theorem canon_restoreImage (lost : Bool) (d : Dev) (h : Canon d = true) :
    Canon (restoreImage lost d) = true := by simp [restoreImage, h, canonOf_eq]

theorem canon_boots (n : Nat) (d : Dev) : Canon { d with tier.boots := n } = Canon d := rfl

@[simp] theorem canon_restore (lost : Unread) (d : Dev) (h : Canon d = true) : Canon (restore lost d) = true := by
  unfold restore
  extract_lets +onlyGivenNames d1 clean x d2 d3
  have h1 : Canon d1 = true := canon_restoreImage _ _ ((canon_rebuildRemap _).trans (canon_restoreKeys _ _
    ((canon_deriveKeys _).trans h)))
  have hx : tblSorted x.loans = true := tblSorted_replay h1
  have h2 : Canon d2 = true := (canon_restoreWear ..).trans ((canon_restoreLineage _).trans h1)
  have h3 : Canon d3 = true := canon_restoreTier x hx clean _ ((canon_restoreLevel ..).trans h2)
  exact (canon_boots _ d3).trans h3

@[simp] theorem canon_bootFirmware (lost : Unread) (d : Dev) (h : Canon d = true) :
    Canon (bootFirmware lost d) = true := by
  unfold bootFirmware
  have hs : Canon (setBoot .fwStarting d) = true := (canon_setBoot ..).trans h
  have hr : Canon (applyEpoch0 (restore lost (setBoot .fwStarting d))) = true := canon_applyEpoch0 _ (canon_restore _
      _ hs)
  extract_lets +onlyGivenNames d1 _ d2 d3 d4
  have h1 : Canon d1 = true := canon_settleKeys _ hr
  clear_value d1
  have h2 : Canon d2 = true := (canon_setBoot ..).trans h1
  have h3 : Canon d3 = true := by unfold d3; split <;> simp [h2]
  have h4 : Canon d4 = true := (canon_foldl _ _ (fun d r => canon_recordErr _ _ _ _) _).trans h3
  exact (canon_stopOscIfListening _).trans ((canon_stallChecks _).trans h4)

end Sys2Proof.Machine
end

section
/-!
The DOE responder keeps the tables in their canonical form (O60).
-/

namespace Sys2Proof.Machine

@[simp] theorem canon_doeReply (type : Nat) (bs : Bytes) (d : Dev) : Canon (doeReply type bs d) = Canon d :=
  by simp [doeReply]

@[simp] theorem canon_spdmSign (context : String) (transcript : Bytes) (d : Dev) :
    Canon (spdmSign context transcript d).2 = Canon d := by simp [spdmSign]

@[simp] theorem canon_nonceBytes (d : Dev) : Canon (nonceBytes d).2 = Canon d := by simp [nonceBytes]

@[simp] theorem canon_spdmReply (bs : Bytes) (d : Dev) : Canon (spdmReply bs d) = Canon d := by simp [spdmReply]

@[simp] theorem canon_onVersion (d : Dev) : Canon (onVersion d) = Canon d := by simp [onVersion]

@[simp] theorem canon_onCapabilities (d : Dev) : Canon (onCapabilities d) = Canon d := by simp [onCapabilities]

@[simp] theorem canon_onAlgorithms (d : Dev) : Canon (onAlgorithms d) = Canon d := by simp [onAlgorithms]

@[simp] theorem canon_onDigests (d : Dev) : Canon (onDigests d) = Canon d := by simp [onDigests]

@[simp] theorem canon_onCertificate (slot off len : Nat) (d : Dev) : Canon (onCertificate slot off len d) = Canon d :=
  by simp [onCertificate]

@[simp] theorem canon_summaryBytes (summary : Nat) (d : Dev) : Canon (summaryBytes summary d).2 = Canon d := by
  unfold summaryBytes
  split
  · simp
  · simp only []
    split <;> simp

@[simp] theorem canon_onChallenge (slot summary : Nat) (nonce : BitVec 256) (d : Dev) :
    Canon (onChallenge slot summary nonce d) = Canon d := by simp [onChallenge]

@[simp] theorem canon_onMeasurements (index : Nat) (sign : Bool) (nonce : BitVec 256) (d : Dev) :
    Canon (onMeasurements index sign nonce d) = Canon d := by simp [onMeasurements]

theorem canon_afterAlgs {f : Dev → Dev} (d : Dev) (keeps : Canon (f d) = Canon d) : Canon (afterAlgs f d) = Canon d := by
  unfold afterAlgs
  split
  · exact keeps
  · simp

@[simp] theorem canon_spdmAnswer (i : Instr) (d : Dev) : Canon (spdmAnswer i d) = Canon d := by
  unfold spdmAnswer
  split <;> simp [canon_afterAlgs]

@[simp] theorem canon_holdDoe (i : Instr) (d : Dev) : Canon (holdDoe i d) = Canon d := by simp [holdDoe]

@[simp] theorem canon_doeRequest (i : Instr) (d : Dev) : Canon (doeRequest i d) = Canon d := by
  unfold doeRequest
  repeat' split
  all_goals simp

@[simp] theorem canon_endRomSpdm (d : Dev) : Canon (endRomSpdm d) = Canon d := by
  unfold endRomSpdm
  split <;> simp

@[simp] theorem canon_flushDoe (d : Dev) (h : Canon d = true) : Canon (flushDoe d) = true := by
  unfold flushDoe
  split <;> simp [h]

end Sys2Proof.Machine
end

section
/-!
Resets and the boot keep the tables in their canonical form (O60).
-/

namespace Sys2Proof.Machine

@[simp] theorem canon_closePort (k : Nat) (d : Dev) : Canon (closePort k d) = Canon d := by simp [closePort]

@[simp] theorem canon_closePorts (d : Dev) : Canon (closePorts d) = Canon d := by simp [closePorts]

@[simp] theorem canon_closePair (n : Nat) (d : Dev) : Canon (closePair n d) = Canon d := by simp [closePair]

@[simp] theorem canon_cutPair (n : Nat) (d : Dev) : Canon (cutPair n d) = Canon d := by simp [cutPair]

@[simp] theorem canon_wakePerst (d : Dev) : Canon (wakePerst d) = Canon d := by simp [wakePerst]

@[simp] theorem canon_goFatal (d : Dev) : Canon (goFatal d) = Canon d := by simp [goFatal]

@[simp] theorem canon_resetRun (d : Dev) (h : Canon d = true) : Canon (resetRun d) = true := by
  unfold resetRun
  split
  · simp [h]
  · next r _ =>
    split
    · exact h
    · extract_lets +onlyGivenNames _ d1
      have h1 : Canon d1 = true := (canon_stopTimer ..).trans h
      clear_value d1
      split
      · exact h1
      · exact h1
      · exact h1
      · exact canon_abandon _ _ h1

@[simp] theorem canon_hostReset (d : Dev) (h : Canon d = true) : Canon (hostReset d) = true := by
  unfold hostReset
  extract_lets +onlyGivenNames d1 d2 d3 d4
  have h1 : Canon d1 = true := canon_foldl_keeps _ _ (fun _ _ h => canon_dropDrain _ _ h) _ h
  have h2 : Canon d2 = true := canon_foldl_keeps _ _ (fun _ _ h => canon_dropFill _ _ h) _ h1
  have h3 : Canon d3 = true := canon_foldl_keeps _ _ (fun _ _ h => canon_dropComp _ _ h) _ h2
  have h4 : Canon d4 = true := canon_resetRun _ h3
  clear_value d4
  refine (canon_stallChecks _).trans ((canon_refreshFlags _).trans ((canon_takeSsid _).trans ?_))
  simp only [canon_mk, canonOf_eq]
  simp [h4, resetLink]

@[simp] theorem canon_hostInterfaceReset (r : HostReset) (d : Dev) (h : Canon d = true) :
    Canon (hostInterfaceReset r d) = true := by
  unfold hostInterfaceReset
  simp only []
  split
  all_goals try split
  all_goals simp [h]

theorem vectorsWf_resetHostLink {l : Link} (h : vectorsWf l.vectors = true) (k : ResetKind) :
    vectorsWf (resetHostLink k l).vectors = true := by
  cases k <;> first | exact h | rfl

theorem rowsWf_resetFuse {f : Fuse} (hl : rowsWf f.lo = true) (hh : rowsWf f.hi = true) (k : ResetKind) :
    rowsWf (resetFuse k f).lo = true ∧ rowsWf (resetFuse k f).hi = true := by
  cases k <;> exact ⟨hl, hh⟩

@[simp] theorem canon_deviceReset (k : ResetKind) (d : Dev) (h : Canon d = true) : Canon (deviceReset k d) = true := by
  unfold deviceReset
  extract_lets +onlyGivenNames d1
  have h1 : Canon d1 = true := canon_cutFuse _ _ h
  clear_value d1
  have hv := vectorsWf_resetHostLink (canon_at_link_vectors h1) k
  obtain ⟨hl, hh⟩ := rowsWf_resetFuse (canon_at_fuse_lo h1) (canon_at_fuse_hi h1) k
  simp only [canon_mk, canonOf_eq]
  simp [h1, hv, hl, hh, resetTier]

@[simp] theorem canon_applyLanes (d : Dev) : Canon (applyLanes d) = Canon d := by simp [applyLanes]

@[simp] theorem canon_mapLane (x : Lane) (d : Dev) : Canon (mapLane x d) = Canon d := by simp [mapLane]

@[simp] theorem canon_recordLanes (d : Dev) : Canon (recordLanes d) = Canon d := by simp [recordLanes, canon_foldl]

@[simp] theorem canon_openBar2 (d : Dev) (h : Canon d = true) : Canon (openBar2 d) = true :=
  by simp [openBar2, h, canonOf_eq]

@[simp] theorem canon_bootCores (d : Dev) (h : Canon d = true) : Canon (bootCores d) = true := by simp [bootCores, h]

@[simp] theorem canon_bootOn (d : Dev) (h : Canon d = true) : Canon (bootOn d) = true := by simp [bootOn, h]

@[simp] theorem canon_bootSense (d : Dev) : Canon (bootSense d) = Canon d := by simp [bootSense]

@[simp] theorem canon_sampleStraps (d : Dev) : Canon (sampleStraps d) = Canon d := by simp [sampleStraps]

@[simp] theorem canon_bootFull (d : Dev) (h : Canon d = true) : Canon (bootFull d) = true := by simp [bootFull, h]

@[simp] theorem canon_softReset (d : Dev) (h : Canon d = true) : Canon (softReset d) = true := by simp [softReset, h]

@[simp] theorem canon_followListen (d : Dev) : Canon (followListen d) = Canon d := by simp [followListen]

@[simp] theorem canon_enterStandby (d : Dev) (h : Canon d = true) : Canon (enterStandby d) = true :=
  by simp [enterStandby, h]

@[simp] theorem canon_leaveStandby (d : Dev) (h : Canon d = true) : Canon (leaveStandby d) = true :=
  by simp [leaveStandby, h]

@[simp] theorem canon_cancelStandby (d : Dev) : Canon (cancelStandby d) = Canon d :=
  by simp [cancelStandby, canon_foldl]

@[simp] theorem canon_standbyBody (r : AdmRun) (d : Dev) : Canon (standbyBody r d).1 = Canon d := by
  unfold standbyBody
  split
  · simp
  · simp only []
    split <;> simp

@[simp] theorem canon_powerBody (c : AdmCmd) (r : AdmRun) (d : Dev) (h : Canon d = true) :
    Canon (powerBody c r d).1 = true := by
  unfold powerBody
  split
  · simp [h]
  · simp [h]
  · exact canon_unlessBusy _ _ h ((canon_standbyBody ..).trans h)
  · exact h

@[simp] theorem canon_perstAssert (d : Dev) (h : Canon d = true) : Canon (perstAssert d) = true :=
  by simp [perstAssert, h]

@[simp] theorem canon_perstDeassert (d : Dev) (h : Canon d = true) : Canon (perstDeassert d) = true :=
  by simp [perstDeassert, h]

@[simp] theorem canon_linkUp (rate : LinkRate) (twoLanes : Bool) (d : Dev) (h : Canon d = true) :
    Canon (linkUp rate twoLanes d) = true := by simp [linkUp, h]

@[simp] theorem canon_loseVin (d : Dev) (h : Canon d = true) : Canon (loseVin d) = true := by simp [loseVin, h]

@[simp] theorem canon_coldBoot (node : BitVec 2) (tp0 tp1 c0 c1 : Bool) (d : Dev) (h : Canon d = true) :
    Canon (coldBoot node tp0 tp1 c0 c1 d) = true := by simp [coldBoot, h]

@[simp] theorem canon_softResetWrite (v : Nat) (d : Dev) (h : Canon d = true) : Canon (softResetWrite v d) = true :=
  by simp [softResetWrite, h]

@[simp] theorem canon_kick (low : Nat) (d : Dev) (h : Canon d = true) : Canon (kick low d) = true := by simp [kick, h]

@[simp] theorem canon_watchdogReset (d : Dev) (h : Canon d = true) : Canon (watchdogReset d) = true :=
  by simp [watchdogReset, h]

@[simp] theorem canon_laneStall (g l : Nat) (d : Dev) (h : Canon d = true) : Canon (laneStall g l d) = true :=
  by simp [laneStall, h]

@[simp] theorem canon_bar2Write (off : Nat) (data : Bytes) (d : Dev) (h : Canon d = true) :
    Canon (bar2Write off data d) = true := by
  unfold bar2Write
  split
  · have hb : bytesWf (tblWriteBytes d.boot.buf off (data.take (65536 - off))) = true :=
      tblWf_writeBytes _ _ _ (canon_at_boot_buf h)
    simp only [canon_mk, canonOf_eq]
    simp [h, hb]
  · exact h

@[simp] theorem canon_loadChunk (d : Dev) : Canon (loadChunk d) = Canon d := by simp [loadChunk]

@[simp] theorem canon_bootStart (d : Dev) : Canon (bootStart d) = Canon d := by simp [bootStart]

@[simp] theorem canon_bootRestart (d : Dev) (h : Canon d = true) : Canon (bootRestart d) = true :=
  by simp [bootRestart, h, canonOf_eq]

@[simp] theorem canon_bootCmd (c : Nat) (d : Dev) (h : Canon d = true) : Canon (bootCmd c d) = true := by
  unfold bootCmd
  simp only []
  split
  all_goals try split
  all_goals simp [h]

@[simp] theorem canon_copyDone (d : Dev) (h : Canon d = true) : Canon (copyDone d) = true := by
  unfold copyDone
  split
  · exact h
  · extract_lets +onlyGivenNames bs held src d1
    have hb : bytesWf (tblWriteBytes d.boot.image d.boot.loaded bs) = true := tblWf_writeBytes _ _ _
        (canon_at_boot_image h)
    have h1 : Canon d1 = true := by
      refine (canon_setBoot ..).trans ?_
      simp only [src, canon_mk, canonOf_eq]
      simp [h, hb]
    exact canon_bootCmd _ _ h1

theorem wordsWf_wordsTbl (bs : Bytes) : wordsWf (wordsTbl bs) = true :=
  List.foldlRecOn (motive := fun t : Tbl Word => wordsWf t = true) _ _ rfl fun _ h _ _ => wordsWf_set rfl h _ _

@[simp] theorem canon_loadSram (d : Dev) (h : Canon d = true) : Canon (loadSram d) = true := by
  unfold loadSram
  simp only [canon_mk, canonOf_eq]
  simp [h, wordsWf_wordsTbl]

@[simp] theorem canon_startFirmware (lost : Unread) (d : Dev) (h : Canon d = true) :
    Canon (startFirmware lost d) = true := by simp [startFirmware, h]

@[simp] theorem canon_imageVerified (lost : Unread) (d : Dev) (h : Canon d = true) :
    Canon (imageVerified lost d) = true := by
  unfold imageVerified
  simp only []
  split
  all_goals try split
  all_goals simp [h]

end Sys2Proof.Machine
end

section
/-!
Host-link events keep the tables in their canonical form (O60).
-/

namespace Sys2Proof.Machine

@[simp] theorem canon_sendPending (v : Nat) (d : Dev) : Canon (sendPending v d) = Canon d := by simp [sendPending]

@[simp] theorem canon_sendAllPending (d : Dev) : Canon (sendAllPending d) = Canon d :=
  by simp [sendAllPending, canon_foldl]

@[simp] theorem canon_setMask (v : Nat) (masked : Bool) (d : Dev) (h : Canon d = true) :
    Canon (setMask v masked d) = true := by simp [setMask, h, canonOf_eq]

@[simp] theorem canon_msixUnmask (u : Unmask) (d : Dev) (h : Canon d = true) : Canon (msixUnmask u d) = true := by
  unfold msixUnmask
  split <;> simp [h]

@[simp] theorem canon_resumeLink (d : Dev) (h : Canon d = true) : Canon (resumeLink d) = true :=
  by simp [resumeLink, h]

@[simp] theorem canon_dropKick (d : Dev) : Canon (dropKick d) = Canon d := by simp [dropKick]

@[simp] theorem canon_busMaster (bme d3hot : Bool) (d : Dev) (h : Canon d = true) :
    Canon (busMaster bme d3hot d) = true := by simp [busMaster, h]

@[simp] theorem canon_l1Entry (d : Dev) : Canon (l1Entry d) = Canon d := by simp [l1Entry]

@[simp] theorem canon_l12Entry (d : Dev) : Canon (l12Entry d) = Canon d := by simp [l12Entry]

@[simp] theorem canon_l12Exit (d : Dev) (h : Canon d = true) : Canon (l12Exit d) = true := by simp [l12Exit, h]

@[simp] theorem canon_onLink (e : Aer) (d : Dev) : Canon (onLink e d) = Canon d := by simp [onLink]

theorem canon_bar0 (v : BitVec 64) (d : Dev) : Canon { d with link.bar0 := v } = Canon d := rfl

theorem canon_bar2 (v : BitVec 64) (d : Dev) : Canon { d with link.bar2 := v } = Canon d := rfl

@[simp] theorem canon_setBar (i v : Nat) (d : Dev) : Canon (setBar i v d) = Canon d := by
  unfold setBar
  split
  · exact canon_bar0 ..
  · exact canon_bar0 ..
  · exact canon_bar2 ..
  · exact canon_bar2 ..
  · rfl

@[simp] theorem canon_clearAer (e : Aer) (d : Dev) : Canon (clearAer e d) = Canon d := by simp [clearAer]

@[simp] theorem canon_configWrite (w : CfgWrite) (d : Dev) (h : Canon d = true) : Canon (configWrite w d) = true := by
  unfold configWrite
  split <;> simp [h]

end Sys2Proof.Machine
end

section
/-!
The cascade ring keeps the tables in their canonical form (O60).
-/

namespace Sys2Proof.Machine

@[simp] theorem canon_putPeer (n : Nat) (p : Peer) (d : Dev) : Canon (putPeer n p d) = Canon d := by simp [putPeer]

@[simp] theorem canon_pumpPeer (fuel n : Nat) (d : Dev) : Canon (pumpPeer fuel n d) = Canon d := by
  induction fuel generalizing d with
  | zero => rfl
  | succ fuel ih =>
    unfold pumpPeer
    split
    · rfl
    · simp only []
      split <;> simp [ih]

@[simp] theorem canon_sendAborts (fuel n : Nat) (d : Dev) : Canon (sendAborts fuel n d) = Canon d := by
  induction fuel generalizing d with
  | zero => rfl
  | succ fuel ih =>
    unfold sendAborts
    simp only []
    split
    · rfl
    · split
      · rfl
      · simp [ih]

@[simp] theorem canon_pumpNode (n : Nat) (d : Dev) : Canon (pumpNode n d) = Canon d := by simp [pumpNode]

@[simp] theorem canon_standbyCheck (d : Dev) (h : Canon d = true) : Canon (standbyCheck d) = true :=
  by simp [standbyCheck, h]

@[simp] theorem canon_lateResult (n : Nat) (d : Dev) : Canon (lateResult n d) = Canon d := by simp [lateResult]

@[simp] theorem canon_resettle (qid : Nat) (d : Dev) (h : Canon d = true) : Canon (resettle qid d) = true :=
  by simp [resettle, h]

@[simp] theorem canon_discardHole (sel : ChainSeg → Bool) (tell : Bool) (qid : Nat) (d : Dev) (h : Canon d = true) :
    Canon (discardHole sel tell qid d) = true := by
  unfold discardHole
  extract_lets +onlyGivenNames q segs
  split
  · exact h
  · extract_lets +onlyGivenNames gone q' d1 d2
    have h1 : Canon d1 = true := canon_putQueue _ _ _ h
    have h2 : Canon d2 = true := canon_foldl_keeps _ _ (fun _ _ h => canon_releaseSeg _ _ _ _ h) _ h1
    exact canon_resettle _ _ (canon_releaseUnused _ _ h2)

@[simp] theorem canon_discardHoles (sel : ChainSeg → Bool) (tell : Bool) (d : Dev) (h : Canon d = true) :
    Canon (discardHoles sel tell d) = true := by
  unfold discardHoles
  exact canon_foldl_keeps _ _ (fun d x h => by simp [h]) _ (by simp [h])

@[simp] theorem canon_holeTimer (n : Nat) (d : Dev) : Canon (holeTimer n d) = Canon d := by simp [holeTimer]

@[simp] theorem canon_forgetLoans (sel : LoanRef → Bool) (d : Dev) (h : Canon d = true) :
    Canon (forgetLoans sel d) = true := by
  refine canon_foldl_keeps _ _ (fun d e h => canon_foldl_keeps _ _ (fun d s h => ?_) _ h) _ h
  have h1 : Canon (onSeg e.1 s.pos (fun s => { s with loan := none }) d) = true := canon_onSeg _ _ _ _ h
  simp only []
  split
  · exact canon_giveLoan _ _ _ _ _ h1
  · exact h1

@[simp] theorem canon_makeHoles (n : Nat) (d : Dev) (h : Canon d = true) : Canon (makeHoles n d) = true := by
  unfold makeHoles
  exact canon_foldl_keeps _ _ (fun d x h => by simp [h]) _ (by simp [h])

@[simp] theorem canon_freeLoan (h : Nat) (d : Dev) (hd : Canon d = true) : Canon (freeLoan h d) = true := by
  unfold freeLoan
  split
  · exact hd
  · extract_lets +onlyGivenNames src d1 named d2
    have h1 : Canon d1 = true := by
      simp only [d1, src, canon_mk, canonOf_eq]
      simp [hd]
    have h2 : Canon d2 = true := by
      unfold d2
      split
      · exact canon_addRecord _ _ h1
      · exact h1
    clear_value d2
    split
    · exact h2
    · exact canon_freeDeep _ _ _ _ h2

@[simp] theorem canon_endBorrow (p : Prog) (d : Dev) (h : Canon d = true) : Canon (endBorrow p d) = true := by
  unfold endBorrow
  split <;> simp [h]

@[simp] theorem canon_takeBackHeld (d : Dev) (h : Canon d = true) : Canon (takeBackHeld d) = true := by
  unfold takeBackHeld
  exact canon_foldl_keeps _ _ (fun d x h => by simp [h]) _ (by simp [h])

@[simp] theorem canon_declareLost (n : Nat) (d : Dev) (h : Canon d = true) : Canon (declareLost n d) = true := by
  unfold declareLost
  split
  · exact h
  · extract_lets +onlyGivenNames d1 d2 d3 _ d4 d5 d6 d7 d8 d9 d10
    have h2 : Canon d2 = true :=
      (canon_recordErr ..).trans ((canon_stopTimer ..).trans ((canon_stopTimer ..).trans ((canon_onPeer ..).trans h)))
    have h3 : Canon d3 = true := canon_finishRun _ _ _ h2
    have h4 : Canon d4 = true := (canon_mapDrains (g := fun e => (e.1, loseDrain n e.2)) (fun _ => rfl) d3).trans h3
    have h5 : Canon d5 = true := by
      refine canon_foldl_keeps _ _ (fun d e h => ?_) _ h4
      split
      · exact canon_finishFill _ _ _ _ h
      · exact h
    have h6 : Canon d6 = true := canon_forgetDiscards _ _ (canon_abortOwned _ _ h5)
    have h7 : Canon d7 = true := canon_foldl_keeps _ _ (fun _ _ h => canon_endBorrow _ _ h) _ h6
    have h8 : Canon d8 = true := canon_makeHoles _ _ h7
    have h9 : Canon d9 = true := by
      unfold d9
      split
      · exact (canon_startTimer ..).trans h8
      · exact h8
    have h10 : Canon d10 = true := by
      unfold d10
      split
      · exact canon_takeBackHeld _ h9
      · exact h9
    clear_value d10
    simp [h10]

@[simp] theorem canon_applyAck (n ack crd : Nat) (d : Dev) : Canon (applyAck n ack crd d) = Canon d :=
  by simp [applyAck]

@[simp] theorem canon_resend (n : Nat) (d : Dev) (h : Canon d = true) : Canon (resend n d) = true := by
  unfold resend
  extract_lets +onlyGivenNames p
  split
  · exact h
  · split
    · exact canon_declareLost _ _ ((canon_onPeer ..).trans h)
    · extract_lets +onlyGivenNames units d1 d2
      have h1 : Canon d1 = true := (canon_onPeer ..).trans h
      have h2 : Canon d2 = true := (canon_foldl _ _ (fun _ _ => canon_emitFlit ..) _).trans h1
      exact (canon_settlePauses _).trans ((canon_startTimer ..).trans h2)

@[simp] theorem canon_retryTimeout (n : Nat) (d : Dev) (h : Canon d = true) : Canon (retryTimeout n d) = true :=
  by simp [retryTimeout, h]

@[simp] theorem canon_ackTimer (n : Nat) (d : Dev) (h : Canon d = true) : Canon (ackTimer n d) = true :=
  by simp [ackTimer, h]

theorem canon_casTrained (up training : Bool) (seen : Nat) (d : Dev) :
    Canon { d with cas.up := up, cas.training := training, cas.trainSeen := seen } = Canon d := rfl

@[simp] theorem canon_heard (d : Dev) : Canon (heard d) = Canon d := by
  unfold heard
  split
  · rfl
  · split
    · rfl
    · extract_lets +onlyGivenNames _ d1
      have h1 : Canon d1 = Canon d := canon_settlePauses _
      exact (canon_foldl _ _ (fun _ _ => canon_pumpNode ..) _).trans h1

@[simp] theorem canon_passBy (type src dst seq : Nat) (payload : Bytes) (d : Dev) :
    Canon (passBy type src dst seq payload d) = Canon d := by simp [passBy]

@[simp] theorem canon_takeHeader (h : FlitHdr) (d : Dev) : Canon (takeHeader h d) = Canon d := by simp [takeHeader]

theorem canon_routed (h : FlitHdr) (type : Nat) (payload : Bytes) (reply : Bool) (f : Dev → Dev)
    (keeps : ∀ d, Canon d = true → Canon (f d) = true) (d : Dev) (hd : Canon d = true) :
    Canon (routed h type payload reply f d) = true := by
  have hh : Canon (heard d) = true := (canon_heard _).trans hd
  unfold routed
  split
  · exact (canon_passBy ..).trans hd
  · extract_lets +onlyGivenNames own src dst d1
    have h1 : Canon d1 = true := hh
    clear_value d1
    repeat' split
    all_goals simp [h1, keeps]

theorem canon_accept (h : FlitHdr) (payload : Bytes) (f : Nat → Dev → Dev)
    (keeps : ∀ n d, Canon d = true → Canon (f n d) = true) (d : Dev) (hd : Canon d = true) :
    Canon (accept h payload f d) = true := by
  unfold accept
  extract_lets +onlyGivenNames src
  split
  · exact hd
  · have ht : Canon (takeHeader h d) = true := (canon_takeHeader ..).trans hd
    extract_lets +onlyGivenNames d1 p
    split
    · split
      · exact ht
      · exact (canon_emitFlit ..).trans ((canon_onPeer ..).trans ht)
    · exact keeps _ _ ((canon_onPeer ..).trans ht)

theorem canon_receive (h : FlitHdr) (type : Nat) (payload : Bytes) (reply : Bool) (f : Nat → Dev → Dev)
    (keeps : ∀ n d, Canon d = true → Canon (f n d) = true) (d : Dev) (hd : Canon d = true) :
    Canon (receive h type payload reply f d) = true :=
  canon_standbyCheck _ (canon_routed _ _ _ _ _ (fun _ h => canon_accept _ _ _ keeps _ h) _ hd)

theorem canon_whenFirmware (i : Instr) (f : Dev → Dev) (keeps : ∀ d, Canon d = true → Canon (f d) = true)
   (d : Dev) (hd : Canon d = true) : Canon (whenFirmware i f d) = true := by
  unfold whenFirmware
  split
  · exact keeps _ hd
  · exact hd

@[simp] theorem canon_nakTaken (h : FlitHdr) (d : Dev) (hd : Canon d = true) : Canon (nakTaken h d) = true := by
  unfold nakTaken
  simp only []
  split <;> simp [hd]

@[simp] theorem canon_trainFlit (d : Dev) : Canon (trainFlit d) = Canon d := by
  unfold trainFlit
  split
  · exact canon_passBy ..
  · split
    · exact (canon_emit ..).trans (canon_settlePauses _)
    · split
      · rfl
      · split
        · rfl
        · extract_lets +onlyGivenNames _ d1
          have h1 : Canon d1 = Canon d := canon_settlePauses _
          exact (canon_foldl _ _ (fun _ _ => canon_pumpNode ..) _).trans h1

@[simp] theorem canon_crcFail (d : Dev) : Canon (crcFail d) = Canon d := by simp [crcFail]

@[simp] theorem canon_casEnable (d : Dev) : Canon (casEnable d) = Canon d := by simp [casEnable]

@[simp] theorem canon_casDisable (d : Dev) : Canon (casDisable d) = Canon d := by simp [casDisable]

@[simp] theorem canon_beaconTimer (d : Dev) : Canon (beaconTimer d) = Canon d := by simp [beaconTimer]

@[simp] theorem canon_relayCheck (d : Dev) (h : Canon d = true) : Canon (relayCheck d) = true :=
  by simp [relayCheck, h]

@[simp] theorem canon_settleLoans (n : Nat) (lineage : Word) (knew : Bool) (d : Dev) (h : Canon d = true) :
    Canon (settleLoans n lineage knew d) = true := by
  unfold settleLoans
  extract_lets +onlyGivenNames other d1 d2
  have h1 : Canon d1 = true := (canon_holeTimer ..).trans (canon_discardHoles _ _ _ (canon_forgetLoans _ _ h))
  have h2 : Canon d2 = true := canon_foldl_keeps _ _ (fun _ _ h => canon_freeLoan _ _ h) _ h1
  clear_value d2
  split <;> simp [h2]

@[simp] theorem canon_becomePresent (n : Nat) (b : BeaconPl) (d : Dev) (h : Canon d = true) :
    Canon (becomePresent n b d) = true := by
  unfold becomePresent
  extract_lets +onlyGivenNames p knew _ d1 d2 d3 d4
  have h1 : Canon d1 = true := (canon_putPeer ..).trans h
  have h2 : Canon d2 = true := (canon_startTraining _).trans h1
  have h3 : Canon d3 = true := canon_settleLoans _ _ _ _ h2
  have h4 : Canon d4 = true := by
    refine canon_foldl_keeps _ _ (fun d x h => ?_) _ h3
    split <;> simp [h]
  exact canon_relayCheck _ h4

@[simp] theorem canon_beaconTaken (n : Nat) (b : BeaconPl) (d : Dev) (h : Canon d = true) :
    Canon (beaconTaken n b d) = true := by simp [beaconTaken, h]

@[simp] theorem canon_beaconFlit (h : FlitHdr) (b : BeaconPl) (d : Dev) (hd : Canon d = true) :
    Canon (beaconFlit h b d) = true := by
  unfold beaconFlit
  extract_lets +onlyGivenNames n
  split
  · exact (canon_passBy ..).trans hd
  · extract_lets +onlyGivenNames d1
    have h1 : Canon d1 = true := (canon_heard _).trans hd
    split
    · exact h1
    · exact canon_standbyCheck _ (canon_whenFirmware _ _ (fun _ h => canon_beaconTaken _ _ _ h) _ ((canon_emit
        ..).trans h1))

@[simp] theorem canon_beaconTimeout (n : Nat) (d : Dev) (h : Canon d = true) : Canon (beaconTimeout n d) = true :=
  by simp [beaconTimeout, h]

@[simp] theorem canon_holeTimeout (n : Nat) (d : Dev) (h : Canon d = true) : Canon (holeTimeout n d) = true :=
  by simp [holeTimeout, h]

end Sys2Proof.Machine
end

section
/-!
The services of the cascade ring keep the tables in their canonical form (O60).
-/

namespace Sys2Proof.Machine

@[simp] theorem canon_pushTaken (p : PushPl) (src : Nat) (d : Dev) : Canon (pushTaken p src d) = Canon d :=
  by simp [pushTaken]

@[simp] theorem canon_popDone (qid tag : Nat) (d : Dev) (h : Canon d = true) : Canon (popDone qid tag d) = true :=
  by simp [popDone, h]

theorem canon_popReturnQueue (qid : Nat) (q : Queue) (d : Dev) (h : Canon d = true) :
    Canon (pump (stallChecks (refreshFlags (resettle qid (putQueue qid q d))))) = true := by
  have hr : Canon (resettle qid (putQueue qid q d)) = true := canon_resettle _ _ (canon_putQueue _ _ _ h)
  exact canon_pump _ ((canon_stallChecks _).trans ((canon_refreshFlags _).trans hr))

@[simp] theorem canon_popReturn (qid tag : Nat) (d : Dev) (h : Canon d = true) : Canon (popReturn qid tag d) = true :=
  canon_popReturnQueue _ _ _ h

@[simp] theorem canon_popArm (p : PopReqPl) (d : Dev) (h : Canon d = true) : Canon (popArm p d) = true :=
  canon_readyCheck _ _ (canon_drainWaitCheck _ _ (canon_onQueue _ _ _ h))

@[simp] theorem canon_popStart (p : PopReqPl) (src : Nat) (d : Dev) (h : Canon d = true) :
    Canon (popStart p src d) = true := by simp [popStart, h]

@[simp] theorem canon_popReqTaken (p : PopReqPl) (src : Nat) (d : Dev) (h : Canon d = true) :
    Canon (popReqTaken p src d) = true := by simp [popReqTaken, h]

@[simp] theorem canon_armQueue (n gq : Nat) (d : Dev) : Canon (armQueue n gq d) = Canon d := by
  unfold armQueue
  split <;> simp

@[simp] theorem canon_popAnswer (n gq : Nat) (p : PopRspPl) (r : DrainRing) (x : Xfer) (d : Dev) (h : Canon d = true)
    :
    Canon (popAnswer n gq p r x d) = true := by simp [popAnswer, h]

@[simp] theorem canon_popRspTaken (p : PopRspPl) (src : Nat) (d : Dev) (h : Canon d = true) :
    Canon (popRspTaken p src d) = true := by
  unfold popRspTaken
  extract_lets +onlyGivenNames n gq
  split
  · split <;> simp [h]
  · split
    · split
      · exact h
      · exact canon_pump _ (canon_putDrain _ _ _ h)
    · split
      · split <;> simp [h]
      · simp [h]

@[simp] theorem canon_sendRelease (node handle : Nat) (persist : Bool) (qid : Nat) (d : Dev) :
    Canon (sendRelease node handle persist qid d) = Canon d := by simp [sendRelease]

@[simp] theorem canon_loanReqTaken (p : SegPl) (src : Nat) (d : Dev) (h : Canon d = true) :
    Canon (loanReqTaken p src d) = true := by
  unfold loanReqTaken
  simp only []
  split
  all_goals try split
  all_goals simp [h, canonOf_eq]

@[simp] theorem canon_segWriteTaken (p : SegPl) (src : Nat) (d : Dev) : Canon (segWriteTaken p src d) = Canon d := by
  unfold segWriteTaken
  simp only []
  split <;> simp

@[simp] theorem canon_readReqTaken (p : SegPl) (src : Nat) (d : Dev) : Canon (readReqTaken p src d) = Canon d := by
  unfold readReqTaken
  split <;> simp

@[simp] theorem canon_segReleaseTaken (p : SegPl) (src : Nat) (d : Dev) (h : Canon d = true) :
    Canon (segReleaseTaken p src d) = true := by
  unfold segReleaseTaken
  split
  · exact canon_freeLoan _ _ h
  · exact h

theorem canon_segUnit (op : Nat) (reply : Bool) (i : Instr) (h : FlitHdr) (p : SegPl) {f : Nat → Dev → Dev}
    (keeps : ∀ n d, Canon d = true → Canon (f n d) = true) (d : Dev) (hd : Canon d = true) :
    Canon (segUnit op reply i h p f d) = true :=
  canon_receive _ _ _ _ _ (fun _ _ h => canon_whenFirmware _ _ (fun _ h => keeps _ _ h) _ h) _ hd

@[simp] theorem canon_reclaimTaken (src : Nat) (d : Dev) : Canon (reclaimTaken src d) = Canon d :=
  by simp [reclaimTaken, canon_foldl]

@[simp] theorem canon_swapProg (old : Prog) (new : List Prog) (d : Dev) : Canon (swapProg old new d) = Canon d :=
  by simp [swapProg]

@[simp] theorem canon_loanGrantTaken (p : SegPl) (src : Nat) (d : Dev) (h : Canon d = true) :
    Canon (loanGrantTaken p src d) = true := by
  unfold loanGrantTaken
  simp only []
  split
  all_goals try split
  all_goals simp [h]

@[simp] theorem canon_loanRefuseTaken (p : SegPl) (src : Nat) (d : Dev) (h : Canon d = true) :
    Canon (loanRefuseTaken p src d) = true := by
  unfold loanRefuseTaken
  simp only []
  split
  all_goals try split
  all_goals simp [h]

@[simp] theorem canon_verifyOkTaken (p : SegPl) (src : Nat) (d : Dev) (hd : Canon d = true) :
    Canon (verifyOkTaken p src d) = true := by
  unfold verifyOkTaken
  extract_lets +onlyGivenNames h
  split
  · simp [hd]
  · next x _ =>
    split
    · extract_lets +onlyGivenNames d1 q
      have h1 : Canon d1 = true := (canon_swapProg ..).trans hd
      split
      · simp [h1]
      · extract_lets +onlyGivenNames l d2 m d3 d4
        have h2 : Canon d2 = true := canon_onSeg _ _ _ _ h1
        have h3 : Canon d3 = true := by unfold d3; split <;> simp [h2]
        have h4 : Canon d4 = true := by unfold d4; split <;> simp [h3]
        exact canon_pump _ ((canon_stallChecks _).trans ((canon_refreshFlags _).trans
          (canon_settleKeys _ (canon_sealProgress _ _ _ _ h4))))
    · exact hd

@[simp] theorem canon_verifyFailTaken (p : SegPl) (src : Nat) (d : Dev) (h : Canon d = true) :
    Canon (verifyFailTaken p src d) = true := by
  unfold verifyFailTaken
  split
  · simp [h]
  · split
    · split
      · exact (canon_sendSeq ..).trans (canon_onQueue _ _ _ ((canon_swapProg ..).trans h))
      · exact canon_onQueue _ _ _ ((canon_swapProg ..).trans h)
    · exact h

@[simp] theorem canon_readRspTaken (p : SegPl) (src : Nat) (d : Dev) (h : Canon d = true) :
    Canon (readRspTaken p src d) = true := by
  unfold readRspTaken
  extract_lets +onlyGivenNames qid q
  split
  · simp [h]
  · extract_lets +onlyGivenNames first gen
    split
    · exact canon_onSeg _ _ _ _ h
    · extract_lets +onlyGivenNames raw bs d1
      have h1 : Canon d1 = true := canon_arriveNear _ _ _ (fun _ h => canon_onQueue _ _ _ h) _ h
      clear_value d1
      simp [h1]

@[simp] theorem canon_loanListTaken (p : SegPl) (src : Nat) (d : Dev) (hd : Canon d = true) :
    Canon (loanListTaken p src d) = true := by
  unfold loanListTaken
  extract_lets +onlyGivenNames h mine
  split
  · extract_lets +onlyGivenNames d1 d2
    have h1 : Canon d1 = true := (canon_onPeer ..).trans hd
    have h2 : Canon d2 = true := by
      refine canon_foldl_keeps _ _ (fun d e h => ?_) _ h1
      split
      · exact canon_resettle _ _ (canon_onQueue _ _ _ h)
      · exact h
    clear_value d2
    simp [h2]
  · simp [hd]

@[simp] theorem canon_listEndTaken (src : Nat) (d : Dev) (h : Canon d = true) : Canon (listEndTaken src d) = true := by
  unfold listEndTaken
  extract_lets +onlyGivenNames x
  split
  · exact h
  · extract_lets +onlyGivenNames unlisted d1 d2
    have h1 : Canon d1 = true := (canon_onPeer ..).trans h
    have h2 : Canon d2 = true := (canon_stopTimer ..).trans (canon_discardHoles _ _ _ (canon_forgetLoans _ _ h1))
    clear_value d2
    simp [h2]

/-- A body of a command leaves the tables in their form. -/
def BodyKeepsCanon (body : AdmRun → Dev → Dev × Option AdmRes) : Prop :=
  ∀ (r : AdmRun) (d : Dev), Canon d = true → Canon (body r d).1 = true

theorem bodyKeepsCanon_ite {p : Prop} [Decidable p] {a b : AdmRun → Dev → Dev × Option AdmRes} (ha : BodyKeepsCanon a)
    (hb : BodyKeepsCanon b) : BodyKeepsCanon (if p then a else b) := by
  split
  · exact ha
  · exact hb

theorem bodyKeepsCanon_relayed (op : Nat) (c : AdmCmd) (buf : Bytes) (peerEw : List (Nat × BitVec 2)) :
    BodyKeepsCanon (relayedBody op c buf peerEw) := by
  unfold relayedBody
  refine bodyKeepsCanon_ite (fun r d h => canon_stageQueues _ _ _ _ h) ?_
  refine bodyKeepsCanon_ite (fun r d h => canon_stagePorts _ _ _ _ h) ?_
  refine bodyKeepsCanon_ite (fun r d h => canon_stageBindings _ _ _ _ h) ?_
  refine bodyKeepsCanon_ite (fun r d h => (canon_checkBody ..).trans h) ?_
  refine bodyKeepsCanon_ite (fun r d h => canon_unlessBusy _ _ h (canon_commitBody _ _ _ h)) ?_
  refine bodyKeepsCanon_ite (fun r d h => canon_discardBody _ _ h) ?_
  refine bodyKeepsCanon_ite (fun r d h => canon_flushBody _ _ _ h) ?_
  refine bodyKeepsCanon_ite (fun r d h => canon_dropBody _ _ _ h) ?_
  refine bodyKeepsCanon_ite (fun r d h => canon_markBody _ _ _ h) ?_
  refine bodyKeepsCanon_ite (fun r d h => canon_rtxBody _ _ _ h) ?_
  refine bodyKeepsCanon_ite (fun r d h => canon_countersBody _ _ _ h) ?_
  refine bodyKeepsCanon_ite (fun r d h => (canon_unparkBody ..).trans h) ?_
  refine bodyKeepsCanon_ite (fun r d h => canon_unlessBusy _ _ h (canon_sealBody _ _ h)) ?_
  refine bodyKeepsCanon_ite (fun r d h => canon_powerBody _ _ _ h) ?_
  refine bodyKeepsCanon_ite (fun r d h => canon_keyLoadBody _ _ _ _ h) ?_
  refine bodyKeepsCanon_ite (fun r d h => canon_unlessBusy _ _ h (canon_keyEraseBody _ _ _ h)) ?_
  refine bodyKeepsCanon_ite (fun r d h => (canon_keyStatusBody ..).trans h) ?_
  refine bodyKeepsCanon_ite (fun r d h => (canon_reportBody ..).trans h) ?_
  refine bodyKeepsCanon_ite (fun r d h => (canon_reportBody ..).trans h) ?_
  refine bodyKeepsCanon_ite (fun r d h => (canon_reportBody ..).trans h) ?_
  refine bodyKeepsCanon_ite (fun r d h => (canon_logBody ..).trans h) ?_
  exact fun r d h => (canon_invalidBody ..).trans h

@[simp] theorem canon_relayedBody (op : Nat) (c : AdmCmd) (buf : Bytes) (peerEw : List (Nat × BitVec 2)) (r : AdmRun)
   (d : Dev) (h : Canon d = true) : Canon (relayedBody op c buf peerEw r d).1 = true :=
  bodyKeepsCanon_relayed _ _ _ _ r d h

@[simp] theorem canon_makeWay (r : AdmRun) (d : Dev) (h : Canon d = true) : Canon (makeWay r d) = true := by
  unfold makeWay
  split <;> simp [h]

@[simp] theorem canon_cmdAbandon (src tag : Nat) (d : Dev) (h : Canon d = true) :
    Canon (cmdAbandon src tag d) = true := by
  unfold cmdAbandon
  extract_lets +onlyGivenNames passed
  have hp : Canon passed = true := by
    unfold passed
    split
    · split
      · exact (canon_sendSeq ..).trans h
      · exact h
    · exact h
  clear_value passed
  split
  · split
    · extract_lets +onlyGivenNames d1
      have h1 : Canon d1 = true := canon_makeWay _ _ h
      clear_value d1
      split
      · exact (canon_sendSeq ..).trans h1
      · exact h1
    · exact hp
  · exact hp

@[simp] theorem canon_cmdTaken (p : CmdPl) (src : Nat) (d : Dev) (h : Canon d = true) :
    Canon (cmdTaken p src d) = true := by
  unfold cmdTaken
  extract_lets +onlyGivenNames tag
  split
  · exact canon_cmdAbandon _ _ _ h
  · extract_lets +onlyGivenNames d1 op r
    have h1 : Canon d1 = true := by
      unfold d1
      split
      · exact canon_makeWay _ _ h
      · exact h
    exact canon_runBody _ _ (canon_relayedBody _ _ _ _ _ _ h1)

@[simp] theorem canon_rspTaken (p : RspPl) (src : Nat) (d : Dev) (h : Canon d = true) :
    Canon (rspTaken p src d) = true := by
  unfold rspTaken
  simp only []
  split
  all_goals try split
  all_goals simp [h]

@[simp] theorem canon_relayPass (d : Dev) : Canon (relayPass d) = Canon d := by simp [relayPass, canon_foldl]

@[simp] theorem canon_peerFirmwareBody (c : AdmCmd) (buf : Bytes) (r : AdmRun) (d : Dev) :
    Canon (peerFirmwareBody c buf r d).1 = Canon d := by
  unfold peerFirmwareBody
  simp only []
  split <;> simp

@[simp] theorem canon_relayPassWait (d : Dev) : Canon (relayPassWait d) = Canon d := by simp [relayPassWait]

@[simp] theorem canon_relayBeaconWait (d : Dev) (h : Canon d = true) : Canon (relayBeaconWait d) = true := by
  unfold relayBeaconWait
  simp only []
  split
  all_goals try split
  all_goals simp [h]

@[simp] theorem canon_relayAssemble (d : Dev) (h : Canon d = true) : Canon (relayAssemble d) = true := by
  unfold relayAssemble
  split
  · exact h
  · extract_lets +onlyGivenNames total n
    split
    · simp [h]
    · split
      · have hb : bytesWf (tblWriteBytes [] 0 ((relayedBytes d n).take total)) = true := tblWf_writeBytes _ _ _ rfl
        refine (canon_setBoot ..).trans ?_
        simp only [canon_mk, canonOf_eq]
        simp [h, hb]
      · exact h

@[simp] theorem canon_imgFlit (h : FlitHdr) (k : Nat) (data : Bytes) (d : Dev) (hd : Canon d = true) :
    Canon (imgFlit h k data d) = true := by simp [imgFlit, hd]

@[simp] theorem canon_joinFlit (h : FlitHdr) (mask : BitVec 4) (lost : Unread) (d : Dev) (hd : Canon d = true) :
    Canon (joinFlit h mask lost d) = true := by simp [joinFlit, hd]

@[simp] theorem canon_serveFlit (i : Instr) (d : Dev) (h : Canon d = true) : Canon (serveFlit i d) = true := by
  unfold serveFlit
  split <;> simp [h]

@[simp] theorem canon_serveHeld (d : Dev) (h : Canon d = true) : Canon (serveHeld d) = true := by
  unfold serveHeld
  split
  · exact h
  · refine canon_standbyCheck _ (canon_foldl_keeps _ _ (fun d i h => ?_) _ h)
    split
    · split
      · exact canon_serveFlit _ _ h
      · exact h
    · exact canon_serveFlit _ _ h

end Sys2Proof.Machine
end

section
/-!
Register reads and writes keep the tables in their canonical form (O60).
-/

namespace Sys2Proof.Machine

@[simp] theorem canon_hostRead (off : Nat) (d : Dev) : Canon (hostRead off d) = Canon d := by simp [hostRead]

@[simp] theorem canon_clearRc (off : Nat) (d : Dev) : Canon (clearRc off d) = Canon d := by
  unfold clearRc
  split <;> simp

@[simp] theorem canon_readEffect (off : Nat) (d : Dev) : Canon (readEffect off d) = Canon d := by
  unfold readEffect
  split <;> simp

@[simp] theorem canon_readDword (off : Nat) (d : Dev) : Canon (readDword off d) = Canon d := by simp [readDword]

@[simp] theorem canon_readBar0 (off : Nat) (size : HostRead) (d : Dev) : Canon (readBar0 off size d) = Canon d := by
  unfold readBar0
  split <;> simp

@[simp] theorem canon_clearFirst (d : Dev) : Canon (clearFirst d) = Canon d := by simp [clearFirst]

@[simp] theorem canon_writePace (v : Nat) (d : Dev) : Canon (writePace v d) = Canon d := by simp [writePace]

@[simp] theorem canon_writeLow (off v : Nat) (d : Dev) (h : Canon d = true) : Canon (writeLow off v d) = true := by
  unfold writeLow
  split <;> simp [h]

theorem canon_regs (r : Regs) (d : Dev) : Canon { d with regs := r } = Canon d := rfl

@[simp] theorem canon_writeAdm (off v : Nat) (d : Dev) : Canon (writeAdm off v d) = Canon d := by
  unfold writeAdm
  split
  · rfl
  · split
    iterate 9 exact canon_regs ..
    rfl

@[simp] theorem canon_writeHif (off v : Nat) (d : Dev) (h : Canon d = true) : Canon (writeHif off v d) = true := by
  unfold writeHif
  split <;> simp [h]

@[simp] theorem canon_writeTier (off v : Nat) (d : Dev) : Canon (writeTier off v d) = Canon d := by
  unfold writeTier
  split <;> simp

@[simp] theorem canon_writeEccCtl (v : Nat) (d : Dev) (h : Canon d = true) : Canon (writeEccCtl v d) = true :=
  by simp [writeEccCtl, h]

@[simp] theorem canon_writeEcc (off v : Nat) (d : Dev) (h : Canon d = true) : Canon (writeEcc off v d) = true :=
  by simp [writeEcc, h]

@[simp] theorem canon_writeNodes (v : Nat) (d : Dev) : Canon (writeNodes v d) = Canon d := by simp [writeNodes]

@[simp] theorem canon_writeFuseCtl (v : Nat) (d : Dev) : Canon (writeFuseCtl v d) = Canon d := by simp [writeFuseCtl]

@[simp] theorem canon_writeFuse (off v : Nat) (d : Dev) : Canon (writeFuse off v d) = Canon d := by
  unfold writeFuse
  split <;> simp

@[simp] theorem canon_writeErr (off v : Nat) (d : Dev) : Canon (writeErr off v d) = Canon d := by
  unfold writeErr
  split <;> simp

@[simp] theorem canon_writeMsix (off v : Nat) (d : Dev) (h : Canon d = true) : Canon (writeMsix off v d) = true := by
  unfold writeMsix
  simp only []
  split
  all_goals try split
  all_goals simp [h, canonOf_eq]

@[simp] theorem canon_writeReg (off v : Nat) (d : Dev) (h : Canon d = true) : Canon (writeReg off v d) = true :=
  by simp [writeReg, h]

@[simp] theorem canon_writeBar0 (ws : List (Nat × Nat)) (d : Dev) (h : Canon d = true) :
    Canon (writeBar0 ws d) = true := by
  unfold writeBar0
  exact canon_foldl_keeps _ _ (fun d x h => by simp [h]) _ (by simp [h])

end Sys2Proof.Machine
end

section
/-!
JTAG and the Loupe keep the tables in their canonical form (O60).
-/

namespace Sys2Proof.Machine

@[simp] theorem canon_loadIr (i : TapInstr) (out : Bytes) (d : Dev) : Canon (loadIr i out d) = Canon d :=
  by simp [loadIr]

@[simp] theorem canon_captureBalls (i : TapInstr) (d : Dev) : Canon (captureBalls i d) = Canon d :=
  by simp [captureBalls]

@[simp] theorem canon_doExtest (data : List Bool) (d : Dev) : Canon (doExtest data d) = Canon d := by simp [doExtest]

@[simp] theorem canon_freeWord (d : Dev) : Canon (freeWord d).2 = Canon d := by simp [freeWord]

@[simp] theorem canon_shuttleWord (k : Nat) (d : Dev) : Canon (shuttleWord k d).2 = Canon d := by
  unfold shuttleWord
  split <;> simp

@[simp] theorem canon_captureData (d : Dev) : Canon (captureData d) = Canon d := by simp [captureData]

@[simp] theorem canon_endAccess (v : Word) (d : Dev) : Canon (endAccess v d) = Canon d := by simp [endAccess]

@[simp] theorem canon_refuseAccess (d : Dev) : Canon (refuseAccess d) = Canon d := by simp [refuseAccess]

@[simp] theorem canon_doLoupeAddr (v : BitVec 36) (d : Dev) : Canon (doLoupeAddr v d) = Canon d :=
  by simp [doLoupeAddr]

theorem canon_readTable {a : Nat} {d : Dev} {x : Word × Dev} (hx : readTable a d = some x) : Canon x.2 = Canon d := by
  unfold readTable at hx
  simp only [] at hx
  split at hx
  · cases hx
  · split at hx
    · cases hx; rfl
    · cases hx; rfl
    · cases hx

theorem canon_readStaged {words a : Nat} {d : Dev} {x : Word × Dev} (hx : readStaged words a d = some x) :
    Canon x.2 = Canon d := by
  unfold readStaged at hx
  split at hx
  · cases hx
  · split at hx
    · cases hx; rfl
    · cases hx; rfl
    · cases hx

theorem canon_readNearPiece {a : Nat} {d : Dev} {x : Word × Dev} (hx : readNearPiece a d = some x) :
    Canon x.2 = Canon d := by
  have hf : Canon (freeWord d).2 = Canon d := rfl
  unfold readNearPiece at hx
  generalize nearStored (a / 4) d = stored, a % 4 = part, freeWord d = f, 262144 = words at hx hf
  obtain ⟨-, hx⟩ := Option.ite_none_left_eq_some.1 hx
  rcases stored with _ | s
  · rcases part with _ | _ | _ | _
    · exact Option.some.inj hx ▸ hf
    · exact Option.some.inj hx ▸ hf
    · exact Option.some.inj hx ▸ hf
    · cases hx
  · rcases part with _ | _ | _ | _
    · exact Option.some.inj hx ▸ rfl
    · exact Option.some.inj hx ▸ rfl
    · exact Option.some.inj hx ▸ rfl
    · cases hx

theorem canon_readFuseWord {a : Nat} {d : Dev} {x : Word × Dev} (hx : readFuseWord a d = some x) :
    Canon x.2 = Canon d := by
  unfold readFuseWord at hx
  extract_lets row at hx
  clear_value row
  split at hx
  · cases hx
  · cases hx; rfl

theorem canon_readSpace {space a : Nat} {d : Dev} {x : Word × Dev} (hx : readSpace space a d = some x) :
    Canon x.2 = Canon d := by
  unfold readSpace at hx
  split at hx
  · split at hx
    · cases hx; rfl
    · cases hx
  · exact canon_readTable hx
  · exact canon_readStaged hx
  · exact canon_readStaged hx
  · split at hx
    · cases hx; rfl
    · cases hx
  · split at hx
    · cases hx; exact canon_shuttleWord ..
    · cases hx
  · exact canon_readNearPiece hx
  · split at hx
    · cases hx; rfl
    · cases hx
  · exact canon_readFuseWord hx
  · split at hx
    · cases hx; exact canon_shuttleWord ..
    · cases hx
  · cases hx

@[simp] theorem canon_doLoupeRead (d : Dev) : Canon (doLoupeRead d) = Canon d := by
  unfold doLoupeRead
  split
  · rfl
  · split
    · exact canon_loadIr ..
    · extract_lets +onlyGivenNames d1
      have h1 : Canon d1 = Canon d := canon_captureData _
      clear_value d1
      split
      · exact (canon_refuseAccess _).trans h1
      · split
        · next x hx => exact (canon_endAccess ..).trans ((canon_readSpace hx).trans h1)
        · exact (canon_refuseAccess _).trans h1

theorem canon_writeSpace {space a : Nat} {v : Word} {d e : Dev} (hx : writeSpace space a v d = some e) (h : Canon d =
    true) :
    Canon e = true := by
  unfold writeSpace at hx
  split at hx
  · split at hx
    · cases hx; exact canon_writeReg _ _ _ h
    · cases hx
  · split at hx
    · cases hx
      simp only [canon_mk, canonOf_eq]
      simp [h]
    · cases hx
  · split at hx
    · cases hx; exact h
    · cases hx
  · split at hx
    · cases hx; exact h
    · cases hx
  · cases hx

@[simp] theorem canon_doLoupeWrite (v : Word) (d : Dev) (h : Canon d = true) : Canon (doLoupeWrite v d) = true := by
  unfold doLoupeWrite
  split
  · exact h
  · split
    · exact (canon_loadIr ..).trans h
    · extract_lets +onlyGivenNames d1
      have h1 : Canon d1 = true := (canon_captureData _).trans h
      clear_value d1
      split
      · exact (canon_refuseAccess _).trans h1
      · split
        · next e he => exact (canon_endAccess ..).trans (canon_writeSpace he h1)
        · exact (canon_refuseAccess _).trans h1

@[simp] theorem canon_haltNow (d : Dev) : Canon (haltNow d) = Canon d := by simp [haltNow]

@[simp] theorem canon_askHalt (d : Dev) : Canon (askHalt d) = Canon d := by simp [askHalt]

@[simp] theorem canon_shuttleHalts (d : Dev) : Canon (shuttleHalts d) = Canon d := by simp [shuttleHalts]

@[simp] theorem canon_goOn (d : Dev) (h : Canon d = true) : Canon (goOn d) = true := by
  unfold goOn
  split
  · exact h
  · refine canon_pumpFlags _ ((canon_fetchNext ..).trans (canon_serveHeld _ (canon_firmwareResumes _ ?_)))
    exact canon_flushDoe _ ((canon_settlePauses _).trans h)

@[simp] theorem canon_stepOne (d : Dev) : Canon (stepOne d) = Canon d := by simp [stepOne]

@[simp] theorem canon_doUnlockChal (d : Dev) : Canon (doUnlockChal d) = Canon d := by simp [doUnlockChal]

@[simp] theorem canon_doUnlockResp (r : Bytes) (d : Dev) : Canon (doUnlockResp r d) = Canon d := by
  unfold doUnlockResp
  split
  · rfl
  · split
    · exact canon_loadIr ..
    · extract_lets +onlyGivenNames ok _ _ d1
      have h1 : Canon d1 = Canon d := rfl
      clear_value d1
      split
      · extract_lets +onlyGivenNames _ d2
        have h2 : Canon d2 = Canon d1 := rfl
        clear_value d2
        split
        · exact (canon_logRec ..).trans (h2.trans h1)
        · exact h2.trans h1
      · exact (canon_recordErr ..).trans h1

theorem canon_scanCtrl (autoinc : Bool) {f : Dev → Dev} (keeps : ∀ d, Canon d = true → Canon (f d) = true) (d : Dev)
    (h : Canon d = true) : Canon (scanCtrl autoinc f d) = true := by
  unfold scanCtrl
  split
  · exact h
  · split
    · exact (canon_loadIr ..).trans h
    · extract_lets +onlyGivenNames _ _ d1
      have h1 : Canon d1 = true := h
      clear_value d1
      split
      · exact keeps _ h1
      · exact h1

end Sys2Proof.Machine
end

section
/-!
SRAM errors keep the tables in their canonical form (O60).
-/

namespace Sys2Proof.Machine

@[simp] theorem canon_sramRead (f : SramFlaw) (d : Dev) : Canon (sramRead f d) = Canon d := by simp [sramRead]

end Sys2Proof.Machine
end

section
/-!
Every command leaves the tables in their canonical form (O60): one lemma per command.
-/

namespace Sys2Proof.Machine

/-- Where there is a next state, its tables are in their canonical form. -/
def CanonNext (o : Host.Outcome State Fault Refusal) : Prop := ∀ t : State, o = .next t → Canon t.dev = true

theorem canonNext_next {t : State} (h : Canon t.dev = true) : CanonNext (.next t) := by
  intro u hu
  cases hu
  exact h

theorem canonNext_act {f : Dev → Dev} {s : State} (keeps : Canon (f s.dev) = true) : CanonNext (act f s) :=
  canonNext_next keeps

theorem canonNext_actBacklog {f : Dev → Dev} {s : State} (keeps : Canon (f s.dev) = true) :
    CanonNext (actBacklog f s) :=
  canonNext_act ((canon_govTrack _).trans keeps)

theorem canonNext_fault (f : Fault) : CanonNext (.fault f) := fun _ h => nomatch h

theorem canonNext_ite {p : Prop} [Decidable p] {a b : Host.Outcome State Fault Refusal} (ha : CanonNext a)
    (hb : CanonNext b) : CanonNext (if p then a else b) := by
  split
  · exact ha
  · exact hb

theorem canon_hostReach {d e : Dev} (h : Canon d = true) (keeps : Canon e = true) :
    Canon (if hostReach d then e else d) = true := by
  split
  · exact keeps
  · exact h

section
variable {s : State} (h : Canon s.dev = true)
include h

theorem canonNext_execRingCreate (c : AdmCmd) : CanonNext (execRingCreate c s) :=
  canonNext_act (canon_admin _ _ _ _ (fun r d h => by simp [h]) h)

theorem canonNext_execRingDelete (c : AdmCmd) : CanonNext (execRingDelete c s) :=
  canonNext_act (canon_admin _ _ _ _ (fun r d h => by simp [h]) h)

theorem canonNext_execStageQueues (c : AdmCmd) (buf : Bytes) : CanonNext (execStageQueues c buf s) :=
  canonNext_act (canon_admin _ _ _ _ (fun r d h => by simp [h]) h)

theorem canonNext_execStagePorts (c : AdmCmd) (buf : Bytes) : CanonNext (execStagePorts c buf s) :=
  canonNext_act (canon_admin _ _ _ _ (fun r d h => by simp [h]) h)

theorem canonNext_execStageBindings (c : AdmCmd) (buf : Bytes) : CanonNext (execStageBindings c buf s) :=
  canonNext_act (canon_admin _ _ _ _ (fun r d h => by simp [h]) h)

theorem canonNext_execEpochCheck (c : AdmCmd) (peerEw : List (Nat × BitVec 2)) :
    CanonNext (execEpochCheck c peerEw s) :=
  canonNext_act (canon_admin _ _ _ _ (fun r d h => by simp [h]) h)

theorem canonNext_execEpochCommit (c : AdmCmd) (peerEw : List (Nat × BitVec 2)) :
    CanonNext (execEpochCommit c peerEw s) :=
  canonNext_act (canon_admin _ _ _ _ (fun r d h => canon_unlessBusy _ _ h (canon_commitBody _ _ _ h)) h)

theorem canonNext_execCommitInstant : CanonNext (execCommitInstant s) :=
  canonNext_actBacklog (by simp [h])

theorem canonNext_execEpochDiscard (c : AdmCmd) : CanonNext (execEpochDiscard c s) :=
  canonNext_act (canon_admin _ _ _ _ (fun r d h => by simp [h]) h)

theorem canonNext_execQueueFlush (c : AdmCmd) : CanonNext (execQueueFlush c s) :=
  canonNext_act (canon_admin _ _ _ _ (fun r d h => by simp [h]) h)

theorem canonNext_execQueueDropPacket (c : AdmCmd) : CanonNext (execQueueDropPacket c s) :=
  canonNext_act (canon_admin _ _ _ _ (fun r d h => by simp [h]) h)

theorem canonNext_execQueueMark (c : AdmCmd) : CanonNext (execQueueMark c s) :=
  canonNext_act (canon_admin _ _ _ _ (fun r d h => by simp [h]) h)

theorem canonNext_execQueueRetransmit (c : AdmCmd) : CanonNext (execQueueRetransmit c s) :=
  canonNext_act (canon_admin _ _ _ _ (fun r d h => by simp [h]) h)

theorem canonNext_execQueueReadCounters (c : AdmCmd) : CanonNext (execQueueReadCounters c s) :=
  canonNext_act (canon_admin _ _ _ _ (fun r d h => by simp [h]) h)

theorem canonNext_execPortUnpark (c : AdmCmd) : CanonNext (execPortUnpark c s) :=
  canonNext_act (canon_admin _ _ _ _ (fun r d h => by simp [h]) h)

theorem canonNext_execSealCmd (c : AdmCmd) : CanonNext (execSealCmd c s) :=
  canonNext_actBacklog (canon_admin _ _ _ _ (fun r d h => canon_unlessBusy _ _ h (canon_sealBody _ _ h)) h)

theorem canonNext_execPowerRequestActive (c : AdmCmd) : CanonNext (execPowerRequestActive c s) :=
  canonNext_act (canon_admin _ _ _ _ (fun r d h => by simp [h]) h)

theorem canonNext_execPowerRequestListen (c : AdmCmd) : CanonNext (execPowerRequestListen c s) :=
  canonNext_act (canon_admin _ _ _ _ (fun r d h => by simp [h]) h)

theorem canonNext_execPowerRequestStandby (c : AdmCmd) : CanonNext (execPowerRequestStandby c s) :=
  canonNext_act (canon_admin _ _ _ _ (fun r d h => by simp [h]) h)

theorem canonNext_execKeyLoad (c : AdmCmd) (buf : Bytes) : CanonNext (execKeyLoad c buf s) :=
  canonNext_act (canon_admin _ _ _ _ (fun r d h => by simp [h]) h)

theorem canonNext_execKeyErase (c : AdmCmd) : CanonNext (execKeyErase c s) :=
  canonNext_act (canon_admin _ _ _ _ (fun r d h => canon_unlessBusy _ _ h (canon_keyEraseBody _ _ _ h)) h)

theorem canonNext_execKeyEraseEffect : CanonNext (execKeyEraseEffect s) :=
  canonNext_act (by simp [h])

theorem canonNext_execKeyInstallPending (slot : BitVec 4) : CanonNext (execKeyInstallPending slot s) :=
  canonNext_act (by simp [h])

theorem canonNext_execKeyStatus (c : AdmCmd) : CanonNext (execKeyStatus c s) :=
  canonNext_act (canon_admin _ _ _ _ (fun r d h => by simp [h]) h)

theorem canonNext_execWearReport (c : AdmCmd) : CanonNext (execWearReport c s) :=
  canonNext_act (canon_admin _ _ _ _ (fun r d h => by simp [h]) h)

theorem canonNext_execScrubReport (c : AdmCmd) : CanonNext (execScrubReport c s) :=
  canonNext_act (canon_admin _ _ _ _ (fun r d h => by simp [h]) h)

theorem canonNext_execRemapReport (c : AdmCmd) : CanonNext (execRemapReport c s) :=
  canonNext_act (canon_admin _ _ _ _ (fun r d h => by simp [h]) h)

theorem canonNext_execPeerStatus (c : AdmCmd) : CanonNext (execPeerStatus c s) :=
  canonNext_act (canon_admin _ _ _ _ (fun r d h => by simp [h]) h)

theorem canonNext_execPeerFirmware (c : AdmCmd) (buf : Bytes) : CanonNext (execPeerFirmware c buf s) :=
  canonNext_act (canon_admin _ _ _ _ (fun r d h => by simp [h]) h)

theorem canonNext_execRelayPassWaitExpiry : CanonNext (execRelayPassWaitExpiry s) :=
  canonNext_act (by simp [h])

theorem canonNext_execRelayBeaconWaitExpiry : CanonNext (execRelayBeaconWaitExpiry s) :=
  canonNext_act (by simp [h])

theorem canonNext_execLogRead (c : AdmCmd) : CanonNext (execLogRead c s) :=
  canonNext_act (canon_admin _ _ _ _ (fun r d h => by simp [h]) h)

theorem canonNext_execInvalidOpcode (opcode : BitVec 8) (c : AdmCmd) : CanonNext (execInvalidOpcode opcode c s) :=
  canonNext_act (by simp [h])

theorem canonNext_execRelayedAdminCommand (opcode : BitVec 8) (c : AdmCmd) (buf : Bytes) :
    CanonNext (execRelayedAdminCommand opcode c buf s) :=
  canonNext_act (by simp [h])

theorem canonNext_execAdminTimeout : CanonNext (execAdminTimeout s) :=
  canonNext_act (by simp [h])

theorem canonNext_execAdminEnable : CanonNext (execAdminEnable s) :=
  canonNext_act (canon_hostReach h (by simp [h]))

theorem canonNext_execAdminDisable : CanonNext (execAdminDisable s) :=
  canonNext_act (canon_hostReach h (by simp [h]))

theorem canonNext_execHifMirrorEnWrite (v : Bool) : CanonNext (execHifMirrorEnWrite v s) :=
  canonNext_act (canon_hostReach h (by simp [h]))

theorem canonNext_execMirrorHoldExpiry (qid : BitVec 12) : CanonNext (execMirrorHoldExpiry qid s) :=
  canonNext_act (by simp [h])

theorem canonNext_execPwrSoftReset (v : BitVec 8) : CanonNext (execPwrSoftReset v s) :=
  canonNext_act (canon_hostReach h (by simp [h]))

theorem canonNext_execPwrPaceWrite (v : BitVec 3) : CanonNext (execPwrPaceWrite v s) :=
  canonNext_act (canon_hostReach h (by simp [h]))

theorem canonNext_execPwrGovEnWrite (v : Bool) : CanonNext (execPwrGovEnWrite v s) :=
  canonNext_act (canon_hostReach h (by simp [h]))

theorem canonNext_execPwrPaceRangeWrite (lo hi : BitVec 3) : CanonNext (execPwrPaceRangeWrite lo hi s) :=
  canonNext_act (canon_hostReach h (by simp [h]))

theorem canonNext_execPwrGovWindowWrite (up down : BitVec 16) : CanonNext (execPwrGovWindowWrite up down s) :=
  canonNext_act (canon_hostReach h (by simp [h]))

theorem canonNext_execPaceStepSettled : CanonNext (execPaceStepSettled s) :=
  canonNext_act (by simp [h])

theorem canonNext_execGovUpWindowExpiry : CanonNext (execGovUpWindowExpiry s) :=
  canonNext_act (by simp [h])

theorem canonNext_execGovDownWindowExpiry : CanonNext (execGovDownWindowExpiry s) :=
  canonNext_act (by simp [h])

theorem canonNext_execTbNowCapture : CanonNext (execTbNowCapture s) :=
  canonNext_act (canon_hostReach h (by simp [h]))

theorem canonNext_execSlowclkPresent : CanonNext (execSlowclkPresent s) :=
  canonNext_act (by simp [h])

theorem canonNext_execSlowclkLost : CanonNext (execSlowclkLost s) :=
  canonNext_act (by simp [h])

theorem canonNext_execTickOscRestarted : CanonNext (execTickOscRestarted s) :=
  canonNext_act (by simp [h])

theorem canonNext_execBootLoadChunk : CanonNext (execBootLoadChunk s) :=
  canonNext_act (canon_hostReach h (by simp [h]))

theorem canonNext_execChunkCopyDone : CanonNext (execChunkCopyDone s) :=
  canonNext_act (by simp [h])

theorem canonNext_execBootStart : CanonNext (execBootStart s) :=
  canonNext_act (canon_hostReach h (by simp [h]))

theorem canonNext_execImageVerified (lost : Unread) : CanonNext (execImageVerified lost s) :=
  canonNext_act (by simp [h])

theorem canonNext_execBootRestart : CanonNext (execBootRestart s) :=
  canonNext_act (canon_hostReach h (by simp [h]))

theorem canonNext_execBar2Write (off : BitVec 16) (data : Bytes) : CanonNext (execBar2Write off data s) :=
  canonNext_act (canon_hostReach h (by simp [h]))

theorem canonNext_execFuseRead (row : BitVec 8) (mode : BitVec 2) : CanonNext (execFuseRead row mode s) :=
  canonNext_ite (canonNext_fault _) (canonNext_act (canon_hostReach h (by simp [h])))

theorem canonNext_execFuseBurn (row : BitVec 8) (word : BitVec 3) (outcomes : List BurnOutcome) :
    CanonNext (execFuseBurn row word outcomes s) :=
  canonNext_act (canon_hostReach h (by simp [h]))

theorem canonNext_execFuseRedirect (row : BitVec 8) : CanonNext (execFuseRedirect row s) :=
  canonNext_act (canon_hostReach h (by simp [h]))

theorem canonNext_execFuseOpDone : CanonNext (execFuseOpDone s) :=
  canonNext_act (by simp [h])

theorem canonNext_execOtpLockWrite (v : BitVec 8) : CanonNext (execOtpLockWrite v s) :=
  canonNext_act (canon_hostReach h (by simp [h]))

theorem canonNext_execShadowOverrideWrite (off : BitVec 13) (v : Word) :
    CanonNext (execShadowOverrideWrite off v s) :=
  canonNext_act (canon_hostReach h (by simp [h]))

theorem canonNext_execEccTestWrite (index : BitVec 9) (deep valid : Bool) :
    CanonNext (execEccTestWrite index deep valid s) :=
  canonNext_act (by simp [h])

theorem canonNext_execEccTestProgram : CanonNext (execEccTestProgram s) :=
  canonNext_act (by simp [h])

theorem canonNext_execEccTestRead (index : BitVec 9) (deep : Bool) : CanonNext (execEccTestRead index deep s) :=
  canonNext_act (by simp [h])

theorem canonNext_execEccTestDone : CanonNext (execEccTestDone s) :=
  canonNext_act (by simp [h])

theorem canonNext_execErrCapPop : CanonNext (execErrCapPop s) :=
  canonNext_act (canon_hostReach h (by simp [h]))

theorem canonNext_execErrFirstClr : CanonNext (execErrFirstClr s) :=
  canonNext_act (canon_hostReach h (by simp [h]))

theorem canonNext_execRcFieldRead (r : RegRead) : CanonNext (execRcFieldRead r s) :=
  canonNext_act (canon_hostReach h (by simp [h]))

theorem canonNext_execTierSpillBurstWrite (v : BitVec 21) : CanonNext (execTierSpillBurstWrite v s) :=
  canonNext_act (canon_hostReach h (by simp [h]))

theorem canonNext_execCasEnable : CanonNext (execCasEnable s) :=
  canonNext_act (canon_hostReach h (by simp [h]))

theorem canonNext_execRegisterWrite (off : BitVec 14) (w : HostWrite) : CanonNext (execRegisterWrite off w s) :=
  canonNext_ite (canonNext_fault _) (canonNext_act (canon_writeBar0 _ _ h))

theorem canonNext_execIngressBeat (port : Fin 2) (en tag eop : Bool) (v : BitVec 16) :
    CanonNext (execIngressBeat port en tag eop v s) :=
  canonNext_actBacklog (by simp [h])

theorem canonNext_execFlushPulse (port : Fin 2) (level : Bool) : CanonNext (execFlushPulse port level s) :=
  canonNext_act (by simp [h])

theorem canonNext_execRtPulse (port : Fin 2) (level : Bool) : CanonNext (execRtPulse port level s) :=
  canonNext_act (by simp [h])

theorem canonNext_execMrkPulse (port : Fin 2) (level : Bool) : CanonNext (execMrkPulse port level s) :=
  canonNext_act (by simp [h])

theorem canonNext_execDropPulse (port : Fin 2) (level : Bool) : CanonNext (execDropPulse port level s) :=
  canonNext_act (by simp [h])

theorem canonNext_execEventCrossingLatch (port : Fin 4) : CanonNext (execEventCrossingLatch port s) :=
  canonNext_act (by simp [h])

theorem canonNext_execEventCrossingFree (port : Fin 4) : CanonNext (execEventCrossingFree port s) :=
  canonNext_act (by simp [h])

theorem canonNext_execPortEventEffect (port : Fin 4) : CanonNext (execPortEventEffect port s) :=
  canonNext_actBacklog (by simp [h])

theorem canonNext_execBeatVisible (port : Fin 2) : CanonNext (execBeatVisible port s) :=
  canonNext_actBacklog (by simp [h])

theorem canonNext_execValueCrossingAccept (port : Fin 4) (kind : ValueKind) :
    CanonNext (execValueCrossingAccept port kind s) :=
  canonNext_act (by simp [h])

theorem canonNext_execEgressRead (port : Fin 2) : CanonNext (execEgressRead port s) :=
  canonNext_act (by simp [h])

theorem canonNext_execEgressPushBeat (port : Fin 2) (hold : Bool) : CanonNext (execEgressPushBeat port hold s) :=
  canonNext_act (by simp [h])

theorem canonNext_execPortClockStall (port : Fin 4) : CanonNext (execPortClockStall port s) :=
  canonNext_actBacklog (by simp [h])

theorem canonNext_execPortReopen (port : Fin 4) : CanonNext (execPortReopen port s) :=
  canonNext_actBacklog (by simp [h])

theorem canonNext_execHandover (pair : Fin 2) : CanonNext (execHandover pair s) :=
  canonNext_act (by simp [h])

theorem canonNext_execHandoverForced (pair : Fin 2) : CanonNext (execHandoverForced pair s) :=
  canonNext_act (by simp [h])

theorem canonNext_execSwitchReturn (pair : Fin 2) : CanonNext (execSwitchReturn pair s) :=
  canonNext_act (by simp [h])

theorem canonNext_execTpEnChange (pair : Fin 2) (level : Bool) : CanonNext (execTpEnChange pair level s) :=
  canonNext_act (by simp [h])

theorem canonNext_execTurnstileRound (qid : BitVec 14) (upsets : List (Nat × BitVec 74)) (sram : List SramFlaw) :
    CanonNext (execTurnstileRound qid upsets sram s) :=
  canonNext_actBacklog
    (canon_turnstileRound _ _ _ ((canon_foldl _ _ (fun _ _ => canon_sramRead ..) _).trans h))

theorem canonNext_execKick (lowNs : Nat) : CanonNext (execKick lowNs s) :=
  canonNext_act (by simp [h])

theorem canonNext_execSweepTimerExpiry : CanonNext (execSweepTimerExpiry s) :=
  canonNext_act (by simp [h])

theorem canonNext_execSweep (block : List DWord) : CanonNext (execSweep block s) :=
  canonNext_act (by simp [h])

theorem canonNext_execFillDescriptorFetch (ring : BitVec 6) : CanonNext (execFillDescriptorFetch ring s) :=
  canonNext_act (by simp [h])

theorem canonNext_execDmaReadCompletion (tag : Nat) (status : CplStatus) (data : Bytes) :
    CanonNext (execDmaReadCompletion tag status data s) :=
  canonNext_act (by simp [h])

theorem canonNext_execCompletionTimeout (tag : Nat) : CanonNext (execCompletionTimeout tag s) :=
  canonNext_act (by simp [h])

theorem canonNext_execDescTimeout (ring : BitVec 6) : CanonNext (execDescTimeout ring s) :=
  canonNext_act (by simp [h])

theorem canonNext_execDrainDescriptorFetch (ring : BitVec 6) : CanonNext (execDrainDescriptorFetch ring s) :=
  canonNext_act (by simp [h])

theorem canonNext_execDrainGrant (ring : BitVec 6) : CanonNext (execDrainGrant ring s) :=
  canonNext_act (by simp [h])

theorem canonNext_execDrainWaitExpiry (qid : BitVec 12) : CanonNext (execDrainWaitExpiry qid s) :=
  canonNext_act (by simp [h])

theorem canonNext_execDrainTransferEnd (ring : BitVec 6) : CanonNext (execDrainTransferEnd ring s) :=
  canonNext_act (by simp [h])

theorem canonNext_execCompletionIrqTimer (ring : BitVec 6) : CanonNext (execCompletionIrqTimer ring s) :=
  canonNext_act (by simp [h])

theorem canonNext_execMsixUnmask (u : Unmask) : CanonNext (execMsixUnmask u s) :=
  canonNext_act (by simp [h])

theorem canonNext_execBusMasterChange (bme d3hot : Bool) : CanonNext (execBusMasterChange bme d3hot s) :=
  canonNext_act (by simp [h])

theorem canonNext_execL1EntryRequest : CanonNext (execL1EntryRequest s) :=
  canonNext_act (by simp [h])

theorem canonNext_execUnsupportedRequest (u : BadRequest) : CanonNext (execUnsupportedRequest u s) :=
  canonNext_act (by simp [h])

theorem canonNext_execHostInterfaceReset (r : HostReset) : CanonNext (execHostInterfaceReset r s) :=
  canonNext_act (by simp [h])

theorem canonNext_execPerstAssert : CanonNext (execPerstAssert s) :=
  canonNext_act (by simp [h])

theorem canonNext_execPerstDeassert : CanonNext (execPerstDeassert s) :=
  canonNext_act (by simp [h])

theorem canonNext_execLinkUp (l : LinkTrained) : CanonNext (execLinkUp l s) :=
  canonNext_act (by simp [h])

theorem canonNext_execPor (node : BitVec 2) (tpEn0 tpEn1 core0Fail core1Fail : Bool) :
    CanonNext (execPor node tpEn0 tpEn1 core0Fail core1Fail s) :=
  canonNext_act (by simp [h])

theorem canonNext_execVinLoss : CanonNext (execVinLoss s) :=
  canonNext_act (by simp [h])

theorem canonNext_execDeepProgramStart : CanonNext (execDeepProgramStart s) :=
  canonNext_actBacklog (by simp [h])

theorem canonNext_execDeepProgramVerified (seg : BitVec 14) (ok : Bool) :
    CanonNext (execDeepProgramVerified seg ok s) :=
  canonNext_actBacklog (by simp [h])

theorem canonNext_execDeepReadComplete (qid : BitVec 12) (seg : Nat) (reads : List DeepRead) :
    CanonNext (execDeepReadComplete qid seg reads s) :=
  canonNext_actBacklog (by simp [h])

theorem canonNext_execJournalTimerExpiry : CanonNext (execJournalTimerExpiry s) :=
  canonNext_act (by simp [h])

theorem canonNext_execScrubNearGroup (upsets : List (Nat × BitVec 74)) : CanonNext (execScrubNearGroup upsets s) :=
  canonNext_act (by simp [h])

theorem canonNext_execScrubDeepGroup (r : DeepRead) : CanonNext (execScrubDeepGroup r s) :=
  canonNext_actBacklog (by simp [h])

theorem canonNext_execWeaveLaneStall (group : BitVec 11) (lane : BitVec 3) :
    CanonNext (execWeaveLaneStall group lane s) :=
  canonNext_act (by simp [h])

theorem canonNext_execTrain : CanonNext (execTrain s) :=
  canonNext_act (by simp [h])

theorem canonNext_execAck (hdr : FlitHdr) : CanonNext (execAck hdr s) :=
  canonNext_actBacklog (canon_standbyCheck _ (canon_routed _ _ _ _ _ (fun _ h => (canon_takeHeader ..).trans h) _ h))

theorem canonNext_execNak (hdr : FlitHdr) : CanonNext (execNak hdr s) :=
  canonNext_actBacklog (canon_standbyCheck _ (canon_routed _ _ _ _ _ (fun _ h => canon_nakTaken _ _ h) _ h))

theorem canonNext_execAckTimerExpiry (node : BitVec 2) : CanonNext (execAckTimerExpiry node s) :=
  canonNext_act (by simp [h])

theorem canonNext_execRetryTimeout (node : BitVec 2) : CanonNext (execRetryTimeout node s) :=
  canonNext_actBacklog (by simp [h])

theorem canonNext_execBeaconTimer : CanonNext (execBeaconTimer s) :=
  canonNext_act (by simp [h])

theorem canonNext_execBeacon (hdr : FlitHdr) (p : BeaconPl) : CanonNext (execBeacon hdr p s) :=
  canonNext_actBacklog (by simp [h])

theorem canonNext_execBeaconTimeout (node : BitVec 2) : CanonNext (execBeaconTimeout node s) :=
  canonNext_actBacklog (by simp [h])

theorem canonNext_execPush (hdr : FlitHdr) (p : PushPl) : CanonNext (execPush hdr p s) :=
  canonNext_act (canon_receive _ _ _ _ _ (fun n d h => by simp [h]) _ h)

theorem canonNext_execPopReq (hdr : FlitHdr) (p : PopReqPl) : CanonNext (execPopReq hdr p s) :=
  canonNext_actBacklog (canon_receive _ _ _ _ _ (fun n d h => by simp [h]) _ h)

theorem canonNext_execPopRsp (hdr : FlitHdr) (p : PopRspPl) : CanonNext (execPopRsp hdr p s) :=
  canonNext_act (canon_receive _ _ _ _ _ (fun n d h => by simp [h]) _ h)

theorem canonNext_execLoanReq (hdr : FlitHdr) (p : SegPl) : CanonNext (execLoanReq hdr p s) :=
  canonNext_actBacklog (canon_segUnit _ _ _ _ _ (fun n d h => by simp [h]) _ h)

theorem canonNext_execLoanGrant (hdr : FlitHdr) (p : SegPl) : CanonNext (execLoanGrant hdr p s) :=
  canonNext_actBacklog (canon_segUnit _ _ _ _ _ (fun n d h => by simp [h]) _ h)

theorem canonNext_execLoanRefuse (hdr : FlitHdr) (p : SegPl) : CanonNext (execLoanRefuse hdr p s) :=
  canonNext_actBacklog (canon_segUnit _ _ _ _ _ (fun n d h => by simp [h]) _ h)

theorem canonNext_execSegWrite (hdr : FlitHdr) (p : SegPl) : CanonNext (execSegWrite hdr p s) :=
  canonNext_actBacklog (canon_segUnit _ _ _ _ _ (fun n d h => by simp [h]) _ h)

theorem canonNext_execVerifyOk (hdr : FlitHdr) (p : SegPl) : CanonNext (execVerifyOk hdr p s) :=
  canonNext_actBacklog (canon_segUnit _ _ _ _ _ (fun n d h => by simp [h]) _ h)

theorem canonNext_execVerifyFail (hdr : FlitHdr) (p : SegPl) : CanonNext (execVerifyFail hdr p s) :=
  canonNext_actBacklog (canon_segUnit _ _ _ _ _ (fun n d h => by simp [h]) _ h)

theorem canonNext_execReadReq (hdr : FlitHdr) (p : SegPl) : CanonNext (execReadReq hdr p s) :=
  canonNext_act (canon_segUnit _ _ _ _ _ (fun n d h => by simp [h]) _ h)

theorem canonNext_execReadRsp (hdr : FlitHdr) (p : SegPl) : CanonNext (execReadRsp hdr p s) :=
  canonNext_actBacklog (canon_segUnit _ _ _ _ _ (fun n d h => by simp [h]) _ h)

theorem canonNext_execSegRelease (hdr : FlitHdr) (p : SegPl) : CanonNext (execSegRelease hdr p s) :=
  canonNext_actBacklog (canon_segUnit _ _ _ _ _ (fun n d h => by simp [h]) _ h)

theorem canonNext_execReclaim (hdr : FlitHdr) (p : SegPl) : CanonNext (execReclaim hdr p s) :=
  canonNext_act (canon_segUnit _ _ _ _ _ (fun n d h => by simp [h]) _ h)

theorem canonNext_execLoanList (hdr : FlitHdr) (p : SegPl) : CanonNext (execLoanList hdr p s) :=
  canonNext_actBacklog (canon_segUnit _ _ _ _ _ (fun n d h => by simp [h]) _ h)

theorem canonNext_execListEnd (hdr : FlitHdr) (p : SegPl) : CanonNext (execListEnd hdr p s) :=
  canonNext_actBacklog (canon_segUnit _ _ _ _ _ (fun n d h => by simp [h]) _ h)

theorem canonNext_execHoleTimeout (node : BitVec 2) : CanonNext (execHoleTimeout node s) :=
  canonNext_actBacklog (by simp [h])

theorem canonNext_execCmd (hdr : FlitHdr) (p : CmdPl) : CanonNext (execCmd hdr p s) :=
  canonNext_actBacklog (canon_receive _ _ _ _ _
    (fun _ _ h => canon_whenFirmware _ _ (fun _ h => canon_cmdTaken _ _ _ h) _ h) _ h)

theorem canonNext_execRsp (hdr : FlitHdr) (p : RspPl) : CanonNext (execRsp hdr p s) :=
  canonNext_act (canon_receive _ _ _ _ _
    (fun _ _ h => canon_whenFirmware _ _ (fun _ h => canon_rspTaken _ _ _ h) _ h) _ h)

theorem canonNext_execImg (hdr : FlitHdr) (chunk : BitVec 24) (data : Bytes) : CanonNext (execImg hdr chunk data s) :=
  canonNext_act (by simp [h])

theorem canonNext_execJoin (hdr : FlitHdr) (mask : BitVec 4) (lost : Unread) : CanonNext (execJoin hdr mask lost s) :=
  canonNext_act (by simp [h])

theorem canonNext_execGetVersion : CanonNext (execGetVersion s) :=
  canonNext_act (by simp [h])

theorem canonNext_execGetCapabilities : CanonNext (execGetCapabilities s) :=
  canonNext_act (by simp [h])

theorem canonNext_execNegotiateAlgorithms : CanonNext (execNegotiateAlgorithms s) :=
  canonNext_act (by simp [h])

theorem canonNext_execGetDigests : CanonNext (execGetDigests s) :=
  canonNext_act (by simp [h])

theorem canonNext_execGetCertificate (slot : BitVec 4) (off len : BitVec 16) :
    CanonNext (execGetCertificate slot off len s) :=
  canonNext_act (by simp [h])

theorem canonNext_execChallenge (slot : BitVec 4) (summary : BitVec 8) (nonce : BitVec 256) :
    CanonNext (execChallenge slot summary nonce s) :=
  canonNext_act (by simp [h])

theorem canonNext_execGetMeasurements (index : BitVec 8) (sign : Bool) (nonce : BitVec 256) :
    CanonNext (execGetMeasurements index sign nonce s) :=
  canonNext_act (by simp [h])

theorem canonNext_execDoeDiscovery (index : BitVec 8) : CanonNext (execDoeDiscovery index s) :=
  canonNext_act (by simp [h])

theorem canonNext_execSpdmUnsupportedRequest (r : SpdmOther) : CanonNext (execSpdmUnsupportedRequest r s) :=
  canonNext_act (by simp [h])

theorem canonNext_execExtest (data : List Bool) : CanonNext (execExtest data s) :=
  canonNext_act (by simp [h])

theorem canonNext_execClamp : CanonNext (execClamp s) :=
  canonNext_act (by simp [h])

theorem canonNext_execHighz : CanonNext (execHighz s) :=
  canonNext_act (by simp [h])

theorem canonNext_execSamplePreload (data : List Bool) : CanonNext (execSamplePreload data s) :=
  canonNext_act (by simp [h])

theorem canonNext_execIdcode : CanonNext (execIdcode s) :=
  canonNext_act (by simp [h])

theorem canonNext_execBypass : CanonNext (execBypass s) :=
  canonNext_act (by simp [h])

theorem canonNext_execTapReset : CanonNext (execTapReset s) :=
  canonNext_act (by simp [h])

theorem canonNext_execLoupeAddr (v : BitVec 36) : CanonNext (execLoupeAddr v s) :=
  canonNext_act (by simp [h])

theorem canonNext_execLoupeRead : CanonNext (execLoupeRead s) :=
  canonNext_act (by simp [h])

theorem canonNext_execLoupeWrite (v : Word) : CanonNext (execLoupeWrite v s) :=
  canonNext_ite (canonNext_fault _) (canonNext_act (canon_doLoupeWrite _ _ h))

theorem canonNext_execHaltReq (autoinc : Bool) : CanonNext (execHaltReq autoinc s) :=
  canonNext_act (canon_scanCtrl _ (fun d h => by simp [h]) _ h)

theorem canonNext_execShuttleHalt : CanonNext (execShuttleHalt s) :=
  canonNext_act (by simp [h])

theorem canonNext_execResume (autoinc : Bool) : CanonNext (execResume autoinc s) :=
  canonNext_actBacklog (canon_scanCtrl _ (fun d h => by simp [h]) _ h)

theorem canonNext_execStepCmd (autoinc : Bool) : CanonNext (execStepCmd autoinc s) :=
  canonNext_act (canon_scanCtrl _ (fun d h => by simp [h]) _ h)

theorem canonNext_execUnlockChal : CanonNext (execUnlockChal s) :=
  canonNext_act (by simp [h])

theorem canonNext_execUnlockResp (data : Bytes) : CanonNext (execUnlockResp data s) :=
  canonNext_act (by simp [h])

theorem canonNext_execFlitCrcFail : CanonNext (execFlitCrcFail s) :=
  canonNext_act (by simp [h])

theorem canonNext_execL12Entry : CanonNext (execL12Entry s) :=
  canonNext_act (by simp [h])

theorem canonNext_execL12Exit : CanonNext (execL12Exit s) :=
  canonNext_act (by simp [h])

theorem canonNext_execPoisonedTlpReceived : CanonNext (execPoisonedTlpReceived s) :=
  canonNext_act (by simp [h])

theorem canonNext_execReceiverErrorCmd (e : RxError) : CanonNext (execReceiverErrorCmd e s) :=
  canonNext_act (by simp [h])

theorem canonNext_execConfigSpaceWrite (w : CfgWrite) : CanonNext (execConfigSpaceWrite w s) :=
  canonNext_act (by simp [h])

end

/-- Every command. -/
theorem canonNext_exec {s : State} (h : Canon s.dev = true) : ∀ c : Instr, CanonNext (exec c s)
  | .ringCreate c => canonNext_execRingCreate h c
  | .ringDelete c => canonNext_execRingDelete h c
  | .stageQueues c buf => canonNext_execStageQueues h c buf
  | .stagePorts c buf => canonNext_execStagePorts h c buf
  | .stageBindings c buf => canonNext_execStageBindings h c buf
  | .epochCheck c peerEw => canonNext_execEpochCheck h c peerEw
  | .epochCommit c peerEw => canonNext_execEpochCommit h c peerEw
  | .commitInstant => canonNext_execCommitInstant h
  | .epochDiscard c => canonNext_execEpochDiscard h c
  | .queueFlush c => canonNext_execQueueFlush h c
  | .queueDropPacket c => canonNext_execQueueDropPacket h c
  | .queueMark c => canonNext_execQueueMark h c
  | .queueRetransmit c => canonNext_execQueueRetransmit h c
  | .queueReadCounters c => canonNext_execQueueReadCounters h c
  | .portUnpark c => canonNext_execPortUnpark h c
  | .sealCmd c => canonNext_execSealCmd h c
  | .powerRequestActive c => canonNext_execPowerRequestActive h c
  | .powerRequestListen c => canonNext_execPowerRequestListen h c
  | .powerRequestStandby c => canonNext_execPowerRequestStandby h c
  | .keyLoad c buf => canonNext_execKeyLoad h c buf
  | .keyErase c => canonNext_execKeyErase h c
  | .keyEraseEffect => canonNext_execKeyEraseEffect h
  | .keyInstallPending slot => canonNext_execKeyInstallPending h slot
  | .keyStatus c => canonNext_execKeyStatus h c
  | .wearReport c => canonNext_execWearReport h c
  | .scrubReport c => canonNext_execScrubReport h c
  | .remapReport c => canonNext_execRemapReport h c
  | .peerStatus c => canonNext_execPeerStatus h c
  | .peerFirmware c buf => canonNext_execPeerFirmware h c buf
  | .relayPassWaitExpiry => canonNext_execRelayPassWaitExpiry h
  | .relayBeaconWaitExpiry => canonNext_execRelayBeaconWaitExpiry h
  | .logRead c => canonNext_execLogRead h c
  | .invalidOpcode opcode c => canonNext_execInvalidOpcode h opcode c
  | .relayedAdminCommand opcode c buf => canonNext_execRelayedAdminCommand h opcode c buf
  | .adminTimeout => canonNext_execAdminTimeout h
  | .adminEnable => canonNext_execAdminEnable h
  | .adminDisable => canonNext_execAdminDisable h
  | .hifMirrorEnWrite v => canonNext_execHifMirrorEnWrite h v
  | .mirrorHoldExpiry qid => canonNext_execMirrorHoldExpiry h qid
  | .pwrSoftReset v => canonNext_execPwrSoftReset h v
  | .pwrPaceWrite v => canonNext_execPwrPaceWrite h v
  | .pwrGovEnWrite v => canonNext_execPwrGovEnWrite h v
  | .pwrPaceRangeWrite lo hi => canonNext_execPwrPaceRangeWrite h lo hi
  | .pwrGovWindowWrite up down => canonNext_execPwrGovWindowWrite h up down
  | .paceStepSettled => canonNext_execPaceStepSettled h
  | .govUpWindowExpiry => canonNext_execGovUpWindowExpiry h
  | .govDownWindowExpiry => canonNext_execGovDownWindowExpiry h
  | .tbNowCapture => canonNext_execTbNowCapture h
  | .slowclkPresent => canonNext_execSlowclkPresent h
  | .slowclkLost => canonNext_execSlowclkLost h
  | .tickOscRestarted => canonNext_execTickOscRestarted h
  | .bootLoadChunk => canonNext_execBootLoadChunk h
  | .chunkCopyDone => canonNext_execChunkCopyDone h
  | .bootStart => canonNext_execBootStart h
  | .imageVerified lost => canonNext_execImageVerified h lost
  | .bootRestart => canonNext_execBootRestart h
  | .bar2Write off data => canonNext_execBar2Write h off data
  | .fuseRead row mode => canonNext_execFuseRead h row mode
  | .fuseBurn row word outcomes => canonNext_execFuseBurn h row word outcomes
  | .fuseRedirect row => canonNext_execFuseRedirect h row
  | .fuseOpDone => canonNext_execFuseOpDone h
  | .otpLockWrite v => canonNext_execOtpLockWrite h v
  | .shadowOverrideWrite off v => canonNext_execShadowOverrideWrite h off v
  | .eccTestWrite index deep valid => canonNext_execEccTestWrite h index deep valid
  | .eccTestProgram => canonNext_execEccTestProgram h
  | .eccTestRead index deep => canonNext_execEccTestRead h index deep
  | .eccTestDone => canonNext_execEccTestDone h
  | .errCapPop => canonNext_execErrCapPop h
  | .errFirstClr => canonNext_execErrFirstClr h
  | .rcFieldRead r => canonNext_execRcFieldRead h r
  | .tierSpillBurstWrite v => canonNext_execTierSpillBurstWrite h v
  | .casEnable => canonNext_execCasEnable h
  | .registerWrite off w => canonNext_execRegisterWrite h off w
  | .ingressBeat port en tag eop v => canonNext_execIngressBeat h port en tag eop v
  | .flushPulse port level => canonNext_execFlushPulse h port level
  | .rtPulse port level => canonNext_execRtPulse h port level
  | .mrkPulse port level => canonNext_execMrkPulse h port level
  | .dropPulse port level => canonNext_execDropPulse h port level
  | .eventCrossingLatch port => canonNext_execEventCrossingLatch h port
  | .eventCrossingFree port => canonNext_execEventCrossingFree h port
  | .portEventEffect port => canonNext_execPortEventEffect h port
  | .beatVisible port => canonNext_execBeatVisible h port
  | .valueCrossingAccept port kind => canonNext_execValueCrossingAccept h port kind
  | .egressRead port => canonNext_execEgressRead h port
  | .egressPushBeat port hold => canonNext_execEgressPushBeat h port hold
  | .portClockStall port => canonNext_execPortClockStall h port
  | .portReopen port => canonNext_execPortReopen h port
  | .handover pair => canonNext_execHandover h pair
  | .handoverForced pair => canonNext_execHandoverForced h pair
  | .switchReturn pair => canonNext_execSwitchReturn h pair
  | .tpEnChange pair level => canonNext_execTpEnChange h pair level
  | .turnstileRound qid upsets sram => canonNext_execTurnstileRound h qid upsets sram
  | .kick lowNs => canonNext_execKick h lowNs
  | .sweepTimerExpiry => canonNext_execSweepTimerExpiry h
  | .sweep block => canonNext_execSweep h block
  | .fillDescriptorFetch ring => canonNext_execFillDescriptorFetch h ring
  | .dmaReadCompletion tag status data => canonNext_execDmaReadCompletion h tag status data
  | .completionTimeout tag => canonNext_execCompletionTimeout h tag
  | .descTimeout ring => canonNext_execDescTimeout h ring
  | .drainDescriptorFetch ring => canonNext_execDrainDescriptorFetch h ring
  | .drainGrant ring => canonNext_execDrainGrant h ring
  | .drainWaitExpiry qid => canonNext_execDrainWaitExpiry h qid
  | .drainTransferEnd ring => canonNext_execDrainTransferEnd h ring
  | .completionIrqTimer ring => canonNext_execCompletionIrqTimer h ring
  | .msixUnmask u => canonNext_execMsixUnmask h u
  | .busMasterChange bme d3hot => canonNext_execBusMasterChange h bme d3hot
  | .l1EntryRequest => canonNext_execL1EntryRequest h
  | .unsupportedRequest u => canonNext_execUnsupportedRequest h u
  | .hostInterfaceReset r => canonNext_execHostInterfaceReset h r
  | .perstAssert => canonNext_execPerstAssert h
  | .perstDeassert => canonNext_execPerstDeassert h
  | .linkUp l => canonNext_execLinkUp h l
  | .por node tpEn0 tpEn1 core0Fail core1Fail => canonNext_execPor h node tpEn0 tpEn1 core0Fail core1Fail
  | .vinLoss => canonNext_execVinLoss h
  | .deepProgramStart => canonNext_execDeepProgramStart h
  | .deepProgramVerified seg ok => canonNext_execDeepProgramVerified h seg ok
  | .deepReadComplete qid seg reads => canonNext_execDeepReadComplete h qid seg reads
  | .journalTimerExpiry => canonNext_execJournalTimerExpiry h
  | .scrubNearGroup upsets => canonNext_execScrubNearGroup h upsets
  | .scrubDeepGroup r => canonNext_execScrubDeepGroup h r
  | .weaveLaneStall group lane => canonNext_execWeaveLaneStall h group lane
  | .train => canonNext_execTrain h
  | .ack hdr => canonNext_execAck h hdr
  | .nak hdr => canonNext_execNak h hdr
  | .ackTimerExpiry node => canonNext_execAckTimerExpiry h node
  | .retryTimeout node => canonNext_execRetryTimeout h node
  | .beaconTimer => canonNext_execBeaconTimer h
  | .beacon hdr p => canonNext_execBeacon h hdr p
  | .beaconTimeout node => canonNext_execBeaconTimeout h node
  | .push hdr p => canonNext_execPush h hdr p
  | .popReq hdr p => canonNext_execPopReq h hdr p
  | .popRsp hdr p => canonNext_execPopRsp h hdr p
  | .loanReq hdr p => canonNext_execLoanReq h hdr p
  | .loanGrant hdr p => canonNext_execLoanGrant h hdr p
  | .loanRefuse hdr p => canonNext_execLoanRefuse h hdr p
  | .segWrite hdr p => canonNext_execSegWrite h hdr p
  | .verifyOk hdr p => canonNext_execVerifyOk h hdr p
  | .verifyFail hdr p => canonNext_execVerifyFail h hdr p
  | .readReq hdr p => canonNext_execReadReq h hdr p
  | .readRsp hdr p => canonNext_execReadRsp h hdr p
  | .segRelease hdr p => canonNext_execSegRelease h hdr p
  | .reclaim hdr p => canonNext_execReclaim h hdr p
  | .loanList hdr p => canonNext_execLoanList h hdr p
  | .listEnd hdr p => canonNext_execListEnd h hdr p
  | .holeTimeout node => canonNext_execHoleTimeout h node
  | .cmd hdr p => canonNext_execCmd h hdr p
  | .rsp hdr p => canonNext_execRsp h hdr p
  | .img hdr chunk data => canonNext_execImg h hdr chunk data
  | .join hdr mask lost => canonNext_execJoin h hdr mask lost
  | .getVersion => canonNext_execGetVersion h
  | .getCapabilities => canonNext_execGetCapabilities h
  | .negotiateAlgorithms => canonNext_execNegotiateAlgorithms h
  | .getDigests => canonNext_execGetDigests h
  | .getCertificate slot off len => canonNext_execGetCertificate h slot off len
  | .challenge slot summary nonce => canonNext_execChallenge h slot summary nonce
  | .getMeasurements index sign nonce => canonNext_execGetMeasurements h index sign nonce
  | .doeDiscovery index => canonNext_execDoeDiscovery h index
  | .spdmUnsupportedRequest r => canonNext_execSpdmUnsupportedRequest h r
  | .extest data => canonNext_execExtest h data
  | .clamp => canonNext_execClamp h
  | .highz => canonNext_execHighz h
  | .samplePreload data => canonNext_execSamplePreload h data
  | .idcode => canonNext_execIdcode h
  | .bypass => canonNext_execBypass h
  | .tapReset => canonNext_execTapReset h
  | .loupeAddr v => canonNext_execLoupeAddr h v
  | .loupeRead => canonNext_execLoupeRead h
  | .loupeWrite v => canonNext_execLoupeWrite h v
  | .haltReq autoinc => canonNext_execHaltReq h autoinc
  | .shuttleHalt => canonNext_execShuttleHalt h
  | .resume autoinc => canonNext_execResume h autoinc
  | .stepCmd autoinc => canonNext_execStepCmd h autoinc
  | .unlockChal => canonNext_execUnlockChal h
  | .unlockResp data => canonNext_execUnlockResp h data
  | .flitCrcFail => canonNext_execFlitCrcFail h
  | .l12Entry => canonNext_execL12Entry h
  | .l12Exit => canonNext_execL12Exit h
  | .poisonedTlpReceived => canonNext_execPoisonedTlpReceived h
  | .receiverErrorCmd e => canonNext_execReceiverErrorCmd h e
  | .configSpaceWrite w => canonNext_execConfigSpaceWrite h w

theorem canonNext_step {s : State} (h : Canon s.dev = true) : CanonNext (step s) := by
  cases hp : s.pending with
  | nil =>
    rw [step_nil hp]
    exact canonNext_next ((canon_idleTick s.dev).trans h)
  | cons c rest =>
    rw [step_cons hp]
    exact canonNext_exec (s := { s with pending := rest }) h c

set_option maxRecDepth 20000 in
theorem canon_reset : Canon State.reset.dev = true := by decide

/-- Settles O60: `canonNext_step`, that is the move of the time base by `canon_idleTick` and a command by
`canonNext_exec`. -/
theorem tablesStayCanonical : Obligations.TablesStayCanonical :=
  ⟨canon_reset, fun _ t h steps => canonNext_step h t steps⟩

end Sys2Proof.Machine
end

section
/-!
The host's admin commands: what a command whose body ends at once, or runs on, makes of the device.
-/

namespace Sys2Proof.Machine

/-! ### What differs on the host side alone -/

/-- An update that commutes with whatever changes on the host side. -/
def CommutesWithHost (F : Dev → Dev) : Prop := ∀ d t : Dev, HostOnly d t → HostOnly (F d) (F t)

/-- An update that leaves the admin pair and the ways out alone. -/
structure KeepsHost (F : Dev → Dev) : Prop where
  adm : ∀ t, (F t).adm = t.adm
  canIssue : ∀ t, canIssue (F t) = canIssue t
  mps : ∀ t, (F t).link.mps = t.link.mps

theorem commutesWithHost_id : CommutesWithHost fun d => d := fun _ _ h => h

theorem keepsHost_id : KeepsHost fun d => d := ⟨fun _ => rfl, fun _ => rfl, fun _ => rfl⟩

/-! ### A command that ends at once -/

/-- The command has ended with a result, on a device that differs from `d` on the host side alone. -/
structure Ended (c : AdmCmd) (res : AdmRes) (d f e : Dev) : Prop where
  ace : AceWritten c res.status res.r0 res.r1 d e
  frame : HostOnly f e
  record : ∀ a bs, res.record = some (a, bs) → RecordWritten a bs d e

theorem ended_of_runBody {op tag : Nat} {c : AdmCmd} {d : Dev} {body : AdmRun → Dev → Dev × Option AdmRes}
    {F : Dev → Dev} {res : AdmRes} (room : AceRoom d)
    (runs : ∀ t, HostOnly d t → body (hostRun op c) t = ends res (F t)) (commutes : CommutesWithHost F) (keeps : KeepsHost F) :
    Ended c res d (F d) (runBody (hostRun op c) body (taken op tag d)) := by
  have ht := hostOnly_taken op tag d
  have hd : runBody (hostRun op c) body (taken op tag d) = deliver (hostRun op c) res (F (taken op tag d)) := by
    simp [runBody, runs _ ht, ends]
  rw [hd]
  obtain ⟨full, issue, mps, base⟩ := room
  have adm := (keeps.adm (taken op tag d)).trans (taken_adm op tag d)
  have hissue : canIssue (F (taken op tag d)) = true := (keeps.canIssue _).trans ((taken_canIssue op tag d).trans issue)
  have hmps := (keeps.mps (taken op tag d)).trans (taken_mps op tag d)
  have there : AceRoom (F (taken op tag d)) := ⟨by simpa [admFull, adm] using full, hissue, by omega, by simpa [adm] using base⟩
  obtain ⟨written, fetched, run, entry⟩ := deliver_ace (r := hostRun op c) rfl res there
  refine ⟨⟨?_, ?_, ?_, ?_⟩, (commutes _ _ ht).trans (hostOnly_deliver rfl ..), fun a bs hrec => ?_⟩
  · simpa [adm] using written
  · simpa [adm] using fetched
  · simpa [adm] using run
  · simpa [adm, aceBytes, hostRun] using entry
  · have := deliver_record (r := hostRun op c) rfl hrec hissue
    unfold RecordWritten at this ⊢
    rwa [hmps] at this

/-- A command whose body ends at once completes with its result. -/
theorem completes_of_ends {i : Instr} {op tag : Nat} {c : AdmCmd} {buf : Bytes} {s : State}
    {body : AdmRun → Dev → Dev × Option AdmRes} {P : Dev → Prop} (F : Dev → Dev) (res : AdmRes)
    (cmd : exec i s = act (admin op c buf body) s) (takes : Takes op c tag s.dev) (room : AceRoom s.dev)
    (runs : ∀ t, HostOnly s.dev t → body (hostRun op c) t = ends res (F t)) (commutes : CommutesWithHost F)
    (keeps : KeepsHost F) (holds : ∀ e, Ended c res s.dev (F s.dev) e → P e) : Completes i s P :=
  completes_of_exec_eq_act cmd (holds _ (admin_takes takes buf body ▸ ended_of_runBody room runs commutes keeps))

/-- The same for a body that leaves the device alone. -/
theorem completes_of_ends_self {i : Instr} {op tag : Nat} {c : AdmCmd} {buf : Bytes} {s : State}
    {body : AdmRun → Dev → Dev × Option AdmRes} {P : Dev → Prop} (res : AdmRes)
    (cmd : exec i s = act (admin op c buf body) s) (takes : Takes op c tag s.dev) (room : AceRoom s.dev)
    (runs : ∀ t, HostOnly s.dev t → body (hostRun op c) t = ends res t)
    (holds : ∀ e, Ended c res s.dev s.dev e → P e) : Completes i s P :=
  completes_of_ends (fun d => d) res cmd takes room runs commutesWithHost_id keepsHost_id holds

/-! ### A command that runs on -/

/-- A command whose body runs on waits for its kind. -/
theorem completes_of_runsOn {i : Instr} {op tag : Nat} {c : AdmCmd} {buf : Bytes} {s : State} {kind : RunKind}
    {body : AdmRun → Dev → Dev × Option AdmRes} {P : Dev → Prop} (F : Dev → Dev)
    (cmd : exec i s = act (admin op c buf body) s) (takes : Takes op c tag s.dev)
    (runs : ∀ t, HostOnly s.dev t → body (hostRun op c) t = runsOn (hostRun op c) kind (F t))
    (commutes : CommutesWithHost F) (keeps : ∀ t, (F t).adm = t.adm)
    (holds : ∀ e, RunsOn op c kind s.dev e → HostOnly (F s.dev) e → P e) : Completes i s P := by
  have ht := hostOnly_taken op tag s.dev
  obtain ⟨on, after⟩ := admin_runsOn (buf := buf) takes (runs _ ht) (keeps _)
  refine completes_of_exec_eq_act cmd (holds _ on ((commutes _ _ ht).trans ?_))
  rw [after]

/-! ### Staging (R274, R15, R309) -/

theorem tblFind_stageQtes (q : Nat) (l : List QCfg) : ∀ (first : Nat) (t : Tbl QCfg),
    tblFind (stageQtes first l t) q =
      if h : first ≤ q ∧ q < first + l.length then some (l[q - first]'(by omega)) else tblFind t q := by
  induction l with
  | nil =>
    intro first t
    simp [stageQtes]
  | cons x l ih =>
    intro first t
    rw [stageQtes, ih]
    by_cases here : q = first
    · subst here
      simp [tblFind_put_same]
    · by_cases inside : first + 1 ≤ q ∧ q < first + 1 + l.length
      · rw [dif_pos inside, dif_pos (by simp; omega)]
        simp [show q - first = (q - (first + 1)) + 1 by omega]
      · rw [dif_neg inside, dif_neg (by simp; omega), tblFind_put_other _ _ here]

theorem tblFind_stagedQueues (first n q : Nat) (buf : Bytes) (t : Tbl QCfg) :
    tblFind (stageQtes first ((List.range n).map fun i => parseQte (sliceBytes buf (64 * i) 64)) t) q =
      if first ≤ q ∧ q < first + n then some (parseQte (sliceBytes buf (64 * (q - first)) 64)) else tblFind t q := by
  rw [tblFind_stageQtes]
  by_cases inside : first ≤ q ∧ q < first + n <;> simp [inside]

/-- Puts at the numbers of a list without repetition, each a value of its place in the list. -/
theorem tblFind_foldl_put_zipIdx {α : Type} (f : Nat → α) (k : Nat) (l : List Nat) : ∀ (start : Nat) (t : Tbl α), l.Nodup →
    tblFind ((l.zipIdx start).foldl (fun t p => tblPut t p.1 (f p.2)) t) k =
      if k ∈ l then some (f (start + l.idxOf k)) else tblFind t k := by
  induction l with
  | nil => intro start t _; simp
  | cons x l ih =>
    intro start t nodup
    obtain ⟨fresh, nodup⟩ := List.nodup_cons.1 nodup
    rw [List.zipIdx_cons, List.foldl_cons, ih _ _ nodup]
    by_cases here : k = x
    · subst here
      simp [fresh, tblFind_put_same]
    · rw [tblFind_put_other _ _ here]
      by_cases later : k ∈ l
      · simp [later, here, List.idxOf_cons_ne _ (Ne.symm here), Nat.add_assoc, Nat.add_comm 1]
      · simp [later, here]

theorem idxOf_filter_range {p : Nat → Bool} {k n : Nat} (below : k < n) (hit : p k = true) :
    ((List.range n).filter p).idxOf k = ((List.range k).filter p).length := by
  obtain ⟨m, rfl⟩ : ∃ m, n = k + (m + 1) := ⟨n - k - 1, by omega⟩
  rw [List.range_add, List.filter_append, List.range_succ_eq_map, List.map_cons, Nat.add_zero, List.filter_cons_of_pos hit,
    List.idxOf_append_of_notMem (by simp), List.idxOf_cons_self, Nat.add_zero]

/-- What STAGE_PORTS makes of a table of PCEs. -/
def stagedPorts (mask : Nat) (buf : Bytes) (t : Tbl Pce) : Tbl Pce :=
  ((List.range 4).filter fun k => bitOf mask k).zipIdx.foldl (fun t p => tblPut t p.1 (parsePce (sliceBytes buf (32 * p.2) 32))) t

theorem tblFind_stagedPorts (mask k : Nat) (buf : Bytes) (t : Tbl Pce) :
    tblFind (stagedPorts mask buf t) k =
      if k < 4 ∧ bitOf mask k = true then
        some (parsePce (sliceBytes buf (32 * ((List.range k).filter (bitOf mask)).length) 32))
      else tblFind t k := by
  unfold stagedPorts
  rw [tblFind_foldl_put_zipIdx (fun i => parsePce (sliceBytes buf (32 * i) 32)) k _ 0 t (List.nodup_range.filter _)]
  by_cases named : k < 4 ∧ bitOf mask k = true
  · rw [if_pos (by simpa using named), if_pos named, Nat.zero_add, idxOf_filter_range named.1 named.2]
  · rw [if_neg (by simpa using named), if_neg named]

theorem commutesWithHost_staged (f : Stage → Stage) : CommutesWithHost (staged f) := by
  intro d t h
  rw [show t = _ from h]
  rfl

theorem keepsHost_staged (f : Stage → Stage) : KeepsHost (staged f) := ⟨fun _ => rfl, fun _ => rfl, fun _ => rfl⟩

/-- A command that changes the staging area has completed: what it says of the stage after it. -/
theorem ended_staged {c : AdmCmd} {res : AdmRes} {d e : Dev} {f : Stage → Stage} (h : Ended c res d (staged f d) e) :
    e.stage = f d.stage ∧ e.epoch.during = (if d.epoch.taken.isSome then f d.epoch.during else d.epoch.during) ∧
      HostOnly { d with stage := e.stage, epoch.during := e.epoch.during } e := by
  obtain ⟨-, frame, -⟩ := h
  rw [show e = _ from frame]
  exact ⟨rfl, rfl, rfl⟩

theorem stageQueues_ends {c : AdmCmd} {buf : Bytes} {r : AdmRun} {d : Dev} {first n : Nat}
    (hfirst : first = bitsOf c.arg0.toNat 0 12) (hn : n = c.arg1.toNat) (some_ : 0 < n) (most : n ≤ 1024)
    (inside : first + n ≤ 4096) (len : c.len.toNat = n * 64)
    (fits : (stageQtes first ((List.range n).map fun i => parseQte (sliceBytes buf (64 * i) 64)) d.stage.qtes).length
      ≤ 1024) :
    stageQueues c buf r d =
      ends (okWith (stageQtes first ((List.range n).map fun i => parseQte (sliceBytes buf (64 * i) 64)) d.stage.qtes).length 0)
        (staged (fun st => { st with
          qtes := stageQtes first ((List.range n).map fun i => parseQte (sliceBytes buf (64 * i) 64)) st.qtes }) d) := by
  subst hfirst hn
  unfold stageQueues
  rw [if_neg (by simp; omega)]
  exact if_neg (by omega)

theorem stagePorts_ends {c : AdmCmd} {buf : Bytes} {r : AdmRun} {d : Dev} {mask : Nat}
    (hmask : mask = bitsOf c.arg0.toNat 0 4) (some_ : mask ≠ 0)
    (len : c.len.toNat = 32 * ((List.range 4).filter (bitOf mask)).length) :
    stagePorts c buf r d = ends (okWith 0 0) (staged (fun st => { st with pces := stagedPorts mask buf st.pces }) d) := by
  subst hmask
  exact if_neg (by simp [some_, len])

theorem stageBindings_ends {c : AdmCmd} {buf : Bytes} {r : AdmRun} {d : Dev} {n : Nat} {ws : List BindWord} {b : Bindings}
    (hn : n = c.arg1.toNat) (hws : ws = parseBinds (sliceBytes buf 0 (8 * n)) n) (some_ : 0 < n) (most : n ≤ 2048)
    (len : c.len.toNat = 8 * n)
    (applies : applyEntries d.stage.entries.length 0 ws (d.stage.bind.getD d.bind) = .inl b) :
    stageBindings c buf r d =
      ends (okWith (bindCount b) 0) (staged (fun st => { st with bind := some b, entries := st.entries ++ ws }) d) := by
  subst hn hws
  unfold stageBindings
  rw [if_neg (by simp; omega)]
  simp only [applies]

/-- EPOCH_DISCARD is taken up whatever its AC_ADDR and AC_LEN hold (R309). -/
theorem admin_takesAny {tag : Nat} {c : AdmCmd} {d : Dev} (h : TakesAny 0x1A c tag d) (buf : Bytes)
    (body : AdmRun → Dev → Dev × Option AdmRes) :
    admin 0x1A c buf body d = runBody (hostRun 0x1A c) body (taken 0x1A tag d) := by
  obtain ⟨fetch, runs, target⟩ := h
  simp [admin, taken, untimed, fetch, runs, target, hostRun, ownNode]

theorem HostOnly.of_eq {a b e : Dev} (same : b = a) (h : HostOnly a e) : HostOnly b e := same ▸ h

/-- A staging command completes when its body ends at once with a change of the staging area. -/
theorem completes_staged {i : Instr} {op tag : Nat} {c : AdmCmd} {buf : Bytes} {s : State}
    {body : AdmRun → Dev → Dev × Option AdmRes} {P : Dev → Prop} (f : Stage → Stage) (res : AdmRes)
    (cmd : exec i s = act (admin op c buf body) s) (takes : Takes op c tag s.dev) (room : AceRoom s.dev)
    (runs : ∀ t : Dev, t.stage = s.dev.stage → t.bind = s.dev.bind → body (hostRun op c) t = ends res (staged f t))
    (holds : ∀ e, AceWritten c res.status res.r0 res.r1 s.dev e → e.stage = f s.dev.stage →
      e.epoch.during = (if s.dev.epoch.taken.isSome then f s.dev.epoch.during else s.dev.epoch.during) →
      HostOnly { s.dev with stage := e.stage, epoch.during := e.epoch.during } e → P e) : Completes i s P := by
  refine completes_of_ends (body := body) (staged f) res cmd takes room (fun t h => runs t ?_ ?_)
    (commutesWithHost_staged f) (keepsHost_staged f) fun e h => ?_
  · rw [show t = _ from h]
  · rw [show t = _ from h]
  · obtain ⟨stage, during, frame⟩ := ended_staged h
    exact holds e h.ace stage during frame

/-- Settles O4: each body by its equation `_ends`, the tables by what a lookup finds in them. -/
theorem stagingCommandsChangeTheStagingAreaAlone : Obligations.StagingCommandsChangeTheStagingAreaAlone := by
  intro s c buf tag room
  refine ⟨?_, ?_, ?_, ?_⟩
  · intro first n hfirst hn takes some_ most inside len fits brought
    refine completes_staged (body := stageQueues c buf) _ _ rfl takes room
      (fun t stage _ => stage ▸ stageQueues_ends hfirst hn some_ most inside len (stage ▸ fits))
      fun e ace stage during frame => ?_
    refine ⟨by rw [stage]; exact ace, ?_, frame.of_eq ?_, fun untaken => ?_, fun taken => ?_⟩
    · intro q
      rw [stage]
      exact tblFind_stagedQueues ..
    · rw [stage, during]
      split <;> rfl
    · simp [during, untaken]
    · intro q
      rw [during, if_pos (Option.isSome_iff_ne_none.2 taken)]
      exact tblFind_stagedQueues ..
  · intro mask hmask takes some_ len brought
    refine completes_staged (body := stagePorts c buf) _ _ rfl takes room
      (fun t _ _ => stagePorts_ends hmask some_ len) fun e ace stage during frame => ?_
    refine ⟨ace, ?_, frame.of_eq ?_, fun untaken => ?_, fun taken => ?_⟩
    · intro k
      rw [stage]
      exact tblFind_stagedPorts ..
    · rw [stage, during]
      split <;> rfl
    · simp [during, untaken]
    · intro k
      rw [during, if_pos (Option.isSome_iff_ne_none.2 taken)]
      exact tblFind_stagedPorts ..
  · intro n ws b hn hws takes some_ most len applies
    refine completes_staged (body := stageBindings c buf) _ _ rfl takes room
      (fun t stage bind => stageBindings_ends hn hws some_ most len (stage ▸ bind ▸ applies))
      fun e ace stage during frame => ?_
    refine ⟨ace, frame.of_eq ?_, ?_⟩
    · rw [stage]
    · rw [during]
      cases s.dev.epoch.taken <;> rfl
  · intro takes
    have ended : Ended c (okWith 0 0) s.dev (staged (fun _ => {}) s.dev) (admin 0x1A c [] discardBody s.dev) :=
      admin_takesAny takes [] discardBody ▸
        ended_of_runBody room (fun _ _ => rfl) (commutesWithHost_staged _) (keepsHost_staged _)
    obtain ⟨stage, during, frame⟩ := ended_staged ended
    refine completes_of_exec_eq_act (f := admin 0x1A c [] discardBody) rfl ⟨ended.ace, frame.of_eq ?_, ?_⟩
    · rw [stage]
    · rw [during]
      cases s.dev.epoch.taken <;> rfl

end Sys2Proof.Machine
end

section
/-!
EPOCH_CHECK and EPOCH_COMMIT (R295 to R302), and the commands that latch a control request at their queue.
-/

namespace Sys2Proof.Machine

/-! ### Check and commit -/

theorem unlessBusy_busy {body : AdmRun → Dev → Dev × Option AdmRes} {r : AdmRun} {d : Dev} (busy : busyNow d = true) :
    unlessBusy body r d = ends (failWith 0x08) d := if_pos busy

theorem unlessBusy_free {body : AdmRun → Dev → Dev × Option AdmRes} {r : AdmRun} {d : Dev} (free : busyNow d = false) :
    unlessBusy body r d = body r d := if_neg (by simp [free])

theorem HostOnly.busyNow_eq {d t : Dev} (h : HostOnly d t) : busyNow t = busyNow d := by
  rw [show t = _ from h]
  rfl

theorem HostOnly.checkStage_eq {d t : Dev} (h : HostOnly d t) (ew : List (Nat × BitVec 2)) :
    checkStage t ew = checkStage d ew := by
  rw [show t = _ from h]
  rfl

theorem HostOnly.checkRes_eq {d t : Dev} (h : HostOnly d t) (x : Option (Nat × Nat)) : checkRes t x = checkRes d x := by
  rw [show t = _ from h]
  rfl

/-- The device once the fence of a commit is up (R302). -/
def fencedForCommit (ew : List (Nat × BitVec 2)) (d : Dev) : Dev :=
  { d with
    epoch.fence := true, epoch.fenced := affected d d.stage, epoch.fencedPorts := affectedPorts d d.stage
    epoch.fencedRings := affectedRings d d.stage, epoch.taken := some d.stage, epoch.during := {}
    epoch.peerEw := ew.foldl (fun t e => tblSet 0 t e.1 e.2) d.epoch.peerEw }

theorem commitBody_passes {ew : List (Nat × BitVec 2)} {r : AdmRun} {d : Dev} (passes : checkStage d ew = none) :
    commitBody ew r d = runsOn r .commit (fencedForCommit ew d) := by
  unfold commitBody
  rw [passes]
  rfl

theorem commitBody_fails {ew : List (Nat × BitVec 2)} {r : AdmRun} {d : Dev} {x : Nat × Nat}
    (fails : checkStage d ew = some x) : commitBody ew r d = ends (checkRes d (some x)) d := by
  unfold commitBody
  rw [fails]

theorem commutesWithHost_fencedForCommit (ew : List (Nat × BitVec 2)) : CommutesWithHost (fencedForCommit ew) := by
  intro d t h
  rw [show t = _ from h]
  rfl

/-- Settles O5: the check is judged on the device as the command finds it, `unlessBusy` before it (R273; BUSY before the
command's own checks is log entry 43). -/
theorem checkReportsAndCommitRaisesTheFence : Obligations.CheckReportsAndCommitRaisesTheFence := by
  intro s c ew tag room
  refine ⟨fun takes => ?_, fun takes free passes => ?_, fun x takes free fails => ?_, fun takes busy => ?_⟩
  · refine completes_of_ends_self (body := checkBody ew) (checkRes s.dev (checkStage s.dev ew)) rfl takes room
      (fun t h => ?_) fun e h => ⟨h.frame, ?_⟩
    · rw [checkBody, h.checkStage_eq, h.checkRes_eq]
    · have ace := h.ace
      cases found : checkStage s.dev ew <;> rw [found] at ace <;> exact ace
  · refine completes_of_runsOn (body := unlessBusy (commitBody ew)) (fencedForCommit ew) rfl takes (fun t h => ?_)
      (commutesWithHost_fencedForCommit ew) (fun _ => rfl) fun e on frame => ⟨on, frame.of_eq ?_⟩
    · rw [unlessBusy_free (h.busyNow_eq.trans free), commitBody_passes ((h.checkStage_eq ew).trans passes)]
    · rw [show e = _ from frame]
      rfl
  · refine completes_of_ends_self (body := unlessBusy (commitBody ew)) (checkRes s.dev (some x)) rfl takes room
      (fun t h => ?_) fun e h => ⟨h.frame, h.ace⟩
    rw [unlessBusy_free (h.busyNow_eq.trans free), commitBody_fails ((h.checkStage_eq ew).trans fails), h.checkRes_eq]
  · refine completes_of_ends_self (body := unlessBusy (commitBody ew)) (failWith 0x08) rfl takes room
      (fun t h => unlessBusy_busy (h.busyNow_eq.trans busy)) fun e h => ⟨h.frame, h.ace⟩

/-! ### Control requests at a queue (R53, R70 to R83) -/

theorem queueCtl_latches {f : Ctl → Ctl} {c : AdmCmd} {r : AdmRun} {d : Dev} {qid : Nat}
    (hqid : qid = bitsOf c.arg0.toNat 0 12) (valid : (queueOf d qid).cfg.valid = true) :
    queueCtl f c r d = runsOn r (.round qid) (onQueue qid (fun q => { q with ctl := f q.ctl }) d) := by
  subst hqid
  exact if_neg (by simp [valid])

theorem queueCtl_refuses {f : Ctl → Ctl} {c : AdmCmd} {r : AdmRun} {d : Dev} {qid : Nat}
    (hqid : qid = bitsOf c.arg0.toNat 0 12) (invalid : (queueOf d qid).cfg.valid = false) :
    queueCtl f c r d = ends (failWith 0x75) d := by
  subst hqid
  simp [queueCtl, invalid]

theorem markBody_marks {c : AdmCmd} (mark : c.flags.getLsbD 0 = false) :
    markBody c = queueCtl (fun x => { x with mark := x.mark ++ [.admin] }) c := by
  unfold markBody
  rw [mark]
  rfl

theorem markBody_releases {c : AdmCmd} (release : c.flags.getLsbD 0 = true) :
    markBody c = queueCtl (fun x => { x with release := x.release ++ [.admin] }) c := by
  unfold markBody
  rw [release]
  rfl

theorem HostOnly.queueOf_eq {d t : Dev} (h : HostOnly d t) (qid : Nat) : queueOf t qid = queueOf d qid := by
  rw [show t = _ from h]
  rfl

theorem commutesWithHost_onQueue (qid : Nat) (f : Queue → Queue) : CommutesWithHost (onQueue qid f) := by
  intro d t h
  rw [show t = _ from h]
  rfl

/-- A command that runs on with a change of one queue: what the obligations say of it. -/
theorem completes_latched {i : Instr} {op tag qid : Nat} {c : AdmCmd} {buf : Bytes} {s : State}
    {body : AdmRun → Dev → Dev × Option AdmRes} (f : Queue → Queue) (wf : tblWf {} s.dev.queues = true)
    (cmd : exec i s = act (admin op c buf body) s) (takes : Takes op c tag s.dev)
    (runs : ∀ t, HostOnly s.dev t → body (hostRun op c) t = runsOn (hostRun op c) (.round qid) (onQueue qid f t)) :
    Completes i s fun e => RunsOn op c (.round qid) s.dev e ∧ HostOnly { s.dev with queues := e.queues } e ∧
      queueOf e qid = f (queueOf s.dev qid) ∧ ∀ j, j ≠ qid → queueOf e j = queueOf s.dev j := by
  refine completes_of_runsOn (onQueue qid f) cmd takes runs (commutesWithHost_onQueue qid f) (fun _ => rfl)
    fun e on frame => ⟨on, frame.of_eq ?_, ?_, fun j other => ?_⟩
  · rw [show e = _ from frame]
    rfl
  · rw [frame.queueOf_eq, queueOf_on_same wf]
  · rw [frame.queueOf_eq, queueOf_on_other _ _ other]

theorem completes_refused {i : Instr} {op tag qid : Nat} {c : AdmCmd} {buf : Bytes} {s : State} {f : Ctl → Ctl}
    (room : AceRoom s.dev) (hqid : qid = bitsOf c.arg0.toNat 0 12) (invalid : (queueOf s.dev qid).cfg.valid = false)
    (cmd : exec i s = act (admin op c buf (queueCtl f c)) s) (takes : Takes op c tag s.dev) :
    Completes i s fun e => AceWritten c 0x75 0 0 s.dev e ∧ HostOnly s.dev e :=
  completes_of_ends_self (failWith 0x75) cmd takes room
    (fun _ h => queueCtl_refuses hqid ((congrArg (·.cfg.valid) (h.queueOf_eq qid)).trans invalid))
    fun _ h => ⟨h.ace, h.frame⟩

/-- Settles O6: `completes_latched` and `completes_refused` for each command. -/
theorem queueCommandsLatchOneControlRequest : Obligations.QueueCommandsLatchOneControlRequest := by
  refine ⟨?_, ?_⟩
  · intro s c tag qid hqid wf valid latched
    have validThere (t : Dev) (h : HostOnly s.dev t) : (queueOf t qid).cfg.valid = true :=
      (congrArg (·.cfg.valid) (h.queueOf_eq qid)).trans valid
    refine ⟨fun takes => ?_, fun takes => ?_, fun takes mark => ?_, fun takes release => ?_, fun takes => ?_⟩
    · exact completes_latched (i := .queueFlush c) (body := flushBody c) _ wf rfl takes fun t h => queueCtl_latches hqid (validThere t h)
    · exact completes_latched (i := .queueDropPacket c) (body := dropBody c) _ wf rfl takes fun t h => queueCtl_latches hqid (validThere t h)
    · exact completes_latched (i := .queueMark c) (body := markBody c) _ wf rfl takes fun t h =>
        markBody_marks mark ▸ queueCtl_latches hqid (validThere t h)
    · exact completes_latched (i := .queueMark c) (body := markBody c) _ wf rfl takes fun t h =>
        markBody_releases release ▸ queueCtl_latches hqid (validThere t h)
    · exact completes_latched (i := .queueRetransmit c) (body := rtxBody c) _ wf rfl takes fun t h => queueCtl_latches hqid (validThere t h)
  · intro s c tag qid hqid room invalid fails
    refine ⟨?_, fun takes => ?_, fun takes => ?_, fun takes => ?_⟩
    · exact completes_refused (i := .queueFlush c) (buf := []) room hqid invalid rfl
    · exact completes_refused (i := .queueDropPacket c) (buf := []) room hqid invalid rfl takes
    · exact completes_refused (i := .queueMark c) (buf := []) room hqid invalid rfl takes
    · exact completes_refused (i := .queueRetransmit c) (buf := []) room hqid invalid rfl takes

/-! ### QUEUE_READ_COUNTERS (R91, R153, R277) -/

/-- The queue's read request of the admin ring. -/
def latchRead (addr : Nat) (clear : Bool) (q : Queue) : Queue := { q with ctl.read := some (addr, clear) }

theorem countersBody_queue {c : AdmCmd} {r : AdmRun} {d : Dev} {qid : Nat} (hqid : qid = bitsOf c.arg0.toNat 0 12)
    (form : bitsOf c.flags.toNat 1 2 = 0) :
    countersBody c r d =
      runsOn r (.round qid) (onQueue qid (latchRead c.addr.toNat (c.flags.getLsbD 0)) d) := by
  subst hqid
  unfold countersBody
  simp only [form]
  rfl

theorem countersBody_port {c : AdmCmd} {r : AdmRun} {d : Dev} (form : bitsOf c.flags.toNat 1 2 = 1)
    (port : c.arg0.toNat ≤ 3) :
    countersBody c r d =
      ends { status := 0, record := some (c.addr.toNat, (portRecord c.arg0.toNat (c.flags.getLsbD 0) d).1) }
        (portRecord c.arg0.toNat (c.flags.getLsbD 0) d).2 := by
  unfold countersBody
  simp only [form]
  exact if_neg (by omega)

theorem countersBody_ring {c : AdmCmd} {r : AdmRun} {d : Dev} {x : Bytes × Dev} (form : bitsOf c.flags.toNat 1 2 = 2)
    (kind : bitsOf c.arg0.toNat 6 2 < 3)
    (found : ringRecord (bitsOf c.arg0.toNat 6 2) (bitsOf c.arg0.toNat 0 6) (c.flags.getLsbD 0) d = some x) :
    countersBody c r d = ends { status := 0, record := some (c.addr.toNat, x.1) } x.2 := by
  unfold countersBody
  simp only [form, found]
  exact if_neg (by omega)

theorem countersBody_noRing {c : AdmCmd} {r : AdmRun} {d : Dev} (form : bitsOf c.flags.toNat 1 2 = 2)
    (kind : bitsOf c.arg0.toNat 6 2 < 3)
    (none_ : ringRecord (bitsOf c.arg0.toNat 6 2) (bitsOf c.arg0.toNat 0 6) (c.flags.getLsbD 0) d = none) :
    countersBody c r d = ends (failWith 0x04) d := by
  unfold countersBody
  simp only [form, none_]
  exact if_neg (by omega)

theorem portRecord_host (k : Nat) (clear : Bool) {d t : Dev} (h : HostOnly d t) :
    (portRecord k clear t).1 = (portRecord k clear d).1 := by
  rw [show t = _ from h]
  rfl

theorem HostOnly.putRun {d t : Dev} (h : HostOnly d t) (k : Nat) (r : PceRun) : HostOnly (putRun k r d) (putRun k r t) := by
  rw [show t = _ from h]
  unfold Sys2Proof.Machine.putRun putI putE
  split <;> split <;> rfl

/-- A port's counters are the device's own: the host side stays. -/
theorem putRun_frame (k : Nat) (r : PceRun) (d : Dev) : putRun k r d = { d with ports := (putRun k r d).ports } := by
  unfold putRun putI putE
  split <;> split <;> rfl

theorem portRecord_frame (k : Nat) (clear : Bool) (d : Dev) :
    (portRecord k clear d).2 = { d with ports := (portRecord k clear d).2.ports } := by
  unfold portRecord
  cases clear
  · rfl
  · exact putRun_frame ..

/-- The counters of R153, cleared. -/
def clearedRun (r : PceRun) : PceRun :=
  { r with stragglers := 0, unmapped := 0, ovf := 0, tagErr := 0, merges := 0, parks := 0, tpForced := false }

theorem portRecord_clears (k : Nat) (d : Dev) : (portRecord k true d).2 = putRun k (clearedRun (runOf d k)) d := rfl

theorem commutesWithHost_portRecord (k : Nat) (clear : Bool) : CommutesWithHost fun d => (portRecord k clear d).2 := by
  intro d t h
  cases clear
  · exact h
  · have same : runOf t k = runOf d k := by
      rw [show t = _ from h]
      rfl
    simp only [portRecord_clears, same]
    exact h.putRun ..

/-- An update that touches neither the host side nor the fatal condition nor PERST#. -/
theorem KeepsHost.of_frame {F : Dev → Dev} (adm : ∀ t, (F t).adm = t.adm) (link : ∀ t, (F t).link = t.link)
    (err : ∀ t, (F t).err = t.err) (pwr : ∀ t, (F t).pwr.perst = t.pwr.perst) : KeepsHost F :=
  ⟨adm, fun t => by simp [Sys2Proof.Machine.canIssue, dmaAllowed, link, err, pwr], fun t => by rw [link]⟩

theorem keepsHost_portRecord (k : Nat) (clear : Bool) : KeepsHost fun d => (portRecord k clear d).2 :=
  .of_frame (fun t => by rw [portRecord_frame]) (fun t => by rw [portRecord_frame]) (fun t => by rw [portRecord_frame])
    fun t => by rw [portRecord_frame]

/-- The counters of a fill ring, cleared if asked. -/
def clearedFill (id : Nat) (r : FillRing) (clear : Bool) (d : Dev) : Dev :=
  if clear then putFill id { r with cnt := {} } d else d

/-- The counters of a drain ring, cleared if asked. -/
def clearedDrain (id : Nat) (r : DrainRing) (clear : Bool) (d : Dev) : Dev :=
  if clear then putDrain id { r with cnt := {} } d else d

theorem commutesWithHost_clearedFill (id : Nat) (r : FillRing) (clear : Bool) : CommutesWithHost (clearedFill id r clear) := by
  intro d t h
  rw [show t = _ from h]
  cases clear <;> rfl

theorem commutesWithHost_clearedDrain (id : Nat) (r : DrainRing) (clear : Bool) :
    CommutesWithHost (clearedDrain id r clear) := by
  intro d t h
  rw [show t = _ from h]
  cases clear <;> rfl

theorem keepsHost_clearedFill (id : Nat) (r : FillRing) (clear : Bool) : KeepsHost (clearedFill id r clear) := by
  cases clear <;> exact .of_frame (fun _ => rfl) (fun _ => rfl) (fun _ => rfl) fun _ => rfl

theorem keepsHost_clearedDrain (id : Nat) (r : DrainRing) (clear : Bool) : KeepsHost (clearedDrain id r clear) := by
  cases clear <;> exact .of_frame (fun _ => rfl) (fun _ => rfl) (fun _ => rfl) fun _ => rfl

theorem HostOnly.rings_eq {d t : Dev} (h : HostOnly d t) : t.rings = d.rings := by rw [show t = _ from h]

theorem HostOnly.cqFull_eq {d t : Dev} (h : HostOnly d t) (cq : Nat) : cqFull t cq = cqFull d cq := by
  rw [show t = _ from h]
  rfl

/-- Settles O7: the body by its equation for each form. -/
theorem readCountersLatchesOrWritesItsRecord : Obligations.ReadCountersLatchesOrWritesItsRecord := by
  intro s c tag takes wf
  refine ⟨fun qid hqid form => ?_, fun form port room => ?_, fun id hid form room => ?_⟩
  · exact completes_latched (i := .queueReadCounters c) (body := countersBody c) _ wf rfl takes
      fun t _ => countersBody_queue hqid form
  · exact completes_of_ends (body := countersBody c) (fun d => (portRecord c.arg0.toNat (c.flags.getLsbD 0) d).2) _ rfl takes
      room (fun t h => by rw [countersBody_port form port, portRecord_host _ _ h]) (commutesWithHost_portRecord _ _)
      (keepsHost_portRecord _ _) fun e h => ⟨h.ace, h.record _ _ rfl, h.frame⟩
  · subst hid
    refine ⟨fun r kind found => ?_, fun r kind found => ?_, fun r kind found => ?_, fun kind none_ => ?_⟩
    · refine completes_of_ends_self (body := countersBody c)
        { status := 0, record := some (c.addr.toNat, ringBytes {} r.head r.halted (compFull r)) } rfl takes room
        (fun t h => ?_) fun e h => ⟨h.ace, h.frame, h.record _ _ rfl⟩
      refine countersBody_ring (x := (_, t)) form (by omega) ?_
      rw [kind, ringRecord, h.rings_eq, found]
      rfl
    · refine completes_of_ends (body := countersBody c) (clearedFill (bitsOf c.arg0.toNat 0 6) r (c.flags.getLsbD 0))
        { status := 0, record := some (c.addr.toNat, ringBytes r.cnt r.consumed r.halted (cqFull s.dev r.cq)) } rfl takes
        room (fun t h => ?_) (commutesWithHost_clearedFill _ _ _) (keepsHost_clearedFill _ _ _)
        fun e h => ⟨h.ace, h.record _ _ rfl, h.frame⟩
      refine countersBody_ring (x := (_, clearedFill _ r _ t)) form (by omega) ?_
      rw [kind, ringRecord, h.rings_eq, found, ← h.cqFull_eq]
      rfl
    · refine completes_of_ends (body := countersBody c) (clearedDrain (bitsOf c.arg0.toNat 0 6) r (c.flags.getLsbD 0))
        { status := 0, record := some (c.addr.toNat, ringBytes r.cnt r.consumed r.halted (cqFull s.dev r.cq)) } rfl takes
        room (fun t h => ?_) (commutesWithHost_clearedDrain _ _ _) (keepsHost_clearedDrain _ _ _)
        fun e h => ⟨h.ace, h.record _ _ rfl, h.frame⟩
      refine countersBody_ring (x := (_, clearedDrain _ r _ t)) form (by omega) ?_
      rw [kind, ringRecord, h.rings_eq, found, ← h.cqFull_eq]
      rfl
    · refine completes_of_ends_self (body := countersBody c) (failWith 0x04) rfl takes room
        (fun t h => countersBody_noRing form (by omega) ?_) fun e h => ⟨h.ace, h.frame⟩
      rw [kind, ringRecord, h.rings_eq, none_]
      rfl

end Sys2Proof.Machine
end

section
/-!
The reports, KEY_STATUS and LOG_READ (R274, R364, R405, R456, R545, R556), and POWER_REQUEST (R463, R464).
-/

namespace Sys2Proof.Machine

/-! ### Reports -/

theorem completes_report {i : Instr} {op tag least : Nat} {c : AdmCmd} {s : State} {record : Dev → Bytes}
    (cmd : exec i s = act (admin op c [] (reportBody c least record)) s) (takes : Takes op c tag s.dev)
    (room : AceRoom s.dev) (long : least ≤ c.len.toNat) (same : ∀ t, HostOnly s.dev t → record t = record s.dev) :
    Completes i s fun e => AceWritten c 0 ((record s.dev).take c.len.toNat).length 0 s.dev e ∧ HostOnly s.dev e ∧
      RecordWritten c.addr.toNat ((record s.dev).take c.len.toNat) s.dev e := by
  refine completes_of_ends_self (body := reportBody c least record)
    { status := 0, r0 := ((record s.dev).take c.len.toNat).length, r1 := 0
      record := some (c.addr.toNat, (record s.dev).take c.len.toNat) } cmd takes room (fun t h => ?_)
    fun e h => ⟨h.ace, h.frame, h.record _ _ rfl⟩
  rw [reportBody, if_neg (by omega), same t h]

theorem HostOnly.wearRecord_eq {d t : Dev} (h : HostOnly d t) : wearRecord t = wearRecord d := by
  rw [show t = _ from h]
  rfl

theorem HostOnly.scrubRecord_eq {d t : Dev} (h : HostOnly d t) : scrubRecord t = scrubRecord d := by
  rw [show t = _ from h]
  rfl

theorem HostOnly.remapRecord_eq {d t : Dev} (h : HostOnly d t) : remapRecord t = remapRecord d := by
  rw [show t = _ from h]
  rfl

theorem HostOnly.peerRecord_eq {d t : Dev} (h : HostOnly d t) (n : Nat) : peerRecord n t = peerRecord n d := by
  rw [show t = _ from h]
  rfl

theorem HostOnly.keyStatusRecord_eq {d t : Dev} (h : HostOnly d t) : keyStatusRecord t = keyStatusRecord d := by
  rw [show t = _ from h]
  rfl

/-- The end of a LOG_READ that finds a record. -/
def logRes (c : AdmCmd) (l : List LogRec) (r : LogRec) : AdmRes :=
  { status := 0, r0 := l.length, r1 := (r.seq + 1) % 2 ^ 32, record := some (c.addr.toNat, l.flatMap logBytes) }

theorem logBody_ends {c : AdmCmd} {a : AdmRun} {d : Dev} {l : List LogRec} {r : LogRec} (long : 32 ≤ c.len.toNat)
    (hl : l = logFrom c.arg0.toNat (c.len.toNat / 32) d.err.log) (last : l.getLast? = some r) :
    logBody c a d = ends (logRes c l r) d := by
  subst hl
  have some_ : (logFrom c.arg0.toNat (c.len.toNat / 32) d.err.log).isEmpty = false := by
    cases found : logFrom c.arg0.toNat (c.len.toNat / 32) d.err.log with
    | nil => rw [found] at last; cases last
    | cons => rfl
  rw [logBody, if_neg (by omega)]
  simp only [last, some_]
  rfl

/-- Settles O8: each record reads nothing of the host side, and the log not what the command's arrival changes there. -/
theorem reportsWriteTheirRecordAlone : Obligations.ReportsWriteTheirRecordAlone := by
  intro s c tag room reports
  refine ⟨fun takes long => ?_, fun takes long => ?_, fun takes long => ?_, fun takes long => ?_, fun takes long => ?_, ?_⟩
  · exact completes_report rfl takes room long fun _ h => h.wearRecord_eq
  · exact completes_report rfl takes room long fun _ h => h.scrubRecord_eq
  · exact completes_report rfl takes room long fun _ h => h.remapRecord_eq
  · exact completes_report rfl takes room long fun _ h => h.peerRecord_eq _
  · refine completes_of_ends_self (body := keyStatusBody c)
      { status := 0, record := some (c.addr.toNat, keyStatusRecord s.dev) } rfl takes room (fun t h => ?_)
      fun e h => ⟨h.ace, h.frame, h.record _ _ rfl⟩
    rw [keyStatusBody, if_neg (by omega), h.keyStatusRecord_eq]
  · intro l r takes long hl last
    have runs : logBody c (hostRun 0x70 c) (taken 0x70 tag s.dev) = ends (logRes c l r) (taken 0x70 tag s.dev) :=
      logBody_ends long (by rw [taken_err]; exact hl) last
    obtain ⟨ace, frame⟩ := admin_ends (buf := []) takes room runs rfl (taken_canIssue ..) (taken_mps ..)
    exact completes_of_exec_eq_act (f := admin 0x70 c [] (logBody c)) rfl
      ⟨ace, (hostOnly_taken ..).trans frame, admin_record takes room runs rfl⟩

end Sys2Proof.Machine
end

section
/-!
The stream ports' state: reads after stores, what the operations on it leave alone, and the live PCE (R306, R466).
-/

namespace Sys2Proof.Machine

/-! ### Reads after stores -/

section
variable {k j : Nat} (d : Dev)

theorem evOf_putEv_same (e : List PortEv) : evOf (putEv k e d) k = e := by
  unfold evOf putEv
  by_cases h : k < 2
  · by_cases h0 : k = 0 <;> simp [h, h0, iport, putI]
  · by_cases h2 : k - 2 = 0 <;> simp [h, h2, eport, putE]

theorem evOf_putEv_other (hk : k < 4) (hj : j < 4) (ne : j ≠ k) (e : List PortEv) :
    evOf (putEv k e d) j = evOf d j := by
  unfold evOf putEv iport eport putI putE
  interval_cases k <;> interval_cases j <;> simp_all

theorem pceOf_putEv (e : List PortEv) : pceOf (putEv k e d) j = pceOf d j := by
  unfold pceOf putEv iport eport putI putE
  split_ifs <;> rfl

end

/-- Nothing but the ports and the time base differs. -/
abbrev PortsOnly (d e : Dev) : Prop := e = { d with ports := e.ports, tb := e.tb }

theorem PortsOnly.trans {a b c : Dev} (h : PortsOnly a b) (k : PortsOnly b c) : PortsOnly a c := by
  unfold PortsOnly at *
  rw [k, h]

theorem portsOnly_putEv (k : Nat) (e : List PortEv) (d : Dev) : PortsOnly d (putEv k e d) := by
  unfold putEv putI putE
  split_ifs <;> rfl

theorem portsOnly_putPair (n : Nat) (p : PairSt) (d : Dev) : PortsOnly d (putPair n p d) := by
  unfold putPair
  split_ifs <;> rfl

theorem portsOnly_issueEv (k : Nat) (e : PortEv) (d : Dev) : PortsOnly d (issueEv k e d) := portsOnly_putEv ..

theorem portsOnly_cancelArm (k : Nat) (d : Dev) : PortsOnly d (cancelArm k d) := portsOnly_putEv ..

theorem portsOnly_stopTimer (t : TimerId) (d : Dev) : PortsOnly d (stopTimer t d) := rfl

theorem portsOnly_foldl {β : Type} {f : Dev → β → Dev} (keeps : ∀ d x, PortsOnly d (f d x)) (l : List β) :
    ∀ d, PortsOnly d (l.foldl f d) := by
  induction l with
  | nil => intro d; rfl
  | cons x l ih => intro d; exact (keeps d x).trans (ih _)

theorem portsOnly_commitPair (staged : List Nat) (n : Nat) (d : Dev) : PortsOnly d (commitPair staged n d) := by
  unfold commitPair
  extract_lets s runs
  have h1 : PortsOnly d (cancelArm n d) := portsOnly_cancelArm ..
  split
  · rfl
  · split
    · split
      · exact portsOnly_putPair ..
      · split
        · exact portsOnly_issueEv ..
        · rfl
    · split
      · exact portsOnly_putPair ..
      · split
        · exact h1.trans ((portsOnly_putPair ..).trans (portsOnly_stopTimer ..))
        · exact h1

theorem portsOnly_closePair (n : Nat) (d : Dev) : PortsOnly d (closePair n d) := by
  unfold closePair
  extract_lets d1 s
  have h1 : PortsOnly d d1 := portsOnly_cancelArm ..
  split
  · exact h1.trans (portsOnly_putPair ..)
  · split
    · exact h1.trans ((portsOnly_putPair ..).trans (portsOnly_stopTimer ..))
    · exact h1

theorem portsOnly_closePort (k : Nat) (d : Dev) : PortsOnly d (closePort k d) := by
  unfold closePort
  split
  · exact portsOnly_issueEv ..
  · rfl

theorem portsOnly_closePorts (d : Dev) : PortsOnly d (closePorts d) :=
  (portsOnly_closePort 0 d).trans ((portsOnly_closePort 1 _).trans ((portsOnly_closePort 2 _).trans (portsOnly_closePort 3 _)))

/-! ### The live PCE -/

/-- The live PCE of a port, apart from a pending STANDBY request. -/
def liveNow (d : Dev) (k : Nat) : Pce := livePce (pceOf d k) (evOf d k)

theorem evPce_append_commit (l : List PortEv) (others : ∀ o ∈ l, evKind o ≠ 0) (p : Option Pce) (r : Bool) (st : Option Nat) :
    evPce (l ++ [.commit p r st]) = p := by
  induction l with
  | nil => cases p <;> rfl
  | cons o l ih =>
    obtain ⟨here, later⟩ := List.forall_mem_cons.1 others
    cases o with
    | commit => exact absurd rfl here
    | arm => exact ih later
    | cut => exact ih later

theorem mergeEv_commit {o : PortEv} (kind : evKind o = 0) (p : Pce) :
    ∃ r st, mergeEv o (.commit (some p) false none) = .commit (some p) r st := by
  cases o with
  | commit q r st => exact ⟨_, _, rfl⟩
  | arm => cases kind
  | cut => cases kind

/-- A commit's event at a port makes its PCE live. -/
theorem evPce_issued (l : List PortEv) (p : Pce) :
    evPce (l.filter (fun o => evKind o ≠ evKind (.commit (some p) false none)) ++
      [((l.find? fun o => evKind o = evKind (.commit (some p) false none)).map fun o =>
        mergeEv o (.commit (some p) false none)).getD (.commit (some p) false none)]) = some p := by
  have others : ∀ o ∈ l.filter (fun o => evKind o ≠ evKind (.commit (some p) false none)), evKind o ≠ 0 := by
    intro o ho
    exact of_decide_eq_true (List.mem_filter.1 ho).2
  cases found : l.find? fun o => evKind o = evKind (.commit (some p) false none) with
  | none => exact evPce_append_commit _ others ..
  | some o =>
    have kind : evKind o = evKind (.commit (some p) false none) := of_decide_eq_true (List.find?_some found :)
    obtain ⟨r, st, merged⟩ := mergeEv_commit (kind : evKind o = 0) p
    simp only [Option.map_some, Option.getD_some, merged]
    exact evPce_append_commit _ others ..

theorem evPce_filter {keep : PortEv → Bool} (keeps : ∀ p r st, keep (.commit p r st) = true) (l : List PortEv) :
    evPce (l.filter keep) = evPce l := by
  induction l with
  | nil => rfl
  | cons o l ih =>
    cases o with
    | commit p r st =>
      rw [List.filter_cons_of_pos (keeps p r st)]
      simp only [evPce, List.findSome?_cons] at ih ⊢
      rw [ih]
    | arm =>
      by_cases h : keep .arm = true
      · rw [List.filter_cons_of_pos h]; exact ih
      · rw [List.filter_cons_of_neg h]; exact ih
    | cut c =>
      by_cases h : keep (.cut c) = true
      · rw [List.filter_cons_of_pos h]; exact ih
      · rw [List.filter_cons_of_neg h]; exact ih

theorem evPce_append_arm (l : List PortEv) : evPce (l ++ [.arm]) = evPce l := by
  simp [evPce, List.findSome?_append]

section
variable {k j : Nat} (d : Dev)

theorem liveNow_putEv_same (e : List PortEv) : liveNow (putEv k e d) k = (evPce e).getD (pceOf d k) := by
  rw [liveNow, pceOf_putEv, evOf_putEv_same, livePce]

theorem liveNow_putEv_other (hk : k < 4) (hj : j < 4) (ne : j ≠ k) (e : List PortEv) :
    liveNow (putEv k e d) j = liveNow d j := by
  rw [liveNow, pceOf_putEv, evOf_putEv_other d hk hj ne, liveNow]

theorem liveNow_issue_same (p : Pce) : liveNow (issueEv k (.commit (some p) false none) d) k = p := by
  unfold issueEv
  rw [liveNow_putEv_same]
  exact congrArg (fun x => x.getD (pceOf d k)) (evPce_issued (evOf d k) p)

theorem liveNow_issue_other (hk : k < 4) (hj : j < 4) (ne : j ≠ k) (e : PortEv) :
    liveNow (issueEv k e d) j = liveNow d j := liveNow_putEv_other d hk hj ne _

/-- Neither an arming nor its end changes the live PCE of any port. -/
theorem liveNow_cancelArm (hk : k < 4) (hj : j < 4) : liveNow (cancelArm k d) j = liveNow d j := by
  by_cases ne : j = k
  · subst ne
    unfold cancelArm
    rw [liveNow_putEv_same, evPce_filter (by simp), liveNow, livePce]
  · exact liveNow_putEv_other d hk hj ne _

theorem liveNow_issueArm (hk : k < 4) (hj : j < 4) : liveNow (issueEv k .arm d) j = liveNow d j := by
  by_cases ne : j = k
  · subst ne
    have arm : (((evOf d j).find? fun o => evKind o = evKind .arm).map fun o => mergeEv o .arm).getD .arm = PortEv.arm := by
      cases (evOf d j).find? fun o => evKind o = evKind .arm with
      | none => rfl
      | some o => cases o <;> rfl
    unfold issueEv
    rw [liveNow_putEv_same, arm, evPce_append_arm, evPce_filter (by simp [evKind]), liveNow, livePce]
  · exact liveNow_issue_other d hk hj ne _

theorem liveNow_putPair (n : Nat) (p : PairSt) : liveNow (putPair n p d) j = liveNow d j := by
  unfold liveNow pceOf evOf putPair iport eport
  split_ifs <;> rfl

theorem liveNow_stopTimer (t : TimerId) : liveNow (stopTimer t d) j = liveNow d j := rfl

theorem liveNow_commitPair (staged : List Nat) (hk : k < 4) (hj : j < 4) :
    liveNow (commitPair staged k d) j = liveNow d j := by
  unfold commitPair
  extract_lets s runs
  have h1 : liveNow (cancelArm k d) j = liveNow d j := liveNow_cancelArm _ hk hj
  split
  · rfl
  · split
    · split
      · exact liveNow_putPair ..
      · split
        · exact liveNow_issueArm _ hk hj
        · rfl
    · split
      · exact liveNow_putPair ..
      · split
        · exact (liveNow_putPair ..).trans h1
        · exact h1

theorem liveNow_closePair (hk : k < 4) (hj : j < 4) : liveNow (closePair k d) j = liveNow d j := by
  unfold closePair
  extract_lets d1 s
  have h1 : liveNow d1 j = liveNow d j := liveNow_cancelArm _ hk hj
  split
  · exact (liveNow_putPair ..).trans h1
  · split
    · exact (liveNow_putPair ..).trans h1
    · exact h1

end

end Sys2Proof.Machine
end

section
/-!
POWER_REQUEST (R463, R464, R466).
-/

namespace Sys2Proof.Machine

/-! ### The ports that a pending STANDBY request closed -/

theorem liveNow_foldl_issue_other {j : Nat} (hj : j < 4) (l : Tbl Pce) (below : ∀ x ∈ l, x.1 < 4) (ne : ∀ x ∈ l, j ≠ x.1) :
    ∀ d : Dev, liveNow (l.foldl (fun d e => issueEv e.1 (.commit (some e.2) false none) d) d) j = liveNow d j := by
  induction l with
  | nil => intro d; rfl
  | cons x l ih =>
    intro d
    obtain ⟨hx, below⟩ := List.forall_mem_cons.1 below
    obtain ⟨here, ne⟩ := List.forall_mem_cons.1 ne
    rw [List.foldl_cons, ih below ne, liveNow_issue_other d hx hj here]

/-- Each port of a table whose PCEs are issued has its PCE of the table live. -/
theorem liveNow_foldl_issue (l : Tbl Pce) (sorted : tblSorted l = true) (below : ∀ x ∈ l, x.1 < 4) :
    ∀ d : Dev, ∀ x ∈ l, liveNow (l.foldl (fun d e => issueEv e.1 (.commit (some e.2) false none) d) d) x.1 = x.2 := by
  induction l with
  | nil => intro d x hx; cases hx
  | cons y l ih =>
    intro d x hx
    obtain ⟨above, sorted⟩ := tblSorted_cons.1 sorted
    obtain ⟨hy, later⟩ := List.forall_mem_cons.1 below
    rw [List.foldl_cons]
    rcases List.mem_cons.1 hx with rfl | hx
    · rw [liveNow_foldl_issue_other hy l later fun z hz => (above z hz).ne]
      exact liveNow_issue_same d _
    · exact ih sorted later _ x hx

theorem liveOf_of_nothingHeld {d : Dev} (h : d.pwr.heldPces = []) (k : Nat) : liveOf d k = liveNow d k := by
  simp [liveOf, liveHeld, h, liveNow, tblFind]

/-- The device when STANDBY is no longer pending, before the ports have their PCEs back. -/
def standbyDropped (d : Dev) : Dev :=
  { d with pwr.standbyPend := false, pwr.heldPces := [], epoch.allFence := d.err.fatal, cas.standbyAfterRsp := false }

theorem portsOnly_cancelStandby {d : Dev} (pending : d.pwr.standbyPend = true) :
    PortsOnly (standbyDropped d) (cancelStandby d) := by
  simp only [cancelStandby, pending, Bool.not_true, Bool.false_eq_true, if_false]
  exact (portsOnly_foldl (fun d e => portsOnly_issueEv ..) _ _).trans
    ((portsOnly_commitPair ..).trans (portsOnly_commitPair ..))

theorem cancelStandby_idle {d : Dev} (idle : d.pwr.standbyPend = false) : cancelStandby d = d := by
  simp [cancelStandby, idle]

theorem liveNow_cancelStandby {d : Dev} (pending : d.pwr.standbyPend = true) (sorted : tblSorted d.pwr.heldPces = true)
    (below : ∀ x ∈ d.pwr.heldPces, x.1 < 4) : ∀ x ∈ d.pwr.heldPces, liveNow (cancelStandby d) x.1 = x.2 := by
  intro x hx
  simp only [cancelStandby, pending, Bool.not_true, Bool.false_eq_true, if_false]
  rw [liveNow_commitPair _ _ (by omega) (below x hx), liveNow_commitPair _ _ (by omega) (below x hx)]
  exact liveNow_foldl_issue _ sorted below _ x hx

/-- While the link carries requests and PERST# is high, the device does not listen. -/
theorem followListen_of_canIssue {d : Dev} (issue : canIssue d = true) (runs : fwExec d = true) :
    followListen d = { d with pwr.phyLdo := d.pwr.vin } := by
  obtain ⟨⟨⟨⟨⟨-, -⟩, -⟩, -⟩, perst⟩, link⟩ : ((((d.link.up = true ∧ d.link.bme = true) ∧ d.link.d3hot = false) ∧
      d.err.fatal = false) ∧ d.pwr.perst = false) ∧ d.link.lstate ≠ .l12 := by
    simpa [canIssue, dmaAllowed] using issue
  have standby : d.pwr.standby = false := by
    simp only [fwExec, Bool.and_eq_true, Bool.not_eq_true'] at runs
    exact runs.2
  simp [followListen, stopOscIfListening, awake, listening, standby, perst, link]

/-! ### LISTEN permitted or forbidden -/

/-- What ARG0 0 and 1 make of the device. -/
def listenSet (v : Bool) (d : Dev) : Dev := followListen (cancelStandby { d with pwr.listenOk := v })

theorem listenSet_idle {v : Bool} {d : Dev} (issue : canIssue d = true) (runs : fwExec d = true)
    (idle : d.pwr.standbyPend = false) :
    listenSet v d = { d with pwr.listenOk := v, pwr.phyLdo := d.pwr.vin } := by
  rw [listenSet, cancelStandby_idle (d := { d with pwr.listenOk := v }) idle]
  exact followListen_of_canIssue (d := { d with pwr.listenOk := v }) issue runs

/-- Nothing but STANDBY's own marks and the ports differs from a device that `d` is with LISTEN set. -/
theorem listenSet_pending {v : Bool} {d : Dev} (issue : canIssue d = true) (runs : fwExec d = true)
    (pending : d.pwr.standbyPend = true) :
    PortsOnly { standbyDropped d with pwr.listenOk := v, pwr.phyLdo := d.pwr.vin } (listenSet v d) := by
  have cancelled : PortsOnly (standbyDropped { d with pwr.listenOk := v }) (cancelStandby { d with pwr.listenOk := v }) :=
    portsOnly_cancelStandby pending
  have there : canIssue (cancelStandby { d with pwr.listenOk := v }) = true := by
    rw [cancelled]; exact issue
  have runs : fwExec (cancelStandby { d with pwr.listenOk := v }) = true := by
    rw [cancelled]; exact runs
  unfold PortsOnly listenSet
  rw [followListen_of_canIssue there runs, cancelled]
  rfl

theorem liveNow_listenSet {v : Bool} {d : Dev} (issue : canIssue d = true) (runs : fwExec d = true)
    (pending : d.pwr.standbyPend = true) (k : Nat) :
    liveNow (listenSet v d) k = liveNow (cancelStandby { d with pwr.listenOk := v }) k := by
  have cancelled : PortsOnly (standbyDropped { d with pwr.listenOk := v }) (cancelStandby { d with pwr.listenOk := v }) :=
    portsOnly_cancelStandby pending
  unfold listenSet
  rw [followListen_of_canIssue (by rw [cancelled]; exact issue) (by rw [cancelled]; exact runs)]
  rfl

/-! ### STANDBY left pending -/

theorem liveOf_closePort_same {k : Nat} {d : Dev} (nothing : d.pwr.heldPces = []) : (liveNow (closePort k d) k).en = false := by
  unfold closePort
  split
  next => rw [liveNow_issue_same]
  next h => rw [← liveOf_of_nothingHeld nothing]; exact Bool.eq_false_iff.2 h

theorem liveOf_closePort_other {k j : Nat} (hk : k < 4) (hj : j < 4) (ne : j ≠ k) (d : Dev) :
    liveNow (closePort k d) j = liveNow d j := by
  unfold closePort
  split
  · exact liveNow_issue_other d hk hj ne _
  · rfl

/-- Every port's live PCE is disabled once all have been closed, when none was held before. -/
theorem liveNow_closePorts {k : Nat} (hk : k < 4) {d : Dev} (nothing : d.pwr.heldPces = []) :
    (liveNow (closePorts d) k).en = false := by
  have h1 : (closePort 0 d).pwr.heldPces = [] := by rw [portsOnly_closePort 0 d]; exact nothing
  have h2 : (closePort 1 (closePort 0 d)).pwr.heldPces = [] := by rw [portsOnly_closePort 1 _]; exact h1
  have h3 : (closePort 2 (closePort 1 (closePort 0 d))).pwr.heldPces = [] := by rw [portsOnly_closePort 2 _]; exact h2
  unfold closePorts
  obtain rfl | rfl | rfl | rfl : k = 0 ∨ k = 1 ∨ k = 2 ∨ k = 3 := by omega
  · rw [liveOf_closePort_other, liveOf_closePort_other, liveOf_closePort_other]
    · exact liveOf_closePort_same nothing
    all_goals decide
  · rw [liveOf_closePort_other, liveOf_closePort_other]
    · exact liveOf_closePort_same h1
    all_goals decide
  · rw [liveOf_closePort_other]
    · exact liveOf_closePort_same h2
    all_goals decide
  · exact liveOf_closePort_same h3

/-- The device with every enabled port closed behind a fence, and STANDBY pending. -/
def standbyPending (d : Dev) : Dev :=
  { closePair 1 (closePair 0 (closePorts d)) with
    epoch.allFence := true, pwr.standbyPend := true, pwr.heldPces := enabledPces d, cas.standbyAfterRsp := false }

theorem portsOnly_standbyPending (d : Dev) :
    PortsOnly { d with
      epoch.allFence := true, pwr.standbyPend := true, pwr.heldPces := enabledPces d, cas.standbyAfterRsp := false }
      (standbyPending d) := by
  have closed : PortsOnly d (closePair 1 (closePair 0 (closePorts d))) :=
    (portsOnly_closePorts d).trans ((portsOnly_closePair ..).trans (portsOnly_closePair ..))
  unfold PortsOnly standbyPending
  rw [closed]

theorem liveNow_standbyPending {k : Nat} (hk : k < 4) {d : Dev} (nothing : d.pwr.heldPces = []) :
    (liveNow (standbyPending d) k).en = false := by
  have : liveNow (standbyPending d) k = liveNow (closePair 1 (closePair 0 (closePorts d))) k := rfl
  rw [this, liveNow_closePair _ (by omega) hk, liveNow_closePair _ (by omega) hk]
  exact liveNow_closePorts hk nothing

/-! ### The command -/

/-- A device whose ports alone have changed since it differed from `a` on the host side alone. -/
theorem HostOnly.of_ports {a b x e : Dev} (start : HostOnly a b) (ports : PortsOnly b x) (frame : HostOnly x e) :
    HostOnly { a with ports := e.ports } e := by
  unfold PortsOnly at ports
  unfold HostOnly at *
  rw [frame, ports, start]

theorem HostOnly.journalSealed_eq {d t : Dev} (h : HostOnly d t) : journalSealed t = journalSealed d := by
  rw [show t = _ from h]
  rfl

theorem HostOnly.enabledPces_eq {d t : Dev} (h : HostOnly d t) : enabledPces t = enabledPces d := by
  rw [show t = _ from h]
  rfl

/-- The device that POWER_REQUEST finds when it has arrived. -/
theorem taken_powerRequest {tag : Nat} {c : AdmCmd} {d : Dev} (takes : Takes 0x31 c tag d) (room : AceRoom d) :
    canIssue (taken 0x31 tag d) = true ∧ fwExec (taken 0x31 tag d) = true ∧ d.err.fatal = false := by
  have runs : fwExec d = true := takes.2.1
  refine ⟨(taken_canIssue ..).trans room.2.1, runs, ?_⟩
  simp only [fwExec, Bool.and_eq_true, Bool.not_eq_true'] at runs
  exact runs.1.2

/-- What POWER_REQUEST ends with, from the device its body makes: the command completes and the device differs from
that one on the host side alone. -/
theorem powerRequest_ends {tag : Nat} {c : AdmCmd} {d e : Dev} {res : AdmRes} (takes : Takes 0x31 c tag d)
    (room : AceRoom d) (runs : powerBody c (hostRun 0x31 c) (taken 0x31 tag d) = (e, some res)) {g : Dev}
    (same : PortsOnly g e) (adm : g.adm = (taken 0x31 tag d).adm) (link : g.link = (taken 0x31 tag d).link)
    (err : g.err = d.err) (perst : g.pwr.perst = d.pwr.perst) :
    AceWritten c res.status res.r0 res.r1 d (admin 0x31 c [] (powerBody c) d) ∧
      HostOnly e (admin 0x31 c [] (powerBody c) d) := by
  refine admin_ends takes room runs ?_ ?_ ?_
  · rw [same]; exact adm
  · rw [← taken_canIssue 0x31 tag d, same]
    simp only [canIssue, dmaAllowed, link, err, perst, taken_err]
    rfl
  · rw [← taken_mps 0x31 tag d, same, ← link]

theorem powerRequest_refused {tag : Nat} {c : AdmCmd} {d : Dev} {res : AdmRes} (takes : Takes 0x31 c tag d)
    (room : AceRoom d) (runs : powerBody c (hostRun 0x31 c) (taken 0x31 tag d) = ends res (taken 0x31 tag d)) :
    AceWritten c res.status res.r0 res.r1 d (admin 0x31 c [] (powerBody c) d) ∧
      HostOnly d (admin 0x31 c [] (powerBody c) d) := by
  obtain ⟨ace, frame⟩ := admin_ends (buf := []) takes room runs rfl (taken_canIssue ..) (taken_mps ..)
  exact ⟨ace, (hostOnly_taken ..).trans frame⟩

/-- All three rows of POWER_REQUEST run the same body. -/
theorem completes_powerRequest {c : AdmCmd} {s : State} {P : Dev → Prop} (h : P (admin 0x31 c [] (powerBody c) s.dev)) :
    Completes (.powerRequestActive c) s P ∧ Completes (.powerRequestListen c) s P ∧
      Completes (.powerRequestStandby c) s P :=
  ⟨completes_of_exec_eq_act (f := admin 0x31 c [] (powerBody c)) rfl h,
    completes_of_exec_eq_act (f := admin 0x31 c [] (powerBody c)) rfl h,
    completes_of_exec_eq_act (f := admin 0x31 c [] (powerBody c)) rfl h⟩

theorem powerRequest_listens {v : Bool} {tag arg : Nat} {c : AdmCmd} {d : Dev} (takes : Takes 0x31 c tag d) (room : AceRoom d)
    (runs : powerBody c (hostRun 0x31 c) (taken 0x31 tag d) = ends (okWith arg 0) (listenSet v (taken 0x31 tag d))) :
    let e := admin 0x31 c [] (powerBody c) d
    AceWritten c 0 arg 0 d e ∧ e.pwr.listenOk = v ∧
      (d.pwr.standbyPend = false → HostOnly { d with pwr.listenOk := v, pwr.phyLdo := d.pwr.vin } e) ∧
      (d.pwr.standbyPend = true →
        HostOnly { d with
          pwr := { d.pwr with listenOk := v, phyLdo := d.pwr.vin, standbyPend := false, heldPces := [] }
          epoch.allFence := false, cas.standbyAfterRsp := false, ports := e.ports } e ∧
        (tblSorted d.pwr.heldPces = true → (∀ x ∈ d.pwr.heldPces, x.1 < 4) →
          ∀ x ∈ d.pwr.heldPces, liveOf e x.1 = x.2)) := by
  intro e
  obtain ⟨issue, firmware, healthy⟩ := taken_powerRequest takes room
  have ht : HostOnly d (taken 0x31 tag d) := hostOnly_taken ..
  cases pending : d.pwr.standbyPend
  case false =>
    have idle : (taken 0x31 tag d).pwr.standbyPend = false := pending
    have set := listenSet_idle (v := v) issue firmware idle
    obtain ⟨ace, frame⟩ := powerRequest_ends takes room runs (g := listenSet v (taken 0x31 tag d)) rfl
      (by rw [set]) (by rw [set]) (by rw [set]; exact taken_err ..) (by rw [set]; rfl)
    rw [set] at frame
    have frame : HostOnly { d with pwr.listenOk := v, pwr.phyLdo := d.pwr.vin } e := frame
    refine ⟨ace, ?_, fun _ => frame, fun h => nomatch h⟩
    rw [show e = _ from frame]
  case true =>
    have held : (taken 0x31 tag d).pwr.standbyPend = true := pending
    have set := listenSet_pending (v := v) issue firmware held
    obtain ⟨ace, frame⟩ := powerRequest_ends takes room runs set rfl rfl (taken_err ..) rfl
    have live : ∀ k, liveNow e k = liveNow (listenSet v (taken 0x31 tag d)) k := fun k => by
      rw [show e = _ from frame]; rfl
    have start : HostOnly
        { d with
          pwr := { d.pwr with listenOk := v, phyLdo := d.pwr.vin, standbyPend := false, heldPces := [] }
          epoch.allFence := false, cas.standbyAfterRsp := false }
        { standbyDropped (taken 0x31 tag d) with pwr.listenOk := v, pwr.phyLdo := (taken 0x31 tag d).pwr.vin } := by
      rw [standbyDropped, taken_err, healthy, show taken 0x31 tag d = _ from ht]
    have frame := start.of_ports set frame
    refine ⟨ace, ?_, (nomatch ·), fun _ => ⟨frame, fun sorted below x hx => ?_⟩⟩
    · rw [show e = _ from frame]
    · have nothing : e.pwr.heldPces = [] := by rw [show e = _ from frame]
      rw [liveOf_of_nothingHeld nothing, live, liveNow_listenSet issue firmware held]
      exact liveNow_cancelStandby (d := { taken 0x31 tag d with pwr.listenOk := v }) held sorted below x hx

theorem powerBody_standby {c : AdmCmd} {r : AdmRun} {d : Dev} (arg : bitsOf c.arg0.toNat 0 2 = 2) :
    powerBody c r d = unlessBusy standbyBody r d := by
  rw [powerBody, arg]
  rfl

/-- Settles O9: without pending STANDBY the device does not listen while its link carries requests, with it the held PCEs
come back port by port. BUSY comes before the check of R464, by the model's order (log entry 43); ARG0 3 by R463. -/
theorem powerRequestSetsListenOrPendsStandby : Obligations.PowerRequestSetsListenOrPendsStandby := by
  intro s c tag arg harg takes room
  have ht : HostOnly s.dev (taken 0x31 tag s.dev) := hostOnly_taken ..
  refine ⟨fun h => completes_powerRequest ?_, fun h => completes_powerRequest ?_,
    fun h busy => completes_powerRequest ?_, fun h free unsealed => completes_powerRequest ?_,
    fun h free done idle => completes_powerRequest ?_, fun h free done pending => completes_powerRequest ?_,
    fun h => completes_powerRequest ?_⟩
  · exact powerRequest_listens takes room (by rw [powerBody, ← harg, h]; rfl)
  · exact powerRequest_listens takes room (by rw [powerBody, ← harg, h]; rfl)
  · exact powerRequest_refused takes room
      ((powerBody_standby (harg ▸ h)).trans (unlessBusy_busy (ht.busyNow_eq.trans busy)))
  · refine powerRequest_refused (res := failWith 0x91) takes room ?_
    rw [powerBody_standby (harg ▸ h), unlessBusy_free (ht.busyNow_eq.trans free), standbyBody, ht.journalSealed_eq, unsealed]
    rfl
  · have runs : powerBody c (hostRun 0x31 c) (taken 0x31 tag s.dev) =
        ends (okWith 2 0) (standbyPending (taken 0x31 tag s.dev)) := by
      have idle : (taken 0x31 tag s.dev).pwr.standbyPend = false := idle
      rw [powerBody_standby (harg ▸ h), unlessBusy_free (ht.busyNow_eq.trans free), standbyBody, ht.journalSealed_eq, done, idle]
      rfl
    obtain ⟨ace, frame⟩ := powerRequest_ends takes room runs (portsOnly_standbyPending _) rfl rfl (taken_err ..) rfl
    have start : HostOnly
        { s.dev with
          pwr.standbyPend := true, pwr.heldPces := enabledPces s.dev, epoch.allFence := true, cas.standbyAfterRsp := false }
        { taken 0x31 tag s.dev with
          epoch.allFence := true, pwr.standbyPend := true, pwr.heldPces := enabledPces (taken 0x31 tag s.dev)
          cas.standbyAfterRsp := false } := by
      rw [ht.enabledPces_eq, show taken 0x31 tag s.dev = _ from ht]
    refine ⟨ace, start.of_ports (portsOnly_standbyPending _) frame, fun nothing k hk => ?_⟩
    · refine Eq.trans ?_ (liveNow_standbyPending (d := taken 0x31 tag s.dev) hk nothing)
      rw [show admin 0x31 c [] (powerBody c) s.dev = _ from frame]
      rfl
  · refine powerRequest_refused (res := okWith 2 0) takes room ?_
    have pending : (taken 0x31 tag s.dev).pwr.standbyPend = true := pending
    rw [powerBody_standby (harg ▸ h), unlessBusy_free (ht.busyNow_eq.trans free), standbyBody, ht.journalSealed_eq, done, pending]
    rfl
  · exact powerRequest_refused (res := failWith 0x02) takes room (by rw [powerBody, ← harg, h]; rfl)

end Sys2Proof.Machine
end

section
/-!
The parts of the device, and what an operation leaves alone: `SameBut S d e` says that nothing but the parts of `S`
differs between two devices.
-/

namespace Sys2Proof.Machine

/-- The parts of the device. `timers` is of the time base its timers alone, `reads` of the link its outstanding reads
alone, `peers` of the ring's state its peers alone, `err` of the error state everything but the fatal condition. -/
inductive Part where
  | pwr | tb | timers | boot | regs | link | reads | out | adm | rings | sweep | stage | bind | epoch | ports | queues
  | tier | rep | ecc | fuse | keys | spdm | fatal | err | jtag | cas | peers | free
deriving DecidableEq

/-- The device with the parts of `S` cleared. -/
def mask (S : List Part) (d : Dev) : Dev :=
  { pwr := if .pwr ∈ S then Dev.reset.pwr else d.pwr
    tb := if .tb ∈ S then Dev.reset.tb else if .timers ∈ S then { d.tb with timers := [] } else d.tb
    boot := if .boot ∈ S then Dev.reset.boot else d.boot
    regs := if .regs ∈ S then Dev.reset.regs else d.regs
    link := if .link ∈ S then Dev.reset.link else if .reads ∈ S then { d.link with reads := [] } else d.link
    out := if .out ∈ S then Dev.reset.out else d.out
    adm := if .adm ∈ S then Dev.reset.adm else d.adm
    rings := if .rings ∈ S then Dev.reset.rings else d.rings
    sweep := if .sweep ∈ S then Dev.reset.sweep else d.sweep
    stage := if .stage ∈ S then Dev.reset.stage else d.stage
    bind := if .bind ∈ S then Dev.reset.bind else d.bind
    epoch := if .epoch ∈ S then Dev.reset.epoch else d.epoch
    ports := if .ports ∈ S then Dev.reset.ports else d.ports
    queues := if .queues ∈ S then Dev.reset.queues else d.queues
    tier := if .tier ∈ S then Dev.reset.tier else d.tier
    rep := if .rep ∈ S then Dev.reset.rep else d.rep
    ecc := if .ecc ∈ S then Dev.reset.ecc else d.ecc
    fuse := if .fuse ∈ S then Dev.reset.fuse else d.fuse
    keys := if .keys ∈ S then Dev.reset.keys else d.keys
    spdm := if .spdm ∈ S then Dev.reset.spdm else d.spdm
    err := if .fatal ∈ S then Dev.reset.err else if .err ∈ S then { Dev.reset.err with fatal := d.err.fatal } else d.err
    jtag := if .jtag ∈ S then Dev.reset.jtag else d.jtag
    cas := if .cas ∈ S then Dev.reset.cas else if .peers ∈ S then { d.cas with peers := [] } else d.cas
    free := if .free ∈ S then Dev.reset.free else d.free }

/-- The device `d` with the parts of `S` as in `e`. -/
def pick (S : List Part) (d e : Dev) : Dev :=
  { pwr := if .pwr ∈ S then e.pwr else d.pwr
    tb := if .tb ∈ S then e.tb else if .timers ∈ S then { d.tb with timers := e.tb.timers } else d.tb
    boot := if .boot ∈ S then e.boot else d.boot
    regs := if .regs ∈ S then e.regs else d.regs
    link := if .link ∈ S then e.link else if .reads ∈ S then { d.link with reads := e.link.reads } else d.link
    out := if .out ∈ S then e.out else d.out
    adm := if .adm ∈ S then e.adm else d.adm
    rings := if .rings ∈ S then e.rings else d.rings
    sweep := if .sweep ∈ S then e.sweep else d.sweep
    stage := if .stage ∈ S then e.stage else d.stage
    bind := if .bind ∈ S then e.bind else d.bind
    epoch := if .epoch ∈ S then e.epoch else d.epoch
    ports := if .ports ∈ S then e.ports else d.ports
    queues := if .queues ∈ S then e.queues else d.queues
    tier := if .tier ∈ S then e.tier else d.tier
    rep := if .rep ∈ S then e.rep else d.rep
    ecc := if .ecc ∈ S then e.ecc else d.ecc
    fuse := if .fuse ∈ S then e.fuse else d.fuse
    keys := if .keys ∈ S then e.keys else d.keys
    spdm := if .spdm ∈ S then e.spdm else d.spdm
    err := if .fatal ∈ S then e.err else if .err ∈ S then { e.err with fatal := d.err.fatal } else d.err
    jtag := if .jtag ∈ S then e.jtag else d.jtag
    cas := if .cas ∈ S then e.cas else if .peers ∈ S then { d.cas with peers := e.cas.peers } else d.cas
    free := if .free ∈ S then e.free else d.free }

/-- Nothing but the parts of `S` differs. -/
abbrev SameBut (S : List Part) (d e : Dev) : Prop := mask S e = mask S d

theorem pick_self (S : List Part) (d : Dev) : pick S d d = d := by
  simp [pick]

theorem pick_mask (S : List Part) (d e : Dev) : pick S (mask S d) e = pick S d e := by
  simp only [pick, mask, Dev.mk.injEq]
  repeat' apply And.intro
  all_goals split_ifs <;> rfl

/-- What has changed: the parts of `S` alone. -/
theorem SameBut.eq {S : List Part} {d e : Dev} (h : SameBut S d e) : e = pick S d e := by
  have := congrArg (pick S · e) h
  simpa only [pick_mask, pick_self] using this

theorem sameBut_pick (S : List Part) (d e : Dev) : SameBut S d (pick S d e) := by
  simp only [SameBut, pick, mask, Dev.mk.injEq]
  repeat' apply And.intro
  all_goals split_ifs <;> rfl

theorem SameBut.of_eq {S : List Part} {d e : Dev} (h : e = pick S d e) : SameBut S d e := by
  rw [h]
  exact sameBut_pick ..

theorem SameBut.trans {S : List Part} {a b c : Dev} (h : SameBut S a b) (k : SameBut S b c) : SameBut S a c := Eq.trans k h


/-! ### One part set -/

section
variable {S : List Part} (d : Dev)

@[simp] theorem mask_set_pwr (h : .pwr ∈ S) (x) : mask S { d with pwr := x } = mask S d := by simp [mask, h]

@[simp] theorem mask_set_tb (h : .tb ∈ S) (x) : mask S { d with tb := x } = mask S d := by simp [mask, h]

@[simp] theorem mask_set_boot (h : .boot ∈ S) (x) : mask S { d with boot := x } = mask S d := by simp [mask, h]

@[simp] theorem mask_set_regs (h : .regs ∈ S) (x) : mask S { d with regs := x } = mask S d := by simp [mask, h]

@[simp] theorem mask_set_link (h : .link ∈ S) (x) : mask S { d with link := x } = mask S d := by simp [mask, h]

@[simp] theorem mask_set_out (h : .out ∈ S) (x) : mask S { d with out := x } = mask S d := by simp [mask, h]

@[simp] theorem mask_set_adm (h : .adm ∈ S) (x) : mask S { d with adm := x } = mask S d := by simp [mask, h]

@[simp] theorem mask_set_rings (h : .rings ∈ S) (x) : mask S { d with rings := x } = mask S d := by simp [mask, h]

@[simp] theorem mask_set_sweep (h : .sweep ∈ S) (x) : mask S { d with sweep := x } = mask S d := by simp [mask, h]

@[simp] theorem mask_set_stage (h : .stage ∈ S) (x) : mask S { d with stage := x } = mask S d := by simp [mask, h]

@[simp] theorem mask_set_bind (h : .bind ∈ S) (x) : mask S { d with bind := x } = mask S d := by simp [mask, h]

@[simp] theorem mask_set_epoch (h : .epoch ∈ S) (x) : mask S { d with epoch := x } = mask S d := by simp [mask, h]

@[simp] theorem mask_set_ports (h : .ports ∈ S) (x) : mask S { d with ports := x } = mask S d := by simp [mask, h]

@[simp] theorem mask_set_queues (h : .queues ∈ S) (x) : mask S { d with queues := x } = mask S d := by simp [mask, h]

@[simp] theorem mask_set_tier (h : .tier ∈ S) (x) : mask S { d with tier := x } = mask S d := by simp [mask, h]

@[simp] theorem mask_set_rep (h : .rep ∈ S) (x) : mask S { d with rep := x } = mask S d := by simp [mask, h]

@[simp] theorem mask_set_ecc (h : .ecc ∈ S) (x) : mask S { d with ecc := x } = mask S d := by simp [mask, h]

@[simp] theorem mask_set_fuse (h : .fuse ∈ S) (x) : mask S { d with fuse := x } = mask S d := by simp [mask, h]

@[simp] theorem mask_set_keys (h : .keys ∈ S) (x) : mask S { d with keys := x } = mask S d := by simp [mask, h]

@[simp] theorem mask_set_spdm (h : .spdm ∈ S) (x) : mask S { d with spdm := x } = mask S d := by simp [mask, h]

@[simp] theorem mask_set_jtag (h : .jtag ∈ S) (x) : mask S { d with jtag := x } = mask S d := by simp [mask, h]

@[simp] theorem mask_set_cas (h : .cas ∈ S) (x) : mask S { d with cas := x } = mask S d := by simp [mask, h]

@[simp] theorem mask_set_free (h : .free ∈ S) (x) : mask S { d with free := x } = mask S d := by simp [mask, h]

@[simp] theorem mask_set_timers (h : .timers ∈ S) (x) : mask S { d with tb.timers := x } = mask S d := by simp [mask, h]

@[simp] theorem mask_set_reads (h : .reads ∈ S) (x) : mask S { d with link.reads := x } = mask S d := by simp [mask, h]

@[simp] theorem mask_set_peers (h : .peers ∈ S) (x) : mask S { d with cas.peers := x } = mask S d := by simp [mask, h]

end

theorem mask_foldl {S : List Part} {β : Type} {f : Dev → β → Dev} (keeps : ∀ d x, mask S (f d x) = mask S d) (l : List β) :
    ∀ d, mask S (l.foldl f d) = mask S d := by
  induction l with
  | nil => intro d; rfl
  | cons x l ih => intro d; exact (ih _).trans (keeps d x)

theorem mask_ite {S : List Part} {p : Prop} [Decidable p] {a b d : Dev} (ha : mask S a = mask S d) (hb : mask S b = mask S d) :
    mask S (if p then a else b) = mask S d := by
  split
  · exact ha
  · exact hb

/-! ### Wider sets, and the host side -/

theorem SameBut.mono {S T : List Part} {d e : Dev} (h : SameBut S d e) (sub : S ⊆ T) : SameBut T d e := by
  have outside : ∀ p, p ∉ T → p ∉ S := fun p hT hS => hT (sub hS)
  rw [h.eq]
  simp only [SameBut, mask, pick, Dev.mk.injEq]
  repeat' apply And.intro
  all_goals split_ifs <;> grind

/-- The parts of the host side. -/
def hostParts : List Part := [.out, .link, .tb, .fatal, .adm, .sweep]

theorem HostOnly.sameBut {d e : Dev} (h : HostOnly d e) : SameBut hostParts d e := SameBut.of_eq h

theorem SameBut.hostOnly {d e : Dev} (h : SameBut hostParts d e) : HostOnly d e := h.eq

/-! ### A part outside the set -/

section
variable {S : List Part} {d e : Dev} (h : SameBut S d e)
include h

theorem SameBut.boot_eq (p : .boot ∉ S) : e.boot = d.boot := by rw [h.eq]; exact if_neg p

theorem SameBut.regs_eq (p : .regs ∉ S) : e.regs = d.regs := by rw [h.eq]; exact if_neg p

theorem SameBut.adm_eq (p : .adm ∉ S) : e.adm = d.adm := by rw [h.eq]; exact if_neg p

theorem SameBut.rings_eq (p : .rings ∉ S) : e.rings = d.rings := by rw [h.eq]; exact if_neg p

theorem SameBut.sweep_eq (p : .sweep ∉ S) : e.sweep = d.sweep := by rw [h.eq]; exact if_neg p

theorem SameBut.stage_eq (p : .stage ∉ S) : e.stage = d.stage := by rw [h.eq]; exact if_neg p

theorem SameBut.bind_eq (p : .bind ∉ S) : e.bind = d.bind := by rw [h.eq]; exact if_neg p

theorem SameBut.epoch_eq (p : .epoch ∉ S) : e.epoch = d.epoch := by rw [h.eq]; exact if_neg p

theorem SameBut.ports_eq (p : .ports ∉ S) : e.ports = d.ports := by rw [h.eq]; exact if_neg p

theorem SameBut.queues_eq (p : .queues ∉ S) : e.queues = d.queues := by rw [h.eq]; exact if_neg p

theorem SameBut.tier_eq (p : .tier ∉ S) : e.tier = d.tier := by rw [h.eq]; exact if_neg p

theorem SameBut.rep_eq (p : .rep ∉ S) : e.rep = d.rep := by rw [h.eq]; exact if_neg p

theorem SameBut.ecc_eq (p : .ecc ∉ S) : e.ecc = d.ecc := by rw [h.eq]; exact if_neg p

theorem SameBut.fuse_eq (p : .fuse ∉ S) : e.fuse = d.fuse := by rw [h.eq]; exact if_neg p

theorem SameBut.keys_eq (p : .keys ∉ S) : e.keys = d.keys := by rw [h.eq]; exact if_neg p

theorem SameBut.spdm_eq (p : .spdm ∉ S) : e.spdm = d.spdm := by rw [h.eq]; exact if_neg p

theorem SameBut.jtag_eq (p : .jtag ∉ S) : e.jtag = d.jtag := by rw [h.eq]; exact if_neg p

theorem SameBut.cas_eq (p : .cas ∉ S) (q : .peers ∉ S) : e.cas = d.cas := by
  rw [h.eq]
  exact (if_neg p).trans (if_neg q)

theorem SameBut.casApart_eq (p : .cas ∉ S) : ∃ x, e.cas = { d.cas with peers := x } := by
  rw [h.eq]
  by_cases q : .peers ∈ S
  · exact ⟨_, (if_neg p).trans (if_pos q)⟩
  · exact ⟨d.cas.peers, (if_neg p).trans (if_neg q)⟩

theorem SameBut.free_eq (p : .free ∉ S) : e.free = d.free := by rw [h.eq]; exact if_neg p

theorem SameBut.pwr_eq (p : .pwr ∉ S) : e.pwr = d.pwr := by rw [h.eq]; exact if_neg p

theorem SameBut.out_eq (p : .out ∉ S) : e.out = d.out := by rw [h.eq]; exact if_neg p

theorem SameBut.canIssue_eq (pwr : .pwr ∉ S) (link : .link ∉ S) (fatal : .fatal ∉ S) : canIssue e = canIssue d := by
  rw [h.eq]
  by_cases reads : .reads ∈ S <;> by_cases err : .err ∈ S <;>
    simp [pick, canIssue, dmaAllowed, pwr, link, fatal, reads, err]

theorem SameBut.mps_eq (link : .link ∉ S) : e.link.mps = d.link.mps := by
  rw [h.eq]
  by_cases reads : .reads ∈ S <;> simp [pick, link, reads]

end

end Sys2Proof.Machine
end

section
/-!
What each operation leaves alone: the parts of the device that it changes at most.
-/

namespace Sys2Proof.Machine

@[simp] theorem mask_startTimer {S : List Part} (htimers : .timers ∈ S) (id : TimerId) (d : Dev) :
    mask S (startTimer id d) = mask S d := by simp [startTimer, htimers]

@[simp] theorem mask_stopTimer {S : List Part} (htimers : .timers ∈ S) (id : TimerId) (d : Dev) :
    mask S (stopTimer id d) = mask S d := by simp [stopTimer, htimers]

@[simp] theorem mask_pauseTimers {S : List Part} (htimers : .timers ∈ S) (p : TimerId → Bool) (d : Dev) :
    mask S (pauseTimers p d) = mask S d := by
  simp only [pauseTimers, mask_set_timers, htimers]

@[simp] theorem mask_resumeTimers {S : List Part} (htimers : .timers ∈ S) (p : TimerId → Bool) (d : Dev) :
    mask S (resumeTimers p d) = mask S d := by
  simp only [resumeTimers, mask_set_timers, htimers]

@[simp] theorem mask_emit {S : List Part} (hout : .out ∈ S) (m : OutMsg) (d : Dev) :
    mask S (emit m d) = mask S d := by simp [emit, hout]

@[simp] theorem mask_emitFlit {S : List Part} (hout : .out ∈ S) (hpeers : .peers ∈ S) (type dst seq : Nat)
    (payload : Bytes) (d : Dev) :
    mask S (emitFlit type dst seq payload d) = mask S d := by
  unfold emitFlit
  split <;> simp only [mask_emit, mask_set_peers, hout, hpeers]

@[simp] theorem mask_emitHost {S : List Part} (hlink : .link ∈ S) (hout : .out ∈ S) (m : OutMsg) (d : Dev) :
    mask S (emitHost m d) = mask S d := by
  unfold emitHost
  split_ifs <;> simp only [mask_emit, mask_set_link, hlink, hout]

@[simp] theorem mask_sendLtr {S : List Part} (hlink : .link ∈ S) (hout : .out ∈ S) (us : Nat) (d : Dev) :
    mask S (sendLtr us d) = mask S d := by
  unfold sendLtr
  split <;> simp [hlink, hout]

@[simp] theorem mask_startWork {S : List Part} (hlink : .link ∈ S) (hout : .out ∈ S) (d : Dev) :
    mask S (startWork d) = mask S d := by
  unfold startWork
  split <;> simp only [mask_sendLtr, mask_set_link, hlink, hout]

@[simp] theorem mask_memWrite {S : List Part} (hlink : .link ∈ S) (hout : .out ∈ S) (addr : Nat) (data : Bytes)
    (ro : Bool) (d : Dev) :
    mask S (memWrite addr data ro d) = mask S d := by simp [memWrite, mask_foldl, hlink, hout]

@[simp] theorem mask_memReadOne {S : List Part} (htimers : .timers ∈ S) (hlink : .link ∈ S) (hout : .out ∈ S)
    (what : ReadFor) (addr len : Nat) (d : Dev) :
    mask S (memReadOne what addr len d) = mask S d := by
  simp only [memReadOne, mask_startTimer, mask_emit, mask_startWork, mask_set_link, mask_set_reads, htimers, hlink, hout]

@[simp] theorem mask_memRead {S : List Part} (htimers : .timers ∈ S) (hlink : .link ∈ S) (hout : .out ∈ S)
    (what : ReadFor) (addr len : Nat) (d : Dev) :
    mask S (memRead what addr len d) = mask S d := by simp [memRead, mask_foldl, htimers, hlink, hout]

@[simp] theorem mask_msix {S : List Part} (hlink : .link ∈ S) (hout : .out ∈ S) (v : Nat) (d : Dev) :
    mask S (msix v d) = mask S d := by
  unfold msix
  split_ifs <;> simp only [mask_emitHost, mask_set_link, hlink, hout]

@[simp] theorem mask_logRec {S : List Part} (herr : .err ∈ S) (kind code object cid opcode result1 : Nat) (d : Dev) :
    mask S (logRec kind code object cid opcode result1 d) = mask S d := by simp [logRec, mask, herr]

@[simp] theorem mask_capture {S : List Part} (hlink : .link ∈ S) (hout : .out ∈ S) (herr : .err ∈ S) (fatal : Bool)
    (code src obj : Nat) (d : Dev) : mask S (capture fatal code src obj d) = mask S d := by
  have counted : (countErr code d.err).fatal = d.err.fatal := by
    unfold countErr
    split_ifs <;> rfl
  unfold capture
  extract_lets +onlyGivenNames seq r p e d1 d2
  have h1 : mask S d1 = mask S d := by simp [d1, e, mask, herr, counted]
  have h2 : mask S d2 = mask S d1 := mask_ite (mask_msix hlink hout ..) rfl
  exact (mask_ite (mask_logRec herr ..) rfl).trans (h2.trans h1)

@[simp] theorem mask_recordErr {S : List Part} (hlink : .link ∈ S) (hout : .out ∈ S) (herr : .err ∈ S)
    (code src obj : Nat) (d : Dev) :
    mask S (recordErr code src obj d) = mask S d := by
  simp only [recordErr, mask_capture, hlink, hout, herr]

@[simp] theorem mask_startSweep {S : List Part} (htimers : .timers ∈ S) (hlink : .link ∈ S) (hout : .out ∈ S)
    (hsweep : .sweep ∈ S) (timed kicked : Bool) (d : Dev) :
    mask S (startSweep timed kicked d) = mask S d := by
  unfold startSweep
  exact (mask_foldl (fun d x => by simp [htimers, hlink, hout, hsweep]) _ _).trans (by simp [htimers, hlink, hout, hsweep])

@[simp] theorem mask_triggerSweep {S : List Part} (htimers : .timers ∈ S) (hlink : .link ∈ S) (hout : .out ∈ S)
    (hsweep : .sweep ∈ S) (timed kicked : Bool) (d : Dev) : mask S (triggerSweep timed kicked d) = mask S d := by
  unfold triggerSweep
  split
  · rfl
  · split
    · simp [mask, hsweep, hlink]
    · exact mask_startSweep htimers hlink hout hsweep ..

@[simp] theorem mask_armSweep {S : List Part} (htimers : .timers ∈ S) (hlink : .link ∈ S) (hout : .out ∈ S)
    (hsweep : .sweep ∈ S) (d : Dev) : mask S (armSweep d) = mask S d := by
  unfold armSweep
  extract_lets +onlyGivenNames since
  split
  · refine (mask_sendLtr hlink hout ..).trans ((mask_stopTimer htimers ..).trans ?_)
    simp [mask, hlink, hsweep]
  · exact (mask_startTimer htimers ..).trans (mask_set_sweep d hsweep _)

@[simp] theorem mask_activity {S : List Part} (htimers : .timers ∈ S) (hlink : .link ∈ S) (hout : .out ∈ S)
    (hsweep : .sweep ∈ S) (d : Dev) :
    mask S (activity d) = mask S d := by simp [activity, htimers, hlink, hout, hsweep]

@[simp] theorem mask_putCe {S : List Part} (htimers : .timers ∈ S) (hlink : .link ∈ S) (hout : .out ∈ S)
    (hrings : .rings ∈ S) (hsweep : .sweep ∈ S) (c : Nat) (r : CompRing) (cookie lenStatus hi : Nat) (d : Dev) :
    mask S (putCe c r cookie lenStatus hi d) = mask S d := by
  unfold putCe
  simp only []
  split_ifs <;> simp only [mask_startTimer, mask_stopTimer, mask_memWrite, mask_msix, mask_triggerSweep, mask_activity, mask_set_rings, htimers, hlink, hout, hrings, hsweep]

@[simp] theorem mask_postCe {S : List Part} (htimers : .timers ∈ S) (hlink : .link ∈ S) (hout : .out ∈ S)
    (hrings : .rings ∈ S) (hsweep : .sweep ∈ S) (c cookie lenStatus hi : Nat) (d : Dev) :
    mask S (postCe c cookie lenStatus hi d) = mask S d := by
  unfold postCe
  split
  · rfl
  · exact mask_ite (mask_set_rings d hrings _) (mask_putCe htimers hlink hout hrings hsweep ..)

theorem mask_askLink {S : List Part} (hlink : .link ∈ S) {f : Dev → Dev} (keeps : ∀ d, mask S (f d) = mask S d)
    (d : Dev) :
    mask S (askLink f d) = mask S d := by
  unfold askLink
  split
  · exact (mask_set_link _ hlink _).trans (keeps d)
  · exact keeps d

@[simp] theorem mask_fetchAdmin {S : List Part} (htimers : .timers ∈ S) (hlink : .link ∈ S) (hout : .out ∈ S)
    (hadm : .adm ∈ S) (d : Dev) :
    mask S (fetchAdmin d) = mask S d := by
  unfold fetchAdmin
  split <;> simp only [mask_startTimer, mask_memReadOne, mask_set_adm, htimers, hlink, hout, hadm]

@[simp] theorem mask_fetchNext {S : List Part} (htimers : .timers ∈ S) (hlink : .link ∈ S) (hout : .out ∈ S)
    (hadm : .adm ∈ S) (d : Dev) : mask S (fetchNext d) = mask S d :=
  mask_askLink hlink (mask_fetchAdmin htimers hlink hout hadm) d

@[simp] theorem mask_writeAce {S : List Part} (htimers : .timers ∈ S) (hlink : .link ∈ S) (hout : .out ∈ S)
    (hadm : .adm ∈ S) (hsweep : .sweep ∈ S) (cid : BitVec 16) (status r0 r1 : Nat) (d : Dev) :
    mask S (writeAce cid status r0 r1 d) = mask S d := by
  simp only [writeAce, mask_memWrite, mask_msix, mask_triggerSweep, mask_activity, mask_set_adm, htimers, hlink, hout, hadm, hsweep]

@[simp] theorem mask_postAce {S : List Part} (htimers : .timers ∈ S) (hlink : .link ∈ S) (hout : .out ∈ S)
    (hadm : .adm ∈ S) (hsweep : .sweep ∈ S) (cid : BitVec 16) (status r0 r1 : Nat) (d : Dev) :
    mask S (postAce cid status r0 r1 d) = mask S d := by
  have stopped := mask_stopTimer htimers .admin d
  unfold postAce
  exact mask_ite ((mask_set_adm _ hadm _).trans stopped)
    ((mask_fetchNext htimers hlink hout hadm _).trans
      ((mask_writeAce htimers hlink hout hadm hsweep ..).trans stopped))

@[simp] theorem mask_putQueue {S : List Part} (hqueues : .queues ∈ S) (qid : Nat) (q : Queue) (d : Dev) :
    mask S (putQueue qid q d) = mask S d := by simp [putQueue, hqueues]

@[simp] theorem mask_onQueue {S : List Part} (hqueues : .queues ∈ S) (qid : Nat) (f : Queue → Queue) (d : Dev) :
    mask S (onQueue qid f d) = mask S d := by simp [onQueue, hqueues]

@[simp] theorem mask_stopWindows {S : List Part} (htimers : .timers ∈ S) (d : Dev) :
    mask S (stopWindows d) = mask S d := by
  simp only [stopWindows, mask_stopTimer, htimers]

@[simp] theorem mask_govRefresh {S : List Part} (htimers : .timers ∈ S) (d : Dev) :
    mask S (govRefresh d) = mask S d := by
  unfold govRefresh
  simp only []
  split_ifs <;> simp only [mask_startTimer, mask_stopTimer, mask_stopWindows, htimers]

@[simp] theorem mask_govTrack {S : List Part} (htimers : .timers ∈ S) (d : Dev) :
    mask S (govTrack d) = mask S d := by
  unfold govTrack
  split <;> simp only [mask_govRefresh, htimers]

@[simp] theorem mask_addWear {S : List Part} (htier : .tier ∈ S) (seg : Nat) (d : Dev) :
    mask S (addWear seg d) = mask S d := by
  simp only [addWear, mask_set_tier, htier]

@[simp] theorem mask_writeWearCopy {S : List Part} (htier : .tier ∈ S) (d : Dev) :
    mask S (writeWearCopy d) = mask S d := by simp [writeWearCopy, mask_foldl, htier]

@[simp] theorem mask_countProgram {S : List Part} (htier : .tier ∈ S) (seg : Nat) (d : Dev) :
    mask S (countProgram seg d) = mask S d := by
  unfold countProgram
  simp only []
  split <;> simp only [mask_addWear, mask_writeWearCopy, htier]

@[simp] theorem mask_writeImage {S : List Part} (hepoch : .epoch ∈ S) (hqueues : .queues ∈ S) (htier : .tier ∈ S)
    (d : Dev) : mask S (writeImage d) = mask S d := by
  have written (e : Dev) (t : Tier) (p : Epoch) (q : Tbl Queue) :
      mask S { e with tier := t, epoch := p, queues := q } = mask S e := by simp [mask, hepoch, hqueues, htier]
  have counted (l : List Nat) (first : Nat) (d : Dev) :
      mask S (l.foldl (fun d i => countProgram (first + i) d) d) = mask S d :=
    mask_foldl (fun d i => mask_countProgram htier ..) l d
  simp only [writeImage, written, counted]

@[simp] theorem mask_freeReleased {S : List Part} (htier : .tier ∈ S) (recs : List JRec) (d : Dev) :
    mask S (freeReleased recs d) = mask S d := by
  refine mask_foldl (fun d r => ?_) _ d
  split
  · split
    · exact mask_set_tier d htier _
    · rfl
  · rfl

@[simp] theorem mask_flushJournal {S : List Part} (htimers : .timers ∈ S) (hepoch : .epoch ∈ S)
    (hqueues : .queues ∈ S) (htier : .tier ∈ S) (d : Dev) :
    mask S (flushJournal d) = mask S d := by
  unfold flushJournal
  simp only []
  split_ifs <;> simp only [mask_stopTimer, mask_countProgram, mask_writeImage, mask_freeReleased, mask_set_tier, htimers, hepoch, hqueues, htier]

@[simp] theorem mask_addRecord {S : List Part} (htimers : .timers ∈ S) (hepoch : .epoch ∈ S) (hqueues : .queues ∈ S)
    (htier : .tier ∈ S) (r : JRec) (d : Dev) :
    mask S (addRecord r d) = mask S d := by
  unfold addRecord
  simp only []
  split_ifs <;> simp only [mask_startTimer, mask_flushJournal, mask_set_tier, htimers, hepoch, hqueues, htier]

@[simp] theorem mask_writeUnseal {S : List Part} (htimers : .timers ∈ S) (hepoch : .epoch ∈ S)
    (hqueues : .queues ∈ S) (htier : .tier ∈ S) (d : Dev) :
    mask S (writeUnseal d) = mask S d := by
  unfold writeUnseal
  split <;> simp only [mask_flushJournal, mask_addRecord, htimers, hepoch, hqueues, htier]

@[simp] theorem mask_wipeNear {S : List Part} (hrep : .rep ∈ S) (n : Nat) (d : Dev) :
    mask S (wipeNear n d) = mask S d := by
  simp only [wipeNear, mask_set_rep, hrep]

@[simp] theorem mask_writeRepair {S : List Part} (htier : .tier ∈ S) (d : Dev) :
    mask S (writeRepair d) = mask S d := by
  unfold writeRepair
  split <;> simp only [mask_countProgram, htier]

@[simp] theorem mask_retireDeep {S : List Part} (hlink : .link ∈ S) (hout : .out ∈ S) (htier : .tier ∈ S)
    (hrep : .rep ∈ S) (herr : .err ∈ S) (seg : Nat) (d : Dev) : mask S (retireDeep seg d) = mask S d := by
  have retired (d : Dev) (t : Tier) (r : Rep) : mask S { d with tier := t, rep := r } = mask S d := by
    simp [mask, htier, hrep]
  unfold retireDeep
  extract_lets +onlyGivenNames d1 _ _ d2
  have h2 : mask S d2 = mask S d :=
    (mask_recordErr hlink hout herr ..).trans ((retired d1 _ _).trans (mask_writeRepair htier d))
  exact Eq.trans (mask_ite rfl (mask_ite (mask_set_tier d2 htier _)
    ((mask_recordErr hlink hout herr ..).trans (mask_set_tier d2 htier _)))) h2

@[simp] theorem mask_freeDeep {S : List Part} (htimers : .timers ∈ S) (hlink : .link ∈ S) (hout : .out ∈ S)
    (hepoch : .epoch ∈ S) (hqueues : .queues ∈ S) (htier : .tier ∈ S) (hrep : .rep ∈ S) (herr : .err ∈ S)
    (qid seg : Nat) (named : Bool) (d : Dev) :
    mask S (freeDeep qid seg named d) = mask S d := by
  unfold freeDeep
  split_ifs <;> simp only [mask_addRecord, mask_retireDeep, mask_set_tier, htimers, hlink, hout, hepoch, hqueues, htier, hrep, herr]

@[simp] theorem mask_sendItems {S : List Part} (htimers : .timers ∈ S) (hout : .out ∈ S) (hpeers : .peers ∈ S)
    (src : Option Producer) (node type : Nat) (payload : Bytes) (d : Dev) :
    mask S (sendItems src node type payload d) = mask S d := by
  unfold sendItems
  split
  · rfl
  · extract_lets +onlyGivenNames units used f
    split
    · rfl
    · split
      · extract_lets +onlyGivenNames _ d1 d2
        have h1 : mask S d1 = mask S d := mask_set_peers d hpeers _
        have h2 : mask S d2 = mask S d1 := mask_ite (mask_startTimer htimers ..) rfl
        exact (mask_emitFlit hout hpeers ..).trans (h2.trans h1)
      · exact mask_set_peers d hpeers _

@[simp] theorem mask_sendSeq {S : List Part} (htimers : .timers ∈ S) (hout : .out ∈ S) (hpeers : .peers ∈ S)
    (node type : Nat) (payload : Bytes) (d : Dev) :
    mask S (sendSeq node type payload d) = mask S d := by
  simp only [sendSeq, mask_sendItems, htimers, hout, hpeers]

@[simp] theorem mask_requestAbort {S : List Part} (hqueues : .queues ∈ S) (qid : Nat) (p : Producer) (d : Dev) :
    mask S (requestAbort qid p d) = mask S d := by simp [requestAbort, hqueues]

@[simp] theorem mask_onPeer {S : List Part} (hpeers : .peers ∈ S) (node : Nat) (f : Peer → Peer) (d : Dev) :
    mask S (onPeer node f d) = mask S d := by
  simp only [onPeer, mask_set_peers, hpeers]

@[simp] theorem mask_sendAbort {S : List Part} (htimers : .timers ∈ S) (hout : .out ∈ S) (hpeers : .peers ∈ S)
    (node qid : Nat) (d : Dev) :
    mask S (sendAbort node qid d) = mask S d := by
  unfold sendAbort
  simp only []
  split <;> simp only [mask_sendSeq, mask_onPeer, htimers, hout, hpeers]

@[simp] theorem mask_abortOwned {S : List Part} (htimers : .timers ∈ S) (hout : .out ∈ S) (hqueues : .queues ∈ S)
    (hpeers : .peers ∈ S) (p : Producer) (d : Dev) : mask S (abortOwned p d) = mask S d := by
  unfold abortOwned
  extract_lets +onlyGivenNames d1
  have h1 : mask S d1 = mask S d :=
    mask_foldl (fun d e => mask_ite (mask_requestAbort hqueues ..) rfl) _ d
  refine (mask_foldl (fun d e => ?_) _ d1).trans h1
  exact (mask_foldl (fun d o => mask_sendAbort htimers hout hpeers ..) _ _).trans (mask_onPeer hpeers ..)

@[simp] theorem mask_forgetDiscards {S : List Part} (hqueues : .queues ∈ S) (hpeers : .peers ∈ S) (p : Producer)
    (d : Dev) :
    mask S (forgetDiscards p d) = mask S d := by simp [forgetDiscards, mask, hqueues, hpeers]

@[simp] theorem mask_putFill {S : List Part} (hrings : .rings ∈ S) (f : Nat) (r : FillRing) (d : Dev) :
    mask S (putFill f r d) = mask S d := by simp [putFill, hrings]

@[simp] theorem mask_putDrain {S : List Part} (hrings : .rings ∈ S) (n : Nat) (r : DrainRing) (d : Dev) :
    mask S (putDrain n r d) = mask S d := by simp [putDrain, hrings]

@[simp] theorem mask_fetchFill {S : List Part} (htimers : .timers ∈ S) (hlink : .link ∈ S) (hout : .out ∈ S)
    (hrings : .rings ∈ S) (f : Nat) (d : Dev) :
    mask S (fetchFill f d) = mask S d := by
  unfold fetchFill
  repeat' split
  all_goals simp only [mask_memReadOne, mask_putFill, htimers, hlink, hout, hrings]

theorem mask_readFill {S : List Part} (htimers : .timers ∈ S) (hlink : .link ∈ S) (hout : .out ∈ S)
    (hrings : .rings ∈ S)
    (n f : Nat) : ∀ d, mask S (readFill n f d) = mask S d := by
  induction n with
  | zero => intro d; rfl
  | succ n ih =>
    intro d
    unfold readFill
    split
    · rfl
    · split
      · rfl
      · exact mask_ite ((ih _).trans ((mask_memReadOne htimers hlink hout ..).trans (mask_putFill hrings ..))) rfl

@[simp] theorem mask_fetchDrain {S : List Part} (htimers : .timers ∈ S) (hlink : .link ∈ S) (hout : .out ∈ S)
    (hrings : .rings ∈ S) (n : Nat) (d : Dev) :
    mask S (fetchDrain n d) = mask S d := by
  unfold fetchDrain
  repeat' split
  all_goals simp only [mask_memReadOne, mask_putDrain, htimers, hlink, hout, hrings]

@[simp] theorem mask_latchFill {S : List Part} (hrings : .rings ∈ S) (f : Nat) (d : Dev) :
    mask S (latchFill f d) = mask S d := by
  unfold latchFill
  split
  · rfl
  · split
    · exact mask_ite rfl (mask_putFill hrings ..)
    · rfl

@[simp] theorem mask_pumpRings {S : List Part} (htimers : .timers ∈ S) (hlink : .link ∈ S) (hout : .out ∈ S)
    (hrings : .rings ∈ S) (d : Dev) : mask S (pumpRings d) = mask S d := by
  unfold pumpRings
  exact (mask_foldl (fun d e => mask_fetchDrain htimers hlink hout hrings ..) _ _).trans
    (mask_foldl (fun d e => (mask_latchFill hrings ..).trans ((mask_readFill htimers hlink hout hrings ..).trans
      (mask_fetchFill htimers hlink hout hrings ..))) _ _)

@[simp] theorem mask_pump {S : List Part} (htimers : .timers ∈ S) (hlink : .link ∈ S) (hout : .out ∈ S)
    (hrings : .rings ∈ S) (d : Dev) : mask S (pump d) = mask S d :=
  mask_askLink hlink (mask_pumpRings htimers hlink hout hrings) d

@[simp] theorem mask_orphanReads {S : List Part} (hreads : .reads ∈ S) (w : ReadFor) (cookie : Nat) (d : Dev) :
    mask S (orphanReads w cookie d) = mask S d := by
  simp only [orphanReads, mask_set_reads, hreads]

@[simp] theorem mask_settlePauses {S : List Part} (htimers : .timers ∈ S) (d : Dev) :
    mask S (settlePauses d) = mask S d := by
  simp only [settlePauses, mask_pauseTimers, mask_resumeTimers, htimers]

@[simp] theorem mask_armDesc {S : List Part} (htimers : .timers ∈ S) (f : Nat) (d : Dev) :
    mask S (armDesc f d) = mask S d := by
  unfold armDesc
  repeat' split
  all_goals simp only [mask_startTimer, mask_settlePauses, htimers]

@[simp] theorem mask_finishFill {S : List Part} (htimers : .timers ∈ S) (hlink : .link ∈ S) (hreads : .reads ∈ S)
    (hout : .out ∈ S) (hrings : .rings ∈ S) (hsweep : .sweep ∈ S) (f status : Nat) (ragged : Bool) (d : Dev) :
    mask S (finishFill f status ragged d) = mask S d := by
  unfold finishFill
  repeat' split
  all_goals simp only [mask_stopTimer, mask_postCe, mask_putFill, mask_pump, mask_orphanReads, mask_armDesc, htimers, hlink, hreads, hout, hrings, hsweep]

@[simp] theorem mask_abortRingOn {S : List Part} (htimers : .timers ∈ S) (hout : .out ∈ S) (hqueues : .queues ∈ S)
    (hpeers : .peers ∈ S) (f qid : Nat) (d : Dev) :
    mask S (abortRingOn f qid d) = mask S d := by
  unfold abortRingOn
  simp only []
  split_ifs <;> simp only [mask_requestAbort, mask_onPeer, mask_sendAbort, htimers, hout, hqueues, hpeers]

@[simp] theorem mask_drainWaitCheck {S : List Part} (htimers : .timers ∈ S) (hqueues : .queues ∈ S) (qid : Nat)
    (d : Dev) :
    mask S (drainWaitCheck qid d) = mask S d := by
  unfold drainWaitCheck
  simp only []
  split
  all_goals try split
  all_goals simp [htimers, hqueues]

@[simp] theorem mask_logOutcome {S : List Part} (herr : .err ∈ S) (r : AdmRun) (res : AdmRes) (d : Dev) :
    mask S (logOutcome r res d) = mask S d := by
  unfold logOutcome
  split <;> simp only [mask_logRec, herr]

@[simp] theorem mask_answerRing {S : List Part} (htimers : .timers ∈ S) (hout : .out ∈ S) (hcas : .cas ∈ S)
    (hpeers : .peers ∈ S) (op node tag : Nat) (res : AdmRes) (d : Dev) :
    mask S (answerRing op node tag res d) = mask S d := by
  simp only [answerRing, mask_sendSeq, mask_set_cas, htimers, hout, hcas, hpeers]

@[simp] theorem mask_deliver {S : List Part} (htimers : .timers ∈ S) (hlink : .link ∈ S) (hout : .out ∈ S)
    (hadm : .adm ∈ S) (hsweep : .sweep ∈ S) (herr : .err ∈ S) (hcas : .cas ∈ S) (hpeers : .peers ∈ S) (r : AdmRun)
    (res : AdmRes) (d : Dev) :
    mask S (deliver r res d) = mask S d := by
  unfold deliver
  repeat' split
  all_goals simp only [mask_stopTimer, mask_memWrite, mask_postAce, mask_logOutcome, mask_answerRing, htimers, hlink, hout, hadm, hsweep, herr, hcas, hpeers]

@[simp] theorem mask_finishBg {S : List Part} (hadm : .adm ∈ S) (herr : .err ∈ S) (p : RunKind → Bool)
    (res : AdmRes) (d : Dev) :
    mask S (finishBg p res d) = mask S d := by
  unfold finishBg
  split <;> simp only [mask_logOutcome, mask_set_adm, hadm, herr]

@[simp] theorem mask_finishRun {S : List Part} (htimers : .timers ∈ S) (hlink : .link ∈ S) (hout : .out ∈ S)
    (hadm : .adm ∈ S) (hsweep : .sweep ∈ S) (herr : .err ∈ S) (hcas : .cas ∈ S) (hpeers : .peers ∈ S)
    (p : RunKind → Bool) (res : AdmRes) (d : Dev) :
    mask S (finishRun p res d) = mask S d := by
  unfold finishRun
  repeat' split
  all_goals simp only [mask_deliver, mask_finishBg, mask_set_adm, htimers, hlink, hout, hadm, hsweep, herr, hcas, hpeers]

@[simp] theorem mask_armBind {S : List Part} (htimers : .timers ∈ S) (hout : .out ∈ S) (hpeers : .peers ∈ S)
    (b : BindEnt) (d : Dev) :
    mask S (armBind b d) = mask S d := by
  unfold armBind
  repeat' split
  all_goals simp only [mask_sendSeq, htimers, hout, hpeers]

@[simp] theorem mask_armRing {S : List Part} (htimers : .timers ∈ S) (hout : .out ∈ S) (hpeers : .peers ∈ S)
    (n : Nat) (d : Dev) :
    mask S (armRing n d) = mask S d := by simp [armRing, mask_foldl, htimers, hout, hpeers]

@[simp] theorem mask_endPeerXfer {S : List Part} (htimers : .timers ∈ S) (hout : .out ∈ S) (hpeers : .peers ∈ S)
    (qid tag : Nat) (done ret : Bool) (d : Dev) :
    mask S (endPeerXfer qid tag done ret d) = mask S d := by
  simp only [endPeerXfer, mask_sendSeq, htimers, hout, hpeers]

@[simp] theorem mask_ringWaits {S : List Part} (htimers : .timers ∈ S) (hqueues : .queues ∈ S) (n : Nat) (d : Dev) :
    mask S (ringWaits n d) = mask S d := by simp [ringWaits, mask_foldl, htimers, hqueues]

@[simp] theorem mask_forsake {S : List Part} (hreads : .reads ∈ S) (w : ReadFor) (d : Dev) :
    mask S (forsake w d) = mask S d := by simp [forsake, hreads]

@[simp] theorem mask_dropFill {S : List Part} (htimers : .timers ∈ S) (hreads : .reads ∈ S) (hout : .out ∈ S)
    (hrings : .rings ∈ S) (hqueues : .queues ∈ S) (hpeers : .peers ∈ S) (f : Nat) (d : Dev) :
    mask S (dropFill f d) = mask S d := by
  simp only [dropFill, mask_stopTimer, mask_abortOwned, mask_forgetDiscards, mask_forsake, mask_set_rings, htimers, hreads, hout, hrings, hqueues, hpeers]

@[simp] theorem mask_returnXfer {S : List Part} (htimers : .timers ∈ S) (hout : .out ∈ S) (hqueues : .queues ∈ S)
    (hpeers : .peers ∈ S) (x : Xfer) (d : Dev) :
    mask S (returnXfer x d) = mask S d := by
  unfold returnXfer
  split <;> simp only [mask_onQueue, mask_endPeerXfer, htimers, hout, hqueues, hpeers]

@[simp] theorem mask_dropDrain {S : List Part} (htimers : .timers ∈ S) (hreads : .reads ∈ S) (hout : .out ∈ S)
    (hrings : .rings ∈ S) (hqueues : .queues ∈ S) (hpeers : .peers ∈ S) (n : Nat) (d : Dev) :
    mask S (dropDrain n d) = mask S d := by
  unfold dropDrain
  simp only []
  split <;> simp only [mask_ringWaits, mask_forsake, mask_returnXfer, mask_set_rings, htimers, hreads, hout, hrings, hqueues, hpeers]

@[simp] theorem mask_dropComp {S : List Part} (htimers : .timers ∈ S) (hrings : .rings ∈ S) (c : Nat) (d : Dev) :
    mask S (dropComp c d) = mask S d := by
  simp only [dropComp, mask_stopTimer, mask_set_rings, htimers, hrings]

@[simp] theorem mask_eraseUnseal {S : List Part} (htimers : .timers ∈ S) (hepoch : .epoch ∈ S)
    (hqueues : .queues ∈ S) (htier : .tier ∈ S) (slot : Nat) (d : Dev) :
    mask S (eraseUnseal slot d) = mask S d := by
  unfold eraseUnseal
  split <;> simp only [mask_writeUnseal, htimers, hepoch, hqueues, htier]

@[simp] theorem mask_eraseNear {S : List Part} (hrep : .rep ∈ S) (q : Queue) (d : Dev) :
    mask S (eraseNear q d) = mask S d := by simp [eraseNear, mask_foldl, hrep]

@[simp] theorem mask_eraseFill {S : List Part} (htimers : .timers ∈ S) (hlink : .link ∈ S) (hreads : .reads ∈ S)
    (hout : .out ∈ S) (hrings : .rings ∈ S) (hsweep : .sweep ∈ S) (hqueues : .queues ∈ S) (hpeers : .peers ∈ S)
    (slot : Nat) (e : Nat × FillRing) (d : Dev) :
    mask S (eraseFill slot e d) = mask S d := by
  unfold eraseFill
  repeat' split
  all_goals simp only [mask_finishFill, mask_abortRingOn, htimers, hlink, hreads, hout, hrings, hsweep, hqueues, hpeers]

@[simp] theorem mask_eraseBorrow {S : List Part} (htimers : .timers ∈ S) (hout : .out ∈ S) (hqueues : .queues ∈ S)
    (htier : .tier ∈ S) (hpeers : .peers ∈ S) (slot : Nat) (p : Prog) (d : Dev) :
    mask S (eraseBorrow slot p d) = mask S d := by
  unfold eraseBorrow
  repeat' split
  all_goals simp only [mask_onQueue, mask_sendSeq, mask_set_tier, htimers, hout, hqueues, htier, hpeers]

@[simp] theorem mask_eraseProg {S : List Part} (htimers : .timers ∈ S) (hlink : .link ∈ S) (hout : .out ∈ S)
    (hepoch : .epoch ∈ S) (hqueues : .queues ∈ S) (htier : .tier ∈ S) (hrep : .rep ∈ S) (herr : .err ∈ S)
    (slot : Nat) (p : Prog) (d : Dev) :
    mask S (eraseProg slot p d) = mask S d := by
  unfold eraseProg
  repeat' split
  all_goals simp only [mask_onQueue, mask_freeDeep, mask_set_tier, htimers, hlink, hout, hepoch, hqueues, htier, hrep, herr]

theorem mask_pumpPeer {S : List Part} (htimers : .timers ∈ S) (hout : .out ∈ S) (hpeers : .peers ∈ S) (fuel n : Nat) :
    ∀ d, mask S (pumpPeer fuel n d) = mask S d := by
  induction fuel with
  | zero => intro d; rfl
  | succ fuel ih =>
    intro d
    unfold pumpPeer
    split
    · rfl
    · exact mask_ite ((ih _).trans ((mask_onPeer hpeers ..).trans ((mask_sendItems htimers hout hpeers ..).trans
        (mask_onPeer hpeers ..)))) rfl

theorem mask_sendAborts {S : List Part} (htimers : .timers ∈ S) (hout : .out ∈ S) (hpeers : .peers ∈ S)
    (fuel n : Nat) :
    ∀ d, mask S (sendAborts fuel n d) = mask S d := by
  induction fuel with
  | zero => intro d; rfl
  | succ fuel ih =>
    intro d
    unfold sendAborts
    simp only []
    split
    · rfl
    · exact mask_ite rfl ((ih _).trans ((mask_sendAbort htimers hout hpeers ..).trans (mask_onPeer hpeers ..)))

@[simp] theorem mask_pumpNode {S : List Part} (htimers : .timers ∈ S) (hout : .out ∈ S) (hpeers : .peers ∈ S)
    (n : Nat) (d : Dev) :
    mask S (pumpNode n d) = mask S d := by
  simp only [pumpNode, mask_pumpPeer, mask_sendAborts, htimers, hout, hpeers]

@[simp] theorem mask_applyAck {S : List Part} (htimers : .timers ∈ S) (hout : .out ∈ S) (hpeers : .peers ∈ S)
    (n ack crd : Nat) (d : Dev) :
    mask S (applyAck n ack crd d) = mask S d := by
  unfold applyAck
  simp only []
  split_ifs <;> simp only [mask_startTimer, mask_stopTimer, mask_onPeer, mask_settlePauses, mask_pumpNode, htimers, hout, hpeers]

@[simp] theorem mask_takeHeader {S : List Part} (htimers : .timers ∈ S) (hout : .out ∈ S) (hpeers : .peers ∈ S)
    (h : FlitHdr) (d : Dev) :
    mask S (takeHeader h d) = mask S d := by
  unfold takeHeader
  split <;> simp only [mask_applyAck, htimers, hout, hpeers]

end Sys2Proof.Machine
end

section
/-!
RING_CREATE and RING_DELETE (R248 to R250).
-/

namespace Sys2Proof.Machine

/-! ### The host side -/

theorem armSweep_canIssue {d : Dev} (h : canIssue d = true) : canIssue (armSweep d) = true := by
  unfold armSweep
  extract_lets +onlyGivenNames since
  split
  · exact sendLtr_canIssue _ _ h
  · exact h

theorem activity_canIssue {d : Dev} (h : canIssue d = true) : canIssue (activity d) = true :=
  armSweep_canIssue (d := startTimer .idle { d with sweep.interval := d.regs.sweepFast }) h

theorem armSweep_mps (d : Dev) : (armSweep d).link.mps = d.link.mps := by
  unfold armSweep
  extract_lets +onlyGivenNames since
  split
  · exact sendLtr_mps ..
  · rfl

theorem activity_mps (d : Dev) : (activity d).link.mps = d.link.mps :=
  armSweep_mps (startTimer .idle { d with sweep.interval := d.regs.sweepFast })

/-! ### RING_CREATE -/

/-- A ring is created and the host's activity noted: the command ends with OK. -/
theorem ringCreate_ends {i : Instr} {c : AdmCmd} {s : State} {tag : Nat} {g : Dev} {P : Dev → Prop}
    (cmd : exec i s = act (admin 0x01 c [] (ringCreate c)) s) (takes : Takes 0x01 c tag s.dev) (room : AceRoom s.dev)
    (runs : ringCreate c (hostRun 0x01 c) (taken 0x01 tag s.dev) = ends (okWith 0 0) (activity g))
    (same : SameBut [.timers, .out, .rings, .queues, .peers] (taken 0x01 tag s.dev) g)
    (holds : ∀ e, AceWritten c 0 0 0 s.dev e → HostOnly g e → P e) : Completes i s P := by
  obtain ⟨ace, frame⟩ := admin_ends takes room runs ((activity_adm g).trans (same.adm_eq (by decide)))
    ((activity_canIssue ((same.canIssue_eq (by decide) (by decide) (by decide)).trans
      ((taken_canIssue ..).trans room.2.1))).trans room.2.1.symm)
    ((activity_mps g).trans ((same.mps_eq (by decide)).trans (taken_mps ..)))
  exact completes_of_exec_eq_act cmd (holds _ ace ((hostOnly_activity g).trans frame))

theorem ringCreate_refused {i : Instr} {c : AdmCmd} {s : State} {tag code : Nat}
    (cmd : exec i s = act (admin 0x01 c [] (ringCreate c)) s) (takes : Takes 0x01 c tag s.dev) (room : AceRoom s.dev)
    (runs : ∀ t : Dev, t.rings = s.dev.rings → ringCreate c (hostRun 0x01 c) t = ends (failWith code) t) :
    Completes i s fun e => AceWritten c code 0 0 s.dev e ∧ HostOnly s.dev e :=
  completes_of_ends_self (body := ringCreate c) (failWith code) cmd takes room
    (fun t h => runs t (by rw [show t = _ from h])) fun e h => ⟨h.ace, h.frame⟩

/-- The completion ring that the command describes. -/
def newComp (c : AdmCmd) : CompRing :=
  { log2 := bitsOf c.arg0.toNat 8 8, base := c.addr.toNat, gen := c.arg1.setWidth 16, vector := bitsOf c.arg0.toNat 16 5
    irqEn := bitOf c.flags.toNat 3, thr := max 1 (bitsOf c.arg2.toNat 0 16), time := c.arg3.toNat }

/-- The fill ring that the command describes. -/
def newFill (c : AdmCmd) : FillRing :=
  { log2 := bitsOf c.arg0.toNat 8 8, base := c.addr.toNat, gen := c.arg1.setWidth 16, cq := bitsOf c.arg0.toNat 24 6
    timeout := if c.arg2.toNat = 0 then 0 else max 640 c.arg2.toNat }

/-- The drain ring that the command describes. -/
def newDrain (c : AdmCmd) : DrainRing :=
  { log2 := bitsOf c.arg0.toNat 8 8, base := c.addr.toNat, gen := c.arg1.setWidth 16, cq := bitsOf c.arg0.toNat 24 6
    packed := bitOf c.flags.toNat 2, wait := c.arg2.toNat, dmin := c.arg3.toNat }

section
variable {c : AdmCmd} {r : AdmRun} {d : Dev} {id : Nat}

theorem ringCreate_comp (hid : id = bitsOf c.arg0.toNat 0 6) (least : 4 ≤ bitsOf c.arg0.toNat 8 8)
    (most : bitsOf c.arg0.toNat 8 8 ≤ 16) (kind : bitsOf c.flags.toNat 0 2 = 0) (free : tblFind d.rings.comps id = none)
    (base : baseOk 16 (bitsOf c.arg0.toNat 8 8) c.addr.toNat = true) :
    ringCreate c r d = ends (okWith 0 0) (activity { d with rings.comps := tblPut d.rings.comps id (newComp c) }) := by
  subst hid
  simp [ringCreate, kind, free, base, least, most, newComp]

theorem ringCreate_fill (hid : id = bitsOf c.arg0.toNat 0 6) (least : 4 ≤ bitsOf c.arg0.toNat 8 8)
    (most : bitsOf c.arg0.toNat 8 8 ≤ 16) (kind : bitsOf c.flags.toNat 0 2 = 1) (free : tblFind d.rings.fills id = none)
    (live : (tblFind d.rings.comps (bitsOf c.arg0.toNat 24 6)).isSome = true)
    (base : baseOk 32 (bitsOf c.arg0.toNat 8 8) c.addr.toNat = true) :
    ringCreate c r d = ends (okWith 0 0) (activity (putFill id (newFill c) d)) := by
  subst hid
  simp [ringCreate, kind, free, Option.ne_none_iff_isSome.2 live, base, least, most, newFill]

theorem ringCreate_drain (hid : id = bitsOf c.arg0.toNat 0 6) (least : 4 ≤ bitsOf c.arg0.toNat 8 8)
    (most : bitsOf c.arg0.toNat 8 8 ≤ 16) (kind : bitsOf c.flags.toNat 0 2 = 2) (free : tblFind d.rings.drains id = none)
    (live : (tblFind d.rings.comps (bitsOf c.arg0.toNat 24 6)).isSome = true)
    (base : baseOk 32 (bitsOf c.arg0.toNat 8 8) c.addr.toNat = true) :
    ringCreate c r d =
      ends (okWith 0 0) (activity (ringWaits id (armRing id (putDrain id (newDrain c) d)))) := by
  subst hid
  simp [ringCreate, kind, free, Option.ne_none_iff_isSome.2 live, base, least, most, newDrain]

end

/-! ### The waits of R262 -/

/-- The queues are the same but for their marks of a wait (R262). -/
structure WaitsAside (d e : Dev) : Prop where
  wf : tblWf {} d.queues = true → tblWf {} e.queues = true
  waits : tblWf {} d.queues = true → ∀ j, ∃ w, queueOf e j = { queueOf d j with waited := w }

theorem WaitsAside.of_same {d e : Dev} (h : e.queues = d.queues) : WaitsAside d e :=
  ⟨fun wf => h ▸ wf, fun _ j => ⟨(queueOf d j).waited, by simp [queueOf, h]⟩⟩

theorem WaitsAside.trans {a b c : Dev} (h : WaitsAside a b) (k : WaitsAside b c) : WaitsAside a c where
  wf w := k.wf (h.wf w)
  waits w j := by
    obtain ⟨x, hx⟩ := h.waits w j
    obtain ⟨y, hy⟩ := k.waits (h.wf w) j
    exact ⟨y, by rw [hy, hx]⟩

theorem waitsAside_putQueue (qid : Nat) (w : Bool) (d : Dev) :
    WaitsAside d (putQueue qid { queueOf d qid with waited := w } d) where
  wf h := tblWf_set h ..
  waits h j := by
    by_cases here : j = qid
    · subst here
      exact ⟨w, queueOf_put_same h ..⟩
    · exact ⟨(queueOf d j).waited, queueOf_put_other d _ here⟩

theorem waitsAside_drainWaitCheck (qid : Nat) (d : Dev) : WaitsAside d (drainWaitCheck qid d) := by
  unfold drainWaitCheck
  extract_lets q
  split
  · split
    · exact (waitsAside_putQueue qid false d).trans (.of_same rfl)
    · exact .of_same rfl
  · split
    · exact .of_same rfl
    · exact .of_same rfl

theorem waitsAside_ringWaits (n : Nat) (d : Dev) : WaitsAside d (ringWaits n d) := by
  unfold ringWaits
  generalize d.bind.drain.filter _ = l
  induction l generalizing d with
  | nil => exact .of_same rfl
  | cons b l ih => exact (waitsAside_drainWaitCheck ..).trans (ih _)

theorem armRing_queues (n : Nat) (d : Dev) : (armRing n d).queues = d.queues :=
  SameBut.queues_eq (S := [.timers, .out, .peers]) (mask_armRing (by decide) (by decide) (by decide) n d) (by decide)

/-- Settles O10: each kind of ring by the ring that its command describes. A number in use, and a completion ring that is
not live, are found before anything changes. -/
theorem ringCreateListsTheRing : Obligations.RingCreateListsTheRing := by
  intro s c tag id log2 cq hid hlog hcq takes room refused
  have ht : HostOnly s.dev (taken 0x01 tag s.dev) := hostOnly_taken ..
  have rings : (taken 0x01 tag s.dev).rings = s.dev.rings := by rw [show taken 0x01 tag s.dev = _ from ht]
  refine ⟨fun r kind used => ?_, fun kind free missing => ?_, fun least most => ⟨fun kind free base => ?_,
    fun kind free live base => ?_, fun kind free live base wf => ?_⟩⟩
  · exact ringCreate_refused rfl takes room fun t rings => by
      simp [ringCreate, kind, rings, ← hid, used]
  · exact ringCreate_refused rfl takes room fun t rings => by
      simp [ringCreate, kind, rings, ← hid, ← hcq, free, missing]
  · subst hlog
    refine ringCreate_ends rfl takes room (ringCreate_comp hid least most kind (rings ▸ free) base) rfl fun e ace frame => ⟨ace, ?_⟩
    rw [rings] at frame
    exact HostOnly.trans rfl frame
  · subst hlog hcq
    refine ringCreate_ends rfl takes room (ringCreate_fill hid least most kind (rings ▸ free) (rings ▸ live) base) rfl
      fun e ace frame => ⟨ace, ?_⟩
    rw [putFill, rings] at frame
    exact HostOnly.trans rfl frame
  · subst hlog hcq
    refine ringCreate_ends rfl takes room (ringCreate_drain hid least most kind (rings ▸ free) (rings ▸ live) base)
      (by simp [SameBut])
      fun e ace frame => ⟨ace, ?_, fun j => ?_⟩
    · have same : SameBut (hostParts ++ [.timers, .queues, .cas, .peers]) (putDrain id (newDrain c) s.dev) e := by
        refine SameBut.trans (b := putDrain id (newDrain c) (taken 0x01 tag s.dev)) ?_ (SameBut.trans ?_ (frame.sameBut.mono (by simp)))
        · rw [show taken 0x01 tag s.dev = _ from ht]; rfl
        · simp [SameBut, hostParts]
      exact same.eq
    · obtain ⟨w, hw⟩ := ((WaitsAside.of_same (armRing_queues ..)).trans (waitsAside_ringWaits id _)).waits
        (d := putDrain id (newDrain c) (taken 0x01 tag s.dev)) wf j
      exact ⟨w, (frame.queueOf_eq j).trans hw⟩

end Sys2Proof.Machine
end

section
/-!
RING_DELETE (R250).
-/

namespace Sys2Proof.Machine

/-- A ring is deleted: the command answers with its index, and the host's ways out are as they were. -/
theorem ringDelete_ends {i : Instr} {c : AdmCmd} {s : State} {tag r0 : Nat} {g : Dev} {P : Dev → Prop}
    (cmd : exec i s = act (admin 0x02 c [] (ringDelete c)) s) (takes : Takes 0x02 c tag s.dev) (room : AceRoom s.dev)
    (runs : ringDelete c (hostRun 0x02 c) (taken 0x02 tag s.dev) = ends (okWith r0 0) g)
    (same : SameBut [.timers, .reads, .out, .rings, .queues, .peers] (taken 0x02 tag s.dev) g)
    (holds : ∀ e, AceWritten c 0 r0 0 s.dev e → HostOnly g e → P e) : Completes i s P := by
  obtain ⟨ace, frame⟩ := admin_ends takes room runs (same.adm_eq (by decide))
    ((same.canIssue_eq (by decide) (by decide) (by decide)).trans (taken_canIssue ..))
    ((same.mps_eq (by decide)).trans (taken_mps ..))
  exact completes_of_exec_eq_act cmd (holds _ ace frame)

theorem dropFill_rings (f : Nat) (d : Dev) : (dropFill f d).rings = { d.rings with fills := tblErase d.rings.fills f } := by
  unfold dropFill
  exact SameBut.rings_eq (S := [.timers, .out, .queues, .peers])
    ((mask_forgetDiscards (by decide) (by decide) ..).trans (mask_abortOwned (by decide) (by decide) (by decide) (by decide) ..))
    (by decide)

theorem returnXfer_rings (x : Xfer) (d : Dev) : (returnXfer x d).rings = d.rings :=
  SameBut.rings_eq (S := [.timers, .out, .queues, .peers])
    (mask_returnXfer (by decide) (by decide) (by decide) (by decide) ..) (by decide)

theorem ringWaits_rings (n : Nat) (d : Dev) : (ringWaits n d).rings = d.rings :=
  SameBut.rings_eq (S := [.timers, .queues]) (mask_ringWaits (by decide) (by decide) ..) (by decide)

theorem dropDrain_rings (n : Nat) (d : Dev) : (dropDrain n d).rings = { d.rings with drains := tblErase d.rings.drains n } := by
  unfold dropDrain
  simp only []
  split
  · rw [returnXfer_rings, ringWaits_rings]
    rfl
  · rw [ringWaits_rings]
    rfl

theorem not_any_of_forall_ne {α : Type} {l : Tbl α} {f : α → Nat} {id : Nat} (h : ∀ x ∈ l, f x.2 ≠ id) :
    l.any (fun e => decide (f e.2 = id)) = false := by
  simpa using fun a b hx => h (a, b) hx

/-- Settles O11: a ring that goes leaves the other kinds alone; the codes of R250 as log entry 31 reads them. -/
theorem ringDeleteTakesTheRingAway : Obligations.RingDeleteTakesTheRingAway := by
  intro s c tag id hid takes room
  have ht : HostOnly s.dev (taken 0x02 tag s.dev) := hostOnly_taken ..
  have rings : (taken 0x02 tag s.dev).rings = s.dev.rings := by rw [show taken 0x02 tag s.dev = _ from ht]
  have queues : (taken 0x02 tag s.dev).queues = s.dev.queues := by rw [show taken 0x02 tag s.dev = _ from ht]
  refine ⟨fun r kind found sorted fills drains => ?_, fun r kind found sorted => ?_, fun r kind found sorted => ?_⟩
  · refine ringDelete_ends (g := dropComp id (taken 0x02 tag s.dev)) rfl takes room ?_ (by simp [SameBut]) fun e ace frame => ⟨ace, ?_⟩
    · have nofill := not_any_of_forall_ne (f := FillRing.cq) fills
      have nodrain := not_any_of_forall_ne (f := DrainRing.cq) drains
      simp only [ringDelete, kind, rings, ← hid, found, nofill, nodrain]
      rfl
    · rw [show e = _ from frame]
      simp only [dropComp, stopTimer_rings, rings]
      exact ⟨tblFind_erase_same sorted id, trivial, trivial, queues⟩
  · refine ringDelete_ends (g := dropFill id (taken 0x02 tag s.dev)) rfl takes room ?_ (by simp [SameBut]) fun e ace frame => ⟨ace, ?_⟩
    · simp only [ringDelete, kind, rings, ← hid, found]
    · rw [show e = _ from frame]
      simp only [dropFill_rings, rings]
      exact ⟨tblFind_erase_same sorted id, trivial, trivial⟩
  · refine ringDelete_ends (g := dropDrain id (taken 0x02 tag s.dev)) rfl takes room ?_ (by simp [SameBut]) fun e ace frame => ⟨ace, ?_⟩
    · simp only [ringDelete, kind, rings, ← hid, found]
    · rw [show e = _ from frame]
      simp only [dropDrain_rings, rings]
      exact ⟨tblFind_erase_same sorted id, trivial, trivial⟩

end Sys2Proof.Machine
end

section
/-!
SEAL (R273, R351 to R359).
-/

namespace Sys2Proof.Machine

theorem sameBut_govTrack (d : Dev) : SameBut [.timers] d (govTrack d) := mask_govTrack (by decide) d

theorem hostOnly_govTrack (d : Dev) : HostOnly d (govTrack d) :=
  ((sameBut_govTrack d).mono (T := .timers :: hostParts) (by simp)).eq

/-- The tracking of the governor changes nothing of a completion entry. -/
theorem aceWritten_govTrack {c : AdmCmd} {status r0 r1 : Nat} {d e : Dev} (h : AceWritten c status r0 r1 d e) :
    AceWritten c status r0 r1 d (govTrack e) := by
  rw [AceWritten, (sameBut_govTrack e).adm_eq (by decide), (sameBut_govTrack e).out_eq (by decide)]
  exact h

theorem slotOf_congr {d e : Dev} (keys : e.keys = d.keys) (slot : Nat) : slotOf e slot = slotOf d slot := by
  rw [slotOf, keys, slotOf]

theorem sealWork_congr {d e : Dev} (queues : e.queues = d.queues) (keys : e.keys = d.keys) : sealWork e = sealWork d := by
  have slots : slotUsable e = slotUsable d := by
    funext slot
    rw [slotUsable, slotOf_congr keys, slotUsable]
  rw [sealWork, queues, slots, sealWork]

/-- What SEAL has done when it waits for programs (R354 to R356). -/
structure SealWaits (d e : Dev) : Prop where
  same : SameBut [.tier, .queues, .epoch] d e
  fence : e.epoch.sealFence = true
  left : e.tier.sealRun = some { left := (sealWork d).map fun x => (x.1, x.2.pos) }
  programs : ∀ x ∈ sealWork d, inFlight x.2.prog = false → ∃ p ∈ e.tier.progQ, p.what = .seal x.1 x.2.pos
  wear : e.tier.wearCopy = some e.tier.wear

theorem sealCheck_of_left {d : Dev} {run : SealRun} (run_ : d.tier.sealRun = some run) (left : run.left ≠ []) :
    sealCheck d = d := by
  have : run.left.isEmpty = false := by simpa using left
  simp [sealCheck, run_, this]

theorem writeWearCopy_wearCopy (d : Dev) : (writeWearCopy d).tier.wearCopy = some (writeWearCopy d).tier.wear := by
  simp only [writeWearCopy]

theorem sealStart_waits {d : Dev} (unchanged : d.epoch.cfgChanged = false) (work : sealWork d ≠ []) :
    SealWaits d (sealStart d) := by
  have wear : SameBut [.tier] d (writeWearCopy d) := mask_writeWearCopy (by decide) d
  have unchanged : (writeWearCopy d).epoch.cfgChanged = false := by
    rw [wear.epoch_eq (by decide)]; exact unchanged
  have sameWork : sealWork (writeWearCopy d) = sealWork d :=
    sealWork_congr (wear.queues_eq (by decide)) (SameBut.keys_eq wear (by decide))
  unfold sealStart
  simp only [unchanged, Bool.false_eq_true, if_false, sameWork]
  rw [sealCheck_of_left rfl (by simpa using work)]
  generalize hd3 : List.foldl _ (writeWearCopy d) _ = d3
  have queued : SameBut [.queues] (writeWearCopy d) d3 := by
    rw [← hd3]
    exact mask_foldl (fun d x => mask_onQueue (by decide) ..) _ _
  have tier : d3.tier = (writeWearCopy d).tier := queued.tier_eq (by decide)
  refine ⟨?_, rfl, rfl, fun x hx waits => ?_, ?_⟩
  · exact (wear.mono (by simp)).trans ((queued.mono (by simp)).trans rfl)
  · exact ⟨_, List.mem_append_left _ (List.mem_map_of_mem (List.mem_filter.2 ⟨hx, by simpa using waits⟩)), rfl⟩
  · simp only [tier]
    exact writeWearCopy_wearCopy d

/-! ### The command -/

theorem HostOnly.journalSealed_and_tier {d t : Dev} (h : HostOnly d t) : t.tier = d.tier ∧ t.epoch = d.epoch := by
  rw [show t = _ from h]
  exact ⟨rfl, rfl⟩

/-- A SEAL whose body ends at once. -/
theorem seal_ends {s : State} {c : AdmCmd} {tag : Nat} {res : AdmRes} (takes : Takes 0x30 c tag s.dev)
    (room : AceRoom s.dev)
    (runs : unlessBusy sealBody (hostRun 0x30 c) (taken 0x30 tag s.dev) = ends res (taken 0x30 tag s.dev)) :
    Completes (.sealCmd c) s fun e => AceWritten c res.status res.r0 res.r1 s.dev e ∧ HostOnly s.dev e := by
  obtain ⟨ace, frame⟩ := admin_ends (buf := []) takes room runs rfl (taken_canIssue ..) (taken_mps ..)
  exact completes_of_exec_eq_act (f := fun d => govTrack (admin 0x30 c [] (unlessBusy sealBody) d)) rfl
    ⟨aceWritten_govTrack ace, (hostOnly_taken ..).trans (frame.trans (hostOnly_govTrack _))⟩

/-- Settles O12: the programs of step 3 are those of the work as SEAL finds it, for the wear counters and the states of
its programs change neither queues' contents nor keys. BUSY comes first by the model's order (log entry 43). -/
theorem sealFencesAndProgramsNearOnlySegments : Obligations.SealFencesAndProgramsNearOnlySegments := by
  intro s c tag takes
  have ht : HostOnly s.dev (taken 0x30 tag s.dev) := hostOnly_taken ..
  obtain ⟨tier, epoch⟩ := ht.journalSealed_and_tier
  refine ⟨fun room busy => ?_, fun room free exhausted => ?_, fun free some_ unchanged unsealed work => ?_,
    fun free some_ unchanged done room => ?_⟩
  · exact seal_ends (res := failWith 0x08) takes room (unlessBusy_busy (ht.busyNow_eq.trans busy))
  · refine seal_ends (res := { status := 0x48, r0 := 0, r1 := int32 (levelKib s.dev.tier.level) }) takes room ?_
    rw [unlessBusy_free (ht.busyNow_eq.trans free), sealBody, tier, exhausted]
    rfl
  · have t0 : HostOnly s.dev { taken 0x30 tag s.dev with adm.run := some { hostRun 0x30 c with kind := .sealing } } :=
      ht.trans rfl
    generalize ht0 : { taken 0x30 tag s.dev with adm.run := some { hostRun 0x30 c with kind := .sealing } } = t at t0
    have sameWork : sealWork t = sealWork s.dev := sealWork_congr (by rw [show t = _ from t0]) (by rw [show t = _ from t0])
    have waits : SealWaits t (sealStart t) := sealStart_waits (by rw [show t = _ from t0]; exact unchanged) (sameWork ▸ work)
    have run : admin 0x30 c [] (unlessBusy sealBody) s.dev = sealStart t := by
      rw [admin_takes takes, runBody, unlessBusy_free (ht.busyNow_eq.trans free), sealBody, tier, epoch, some_,
        ht.journalSealed_eq, unsealed, ← ht0]
      rfl
    refine completes_of_exec_eq_act (f := fun d => govTrack (admin 0x30 c [] (unlessBusy sealBody) d)) rfl ?_
    obtain ⟨same, fence, left, programs, wear⟩ := waits
    rw [run]
    have tracked := sameBut_govTrack (sealStart t)
    rw [RunsOn, tracked.adm_eq (by decide), tracked.epoch_eq (by decide), tracked.tier_eq (by decide),
      tracked.out_eq (by decide), same.adm_eq (by decide), same.out_eq (by decide), ← sameWork]
    refine ⟨?_, fence, left, programs, wear, ?_⟩
    · rw [← ht0]; simp
    · rw [← ht0]; exact taken_out ..
  · refine seal_ends (res := okWith 0 (int32 (levelKib s.dev.tier.level))) takes room ?_
    rw [unlessBusy_free (ht.busyNow_eq.trans free), sealBody, tier, epoch, some_, ht.journalSealed_eq, done, unchanged]
    rfl

end Sys2Proof.Machine
end

section
/-!
The key commands (R534 to R552).
-/

namespace Sys2Proof.Machine

/-! ### Slots -/

section
variable {d : Dev} {i j : Nat} (k : KeySlot)

theorem slotOf_put_same (wf : tblWf {} d.keys.slots = true) : slotOf (putSlot i k d) i = k := tblGet_set_same wf i k

theorem slotOf_put_other (ne : j ≠ i) : slotOf (putSlot i k d) j = slotOf d j := tblGet_set_other _ _ k ne

theorem slotsWf_put (wf : tblWf {} d.keys.slots = true) : tblWf {} (putSlot i k d).keys.slots = true := tblWf_set wf ..

end

/-! ### The key record -/

theorem drawIvs_free (n : Nat) : ∀ d, (drawIvs n d).2 = { d with free := d.free + n } := by
  induction n with
  | zero => intro d; rfl
  | succ n ih =>
    intro d
    rw [drawIvs, ih]
    simp [takeFree, Nat.add_assoc, Nat.add_comm 1]

/-- The key record has been written: the slots and the work of the deep tier are as they were. -/
structure Recorded (d e : Dev) : Prop where
  same : SameBut [.keys, .tier, .free] d e
  slots : e.keys.slots = d.keys.slots
  active : e.tier.active = d.tier.active

theorem Recorded.trans {a b c : Dev} (h : Recorded a b) (k : Recorded b c) : Recorded a c :=
  ⟨h.same.trans k.same, k.slots.trans h.slots, k.active.trans h.active⟩

theorem Recorded.of_parts {d : Dev} {k : Keys} {t : Tier} (n : Nat) (slots : k.slots = d.keys.slots)
    (active : t.active = d.tier.active) : Recorded d { d with keys := k, tier := t, free := n } := ⟨rfl, slots, active⟩

theorem recorded_addWear (seg : Nat) (d : Dev) : Recorded d (addWear seg d) := ⟨rfl, rfl, rfl⟩

theorem recorded_addWears (first n : Nat) (d : Dev) :
    Recorded d ((List.range n).foldl (fun d i => addWear (first + i) d) d) := by
  generalize List.range n = l
  induction l generalizing d with
  | nil => exact ⟨rfl, rfl, rfl⟩
  | cons i l ih => exact (recorded_addWear (first + i) d).trans (ih _)

theorem recorded_writeWearCopy (d : Dev) : Recorded d (writeWearCopy d) := by
  unfold writeWearCopy
  exact (recorded_addWears ..).trans (Recorded.of_parts _ rfl rfl)

theorem recorded_countProgram (seg : Nat) (d : Dev) : Recorded d (countProgram seg d) := by
  unfold countProgram
  simp only []
  split
  · exact (recorded_addWear ..).trans (recorded_writeWearCopy _)
  · exact recorded_addWear ..

theorem recorded_writeKeyRecord (d : Dev) : Recorded d (writeKeyRecord d) := by
  have drawn : (newRecord d).2 = { d with free := d.free + recordKeys (keyRecord d) } := drawIvs_free ..
  unfold writeKeyRecord
  simp only [drawn]
  split
  · refine Recorded.trans ?_ (recorded_countProgram _ _)
    exact Recorded.of_parts _ rfl rfl
  · refine Recorded.trans ?_ (recorded_countProgram _ _)
    exact Recorded.of_parts _ rfl rfl

theorem Recorded.slotOf_eq {d e : Dev} (h : Recorded d e) (j : Nat) : slotOf e j = slotOf d j := by
  rw [slotOf, h.slots, slotOf]

theorem useCount_congr {d e : Dev} (queues : e.queues = d.queues) (active : e.tier.active = d.tier.active) (slot : Nat) :
    useCount e slot = useCount d slot := by
  simp only [useCount, boundSegs, cryptoOps, queues, active]

theorem Recorded.useCount_eq {d e : Dev} (h : Recorded d e) (slot : Nat) : useCount e slot = useCount d slot :=
  useCount_congr (h.same.queues_eq (by decide)) h.active slot

/-! ### Installation of a pending key (R539) -/

theorem settleKey_installs {d : Dev} {slot : Nat} {p : KeyVal} (pending : (slotOf d slot).pending = some p)
    (unused : useCount d slot = 0) (free : d.epoch.eraseFence ≠ some slot) :
    settleKey slot d =
      writeKeyRecord (putSlot slot { slotOf d slot with installed := some p, pending := none } d) := by
  simp [settleKey, pending, unused, free]

theorem settleKey_waits {d : Dev} {slot : Nat}
    (waits : (slotOf d slot).pending = none ∨ ¬ (useCount d slot = 0 ∧ d.epoch.eraseFence ≠ some slot)) :
    settleKey slot d = d := by
  unfold settleKey
  simp only []
  split
  next p found =>
    rcases waits with none_ | used
    · rw [none_] at found; cases found
    · rw [if_neg (by simpa using used)]
  next => rfl

/-! ### KEY_LOAD (R535 to R538) -/

theorem HostOnly.slotOf_eq {d t : Dev} (h : HostOnly d t) (slot : Nat) : slotOf t slot = slotOf d slot := by
  rw [show t = _ from h]
  rfl

theorem HostOnly.unwrapKey_eq {d t : Dev} (h : HostOnly d t) (slot gen : Nat) (buf : Bytes) :
    unwrapKey t slot gen buf = unwrapKey d slot gen buf := by
  rw [show t = _ from h]
  rfl

theorem HostOnly.keyStoreOk_eq {d t : Dev} (h : HostOnly d t) : keyStoreOk t = keyStoreOk d := by
  rw [show t = _ from h]
  rfl

theorem keyLoad_refused {s : State} {c : AdmCmd} {buf : Bytes} {tag code : Nat} (takes : Takes 0x40 c tag s.dev)
    (room : AceRoom s.dev)
    (runs : ∀ t, HostOnly s.dev t → keyLoadBody c buf (hostRun 0x40 c) t = ends (failWith code) t) :
    Completes (.keyLoad c buf) s fun e => AceWritten c code 0 0 s.dev e ∧ HostOnly s.dev e :=
  completes_of_ends_self (body := keyLoadBody c buf) (failWith code) rfl takes room runs fun _ h => ⟨h.ace, h.frame⟩

/-- The new key of a KEY_LOAD (R538). -/
def loadedKey (c : AdmCmd) (k : KeySlot) (key : Bytes) : KeyVal :=
  { key, gen := nextGen k.counter, persist := bitOf c.flags.toNat 0 }

/-- The slot of a KEY_LOAD that passes every check. -/
def loadKey (slot : Nat) (v : KeyVal) (d : Dev) : Dev :=
  settleKey slot (writeKeyRecord (putSlot slot (holdKey (slotOf d slot) v) d))

section
variable {c : AdmCmd} {buf : Bytes} {r : AdmRun} {d : Dev} {slot : Nat} (hslot : slot = bitsOf c.arg0.toNat 0 4)
  (high : 2 ≤ slot) (good : wrapOk c buf = true) (new : leAt buf 6 2 = (slotOf d slot).counter)
include hslot high good new

theorem keyLoadBody_none (closed : unwrapKey d slot (slotOf d slot).counter buf = none) :
    keyLoadBody c buf r d = ends (failWith 0x81) d := by
  simp [keyLoadBody, ← hslot, Nat.not_lt.2 high, good, new, closed]

theorem keyLoadBody_some {key : Bytes} (opened : unwrapKey d slot (slotOf d slot).counter buf = some key) :
    keyLoadBody c buf r d =
      if sliceBytes key 0 32 = sliceBytes key 32 32 then ends (failWith 0x82) d
      else if !keyStoreOk d then ends (failWith 0x85) d
      else ends (okWith (nextGen (slotOf d slot).counter) 0) (loadKey slot (loadedKey c (slotOf d slot) key) d) := by
  simp [keyLoadBody, ← hslot, Nat.not_lt.2 high, good, new, opened, loadKey, loadedKey]

end

/-- What a loaded key makes of its slot: installed where nothing uses the slot, else pending. -/
def slotWith (free : Prop) [Decidable free] (k : KeySlot) (v : KeyVal) : KeySlot :=
  if k.installed = none ∨ free then { installed := some v, counter := v.gen }
  else { installed := k.installed, pending := some v, counter := v.gen }

/-- A key has been stored: the slot has it, the other slots are as they were. -/
structure Stored (slot : Nat) (k : KeySlot) (d e : Dev) : Prop where
  same : SameBut [.keys, .tier, .free] d e
  here : slotOf e slot = k
  others : ∀ j, j ≠ slot → slotOf e j = slotOf d j

theorem stored_of_recorded {slot : Nat} {k : KeySlot} {d : Dev} (wf : tblWf {} d.keys.slots = true) :
    Stored slot k d (writeKeyRecord (putSlot slot k d)) where
  same := SameBut.trans (b := putSlot slot k d) rfl (recorded_writeKeyRecord _).same
  here := ((recorded_writeKeyRecord _).slotOf_eq slot).trans (slotOf_put_same k wf)
  others j ne := ((recorded_writeKeyRecord _).slotOf_eq j).trans (slotOf_put_other k ne)

theorem stored_settleKey {d : Dev} {slot : Nat} {p : KeyVal} (wf : tblWf {} d.keys.slots = true)
    (pending : (slotOf d slot).pending = some p) (unused : useCount d slot = 0) (free : d.epoch.eraseFence ≠ some slot) :
    Stored slot { slotOf d slot with installed := some p, pending := none } d (settleKey slot d) :=
  settleKey_installs pending unused free ▸ stored_of_recorded wf

theorem stored_loadKey {d : Dev} {slot : Nat} {v : KeyVal} (wf : tblWf {} d.keys.slots = true)
    (empty : (slotOf d slot).installed = none → (slotOf d slot).pending = none) :
    Stored slot (slotWith (useCount d slot = 0 ∧ d.epoch.eraseFence ≠ some slot) (slotOf d slot) v) d (loadKey slot v d) := by
  have held : Stored slot (holdKey (slotOf d slot) v) d (writeKeyRecord (putSlot slot (holdKey (slotOf d slot) v) d)) :=
    stored_of_recorded wf
  have recorded := recorded_writeKeyRecord (putSlot slot (holdKey (slotOf d slot) v) d)
  have uses : useCount (writeKeyRecord (putSlot slot (holdKey (slotOf d slot) v) d)) slot = useCount d slot :=
    recorded.useCount_eq slot
  have fence := held.same.epoch_eq (by decide)
  have wf' : tblWf {} (writeKeyRecord (putSlot slot (holdKey (slotOf d slot) v) d)).keys.slots = true := by
    rw [recorded.slots]; exact slotsWf_put _ wf
  unfold loadKey slotWith
  generalize writeKeyRecord (putSlot slot (holdKey (slotOf d slot) v) d) = e at *
  cases installed : (slotOf d slot).installed with
  | none =>
    have slot_ : slotOf e slot = { installed := some v, counter := v.gen } := by
      rw [held.here, holdKey, installed, empty installed]; rfl
    rw [settleKey_waits (.inl (by rw [slot_])), if_pos (.inl rfl)]
    exact ⟨held.same, slot_, held.others⟩
  | some old =>
    have slot_ : slotOf e slot = { installed := some old, pending := some v, counter := v.gen } := by
      rw [held.here, holdKey, installed]; rfl
    by_cases free : useCount d slot = 0 ∧ d.epoch.eraseFence ≠ some slot
    · have settled := stored_settleKey (slot := slot) wf' (by rw [slot_]) (uses.trans free.1) (fence ▸ free.2)
      rw [if_pos (.inr free)]
      exact ⟨held.same.trans settled.same, by rw [settled.here, slot_],
        fun j ne => (settled.others j ne).trans (held.others j ne)⟩
    · rw [settleKey_waits (.inr (by rw [uses, fence]; exact free)), if_neg (by simpa using free)]
      exact ⟨held.same, slot_, held.others⟩

/-- Settles O13: the checks of R537 in the body's order; R538 and R539 by what is stored in the slot. The IVs of the key
record are free (log entry 3). -/
theorem keyLoadInstallsOrHoldsTheKey : Obligations.KeyLoadInstallsOrHoldsTheKey := by
  refine ⟨?_, fun s slot p wf pending unused free => ?_⟩
  · intro s c buf tag slot k hslot hk takes room refused
    subst hk
    refine ⟨fun low => ?_, fun high bad => ?_, fun high good old => ?_, fun high good new wf empty => ?_⟩
    · exact keyLoad_refused takes room fun t _ => by simp [keyLoadBody, ← hslot, low]
    · exact keyLoad_refused takes room fun t _ => by simp [keyLoadBody, ← hslot, Nat.not_lt.2 high, bad]
    · exact keyLoad_refused takes room fun t h => by
        simp [keyLoadBody, ← hslot, Nat.not_lt.2 high, good, h.slotOf_eq, old]
    · cases opened : unwrapKey s.dev slot (slotOf s.dev slot).counter buf with
      | none =>
        exact keyLoad_refused takes room fun t h =>
          keyLoadBody_none hslot high good (new.trans (by rw [h.slotOf_eq])) (by rw [h.slotOf_eq, h.unwrapKey_eq, opened])
      | some key =>
        have body : ∀ t, HostOnly s.dev t → keyLoadBody c buf (hostRun 0x40 c) t =
            if sliceBytes key 0 32 = sliceBytes key 32 32 then ends (failWith 0x82) t
            else if !keyStoreOk s.dev then ends (failWith 0x85) t
            else ends (okWith (nextGen (slotOf s.dev slot).counter) 0) (loadKey slot (loadedKey c (slotOf s.dev slot) key) t) := by
          intro t h
          rw [keyLoadBody_some (key := key) hslot high good (new.trans (by rw [h.slotOf_eq]))
            (by rw [h.slotOf_eq, h.unwrapKey_eq, opened]), h.keyStoreOk_eq, h.slotOf_eq]
        by_cases twins : sliceBytes key 0 32 = sliceBytes key 32 32
        · simp only [twins, if_true]
          exact keyLoad_refused takes room fun t h => by rw [body t h, if_pos twins]
        · cases store : keyStoreOk s.dev with
          | false =>
            simp only [twins, if_false, if_true]
            exact keyLoad_refused takes room fun t h => by rw [body t h, if_neg twins, store]; rfl
          | true =>
            have ht : HostOnly s.dev (taken 0x40 tag s.dev) := hostOnly_taken ..
            have runs := body _ ht
            rw [if_neg twins, store] at runs
            have stored := stored_loadKey (d := taken 0x40 tag s.dev) (slot := slot)
              (v := loadedKey c (slotOf s.dev slot) key) wf empty
            obtain ⟨ace, frame⟩ := admin_ends (buf := buf) takes room runs (stored.same.adm_eq (by decide))
              ((stored.same.canIssue_eq (by decide) (by decide) (by decide)).trans (taken_canIssue ..))
              ((stored.same.mps_eq (by decide)).trans (taken_mps ..))
            refine completes_of_exec_eq_act (f := admin 0x40 c buf (keyLoadBody c buf)) rfl ?_
            simp only [twins, if_false]
            refine ⟨ace, ?_, ?_, fun j ne => ?_⟩
            · have same : SameBut (hostParts ++ [.keys, .tier, .free]) s.dev (admin 0x40 c buf (keyLoadBody c buf) s.dev) :=
                (ht.sameBut.mono (by simp)).trans ((stored.same.mono (by simp)).trans (frame.sameBut.mono (by simp)))
              exact same.eq
            · have uses : useCount (taken 0x40 tag s.dev) slot = useCount s.dev slot :=
                useCount_congr (by rw [show taken 0x40 tag s.dev = _ from ht]) (by rw [show taken 0x40 tag s.dev = _ from ht]) slot
              have fence : (taken 0x40 tag s.dev).epoch = s.dev.epoch := by rw [show taken 0x40 tag s.dev = _ from ht]
              rw [frame.slotOf_eq, stored.here, slotWith, ht.slotOf_eq, uses, fence]
              rfl
            · exact (frame.slotOf_eq j).trans ((stored.others j ne).trans (ht.slotOf_eq j))
  · have settled := stored_settleKey wf pending unused free
    exact completes_of_exec_eq_act (f := settleKey slot.toNat) rfl ⟨settled.here, settled.others, settled.same.eq⟩

end Sys2Proof.Machine
end

section
/-!
KEY_ERASE and its instant of effect (R546 to R549).
-/

namespace Sys2Proof.Machine

/-! ### The command -/

theorem HostOnly.boundCount_eq {d t : Dev} (h : HostOnly d t) (slot : Nat) : boundCount t slot = boundCount d slot := by
  rw [show t = _ from h]
  rfl

theorem sameBut_eraseUnseal (slot : Nat) (d : Dev) : SameBut [.timers, .epoch, .queues, .tier] d (eraseUnseal slot d) :=
  mask_eraseUnseal (by decide) (by decide) (by decide) (by decide) slot d

theorem keyErase_ends {s : State} {c : AdmCmd} {tag : Nat} {res : AdmRes} (takes : Takes 0x41 c tag s.dev)
    (room : AceRoom s.dev)
    (runs : ∀ t, HostOnly s.dev t → unlessBusy (keyEraseBody c) (hostRun 0x41 c) t = ends res t) :
    Completes (.keyErase c) s fun e => AceWritten c res.status res.r0 res.r1 s.dev e ∧ HostOnly s.dev e :=
  completes_of_ends_self (body := unlessBusy (keyEraseBody c)) res rfl takes room runs fun _ h => ⟨h.ace, h.frame⟩

/-! ### The instant of effect -/

/-- Everything but the keys. -/
def notKeys : List Part :=
  [.timers, .link, .reads, .out, .adm, .rings, .sweep, .epoch, .queues, .tier, .rep, .err, .cas, .peers, .free]

/-- The bound queues and their transfers at the instant, once the slot is cleared (R547, R548). -/
def eraseEnds (slot : Nat) (bound : Tbl Queue) (d : Dev) : Dev :=
  let d := bound.foldl (fun d e => onQueue e.1 eraseQueue (eraseNear e.2 d)) d
  let d := { d with
    rings.drains := d.rings.drains.map fun (e : Nat × DrainRing) => (e.1, eraseXfer d slot e.2) }
  let d := d.rings.fills.foldl (fun d e => eraseFill slot e d) d
  d.tier.active.foldl (fun d p => eraseProg slot p (eraseBorrow slot p d)) d

theorem sameBut_eraseEnds (slot : Nat) (bound : Tbl Queue) (d : Dev) : SameBut notKeys d (eraseEnds slot bound d) := by
  unfold eraseEnds
  extract_lets +onlyGivenNames d1 _ d2 d3
  have h1 : SameBut notKeys d d1 :=
    mask_foldl (fun d e => (mask_onQueue (by decide) ..).trans (mask_eraseNear (by decide) ..)) _ d
  have h2 : SameBut notKeys d1 d2 := mask_set_rings d1 (by decide) _
  have h3 : SameBut notKeys d2 d3 := mask_foldl (fun d e => by simp [notKeys]) _ d2
  have h4 : SameBut notKeys d3 (d3.tier.active.foldl (fun d p => eraseProg slot p (eraseBorrow slot p d)) d3) :=
    mask_foldl (fun d p => by simp [notKeys]) _ d3
  exact h1.trans (h2.trans (h3.trans h4))

theorem eraseInstant_eq {d : Dev} {slot : Nat} (fence : d.epoch.eraseFence = some slot) (open_ : d.epoch.allFence = false) :
    eraseInstant d =
      let u := eraseUnseal slot d
      let w := writeKeyRecord (eraseEnds slot (u.queues.filter fun e => boundTo slot e.2)
        (writeKeyRecord (putSlot slot { counter := (slotOf u slot).counter } u)))
      finishRun (· = .erase slot) (okWith (boundCount u slot) 0) { w with epoch.eraseFence := none } := by
  unfold eraseInstant
  rw [fence, open_]
  rfl

/-- The end of the command keeps the keys and leaves the fence down. -/
theorem eraseFinishes (slot n : Nat) (w : Dev) :
    (finishRun (· = .erase slot) (okWith n 0) { w with epoch.eraseFence := none }).keys = w.keys ∧
      (finishRun (· = .erase slot) (okWith n 0) { w with epoch.eraseFence := none }).epoch.eraseFence = none := by
  have same : SameBut [.timers, .link, .out, .adm, .sweep, .err, .cas, .peers] { w with epoch.eraseFence := none }
      (finishRun (· = .erase slot) (okWith n 0) { w with epoch.eraseFence := none }) :=
    mask_finishRun (by decide) (by decide) (by decide) (by decide) (by decide) (by decide) (by decide) (by decide) ..
  exact ⟨same.keys_eq (by decide), by rw [same.epoch_eq (by decide)]⟩

/-- The instant clears its slot alone and lowers the fence. -/
theorem eraseInstant_slots {d : Dev} {slot : Nat} (fence : d.epoch.eraseFence = some slot) (open_ : d.epoch.allFence = false)
    (wf : tblWf {} d.keys.slots = true) :
    slotOf (eraseInstant d) slot = { counter := (slotOf d slot).counter } ∧ (eraseInstant d).epoch.eraseFence = none ∧
      ∀ j, j ≠ slot → slotOf (eraseInstant d) j = slotOf d j := by
  rw [eraseInstant_eq fence open_]
  extract_lets u w
  have unsealed : u.keys = d.keys := (sameBut_eraseUnseal slot d).keys_eq (by decide)
  have ended := eraseFinishes slot (boundCount u slot) w
  have cleared : Stored slot { counter := (slotOf u slot).counter } u
      (writeKeyRecord (putSlot slot { counter := (slotOf u slot).counter } u)) :=
    stored_of_recorded (by rw [unsealed]; exact wf)
  have slots : ∀ j, slotOf (finishRun (· = .erase slot) (okWith (boundCount u slot) 0) { w with epoch.eraseFence := none }) j =
      slotOf (writeKeyRecord (putSlot slot { counter := (slotOf u slot).counter } u)) j := fun j => by
    have kept : SameBut notKeys _ _ :=
      sameBut_eraseEnds slot (u.queues.filter fun e => boundTo slot e.2)
        (writeKeyRecord (putSlot slot { counter := (slotOf u slot).counter } u))
    calc _ = slotOf w j := slotOf_congr ended.1 j
      _ = _ := (recorded_writeKeyRecord _).slotOf_eq j
      _ = _ := slotOf_congr (kept.keys_eq (by decide)) j
  refine ⟨?_, ?_, fun j ne => ?_⟩
  · rw [slots, cleared.here, slotOf_congr unsealed]
  · exact ended.2
  · rw [slots, cleared.others j ne, slotOf_congr unsealed]

/-- Settles O14: the checks in the body's order behind `unlessBusy` (BUSY for every slot, before KEY_SLOT_INVALID, is the
model's order, log entry 43); at the instant nothing but the key records' own writes touches a slot. -/
theorem keyEraseFencesAndItsEffectClearsTheSlot : Obligations.KeyEraseFencesAndItsEffectClearsTheSlot := by
  refine ⟨fun s c tag slot hslot takes => ⟨fun free high installed store => ?_, fun room =>
    ⟨fun busy => ?_, fun free low => ?_, fun free high empty => ?_⟩⟩, fun s slot fence open_ awake_ wf => ?_⟩
  · have ht : HostOnly s.dev (taken 0x41 tag s.dev) := hostOnly_taken ..
    have runs : unlessBusy (keyEraseBody c) (hostRun 0x41 c) (taken 0x41 tag s.dev) =
        runsOn (hostRun 0x41 c) (.erase slot)
          { eraseUnseal slot (taken 0x41 tag s.dev) with epoch.eraseFence := some slot } := by
      rw [unlessBusy_free (ht.busyNow_eq.trans free)]
      simp [keyEraseBody, ← hslot, Nat.not_lt.2 high, ht.slotOf_eq, ht.keyStoreOk_eq, store,
        Option.ne_none_iff_isSome.2 installed]
    have unsealed := sameBut_eraseUnseal slot (taken 0x41 tag s.dev)
    obtain ⟨on, after⟩ := admin_runsOn (buf := []) takes runs (unsealed.adm_eq (by decide))
    refine completes_of_exec_eq_act (f := admin 0x41 c [] (unlessBusy (keyEraseBody c))) rfl ⟨on, ?_, ?_⟩
    · rw [after]
    · rw [after, show s.dev.keys = (taken 0x41 tag s.dev).keys by rw [show taken 0x41 tag s.dev = _ from ht]]
      exact unsealed.keys_eq (by decide)
  · exact keyErase_ends (res := failWith 0x08) takes room fun t h => unlessBusy_busy (h.busyNow_eq.trans busy)
  · exact keyErase_ends (res := failWith 0x80) takes room fun t h => by
      rw [unlessBusy_free (h.busyNow_eq.trans free)]
      simp [keyEraseBody, ← hslot, low]
  · exact keyErase_ends (res := okWith (boundCount s.dev slot) 0) takes room fun t h => by
      rw [unlessBusy_free (h.busyNow_eq.trans free)]
      simp [keyEraseBody, ← hslot, Nat.not_lt.2 high, h.slotOf_eq, empty, h.boundCount_eq]
  · refine completes_of_exec_eq_act (f := fun d => if d.pwr.standby then d else eraseInstant d) rfl ?_
    rw [if_neg (by simp [awake_])]
    exact eraseInstant_slots fence open_ wf

end Sys2Proof.Machine
end

section
/-!
Timers, the end of a command that runs, and the relay of the firmware image (R424 to R429).
-/

namespace Sys2Proof.Machine

/-! ### Timers -/

section
variable (d : Dev) (id j : TimerId)

theorem timerOn_startTimer_same : timerOn (startTimer id d) id = true := by
  simp [timerOn, timerOf, startTimer, List.find?_append]

theorem timerOn_stopTimer_same : timerOn (stopTimer id d) id = false := by
  simp [timerOn, timerOf, stopTimer]

variable {id j}

theorem find?_filter_other (ne : j ≠ id) (l : List Timer) :
    (l.filter fun t => t.id ≠ id).find? (fun t => t.id = j) = l.find? fun t => t.id = j := by
  rw [List.find?_filter]
  congr 1
  funext t
  by_cases h : t.id = j <;> simp [h, ne]

theorem timerOf_stopTimer_other (ne : j ≠ id) : timerOf (stopTimer id d) j = timerOf d j :=
  find?_filter_other ne _

theorem timerOf_startTimer_other (ne : j ≠ id) : timerOf (startTimer id d) j = timerOf d j := by
  have : timerOf (startTimer id d) j = timerOf (stopTimer id d) j := by
    simp [timerOf, startTimer, stopTimer, List.find?_append, ne.symm]
  rw [this, timerOf_stopTimer_other d ne]

theorem timerOn_stopTimer_other (ne : j ≠ id) : timerOn (stopTimer id d) j = timerOn d j := by
  rw [timerOn, timerOf_stopTimer_other d ne, timerOn]

theorem timerOn_startTimer_other (ne : j ≠ id) : timerOn (startTimer id d) j = timerOn d j := by
  rw [timerOn, timerOf_startTimer_other d ne, timerOn]

end

theorem timerOn_congr {d e : Dev} (tb : e.tb.timers = d.tb.timers) (id : TimerId) : timerOn e id = timerOn d id := by
  rw [timerOn, timerOf, tb, timerOn, timerOf]

/-! ### The end of a command that runs -/

/-- The host's command that runs ends with its result, as the completion entry says. -/
theorem finishRun_ends {p : RunKind → Bool} {res : AdmRes} {d : Dev} {r : AdmRun} (run : d.adm.run = some r)
    (kind : p r.kind = true) (host : r.origin = .host) (room : AceRoom d) :
    RunEnds r res.status res.r0 res.r1 d (finishRun p res d) ∧ HostOnly d (finishRun p res d) := by
  have there : AceRoom { d with adm.run := none } := room
  obtain ⟨written, -, none_, entry⟩ := deliver_ace host res there
  have eq : finishRun p res d = deliver r res { d with adm.run := none } := by
    simp [finishRun, run, kind]
  rw [eq]
  exact ⟨⟨written, none_, entry⟩, HostOnly.trans rfl (hostOnly_deliver host ..)⟩

/-! ### Broadcast flits -/

theorem emitCast_eq (type : Nat) (payload : Bytes) (d : Dev) :
    emitCast type payload d =
      { d with out := d.out ++ if ownNode d = 0 ∧ d.regs.casEn = false then [] else [.flit type 0 0 0 0 false payload] } := by
  unfold emitCast
  by_cases quiet : ownNode d = 0 ∧ d.regs.casEn = false
  · rw [if_pos (by simpa using quiet), if_pos quiet, List.append_nil]
  · rw [if_neg (by simpa using quiet), if_neg quiet]
    rfl

/-- The flits of one pass over an image. -/
def imgFlits (image : Bytes) (ks : List Nat) : List OutMsg :=
  ks.map fun k => .flit 11 0 0 0 0 false (imgPayload k (sliceBytes image (7 * k) 7))

theorem foldl_emitCast (image : Bytes) (ks : List Nat) : ∀ d : Dev, d.cas.relayImage = image →
    ks.foldl (fun d k => emitCast 11 (imgPayload k (sliceBytes d.cas.relayImage (7 * k) 7)) d) d =
      { d with out := d.out ++ if ownNode d = 0 ∧ d.regs.casEn = false then [] else imgFlits image ks } := by
  induction ks with
  | nil => intro d _; simp [imgFlits]
  | cons k ks ih =>
    intro d same
    rw [List.foldl_cons, emitCast_eq, ih]
    · unfold ownNode
      by_cases quiet : d.cas.node.toNat = 0 ∧ d.regs.casEn = false <;> simp [quiet, imgFlits, same]
    · exact same

theorem relayPass_eq (d : Dev) :
    relayPass d = startTimer .relayPass { d with
      out := d.out ++ if ownNode d = 0 ∧ d.regs.casEn = false then []
        else imgFlits d.cas.relayImage (List.range ((d.cas.relayImage.length + 6) / 7))
      cas.relayPasses := d.cas.relayPasses + 1 } := by
  unfold relayPass
  simp only [foldl_emitCast _ _ d rfl]

/-! ### PEER_FIRMWARE -/

theorem sliceBytes_whole (bs : Bytes) : sliceBytes bs 0 bs.length = bs := by
  simp [sliceBytes]

/-- The nodes that a PEER_FIRMWARE names and that are absent. -/
def absentNodes (c : AdmCmd) (d : Dev) : Nat :=
  ([1, 2, 3].filter fun n => c.arg0.getLsbD n && !isPresent d n).foldl (fun m n => m + 2 ^ n) 0

theorem HostOnly.absentNodes_eq {d t : Dev} (h : HostOnly d t) (c : AdmCmd) : absentNodes c t = absentNodes c d := by
  rw [show t = _ from h]
  rfl

/-- The device that begins a relay. -/
def relayBegun (mask : Nat) (image : Bytes) (d : Dev) : Dev :=
  relayPass { d with cas.relayMask := BitVec.ofNat 4 mask, cas.relayPasses := 0, cas.relayImage := image }

theorem peerFirmwareBody_starts {c : AdmCmd} {image : Bytes} {r : AdmRun} {d : Dev} (some_ : absentNodes c d ≠ 0)
    (len : image.length = c.len.toNat) :
    peerFirmwareBody c image r d = runsOn r .relayFw (relayBegun (absentNodes c d) image d) := by
  unfold absentNodes at some_
  simp only [peerFirmwareBody, some_, if_false]
  rw [← len, sliceBytes_whole]
  rfl

theorem peerFirmwareBody_idle {c : AdmCmd} {image : Bytes} {r : AdmRun} {d : Dev} (none_ : absentNodes c d = 0) :
    peerFirmwareBody c image r d = ends (okWith 0 0) d := by
  unfold absentNodes at none_
  simp only [peerFirmwareBody, none_, if_true]

theorem targetNode_peerFirmware (c : AdmCmd) : targetNode 0x61 c = some 0 := rfl

/-- Settles O15: each pass and each wait by its equation; the relayed image is the command's buffer. -/
theorem firmwareRelayMakesItsPasses : Obligations.FirmwareRelayMakesItsPasses := by
  refine ⟨fun s c image tag mask takes hmask => ⟨fun none_ room => ?_, fun some_ len => ?_⟩, fun s runs due => ?_,
    fun s runs due few => ?_, fun s r runs due done run kind host room => ?_⟩
  · exact completes_of_ends_self (body := peerFirmwareBody c image) (okWith 0 0) rfl takes room
      (fun t h => peerFirmwareBody_idle ((h.absentNodes_eq c).trans (hmask.symm.trans none_)))
      fun e h => ⟨h.ace, h.frame⟩
  · have ht : HostOnly s.dev (taken 0x61 tag s.dev) := hostOnly_taken ..
    have nodeZero : ownNode s.dev = 0 := Option.some.inj takes.2.2.2.symm
    have absent : absentNodes c (taken 0x61 tag s.dev) = mask := (ht.absentNodes_eq c).trans hmask.symm
    have runs := peerFirmwareBody_starts (r := hostRun 0x61 c) (absent ▸ some_) len
    rw [absent, relayBegun, relayPass_eq] at runs
    obtain ⟨on, after⟩ := admin_runsOn (buf := image) takes runs rfl
    refine completes_of_exec_eq_act (f := admin 0x61 c image (peerFirmwareBody c image)) rfl ⟨on, ?_, ?_⟩
    · rw [after]
      have node : ownNode (taken 0x61 tag s.dev) = 0 := by rw [show taken 0x61 tag s.dev = _ from ht]; exact nodeZero
      have en : (taken 0x61 tag s.dev).regs = s.dev.regs := by rw [show taken 0x61 tag s.dev = _ from ht]
      have out : (taken 0x61 tag s.dev).out = s.dev.out := taken_out ..
      simp only [startTimer_out, ownNode] at node ⊢
      simp only [out, en, node, true_and]
      cases s.dev.regs.casEn <;> rfl
    · rw [after]
      exact ⟨rfl, rfl, rfl, timerOn_startTimer_same ..⟩
  · have eq : relayPassWait s.dev =
        startTimer .relayBeacon (emitCast 12 (natLe 1 (relayMissing s.dev)) (stopTimer .relayPass s.dev)) := by
      simp only [relayPassWait, runs, due]
      rfl
    refine completes_of_exec_eq_act (f := relayPassWait) rfl ?_
    rw [eq, emitCast_eq]
    refine ⟨rfl, ?_, timerOn_startTimer_same .., rfl⟩
    rw [timerOn_startTimer_other _ (by decide)]
    exact timerOn_stopTimer_same s.dev .relayPass
  · have eq : relayBeaconWait s.dev = relayPass (stopTimer .relayBeacon s.dev) := by
      simp only [relayBeaconWait, runs, due]
      exact if_pos few
    refine completes_of_exec_eq_act (f := relayBeaconWait) rfl ?_
    rw [eq, relayPass_eq]
    refine ⟨rfl, timerOn_startTimer_same .., ?_, rfl⟩
    rw [timerOn_startTimer_other _ (by decide)]
    exact timerOn_stopTimer_same s.dev .relayBeacon
  · have eq : relayBeaconWait s.dev = finishRun (· = .relayFw)
        { status := 0x76, r0 := ([1, 2, 3].filter fun n => s.dev.cas.relayMask.getLsbD n && isPresent s.dev n).length }
        { stopTimer .relayBeacon s.dev with cas.relayPasses := 0, cas.relayImage := [] } := by
      simp only [relayBeaconWait, runs, due]
      exact if_neg (Nat.not_lt.2 done)
    refine completes_of_exec_eq_act (f := relayBeaconWait) rfl ?_
    obtain ⟨ends_, frame⟩ := finishRun_ends (p := (· = .relayFw))
      (res := { status := 0x76, r0 := ([1, 2, 3].filter fun n => s.dev.cas.relayMask.getLsbD n && isPresent s.dev n).length })
      (d := { stopTimer .relayBeacon s.dev with cas.relayPasses := 0, cas.relayImage := [] })
      run (by simp [kind]) host room
    rw [eq]
    refine ⟨?_, ?_, ends_⟩
    · rw [show finishRun _ _ _ = _ from frame]
    · rw [show finishRun _ _ _ = _ from frame]

end Sys2Proof.Machine
end

section
/-!
Units of the cascade ring that arrive in their turn (R415 to R420).
-/

namespace Sys2Proof.Machine

/-! ### Peers -/

theorem tblFind_adjust_same {α : Type} (t : Tbl α) (k : Nat) (f : α → α) :
    tblFind (tblAdjust t k f) k = (tblFind t k).map f := by
  induction t with
  | nil => rfl
  | cons x t ih =>
    by_cases here : x.1 = k
    · simp [tblAdjust, tblFind, here]
    · simpa [tblAdjust, tblFind, here] using ih

theorem tblFind_adjust_other {α : Type} (t : Tbl α) {k j : Nat} (f : α → α) (ne : j ≠ k) :
    tblFind (tblAdjust t k f) j = tblFind t j := by
  induction t with
  | nil => rfl
  | cons x t ih =>
    by_cases here : x.1 = k
    · simpa [tblAdjust, tblFind, here, ne.symm] using ih
    · by_cases there : x.1 = j
      · simp [tblAdjust, tblFind, there, ne]
      · simpa [tblAdjust, tblFind, here, there] using ih

theorem peerOf_of_find {d : Dev} {n : Nat} {p : Peer} (h : tblFind d.cas.peers n = some p) : peerOf d n = p := by
  rw [peerOf, tblGet, h]
  rfl

/-- A present node is listed. -/
theorem find_of_isPresent {d : Dev} {n : Nat} (h : isPresent d n = true) : tblFind d.cas.peers n = some (peerOf d n) := by
  cases found : tblFind d.cas.peers n with
  | some p => rw [peerOf_of_find found]
  | none => simp [isPresent, peerOf, tblGet, found] at h

/-- A peer apart from the state of what is sent to it. -/
def rxSide (p : Peer) : Peer :=
  { p with
    flitsSent := 0, txSeq := 0, unacked := [], waiting := [], attempts := 0, retrying := false, ackDue := false
    credits := 0, owedCredits := 0, abortQ := [] }

/-- The peers are the same but for the state of what is sent to them. -/
structure SendsOnly (d e : Dev) : Prop where
  peers : ∀ n, (tblFind e.cas.peers n).map rxSide = (tblFind d.cas.peers n).map rxSide

theorem SendsOnly.of_same {d e : Dev} (h : e.cas.peers = d.cas.peers) : SendsOnly d e := ⟨fun n => by rw [h]⟩

theorem SendsOnly.trans {a b c : Dev} (h : SendsOnly a b) (k : SendsOnly b c) : SendsOnly a c :=
  ⟨fun n => (k.peers n).trans (h.peers n)⟩

theorem SendsOnly.peerOf {d e : Dev} (h : SendsOnly d e) (n : Nat) : rxSide (peerOf e n) = rxSide (peerOf d n) := by
  have := h.peers n
  unfold Machine.peerOf tblGet
  cases he : tblFind e.cas.peers n <;> cases hd : tblFind d.cas.peers n <;> rw [he, hd] at this <;> simp_all

theorem sendsOnly_onPeer {f : Peer → Peer} (n : Nat) (d : Dev) (sends : ∀ p, rxSide (f p) = rxSide p) :
    SendsOnly d (onPeer n f d) := by
  refine ⟨fun m => ?_⟩
  unfold onPeer
  by_cases here : m = n
  · subst here
    rw [tblFind_adjust_same, Option.map_map]
    congr 1
    exact funext sends
  · rw [tblFind_adjust_other _ _ here]

theorem sendsOnly_put {d : Dev} {n : Nat} {p q : Peer} (found : tblFind d.cas.peers n = some p)
    (sends : rxSide q = rxSide p) : SendsOnly d { d with cas.peers := tblPut d.cas.peers n q } := by
  refine ⟨fun m => ?_⟩
  by_cases here : m = n
  · subst here
    simp only [tblFind_put_same, found, Option.map_some, sends]
  · simp only [tblFind_put_other _ _ here]

theorem sendsOnly_emitFlit (type n seq : Nat) (payload : Bytes) (d : Dev) : SendsOnly d (emitFlit type n seq payload d) := by
  unfold emitFlit
  split
  · exact .of_same rfl
  next p found =>
    exact (sendsOnly_put (q := { p with owedCredits := p.owedCredits - min p.owedCredits 15, ackDue := false }) found rfl).trans
      (.of_same rfl)

theorem sendsOnly_ite {c : Prop} [Decidable c] {d a b : Dev} (ha : SendsOnly d a) (hb : SendsOnly d b) :
    SendsOnly d (if c then a else b) := by
  split
  · exact ha
  · exact hb

theorem sendsOnly_sendItems (src : Option Producer) (n type : Nat) (payload : Bytes) (d : Dev) :
    SendsOnly d (sendItems src n type payload d) := by
  unfold sendItems
  split
  · exact .of_same rfl
  next p found =>
    extract_lets +onlyGivenNames units used f
    split
    · exact .of_same rfl
    · split
      · extract_lets +onlyGivenNames _ d1 d2
        have h1 : SendsOnly d d1 := sendsOnly_put found rfl
        have h2 : SendsOnly d1 d2 := sendsOnly_ite (.of_same rfl) (.of_same rfl)
        exact h1.trans (h2.trans (sendsOnly_emitFlit ..))
      · exact sendsOnly_put found rfl

theorem sendsOnly_sendAbort (n qid : Nat) (d : Dev) : SendsOnly d (sendAbort n qid d) :=
  sendsOnly_ite (sendsOnly_onPeer _ _ fun _ => by rfl)
    ((sendsOnly_onPeer _ _ fun _ => by rfl).trans (sendsOnly_sendItems ..))

theorem sendsOnly_pumpPeer (fuel n : Nat) : ∀ d, SendsOnly d (pumpPeer fuel n d) := by
  induction fuel with
  | zero => intro d; exact .of_same rfl
  | succ fuel ih =>
    intro d
    unfold pumpPeer
    split
    · exact .of_same rfl
    · exact sendsOnly_ite ((sendsOnly_onPeer _ _ fun _ => by rfl).trans ((sendsOnly_sendItems ..).trans
        ((sendsOnly_onPeer _ _ fun _ => by rfl).trans (ih _)))) (.of_same rfl)

theorem sendsOnly_sendAborts (fuel n : Nat) : ∀ d, SendsOnly d (sendAborts fuel n d) := by
  induction fuel with
  | zero => intro d; exact .of_same rfl
  | succ fuel ih =>
    intro d
    unfold sendAborts
    simp only []
    split
    · exact .of_same rfl
    · exact sendsOnly_ite (.of_same rfl)
        ((sendsOnly_onPeer _ _ fun _ => by rfl).trans ((sendsOnly_sendAbort ..).trans (ih _)))

theorem sendsOnly_pumpNode (n : Nat) (d : Dev) : SendsOnly d (pumpNode n d) :=
  (sendsOnly_pumpPeer ..).trans (sendsOnly_sendAborts ..)

theorem sendsOnly_applyAck (n ack crd : Nat) (d : Dev) : SendsOnly d (applyAck n ack crd d) := by
  unfold applyAck
  extract_lets +onlyGivenNames p left moved d1 d2
  have h1 : SendsOnly d d1 := sendsOnly_onPeer _ _ fun _ => by rfl
  have h2 : SendsOnly d1 d2 := sendsOnly_ite (.of_same rfl) (sendsOnly_ite (.of_same rfl) (.of_same rfl))
  have h3 : SendsOnly d2 (pumpNode n d2) := sendsOnly_pumpNode n d2
  have h4 : SameBut [.timers] (pumpNode n d2) (settlePauses (pumpNode n d2)) := mask_settlePauses (by decide) _
  exact h1.trans (h2.trans (h3.trans (.of_same (by rw [h4.cas_eq (by decide) (by decide)]))))

theorem sendsOnly_takeHeader (h : FlitHdr) (d : Dev) : SendsOnly d (takeHeader h d) :=
  sendsOnly_ite (sendsOnly_applyAck ..) (.of_same rfl)

/-! ### A unit in its turn -/

theorem sameBut_takeHeader (h : FlitHdr) (d : Dev) : SameBut [.timers, .out, .peers] d (takeHeader h d) :=
  mask_takeHeader (by decide) (by decide) (by decide) h d

theorem sameBut_accepted (h : FlitHdr) (payload : Bytes) (d : Dev) : SameBut [.timers, .out, .peers] d (accepted h payload d) :=
  (sameBut_takeHeader h d).trans (mask_onPeer (by decide) ..)

theorem heard_of_up {d : Dev} (up : d.cas.up = true) (trained : d.cas.training = false) : heard d = d := by
  unfold heard
  rw [trained, up]
  split <;> rfl

/-- The ring's own state apart from its peers is as it was. -/
theorem accepted_cas (h : FlitHdr) (payload : Bytes) (d : Dev) :
    (accepted h payload d).cas.held = d.cas.held ∧
      (accepted h payload d).cas.standbyAfterRsp = d.cas.standbyAfterRsp ∧
      (accepted h payload d).cas.node = d.cas.node ∧ (accepted h payload d).cas.up = d.cas.up ∧
      (accepted h payload d).cas.nextTag = d.cas.nextTag ∧ (accepted h payload d).cas.lastRsp = d.cas.lastRsp := by
  obtain ⟨x, eq⟩ := (sameBut_accepted h payload d).casApart_eq (by decide)
  rw [eq]
  exact ⟨rfl, rfl, rfl, rfl, rfl, rfl⟩

/-- A sequenced unit that comes in its turn is accepted and serviced. -/
theorem receive_inTurn {h : FlitHdr} {d : Dev} (turn : InTurn h d) (type : Nat) (payload : Bytes) (reply : Bool)
    (f : Nat → Dev → Dev) :
    receive h type payload reply f d = standbyCheck (f h.src.toNat (accepted h payload d)) := by
  obtain ⟨⟨ring, firmware, up, trained, held, standby, dst, src, present⟩, seq⟩ := turn
  have rx : (peerOf (takeHeader h d) h.src.toNat).rxSeq = (peerOf d h.src.toNat).rxSeq :=
    (congrArg Peer.rxSeq ((sendsOnly_takeHeader h d).peerOf h.src.toNat) :)
  unfold receive routed accept
  simp [ring, heard_of_up up trained, src, dst, present, trained, rx, seq, accepted]

theorem whenFirmware_inTurn {h : FlitHdr} {d : Dev} (turn : InTurn h d) (payload : Bytes) (i : Instr) (f : Dev → Dev) :
    whenFirmware i f (accepted h payload d) = f (accepted h payload d) := by
  obtain ⟨⟨-, firmware, -, -, held, -⟩, -⟩ := turn
  have runs : fwExec (accepted h payload d) = fwExec d := by
    rw [(sameBut_accepted h payload d).eq]
    rfl
  obtain ⟨held_, -⟩ := accepted_cas h payload d
  simp [whenFirmware, runs, firmware, held_, held]

end Sys2Proof.Machine
end

section
/-!
Opcodes that no row lists, and commands for other nodes (R273, R446 to R450).
-/

namespace Sys2Proof.Machine

/-! ### An opcode that R274 does not list -/

theorem carriesQid_of_notListed {op : Nat} {c : AdmCmd} (unlisted : op ∉ opcodes) : carriesQid op c = false := by
  simp only [opcodes, List.mem_cons, List.not_mem_nil, or_false, not_or] at unlisted
  simp [carriesQid, unlisted]
  omega

theorem takes_of_notListed {op tag : Nat} {c : AdmCmd} {d : Dev} (unlisted : op ∉ opcodes) (fetch : d.adm.fetch = some tag)
    (runs : fwExec d = true) (node : ownNode d = 0) : Takes op { c with flags := 0, addr := 0, len := 0 } tag d := by
  refine ⟨fetch, runs, by simp [cmdShape], ?_⟩
  rw [targetNode, carriesQid_of_notListed unlisted, node]
  split <;> simp [bitsOf]

/-! ### A command for another node -/

/-- A command for another node is relayed (R446, R447). -/
theorem admin_relays {op tag n : Nat} {c : AdmCmd} {d : Dev} (fetch : d.adm.fetch = some tag) (runs : fwExec d = true)
    (shape : cmdShape c = true) (target : targetNode op c = some n) (other : n ≠ ownNode d) (buf : Bytes)
    (body : AdmRun → Dev → Dev × Option AdmRes) :
    admin op c buf body d = runBody (hostRun op c) (relay op n c buf) (taken op tag d) := by
  unfold ownNode at other
  unfold admin taken
  cases untimed op <;> simp [fetch, runs, shape, target, other, hostRun, ownNode]

/-- The device that has sent a CMD unit and waits for its RSP. -/
def relaying (op n : Nat) (c : AdmCmd) (buf : Bytes) (d : Dev) : Dev :=
  sendSeq n 9 (cmdPayload (d.cas.nextTag % 65536) false (cmdBytes op c ++ buf))
    { d with cas.nextTag := d.cas.nextTag % 65536 + 1 }

theorem runBody_relay {op n : Nat} {c : AdmCmd} {buf : Bytes} {r : AdmRun} {d : Dev}
    (present : (tblGet {} d.cas.peers n).st = .present) :
    runBody r (relay op n c buf) d = settlePauses
      { relaying op n c buf d with adm.run := some { r with kind := .relay n (d.cas.nextTag % 65536) false } } := by
  have eq : relay op n c buf r d =
      (settlePauses { relaying op n c buf d with adm.run := some { r with kind := .relay n (d.cas.nextTag % 65536) false } },
        none) := if_neg (not_not.2 present)
  rw [runBody, eq]

theorem relay_lost {op n : Nat} {c : AdmCmd} {buf : Bytes} {r : AdmRun} {d : Dev}
    (absent : (tblGet {} d.cas.peers n).st ≠ .present) : relay op n c buf r d = ends (failWith 0x71) d := if_pos absent

/-- A unit goes out at once when nothing waits for the window and nothing is in it (R419). -/
theorem sendSeq_emits {d : Dev} {n : Nat} {p : Peer} (found : tblFind d.cas.peers n = some p) (present : p.st = .present)
    (up : d.cas.up = true) (waiting : p.waiting = []) (unacked : p.unacked = []) (type : Nat) (payload : Bytes) :
    ∃ ack crd, OutMsg.flit type n p.txSeq ack crd true payload ∈ (sendSeq n type payload d).out := by
  refine ⟨p.rxSeq, min p.owedCredits 15, ?_⟩
  simp [sendSeq, sendItems, found, present, up, waiting, unacked, emitFlit, emit, startTimer, tblFind_put_same]

theorem sameBut_relaying (op n : Nat) (c : AdmCmd) (buf : Bytes) (d : Dev) :
    SameBut [.timers, .out, .cas, .peers] d (relaying op n c buf d) :=
  (mask_sendSeq (by decide) (by decide) (by decide) ..).trans (mask_set_cas d (by decide) _)

theorem relaying_nextTag (op n : Nat) (c : AdmCmd) (buf : Bytes) (d : Dev) :
    (relaying op n c buf d).cas.nextTag = d.cas.nextTag % 65536 + 1 := by
  have same : SameBut [.timers, .out, .peers] { d with cas.nextTag := d.cas.nextTag % 65536 + 1 }
      (relaying op n c buf d) := mask_sendSeq (by decide) (by decide) (by decide) ..
  obtain ⟨x, eq⟩ := same.casApart_eq (by decide)
  rw [eq]

/-- What a relayed command has made of the device. -/
theorem relayed_waits {op n : Nat} {c : AdmCmd} {buf : Bytes} {d t : Dev} (ht : HostOnly d t) (cas : t.cas = d.cas)
    (present : (tblGet {} d.cas.peers n).st = .present)
    (adm : t.adm = { d.adm with fetch := none, fetched := d.adm.fetched + 1 }) :
    let e := settlePauses
      { relaying op n c buf t with adm.run := some { hostRun op c with kind := .relay n (t.cas.nextTag % 65536) false } }
    RunsOn op c (.relay n (d.cas.nextTag % 65536) false) d e ∧
      e.cas.nextTag = d.cas.nextTag % 65536 + 1 ∧ e.queues = d.queues ∧ e.stage = d.stage ∧
      (d.cas.up = true → (tblGet {} d.cas.peers n).waiting = [] → (tblGet {} d.cas.peers n).unacked = [] →
        ∃ ack crd, OutMsg.flit 9 n (tblGet {} d.cas.peers n).txSeq ack crd true
          (cmdPayload (d.cas.nextTag % 65536) false (cmdBytes op c ++ buf)) ∈ e.out) := by
  intro e
  have paused : SameBut [.timers]
      { relaying op n c buf t with adm.run := some { hostRun op c with kind := .relay n (t.cas.nextTag % 65536) false } } e :=
    mask_settlePauses (by decide) _
  have sent := sameBut_relaying op n c buf t
  refine ⟨?_, ?_, ?_, ?_, fun up waiting unacked => ?_⟩
  · rw [RunsOn, paused.adm_eq (by decide)]
    dsimp only
    rw [sent.adm_eq (by decide), adm, cas]
  · rw [paused.cas_eq (by decide) (by decide)]
    exact (relaying_nextTag ..).trans (by rw [cas])
  · rw [paused.queues_eq (by decide)]
    exact (sent.queues_eq (by decide)).trans (by rw [show t = _ from ht])
  · rw [paused.stage_eq (by decide)]
    exact (sent.stage_eq (by decide)).trans (by rw [show t = _ from ht])
  · rw [paused.out_eq (by decide)]
    rw [← cas] at present up waiting unacked ⊢
    have listed : tblFind t.cas.peers n = some (tblGet {} t.cas.peers n) :=
      find_of_isPresent (d := t) (by rw [isPresent, peerOf, present]; rfl)
    have emitted := sendSeq_emits (d := { t with cas.nextTag := t.cas.nextTag % 65536 + 1 }) listed present
      up waiting unacked 9 (cmdPayload (t.cas.nextTag % 65536) false (cmdBytes op c ++ buf))
    exact emitted

/-! ### A peer executes a relayed command -/

theorem runBody_ring {r : AdmRun} {body : AdmRun → Dev → Dev × Option AdmRes} {d : Dev} {src tag : Nat}
    (ring : r.origin = .ring src tag) :
    runBody r body d = match (body r d).2 with
      | none => (body r d).1
      | some res => answerRing r.opcode src tag res (stopTimer .admin (logOutcome r res (body r d).1)) := by
  unfold runBody deliver
  simp only [ring]
  cases (body r d).2 <;> rfl

theorem relayedBody_invalid {op : Nat} (unlisted : op ∉ opcodes) (c : AdmCmd) (buf : Bytes) (ew : List (Nat × BitVec 2)) :
    relayedBody op c buf ew = invalidBody := by
  simp only [opcodes, List.mem_cons, List.not_mem_nil, or_false, not_or] at unlisted
  simp only [relayedBody, unlisted, if_false]

theorem cmd_inTurn {h : FlitHdr} {p : CmdPl} {d : Dev} (turn : InTurn h d) :
    receive h 9 (cmdUnitBytes p) false (fun src d => whenFirmware (.cmd h p) (cmdTaken p src) d) d =
      standbyCheck (cmdTaken p h.src.toNat (accepted h (cmdUnitBytes p) d)) := by
  rw [receive_inTurn turn, whenFirmware_inTurn turn]

theorem cmdTaken_idle {p : CmdPl} {src : Nat} {d : Dev} (execute : p.abandon = false) (idle : d.adm.run = none) :
    cmdTaken p src d = runBody
      { opcode := p.opcode.toNat, cid := p.cmd.cid, addr := p.cmd.addr.toNat, len := p.cmd.len.toNat
        origin := .ring src p.tag.toNat, kind := .commit }
      (relayedBody p.opcode.toNat p.cmd p.buf p.peerEw) d := by
  simp [cmdTaken, execute, idle]

/-! ### The answer at node 0 -/

/-- The result that an RSP unit carries. -/
def rspRes (p : RspPl) (r : AdmRun) : AdmRes :=
  { status := p.status.toNat, r0 := p.result0.toNat, r1 := p.result1.toNat
    record := if p.record.isEmpty then none else some (r.addr, p.record) }

theorem rspTaken_delivers {p : RspPl} {src : Nat} {d : Dev} {r : AdmRun} {ab : Bool} (run : d.adm.run = some r)
    (kind : r.kind = .relay src p.tag.toNat ab) : rspTaken p src d = deliver r (rspRes p r) { d with adm.run := none } := by
  simp [rspTaken, run, kind, rspRes]

theorem standbyCheck_quiet {d : Dev} (quiet : d.cas.standbyAfterRsp = false) : standbyCheck d = d := by
  simp [standbyCheck, quiet]

/-- Settles O16: the layouts of CMD and RSP bodies are those of log entry 42. -/
theorem otherOpcodesAndOtherNodes : Obligations.OtherOpcodesAndOtherNodes := by
  refine ⟨fun s op c tag unlisted fetch runs node room => ?_, fun s op c buf tag n listed fetch runs shape target other =>
    ⟨fun absent room => ?_, fun present => ?_⟩, fun s h p src r hsrc turn execute idle hr => ?_,
    fun s h p r ab turn room run kind host => ?_⟩
  · have takes := takes_of_notListed (c := c) unlisted fetch runs node
    have eq : invalidOpcode op.toNat c s.dev =
        admin op.toNat { c with flags := 0, addr := 0, len := 0 } [] invalidBody s.dev := if_neg unlisted
    obtain ⟨ace, frame⟩ := admin_ends (buf := []) (res := failWith 0x01) (body := invalidBody) takes room rfl rfl
      (taken_canIssue ..) (taken_mps ..)
    refine completes_of_exec_eq_act (f := invalidOpcode op.toNat c) rfl ?_
    rw [eq]
    exact ⟨ace, (hostOnly_taken ..).trans frame⟩
  · have eq : relayedCommand op.toNat c buf s.dev = runBody (hostRun op.toNat c) (relay op.toNat n c buf) (taken op.toNat tag s.dev) := by
      rw [← admin_relays fetch runs shape target other buf invalidBody]
      exact if_pos (by simp [listed, target, other])
    have ended : Ended c (failWith 0x71) s.dev s.dev _ := ended_of_runBody (op := op.toNat) (tag := tag)
      (body := relay op.toNat n c buf) (F := fun d => d) (c := c) room
      (fun t h => relay_lost (by rw [show t = _ from h]; exact absent)) commutesWithHost_id keepsHost_id
    refine completes_of_exec_eq_act (f := relayedCommand op.toNat c buf) rfl ?_
    rw [eq]
    exact ⟨ended.ace, ended.frame⟩
  · have eq : relayedCommand op.toNat c buf s.dev = runBody (hostRun op.toNat c) (relay op.toNat n c buf) (taken op.toNat tag s.dev) := by
      rw [← admin_relays fetch runs shape target other buf invalidBody]
      exact if_pos (by simp [listed, target, other])
    have ht : HostOnly s.dev (taken op.toNat tag s.dev) := hostOnly_taken ..
    have cas : (taken op.toNat tag s.dev).cas = s.dev.cas := by rw [show taken op.toNat tag s.dev = _ from ht]
    refine completes_of_exec_eq_act (f := relayedCommand op.toNat c buf) rfl ?_
    rw [eq, runBody_relay (cas ▸ present)]
    exact relayed_waits ht cas present (taken_adm ..)
  · subst hsrc hr
    have eq : receive h 9 (cmdUnitBytes p) false (fun src d => whenFirmware (.cmd h p) (cmdTaken p src) d) s.dev =
        standbyCheck (runBody
          { opcode := p.opcode.toNat, cid := p.cmd.cid, addr := p.cmd.addr.toNat, len := p.cmd.len.toNat
            origin := .ring h.src.toNat p.tag.toNat, kind := .commit }
          (relayedBody p.opcode.toNat p.cmd p.buf p.peerEw)
          (accepted h (cmdUnitBytes p) s.dev)) := by
      rw [cmd_inTurn turn, cmdTaken_idle execute]
      rw [(sameBut_accepted h (cmdUnitBytes p) s.dev).adm_eq (by decide)]
      exact idle
    refine ⟨fun none_ => ?_, fun res some_ => ?_, fun unlisted => by rw [relayedBody_invalid unlisted]; rfl⟩
    · refine completes_of_exec_eq_act (f := fun d => govTrack (receive h 9 (cmdUnitBytes p) false
        (fun src d => whenFirmware (.cmd h p) (cmdTaken p src) d) d)) rfl ?_
      rw [eq, runBody_ring rfl, none_]
    · refine completes_of_exec_eq_act (f := fun d => govTrack (receive h 9 (cmdUnitBytes p) false
        (fun src d => whenFirmware (.cmd h p) (cmdTaken p src) d) d)) rfl ?_
      rw [eq, runBody_ring rfl, some_]
  · have same := sameBut_accepted h (rspUnitBytes p) s.dev
    have adm : (accepted h (rspUnitBytes p) s.dev).adm = s.dev.adm := same.adm_eq (by decide)
    have issue : canIssue (accepted h (rspUnitBytes p) s.dev) = canIssue s.dev :=
      same.canIssue_eq (by decide) (by decide) (by decide)
    have mps := same.mps_eq (by decide)
    obtain ⟨full, out, size, base⟩ := room
    have there : AceRoom { accepted h (rspUnitBytes p) s.dev with adm.run := none } :=
      ⟨by simpa [admFull, adm] using full, issue.trans out, by rw [mps]; exact size, by simpa [adm] using base⟩
    obtain ⟨written, -, none_, entry⟩ := deliver_ace host (rspRes p r) there
    have frame := hostOnly_deliver host (rspRes p r) { accepted h (rspUnitBytes p) s.dev with adm.run := none }
    have quiet : (deliver r (rspRes p r) { accepted h (rspUnitBytes p) s.dev with adm.run := none }).cas.standbyAfterRsp = false := by
      rw [frame]
      exact (accepted_cas ..).2.1.trans turn.1.2.2.2.2.2.1
    have eq : receive h 10 (rspUnitBytes p) true (fun src d => whenFirmware (.rsp h p) (rspTaken p src) d) s.dev =
        deliver r (rspRes p r) { accepted h (rspUnitBytes p) s.dev with adm.run := none } := by
      rw [receive_inTurn turn, whenFirmware_inTurn turn, rspTaken_delivers (adm ▸ run) kind, standbyCheck_quiet quiet]
    refine completes_of_exec_eq_act (f := fun d => receive h 10 (rspUnitBytes p) true
      (fun src d => whenFirmware (.rsp h p) (rspTaken p src) d) d) rfl ?_
    rw [eq]
    refine ⟨⟨?_, none_, ?_⟩, fun some_ => ?_, ?_, ?_, ?_⟩
    · simpa [adm] using written
    · simpa [adm, rspRes] using entry
    · have record : (rspRes p r).record = some (r.addr, p.record) := by simp [rspRes, some_]
      have := deliver_record host record there.2.1
      unfold RecordWritten at this ⊢
      rwa [show ({ accepted h (rspUnitBytes p) s.dev with adm.run := none } : Dev).link.mps = s.dev.link.mps from mps] at this
    · rw [frame]; exact same.queues_eq (by decide)
    · rw [frame]; exact same.tier_eq (by decide)
    · rw [frame]; exact same.stage_eq (by decide)

end Sys2Proof.Machine
end

section
/-!
HIF_ADMIN_TIMEOUT (R278).
-/

namespace Sys2Proof.Machine

/-- The command in execution ends with TIMEOUT on what its abandoning has left. -/
theorem abandoned_ends {d : Dev} {r : AdmRun} (k : RunKind) (host : r.origin = .host)
    (room : AceRoom d) (adm : (abandon k { d with adm.run := none }).adm = { d.adm with run := none })
    (issue : canIssue (abandon k { d with adm.run := none }) = canIssue d)
    (mps : (abandon k { d with adm.run := none }).link.mps = d.link.mps) :
    let e := deliver r (failWith 0x07) (abandon k { d with adm.run := none })
    RunEnds r 0x07 0 0 d e ∧ HostOnly (abandon k { d with adm.run := none }) e := by
  intro e
  obtain ⟨full, out, size, base⟩ := room
  have there : AceRoom (abandon k { d with adm.run := none }) :=
    ⟨by simpa [admFull, adm] using full, issue.trans out, by omega, by simpa [adm] using base⟩
  obtain ⟨written, -, none_, entry⟩ := deliver_ace host (failWith 0x07) there
  refine ⟨⟨?_, ?_, ?_⟩, hostOnly_deliver host ..⟩
  · simpa [adm] using written
  · simpa [adm] using none_
  · rw [adm] at entry
    exact entry

theorem adminTimeout_abandons {d : Dev} {r : AdmRun} (due : timerDue d .admin d.regs.adminTimeout = true)
    (run : d.adm.run = some r) (kind : r.kind = .commit ∨ ∃ qid, r.kind = .round qid) :
    adminTimeout d = deliver r (failWith 0x07) (abandon r.kind { d with adm.run := none }) := by
  simp only [adminTimeout, due, run]
  rcases kind with kind | ⟨qid, kind⟩ <;> rw [kind] <;> rfl

/-- Settles O17: what is abandoned is undone before the entry is written, on the host side alone. A command still being
read completes too (log entry 28). -/
theorem adminTimeoutAbandonsTheCommand : Obligations.AdminTimeoutAbandonsTheCommand := by
  refine ⟨fun s r qid due run host kind room wf => ?_, fun s r due run host kind room => ?_, fun s r run kind => ?_,
    fun s tag due idle fetch room => ?_⟩
  · refine completes_of_exec_eq_act (f := adminTimeout) rfl ?_
    obtain ⟨ends_, frame⟩ := abandoned_ends (.round qid) host room rfl rfl rfl
    rw [adminTimeout_abandons due run (.inr ⟨qid, kind⟩), kind]
    refine ⟨ends_, ?_, fun j ne => ?_, ?_⟩
    · exact (frame.queueOf_eq qid).trans (queueOf_on_same (d := { s.dev with adm.run := none }) wf ..)
    · exact (frame.queueOf_eq j).trans (queueOf_on_other { s.dev with adm.run := none } _ ne)
    · rw [frame]
      rfl
  · refine completes_of_exec_eq_act (f := adminTimeout) rfl ?_
    obtain ⟨ends_, frame⟩ := abandoned_ends .commit host room rfl rfl rfl
    rw [adminTimeout_abandons due run (.inl kind), kind]
    exact ⟨ends_, HostOnly.trans rfl frame⟩
  · refine completes_of_exec_eq_act (f := adminTimeout) rfl ?_
    simp only [adminTimeout, run]
    rcases kind with kind | kind <;> rw [kind] <;> simp
  · refine completes_of_exec_eq_act (f := adminTimeout) rfl ?_
    have eq : adminTimeout s.dev = deliver (unreadRun (takeFree s.dev).1) (failWith 0x07)
        (takeFree (forsake .admin { s.dev with adm.fetch := none, adm.fetched := s.dev.adm.fetched + 1 })).2 := by
      simp only [adminTimeout, due, idle, fetch]
      rfl
    have there : AceRoom (takeFree (forsake .admin { s.dev with adm.fetch := none, adm.fetched := s.dev.adm.fetched + 1 })).2 := room
    obtain ⟨written, fetched, run, -⟩ := deliver_ace (r := unreadRun (takeFree s.dev).1) rfl (failWith 0x07) there
    rw [eq]
    refine ⟨run.trans idle, written, fetched, ?_⟩
    have frame := hostOnly_deliver (r := unreadRun (takeFree s.dev).1) rfl (failWith 0x07)
      (takeFree (forsake .admin { s.dev with adm.fetch := none, adm.fetched := s.dev.adm.fetched + 1 })).2
    rw [frame]
    rfl

end Sys2Proof.Machine
end

section
/-!
PACE, its governor, and the sources of the time base.
-/

namespace Sys2Proof.Machine

/-! ### PACE -/

/-- The power state with the step that leads toward a goal, when none is in progress. -/
def steppedTo (goal : Nat) (p : Pwr) : Pwr :=
  { p with stepTo := if p.stepTo.isSome || goal = p.paceNow then p.stepTo
                     else some (if p.paceNow < goal then p.paceNow + 1 else p.paceNow - 1) }

theorem sameBut_paceStep (goal : Nat) (d : Dev) : SameBut [.pwr, .timers] d (paceStep goal d) := by
  unfold paceStep
  split
  · rfl
  · rw [SameBut, mask_stopWindows (by simp), mask_set_pwr _ (by simp)]

theorem paceStep_pwr (goal : Nat) (d : Dev) : (paceStep goal d).pwr = steppedTo goal d.pwr := by
  unfold paceStep steppedTo
  split
  · rfl
  · rfl

theorem govRefresh_pwr (d : Dev) : (govRefresh d).pwr = d.pwr :=
  SameBut.pwr_eq (S := [.timers]) (mask_govRefresh (by simp) d) (by decide)

theorem sameBut_paceNext (d : Dev) : SameBut [.pwr, .timers] d (paceNext d) :=
  (mask_govRefresh (by simp) _).trans (sameBut_paceStep _ d)

theorem paceNext_pwr (d : Dev) : (paceNext d).pwr = steppedTo (paceGoal d.pwr) d.pwr :=
  (govRefresh_pwr _).trans (paceStep_pwr _ d)

/-- New settings of PACE: a step toward the goal, and nothing but PACE and the windows changes. -/
theorem paceNext_set {d : Dev} (p : Pwr) (e : Dev) (settled : SameBut [.pwr, .timers] d e) (pwr : e.pwr = p) :
    (paceNext e).pwr = steppedTo (paceGoal p) p ∧ SameBut [.pwr, .timers] d (paceNext e) :=
  ⟨pwr ▸ paceNext_pwr e, settled.trans (sameBut_paceNext e)⟩

theorem steppedTo_up {p : Pwr} (still : p.stepTo = none) :
    steppedTo (p.paceNow + 1) p = { p with stepTo := some (p.paceNow + 1) } := by
  simp [steppedTo, still]

theorem steppedTo_down {p : Pwr} (still : p.stepTo = none) (above : 0 < p.paceNow) :
    steppedTo (p.paceNow - 1) p = { p with stepTo := some (p.paceNow - 1) } := by
  have other : p.paceNow - 1 ≠ p.paceNow := by omega
  have below : ¬ p.paceNow < p.paceNow - 1 := by omega
  simp [steppedTo, still, other, below]

theorem clampTo_window (v : BitVec 16) : clampTo 1 65535 v.toNat = max 1 v.toNat := by
  have := v.isLt
  unfold clampTo
  omega

/-- Settles O19: each setting ends in `paceNext`, and an expired window in `paceStep`. -/
theorem paceMovesOneStepTowardItsGoal : Obligations.PaceMovesOneStepTowardItsGoal := by
  refine ⟨fun s v reach => ?_, fun s v reach => ?_, fun s lo hi reach => ?_, fun s up down reach => ?_,
    fun s n step => ?_, fun s gov busy due still room => ?_, fun s gov idle due still room => ?_⟩
  · refine completes_of_exec_eq_act rfl ?_
    rw [if_pos reach]
    obtain ⟨pwr, same⟩ := paceNext_set _ { s.dev with pwr.pace := v.toNat } (mask_set_pwr _ (by simp) _) rfl
    exact ⟨pwr, same.eq⟩
  · refine completes_of_exec_eq_act rfl ?_
    rw [if_pos reach]
    obtain ⟨pwr, same⟩ := paceNext_set _ { s.dev with pwr.govEn := v } (mask_set_pwr _ (by simp) _) rfl
    exact ⟨pwr, same.eq⟩
  · refine completes_of_exec_eq_act rfl ?_
    rw [if_pos reach]
    obtain ⟨pwr, same⟩ := paceNext_set _ { s.dev with pwr.paceMin := lo.toNat, pwr.paceMax := hi.toNat }
      (mask_set_pwr _ (by simp) _) rfl
    exact ⟨pwr, same.eq⟩
  · refine completes_of_exec_eq_act rfl ?_
    rw [if_pos reach, setWindows, clampTo_window, clampTo_window]
  · refine completes_of_exec_eq_act (f := paceSettled) rfl ?_
    have settled : paceSettled s.dev = paceNext (stopWindows
        { s.dev with pwr.paceNow := n, pwr.vcore := vcoreOf n, pwr.stepTo := none }) := by
      unfold paceSettled
      rw [step]
    obtain ⟨pwr, same⟩ := paceNext_set (d := s.dev) _
      (stopWindows { s.dev with pwr.paceNow := n, pwr.vcore := vcoreOf n, pwr.stepTo := none })
      ((mask_stopWindows (by simp) _).trans (mask_set_pwr _ (by simp) _)) rfl
    rw [settled]
    exact ⟨pwr, same.eq⟩
  · refine completes_of_exec_eq_act (f := govUpExpiry) rfl ?_
    have expires : govUpExpiry s.dev = paceStep (s.dev.pwr.paceNow + 1) s.dev := by
      simp [govUpExpiry, gov, busy, due, still, room]
    rw [expires]
    exact ⟨(paceStep_pwr _ _).trans (steppedTo_up still), (sameBut_paceStep _ _).eq⟩
  · refine completes_of_exec_eq_act (f := govDownExpiry) rfl ?_
    have expires : govDownExpiry s.dev = paceStep (s.dev.pwr.paceNow - 1) s.dev := by
      simp [govDownExpiry, gov, idle, due, still, room]
    rw [expires]
    exact ⟨(paceStep_pwr _ _).trans (steppedTo_down still (by omega)), (sameBut_paceStep _ _).eq⟩

/-! ### The captured time -/

theorem readReg_capture (d : Dev) : readReg d 0x0094 = d.tb.capHi.toNat := rfl

theorem idleTick_capHi (d : Dev) : (idleTick d).tb.capHi = d.tb.capHi := by
  rw [(timeMoved_idleTick d).frame]

theorem stopOscIfListening_capHi (d : Dev) : (stopOscIfListening d).tb.capHi = d.tb.capHi := by
  unfold stopOscIfListening
  split <;> rfl

theorem slowclkPresent_capHi (d : Dev) : (slowclkPresent d).tb.capHi = d.tb.capHi := by
  unfold slowclkPresent
  split
  · rfl
  · exact stopOscIfListening_capHi _

theorem slowclkLost_capHi (d : Dev) : (slowclkLost d).tb.capHi = d.tb.capHi := by
  unfold slowclkLost
  split <;> rfl

theorem tickOscRestarted_capHi (d : Dev) : (tickOscRestarted d).tb.capHi = d.tb.capHi := by
  unfold tickOscRestarted
  split <;> rfl

theorem next_of_act {f : Dev → Dev} {s t : State} (runs : act f s = .next t) : t.dev = f s.dev := by
  obtain rfl : { s with dev := f s.dev } = t := by simpa [act] using runs
  rfl

theorem clockCommands_capHi {s t : State} {c : Instr} (kind : c = .slowclkPresent ∨ c = .slowclkLost ∨ c = .tickOscRestarted)
    (runs : exec c s = .next t) : t.dev.tb.capHi = s.dev.tb.capHi := by
  obtain rfl | rfl | rfl := kind
  · rw [next_of_act (f := slowclkPresent) runs, slowclkPresent_capHi]
  · rw [next_of_act (f := slowclkLost) runs, slowclkLost_capHi]
  · rw [next_of_act (f := tickOscRestarted) runs, tickOscRestarted_capHi]

theorem captured_high (d : Dev) : (BitVec.ofNat 16 (ticks d / 2 ^ 32)).toNat = ticks d / 2 ^ 32 := by
  have : ticks d < 2 ^ 48 := Nat.mod_lt _ (by decide)
  rw [BitVec.toNat_ofNat]
  exact Nat.mod_eq_of_lt (by omega)

/-! ### The sources of the time base -/

/-- SLOWCLK comes: the oscillator stops in LISTEN and STANDBY, and the discipline runs with it. -/
theorem slowclkPresent_sources {d : Dev} (vin : d.pwr.vin = true) :
    let e := slowclkPresent d
    e.tb.slowclk = true ∧ e.tb.tickRun = (d.tb.tickRun && !(listening d || d.pwr.standby)) ∧
      e.tb.discipline = e.tb.tickRun ∧ e.tb.timers = d.tb.timers ∧ e = { d with tb := e.tb } ∧ e.tb.now = d.tb.now := by
  have unfolded : slowclkPresent d =
      { stopOscIfListening { d with tb.slowclk := true } with
        tb.discipline := (stopOscIfListening { d with tb.slowclk := true }).tb.tickRun } := by
    simp [slowclkPresent, vin]
  rw [unfolded]
  cases stops : listening d || d.pwr.standby
  · have keeps : stopOscIfListening { d with tb.slowclk := true } = { d with tb.slowclk := true } :=
      if_neg (ne_true_of_eq_false stops)
    rw [keeps]
    exact ⟨rfl, (Bool.and_true _).symm, rfl, rfl, rfl, rfl⟩
  · have ends : stopOscIfListening { d with tb.slowclk := true } =
        endDiscipline { d with tb.slowclk := true, tb.tickRun := false } := if_pos stops
    rw [ends]
    exact ⟨rfl, (Bool.and_false _).symm, rfl, rfl, rfl, rfl⟩

theorem bindTimers_started (d : Dev) : ∀ t ∈ (bindTimers d).tb.timers, t.start ≠ none := by
  intro t mem
  obtain ⟨u, -, rfl⟩ := List.mem_map.1 mem
  split
  · exact Option.some_ne_none _
  · assumption

/-- Settles O20: the captured high word is a field of its own, which no move and no source of the time base writes. -/
theorem timeCaptureIsOneValue : Obligations.TimeCaptureIsOneValue := by
  refine ⟨⟨fun s reach => ?_, fun s t c kind runs => ?_, fun s t empty runs => ?_⟩, fun s vin => ?_, fun s vin => ?_,
    fun s up stopped free => ?_⟩
  · refine completes_of_exec_eq_act rfl ?_
    rw [if_pos reach]
    exact ⟨rfl, captured_high s.dev, rfl⟩
  · rw [readReg_capture, readReg_capture, clockCommands_capHi kind runs]
  · obtain rfl : { s with dev := idleTick s.dev } = t := by simpa [step_nil empty] using runs
    rw [readReg_capture, readReg_capture, idleTick_capHi]
  · exact completes_of_exec_eq_act rfl (slowclkPresent_sources vin)
  · refine completes_of_exec_eq_act (f := slowclkLost) rfl ?_
    simp [slowclkLost, endDiscipline, vin]
  · refine completes_of_exec_eq_act (f := tickOscRestarted) rfl ?_
    have starts : tickOscRestarted s.dev = bindTimers { s.dev with tb.tickRun := true, tb.discipline := s.dev.tb.slowclk } :=
      if_neg (by rw [up, stopped, free]; decide)
    rw [starts]
    exact ⟨rfl, bindTimers_started _, rfl, rfl⟩

end Sys2Proof.Machine
end

section
/-!
What each operation leaves alone: the parts of the device that it changes at most.
-/

namespace Sys2Proof.Machine

@[simp] theorem mask_takeFree {S : List Part} (hfree : .free ∈ S) (d : Dev) :
    mask S (takeFree d).2 = mask S d := by
  simp only [takeFree, mask_set_free, hfree]

@[simp] theorem mask_emitCast {S : List Part} (hout : .out ∈ S) (type : Nat) (payload : Bytes) (d : Dev) :
    mask S (emitCast type payload d) = mask S d := by
  unfold emitCast
  split <;> simp only [mask_emit, hout]

@[simp] theorem mask_setBoot {S : List Part} (hboot : .boot ∈ S) (hlink : .link ∈ S) (hout : .out ∈ S)
    (b : BootStatus) (d : Dev) :
    mask S (setBoot b d) = mask S d := by
  unfold setBoot
  simp only []
  split
  all_goals try split
  all_goals simp [hboot, hlink, hout]

@[simp] theorem mask_endDiscipline {S : List Part} (htb : .tb ∈ S) (d : Dev) :
    mask S (endDiscipline d) = mask S d := by
  simp only [endDiscipline, mask_set_tb, htb]

@[simp] theorem mask_stopOscIfListening {S : List Part} (htb : .tb ∈ S) (d : Dev) :
    mask S (stopOscIfListening d) = mask S d := by
  unfold stopOscIfListening
  split <;> simp only [mask_endDiscipline, mask_set_tb, htb]

theorem mask_fillShorts {S : List Part} (hqueues : .queues ∈ S) (htier : .tier ∈ S) (n : Nat) :
    ∀ d, mask S (fillShorts n d) = mask S d := by
  induction n with
  | zero => intro d; rfl
  | succ n ih =>
    intro d
    rw [fillShorts_succ]
    split
    · rfl
    · refine mask_ite ((ih _).trans (mask_set_tier d htier _)) ?_
      split
      · rfl
      · exact (ih _).trans (mask_putQueue hqueues ..)

@[simp] theorem mask_noteShort {S : List Part} (htier : .tier ∈ S) (qid : Nat) (d : Dev) :
    mask S (noteShort qid d) = mask S d := by
  unfold noteShort
  split <;> simp only [mask_set_tier, htier]

@[simp] theorem mask_settleShorts {S : List Part} (hqueues : .queues ∈ S) (htier : .tier ∈ S) (d : Dev) :
    mask S (settleShorts d) = mask S d := by
  unfold settleShorts
  split <;> simp only [mask_fillShorts, hqueues, htier]

@[simp] theorem mask_retireNear {S : List Part} (hlink : .link ∈ S) (hout : .out ∈ S) (htier : .tier ∈ S)
    (hrep : .rep ∈ S) (herr : .err ∈ S) (n : Nat) (d : Dev) : mask S (retireNear n d) = mask S d := by
  have retired (d : Dev) (t : Tier) (r : Rep) : mask S { d with tier := t, rep := r } = mask S d := by
    simp [mask, htier, hrep]
  exact (mask_recordErr hlink hout herr ..).trans ((retired (writeRepair d) _ _).trans (mask_writeRepair htier d))

@[simp] theorem mask_giveNear {S : List Part} (hlink : .link ∈ S) (hout : .out ∈ S) (hqueues : .queues ∈ S)
    (htier : .tier ∈ S) (hrep : .rep ∈ S) (herr : .err ∈ S) (qid n : Nat) (d : Dev) :
    mask S (giveNear qid n d) = mask S d := by
  unfold giveNear
  simp only []
  split_ifs <;> simp only [mask_putQueue, mask_noteShort, mask_settleShorts, mask_wipeNear, mask_retireNear, hlink, hout, hqueues, htier, hrep, herr]

@[simp] theorem mask_giveLoan {S : List Part} (htimers : .timers ∈ S) (hout : .out ∈ S) (hepoch : .epoch ∈ S)
    (hqueues : .queues ∈ S) (htier : .tier ∈ S) (hpeers : .peers ∈ S) (qid : Nat) (persist hole : Bool)
    (l : LoanRef) (d : Dev) :
    mask S (giveLoan qid persist hole l d) = mask S d := by
  unfold giveLoan
  split_ifs <;> simp only [mask_addRecord, mask_sendSeq, htimers, hout, hepoch, hqueues, htier, hpeers]

@[simp] theorem mask_releaseSeg {S : List Part} (htimers : .timers ∈ S) (hlink : .link ∈ S) (hout : .out ∈ S)
    (hepoch : .epoch ∈ S) (hqueues : .queues ∈ S) (htier : .tier ∈ S) (hrep : .rep ∈ S) (herr : .err ∈ S)
    (hpeers : .peers ∈ S) (qid : Nat) (persist : Bool) (s : ChainSeg) (d : Dev) :
    mask S (releaseSeg qid persist s d) = mask S d := by
  unfold releaseSeg
  repeat' split
  all_goals simp only [mask_giveNear, mask_freeDeep, mask_giveLoan, mask_set_tier, htimers, hlink, hout, hepoch, hqueues, htier, hrep, herr, hpeers]

@[simp] theorem mask_releaseUnused {S : List Part} (htimers : .timers ∈ S) (hlink : .link ∈ S) (hout : .out ∈ S)
    (hepoch : .epoch ∈ S) (hqueues : .queues ∈ S) (htier : .tier ∈ S) (hrep : .rep ∈ S) (herr : .err ∈ S)
    (hpeers : .peers ∈ S) (qid : Nat) (d : Dev) : mask S (releaseUnused qid d) = mask S d := by
  unfold releaseUnused
  extract_lets +onlyGivenNames q live tail stays
  refine mask_ite rfl ?_
  exact (mask_foldl (fun d s => mask_releaseSeg htimers hlink hout hepoch hqueues htier hrep herr hpeers ..) _ _).trans
    (mask_putQueue hqueues ..)

@[simp] theorem mask_queueProgram {S : List Part} (hqueues : .queues ∈ S) (htier : .tier ∈ S) (qid pos : Nat)
    (d : Dev) :
    mask S (queueProgram qid pos d) = mask S d := by
  simp only [queueProgram, mask_onQueue, mask_set_tier, hqueues, htier]

@[simp] theorem mask_spillCheck {S : List Part} (hqueues : .queues ∈ S) (htier : .tier ∈ S) (n qid : Nat) (d : Dev) :
    mask S (spillCheck n qid d) = mask S d := by
  induction n generalizing d with
  | zero => rfl
  | succ n ih =>
    unfold spillCheck
    dsimp only
    split
    · split
      · rw [ih, mask_queueProgram hqueues htier]
      · rfl
    · rfl

@[simp] theorem mask_readCheck {S : List Part} (htimers : .timers ∈ S) (hout : .out ∈ S) (hqueues : .queues ∈ S)
    (hpeers : .peers ∈ S) (qid : Nat) (d : Dev) : mask S (readCheck qid d) = mask S d := by
  unfold readCheck
  extract_lets +onlyGivenNames q
  split
  · rfl
  · extract_lets +onlyGivenNames ahead coming cand0 cand
    refine mask_foldl (fun d s => mask_ite ?_ rfl) _ d
    dsimp only
    split
    · exact (mask_sendSeq htimers hout hpeers ..).trans (mask_onQueue hqueues ..)
    · exact mask_onQueue hqueues ..

@[simp] theorem mask_putSlot {S : List Part} (hkeys : .keys ∈ S) (slot : Nat) (k : KeySlot) (d : Dev) :
    mask S (putSlot slot k d) = mask S d := by
  simp only [putSlot, mask_set_keys, hkeys]

@[simp] theorem mask_drawIvs {S : List Part} (hfree : .free ∈ S) (n : Nat) (d : Dev) :
    mask S (drawIvs n d).2 = mask S d := by
  induction n generalizing d with
  | zero => rfl
  | succ n ih => exact (ih _).trans (mask_takeFree hfree d)

@[simp] theorem mask_newRecord {S : List Part} (hfree : .free ∈ S) (d : Dev) :
    mask S (newRecord d).2 = mask S d := by
  simp only [newRecord, mask_drawIvs, hfree]

@[simp] theorem mask_writeKeyRecord {S : List Part} (htier : .tier ∈ S) (hkeys : .keys ∈ S) (hfree : .free ∈ S)
    (d : Dev) :
    mask S (writeKeyRecord d) = mask S d := by
  unfold writeKeyRecord
  split <;> simp only [mask_countProgram, mask_newRecord, mask_set_keys, htier, hkeys, hfree]

@[simp] theorem mask_settleKey {S : List Part} (htier : .tier ∈ S) (hkeys : .keys ∈ S) (hfree : .free ∈ S)
    (slot : Nat) (d : Dev) :
    mask S (settleKey slot d) = mask S d := by
  unfold settleKey
  simp only []
  split
  all_goals try split
  all_goals simp [htier, hkeys, hfree]

@[simp] theorem mask_settleKeys {S : List Part} (htier : .tier ∈ S) (hkeys : .keys ∈ S) (hfree : .free ∈ S)
    (d : Dev) :
    mask S (settleKeys d) = mask S d := by simp [settleKeys, mask_foldl, htier, hkeys, hfree]

@[simp] theorem mask_startTraining {S : List Part} (htimers : .timers ∈ S) (hout : .out ∈ S) (hcas : .cas ∈ S)
    (d : Dev) :
    mask S (startTraining d) = mask S d := by
  unfold startTraining
  split <;> simp only [mask_emitCast, mask_settlePauses, mask_set_cas, htimers, hout, hcas]

@[simp] theorem mask_putI {S : List Part} (hports : .ports ∈ S) (i : Nat) (p : IPort) (d : Dev) :
    mask S (putI i p d) = mask S d := by
  unfold putI
  split <;> simp only [mask_set_ports, hports]

@[simp] theorem mask_putE {S : List Part} (hports : .ports ∈ S) (e : Nat) (p : EPort) (d : Dev) :
    mask S (putE e p d) = mask S d := by
  unfold putE
  split <;> simp only [mask_set_ports, hports]

@[simp] theorem mask_putPair {S : List Part} (hports : .ports ∈ S) (n : Nat) (p : PairSt) (d : Dev) :
    mask S (putPair n p d) = mask S d := by
  unfold putPair
  split <;> simp only [mask_set_ports, hports]

@[simp] theorem mask_refreshFlags {S : List Part} (hports : .ports ∈ S) (d : Dev) :
    mask S (refreshFlags d) = mask S d := by
  simp only [refreshFlags, mask_set_ports, hports]

@[simp] theorem mask_stallCheck {S : List Part} (htimers : .timers ∈ S) (k : Nat) (d : Dev) :
    mask S (stallCheck k d) = mask S d := by
  unfold stallCheck
  split_ifs <;> simp only [mask_startTimer, mask_stopTimer, htimers]

@[simp] theorem mask_stallChecks {S : List Part} (htimers : .timers ∈ S) (d : Dev) :
    mask S (stallChecks d) = mask S d := by
  simp only [stallChecks, mask_stallCheck, htimers]

@[simp] theorem mask_returnEsb {S : List Part} (hports : .ports ∈ S) (hqueues : .queues ∈ S) (e : Nat) (d : Dev) :
    mask S (returnEsb e d) = mask S d := by simp [returnEsb, mask_foldl, hports, hqueues]

@[simp] theorem mask_closeEgress {S : List Part} (hports : .ports ∈ S) (hqueues : .queues ∈ S) (e : Nat) (np : Pce)
    (d : Dev) :
    mask S (closeEgress e np d) = mask S d := by
  simp only [closeEgress, mask_putE, mask_returnEsb, hports, hqueues]

@[simp] theorem mask_openEgress {S : List Part} (hports : .ports ∈ S) (e : Nat) (np : Pce) (d : Dev) :
    mask S (openEgress e np d) = mask S d := by
  simp only [openEgress, mask_putE, hports]

@[simp] theorem mask_changeEgress {S : List Part} (hports : .ports ∈ S) (e : Nat) (np : Pce) (d : Dev) :
    mask S (changeEgress e np d) = mask S d := by
  unfold changeEgress
  simp only []
  split <;> simp only [mask_putE, hports]

@[simp] theorem mask_applyEgress {S : List Part} (hports : .ports ∈ S) (hqueues : .queues ∈ S) (e : Nat) (np : Pce)
    (d : Dev) :
    mask S (applyEgress e np d) = mask S d := by
  unfold applyEgress
  simp only []
  split_ifs <;> simp only [mask_putE, mask_closeEgress, mask_openEgress, mask_changeEgress, hports, hqueues]

@[simp] theorem mask_armPair {S : List Part} (htimers : .timers ∈ S) (hports : .ports ∈ S) (n : Nat) (d : Dev) :
    mask S (armPair n d) = mask S d := by
  unfold armPair
  split <;> simp only [mask_startTimer, mask_putPair, htimers, hports]

@[simp] theorem mask_abandon {S : List Part} (htimers : .timers ∈ S) (hout : .out ∈ S) (hepoch : .epoch ∈ S)
    (hqueues : .queues ∈ S) (hpeers : .peers ∈ S) (k : RunKind) (d : Dev) :
    mask S (abandon k d) = mask S d := by
  unfold abandon
  split <;> simp only [mask_onQueue, mask_sendSeq, mask_set_epoch, htimers, hout, hepoch, hqueues, hpeers]

@[simp] theorem mask_retireDeepSeg {S : List Part} (hlink : .link ∈ S) (hout : .out ∈ S) (htier : .tier ∈ S)
    (hrep : .rep ∈ S) (herr : .err ∈ S) (seg : Nat) (d : Dev) : mask S (retireDeepSeg seg d) = mask S d := by
  have moves (d : Dev) : mask S ((queueRelocation seg d).getD d) = mask S d := by
    unfold queueRelocation
    split
    · rfl
    · exact mask_set_tier d htier _
  have pends : mask S (let d' := if seg ∈ d.tier.deepPending then d
      else { d with tier.deepPending := d.tier.deepPending ++ [seg] }
      if relocating d' seg then d' else (queueRelocation seg d').getD d') = mask S d := by
    extract_lets +onlyGivenNames _ d'
    exact Eq.trans (mask_ite rfl (moves d')) (mask_ite rfl (mask_set_tier d htier _))
  unfold retireDeepSeg
  split
  · exact pends
  · exact pends
  · exact mask_retireDeep hlink hout htier hrep herr ..

@[simp] theorem mask_takeSsid {S : List Part} (hlink : .link ∈ S) (d : Dev) :
    mask S (takeSsid d) = mask S d := by
  unfold takeSsid
  simp only []
  split <;> simp only [mask_set_link, hlink]

@[simp] theorem mask_senseFuses {S : List Part} (hrep : .rep ∈ S) (hfuse : .fuse ∈ S) (herr : .err ∈ S)
    (hfree : .free ∈ S)
    (d : Dev) : mask S (senseFuses d) = mask S d := by
  unfold senseFuses
  extract_lets +onlyGivenNames bad good r
  generalize effSec d = word
  simp [mask, hrep, hfuse, herr, hfree]

@[simp] theorem mask_romStep {S : List Part} (hfuse : .fuse ∈ S) (hfree : .free ∈ S) (d : Dev) :
    mask S (romStep d) = mask S d := by simp [romStep, mask, hfuse, hfree]

@[simp] theorem mask_markBit {S : List Part} (hfuse : .fuse ∈ S) (row : Nat) (x : Nat × BurnOutcome) (d : Dev) :
    mask S (markBit row x d) = mask S d := by
  simp only [markBit, mask_set_fuse, hfuse]

@[simp] theorem mask_cutFuse {S : List Part} (hfuse : .fuse ∈ S) (hfree : .free ∈ S) (record : Bool) (d : Dev) :
    mask S (cutFuse record d) = mask S d := by
  unfold cutFuse
  split
  · extract_lets +onlyGivenNames f d1 k done d2 d3
    have h1 : mask S d1 = mask S d := mask_takeFree hfree d
    have h2 : mask S d2 = mask S d1 := mask_foldl (fun d x => mask_markBit hfuse ..) _ _
    exact (mask_ite (mask_set_fuse d2 hfuse _) (mask_set_fuse d2 hfuse _)).trans (h2.trans h1)
  · exact mask_set_fuse _ hfuse _

@[simp] theorem mask_deriveKeys {S : List Part} (hkeys : .keys ∈ S) (d : Dev) :
    mask S (deriveKeys d) = mask S d := by
  simp only [deriveKeys, mask_set_keys, hkeys]

@[simp] theorem mask_restoreKeys {S : List Part} (hkeys : .keys ∈ S) (herr : .err ∈ S) (hfree : .free ∈ S)
    (lost : Bool) (d : Dev) :
    mask S (restoreKeys lost d) = mask S d := by
  unfold restoreKeys
  repeat' split
  all_goals simp only [mask_takeFree, mask_logRec, mask_set_keys, hkeys, herr, hfree]

@[simp] theorem mask_replayFault {S : List Part} (hlink : .link ∈ S) (hout : .out ∈ S) (htier : .tier ∈ S)
    (hrep : .rep ∈ S) (herr : .err ∈ S) (a : Nat) (d : Dev) : mask S (replayFault a d) = mask S d := by
  have retires : mask S (retireNear (a / 512) d) = mask S d := mask_retireNear hlink hout htier hrep herr ..
  unfold replayFault
  refine mask_ite rfl (mask_ite retires ?_)
  split
  · exact retires
  · exact mask_set_rep d hrep _

@[simp] theorem mask_rebuildRemap {S : List Part} (hlink : .link ∈ S) (hout : .out ∈ S) (htier : .tier ∈ S)
    (hrep : .rep ∈ S) (herr : .err ∈ S) (d : Dev) : mask S (rebuildRemap d) = mask S d := by
  refine (mask_foldl (fun d a => mask_replayFault hlink hout htier hrep herr ..) _ _).trans ?_
  simp [mask, htier, hrep]

@[simp] theorem mask_backNear {S : List Part} (hqueues : .queues ∈ S) (d : Dev) : mask S (backNear d) = mask S d := by
  refine mask_foldl (fun d e => mask_foldl (fun d s => ?_) _ d) _ d
  split
  · exact mask_onQueue hqueues ..
  · rfl

@[simp] theorem mask_releaseMapped {S : List Part} (htimers : .timers ∈ S) (hlink : .link ∈ S) (hout : .out ∈ S)
    (hepoch : .epoch ∈ S) (hqueues : .queues ∈ S) (htier : .tier ∈ S) (hrep : .rep ∈ S) (herr : .err ∈ S)
    (x : Replay) (kept : List Nat) (d : Dev) : mask S (releaseMapped x kept d) = mask S d :=
  mask_foldl (fun d _ => mask_foldl (fun _ _ =>
    mask_freeDeep htimers hlink hout hepoch hqueues htier hrep herr ..) _ d) _ d

@[simp] theorem mask_releaseLoans {S : List Part} (htimers : .timers ∈ S) (hout : .out ∈ S) (hepoch : .epoch ∈ S)
    (hqueues : .queues ∈ S) (htier : .tier ∈ S) (hpeers : .peers ∈ S) (x : Replay) (d : Dev) :
    mask S (releaseLoans x d) = mask S d :=
  mask_foldl (fun d _ => mask_foldl (fun _ _ =>
    mask_ite rfl (mask_giveLoan htimers hout hepoch hqueues htier hpeers ..)) _ d) _ d

@[simp] theorem mask_restoreTier {S : List Part} (htimers : .timers ∈ S) (hlink : .link ∈ S) (hout : .out ∈ S)
    (hepoch : .epoch ∈ S) (hqueues : .queues ∈ S) (htier : .tier ∈ S) (hrep : .rep ∈ S) (herr : .err ∈ S)
    (hpeers : .peers ∈ S) (x : Replay) (clean : Bool) (d : Dev) : mask S (restoreTier x clean d) = mask S d := by
  unfold restoreTier
  extract_lets +onlyGivenNames qs loans kept named _ d1 d2 d3 pend _ d4
  have h1 : mask S d1 = mask S d := by simp [d1, mask, hqueues, htier]
  have h2 : mask S d2 = mask S d1 := (mask_backNear hqueues _).trans
    ((mask_releaseLoans htimers hout hepoch hqueues htier hpeers ..).trans
      (mask_releaseMapped htimers hlink hout hepoch hqueues htier hrep herr ..))
  have h3 : mask S d3 = mask S d2 :=
    mask_foldl (fun d e => mask_releaseUnused htimers hlink hout hepoch hqueues htier hrep herr hpeers ..) _ d2
  have h4 : mask S d4 = mask S d3 :=
    (mask_foldl (fun d s => mask_retireDeepSeg hlink hout htier hrep herr ..) _ _).trans (mask_set_tier d3 htier _)
  exact (mask_foldl (fun d n => mask_ite (mask_startTimer htimers ..) rfl) _ d4).trans
    (h4.trans (h3.trans (h2.trans h1)))

@[simp] theorem mask_restoreWear {S : List Part} (htier : .tier ∈ S) (lost clean : Bool) (d : Dev) :
    mask S (restoreWear lost clean d) = mask S d := by
  unfold restoreWear
  repeat' split
  all_goals simp only [mask_set_tier, htier]

@[simp] theorem mask_restoreLevel {S : List Part} (htier : .tier ∈ S) (x : Replay) (clean : Bool) (d : Dev) :
    mask S (restoreLevel x clean d) = mask S d := by
  simp only [restoreLevel, mask_set_tier, htier]

@[simp] theorem mask_settleSet {S : List Part} (herr : .err ∈ S) (n : Nat) (c : CheckSet) (d : Dev) :
    mask S (settleSet n c d).2 = mask S d := by
  induction n generalizing c d with
  | zero => rfl
  | succ n ih =>
    unfold settleSet
    split
    · rfl
    · exact (ih _ _).trans (mask_logRec herr ..)

@[simp] theorem mask_bootPort {S : List Part} (hports : .ports ∈ S) (hqueues : .queues ∈ S) (k : Nat) (p : Pce)
    (d : Dev) :
    mask S (bootPort k p d) = mask S d := by
  unfold bootPort
  split <;> simp only [mask_putI, mask_applyEgress, hports, hqueues]

@[simp] theorem mask_bootPair {S : List Part} (htimers : .timers ∈ S) (hports : .ports ∈ S) (n : Nat) (d : Dev) :
    mask S (bootPair n d) = mask S d := by
  unfold bootPair
  split <;> simp only [mask_armPair, htimers, hports]

@[simp] theorem mask_bootQueue {S : List Part} (htimers : .timers ∈ S) (hout : .out ∈ S) (hqueues : .queues ∈ S)
    (htier : .tier ∈ S) (hpeers : .peers ∈ S) (qid : Nat) (d : Dev) :
    mask S (bootQueue qid d) = mask S d := by
  simp only [bootQueue, mask_onQueue, mask_spillCheck, mask_readCheck, mask_drainWaitCheck, htimers, hout, hqueues, htier, hpeers]

@[simp] theorem mask_applyEpoch0 {S : List Part} (htimers : .timers ∈ S) (hout : .out ∈ S) (hbind : .bind ∈ S)
    (hepoch : .epoch ∈ S) (hports : .ports ∈ S) (hqueues : .queues ∈ S) (htier : .tier ∈ S) (herr : .err ∈ S)
    (hpeers : .peers ∈ S) (d : Dev) : mask S (applyEpoch0 d) = mask S d := by
  unfold applyEpoch0
  split
  · exact mask_set_epoch d hepoch _
  · have sets (d : Dev) (b : Bindings) (x : Epoch) : mask S { d with bind := b, epoch := x } = mask S d := by
      simp [mask, hbind, hepoch]
    refine (mask_refreshFlags hports _).trans ((mask_bootPair htimers hports ..).trans
      ((mask_bootPair htimers hports ..).trans ?_))
    refine (mask_foldl (fun d e => mask_bootQueue htimers hout hqueues htier hpeers ..) _ _).trans ?_
    refine (mask_foldl (fun d e => mask_bootPort hports hqueues ..) _ _).trans ?_
    refine (mask_settleShorts hqueues htier _).trans ((mask_foldl (fun d e => mask_noteShort htier ..) _ _).trans ?_)
    refine (mask_foldl (fun d e => mask_onQueue hqueues ..) _ _).trans ((sets _ _ _).trans ?_)
    exact (mask_settleSet herr ..).trans (mask_set_epoch d hepoch _)

@[simp] theorem mask_restoreLineage {S : List Part} (htier : .tier ∈ S) (hfree : .free ∈ S) (d : Dev) :
    mask S (restoreLineage d) = mask S d := by
  unfold restoreLineage
  split <;> simp only [mask_takeFree, mask_set_tier, htier, hfree]

@[simp] theorem mask_restoreImage {S : List Part} (htier : .tier ∈ S) (lost : Bool) (d : Dev) :
    mask S (restoreImage lost d) = mask S d := by
  unfold restoreImage
  split <;> simp only [mask_set_tier, htier]

@[simp] theorem mask_restore {S : List Part} (htimers : .timers ∈ S) (hlink : .link ∈ S) (hout : .out ∈ S)
    (hepoch : .epoch ∈ S) (hqueues : .queues ∈ S) (htier : .tier ∈ S) (hrep : .rep ∈ S) (hkeys : .keys ∈ S)
    (herr : .err ∈ S) (hpeers : .peers ∈ S) (hfree : .free ∈ S) (lost : Unread) (d : Dev) :
    mask S (restore lost d) = mask S d := by
  simp only [restore, mask_deriveKeys, mask_restoreKeys, mask_rebuildRemap, mask_restoreTier, mask_restoreWear, mask_restoreLevel, mask_restoreLineage, mask_restoreImage, mask_set_tier, htimers, hlink, hout, hepoch, hqueues, htier, hrep, hkeys, herr, hpeers, hfree]

@[simp] theorem mask_doeReply {S : List Part} (hlink : .link ∈ S) (hout : .out ∈ S) (hspdm : .spdm ∈ S) (type : Nat)
    (bs : Bytes) (d : Dev) :
    mask S (doeReply type bs d) = mask S d := by
  simp only [doeReply, mask_emit, mask_msix, mask_set_spdm, hlink, hout, hspdm]

@[simp] theorem mask_spdmSign {S : List Part} (hfree : .free ∈ S) (context : String) (transcript : Bytes) (d : Dev) :
    mask S (spdmSign context transcript d).2 = mask S d := by
  simp only [spdmSign, mask_set_free, hfree]

@[simp] theorem mask_nonceBytes {S : List Part} (hfree : .free ∈ S) (d : Dev) :
    mask S (nonceBytes d).2 = mask S d := by
  simp only [nonceBytes, mask_takeFree, hfree]

@[simp] theorem mask_spdmReply {S : List Part} (hlink : .link ∈ S) (hout : .out ∈ S) (hspdm : .spdm ∈ S)
    (bs : Bytes) (d : Dev) :
    mask S (spdmReply bs d) = mask S d := by
  simp only [spdmReply, mask_doeReply, hlink, hout, hspdm]

@[simp] theorem mask_onVersion {S : List Part} (hlink : .link ∈ S) (hout : .out ∈ S) (hspdm : .spdm ∈ S) (d : Dev) :
    mask S (onVersion d) = mask S d := by
  simp only [onVersion, mask_spdmReply, mask_set_spdm, hlink, hout, hspdm]

@[simp] theorem mask_onCapabilities {S : List Part} (hlink : .link ∈ S) (hout : .out ∈ S) (hspdm : .spdm ∈ S)
    (hfree : .free ∈ S) (d : Dev) :
    mask S (onCapabilities d) = mask S d := by
  unfold onCapabilities
  split <;> simp only [mask_takeFree, mask_spdmReply, mask_set_spdm, hlink, hout, hspdm, hfree]

@[simp] theorem mask_onAlgorithms {S : List Part} (hlink : .link ∈ S) (hout : .out ∈ S) (hspdm : .spdm ∈ S)
    (d : Dev) :
    mask S (onAlgorithms d) = mask S d := by
  unfold onAlgorithms
  split <;> simp only [mask_spdmReply, mask_set_spdm, hlink, hout, hspdm]

theorem mask_afterAlgs {S : List Part} (hlink : .link ∈ S) (hout : .out ∈ S) (hspdm : .spdm ∈ S) {f : Dev → Dev}
    (keeps : ∀ d, mask S (f d) = mask S d) (d : Dev) : mask S (afterAlgs f d) = mask S d :=
  mask_ite (keeps d) (mask_spdmReply hlink hout hspdm ..)

@[simp] theorem mask_onDigests {S : List Part} (hlink : .link ∈ S) (hout : .out ∈ S) (hspdm : .spdm ∈ S) (d : Dev) :
    mask S (onDigests d) = mask S d := by
  simp only [onDigests, mask_spdmReply, mask_set_spdm, hlink, hout, hspdm]

@[simp] theorem mask_onCertificate {S : List Part} (hlink : .link ∈ S) (hout : .out ∈ S) (hspdm : .spdm ∈ S)
    (slot off len : Nat) (d : Dev) :
    mask S (onCertificate slot off len d) = mask S d := by
  unfold onCertificate
  simp only []
  split <;> simp only [mask_spdmReply, mask_set_spdm, hlink, hout, hspdm]

@[simp] theorem mask_summaryBytes {S : List Part} (hfree : .free ∈ S) (summary : Nat) (d : Dev) :
    mask S (summaryBytes summary d).2 = mask S d := by
  unfold summaryBytes
  split_ifs <;> simp only [mask_nonceBytes, hfree]

@[simp] theorem mask_onChallenge {S : List Part} (hlink : .link ∈ S) (hout : .out ∈ S) (hspdm : .spdm ∈ S)
    (hfree : .free ∈ S) (slot summary : Nat) (nonce : BitVec 256) (d : Dev) :
    mask S (onChallenge slot summary nonce d) = mask S d := by
  unfold onChallenge
  split <;> simp only [mask_spdmSign, mask_nonceBytes, mask_spdmReply, mask_summaryBytes, mask_set_spdm, hlink, hout, hspdm, hfree]

@[simp] theorem mask_onMeasurements {S : List Part} (hlink : .link ∈ S) (hout : .out ∈ S) (hspdm : .spdm ∈ S)
    (hfree : .free ∈ S) (index : Nat) (sign : Bool) (nonce : BitVec 256) (d : Dev) :
    mask S (onMeasurements index sign nonce d) = mask S d := by
  unfold onMeasurements
  simp only []
  split_ifs <;> simp only [mask_spdmSign, mask_nonceBytes, mask_spdmReply, mask_set_spdm, hlink, hout, hspdm, hfree]

@[simp] theorem mask_spdmAnswer {S : List Part} (hlink : .link ∈ S) (hout : .out ∈ S) (hspdm : .spdm ∈ S)
    (hfree : .free ∈ S) (i : Instr) (d : Dev) : mask S (spdmAnswer i d) = mask S d := by
  unfold spdmAnswer
  split
  · exact mask_onVersion hlink hout hspdm d
  · exact mask_onCapabilities hlink hout hspdm hfree d
  · exact mask_onAlgorithms hlink hout hspdm d
  · exact mask_afterAlgs hlink hout hspdm (fun d => mask_onDigests hlink hout hspdm d) d
  · exact mask_afterAlgs hlink hout hspdm (fun d => mask_onCertificate hlink hout hspdm _ _ _ d) d
  · exact mask_afterAlgs hlink hout hspdm (fun d => mask_onChallenge hlink hout hspdm hfree _ _ _ d) d
  · exact mask_afterAlgs hlink hout hspdm (fun d => mask_onMeasurements hlink hout hspdm hfree _ _ _ d) d
  · exact mask_doeReply hlink hout hspdm ..
  · exact mask_spdmReply hlink hout hspdm ..
  · rfl

@[simp] theorem mask_holdDoe {S : List Part} (hspdm : .spdm ∈ S) (i : Instr) (d : Dev) :
    mask S (holdDoe i d) = mask S d := by
  simp only [holdDoe, mask_set_spdm, hspdm]

@[simp] theorem mask_doeRequest {S : List Part} (hlink : .link ∈ S) (hout : .out ∈ S) (hspdm : .spdm ∈ S)
    (hfree : .free ∈ S) (i : Instr) (d : Dev) :
    mask S (doeRequest i d) = mask S d := by
  unfold doeRequest
  repeat' split
  all_goals simp only [mask_spdmReply, mask_spdmAnswer, mask_holdDoe, mask_set_link, hlink, hout, hspdm, hfree]

@[simp] theorem mask_endRomSpdm {S : List Part} (hlink : .link ∈ S) (hout : .out ∈ S) (hspdm : .spdm ∈ S) (d : Dev) :
    mask S (endRomSpdm d) = mask S d := by
  unfold endRomSpdm
  split <;> simp only [mask_spdmReply, mask_set_spdm, hlink, hout, hspdm]

@[simp] theorem mask_flushDoe {S : List Part} (hlink : .link ∈ S) (hout : .out ∈ S) (hspdm : .spdm ∈ S)
    (hfree : .free ∈ S) (d : Dev) :
    mask S (flushDoe d) = mask S d := by
  unfold flushDoe
  split <;> simp only [mask_doeRequest, mask_set_spdm, hlink, hout, hspdm, hfree]

@[simp] theorem mask_wakePerst {S : List Part} (hlink : .link ∈ S) (d : Dev) :
    mask S (wakePerst d) = mask S d := by
  unfold wakePerst
  split <;> simp only [mask_set_link, hlink]

@[simp] theorem mask_resetRun {S : List Part} (htimers : .timers ∈ S) (hout : .out ∈ S) (hadm : .adm ∈ S)
    (hepoch : .epoch ∈ S) (hqueues : .queues ∈ S) (hpeers : .peers ∈ S) (d : Dev) :
    mask S (resetRun d) = mask S d := by
  unfold resetRun
  repeat' split
  all_goals simp only [mask_stopTimer, mask_abandon, mask_set_adm, htimers, hout, hadm, hepoch, hqueues, hpeers]

@[simp] theorem mask_applyLanes {S : List Part} (hrep : .rep ∈ S) (d : Dev) :
    mask S (applyLanes d) = mask S d := by
  simp only [applyLanes, mask_set_rep, hrep]

@[simp] theorem mask_mapLane {S : List Part} (htier : .tier ∈ S) (hrep : .rep ∈ S) (x : Lane) (d : Dev) :
    mask S (mapLane x d) = mask S d := by
  unfold mapLane
  split <;> simp only [mask_writeRepair, mask_set_rep, htier, hrep]

@[simp] theorem mask_recordLanes {S : List Part} (htier : .tier ∈ S) (hrep : .rep ∈ S) (d : Dev) :
    mask S (recordLanes d) = mask S d := by simp [recordLanes, mask_foldl, htier, hrep]

@[simp] theorem mask_openBar2 {S : List Part} (hboot : .boot ∈ S) (hlink : .link ∈ S) (hout : .out ∈ S)
    (hspdm : .spdm ∈ S) (hfree : .free ∈ S) (d : Dev) :
    mask S (openBar2 d) = mask S d := by
  simp only [openBar2, mask_setBoot, mask_flushDoe, mask_set_boot, hboot, hlink, hout, hspdm, hfree]

@[simp] theorem mask_bootCores {S : List Part} (hboot : .boot ∈ S) (hlink : .link ∈ S) (hout : .out ∈ S)
    (hrep : .rep ∈ S)
    (hfuse : .fuse ∈ S) (hspdm : .spdm ∈ S) (hfree : .free ∈ S) (d : Dev) : mask S (bootCores d) = mask S d := by
  unfold bootCores
  have started : mask S (setBoot .bist d) = mask S d := mask_setBoot hboot hlink hout ..
  dsimp only
  generalize setBoot .bist d = d1 at started ⊢
  refine (mask_ite ?_ ?_).trans started
  · refine (mask_setBoot hboot hlink hout ..).trans ?_
    simp [mask, hboot, hlink]
  · have locked : mask S (romStep { d1 with rep.core := d1.rep.core0Fail }) = mask S d1 :=
      (mask_romStep hfuse hfree _).trans (mask_set_rep _ hrep _)
    generalize romStep { d1 with rep.core := d1.rep.core0Fail } = d2 at locked ⊢
    have trains (x : Link) : mask S (setBoot .rom { d2 with link := x }) = mask S d2 :=
      (mask_setBoot hboot hlink hout ..).trans (mask_set_link _ hlink _)
    exact (mask_ite ((mask_openBar2 hboot hlink hout hspdm hfree _).trans (trains _)) (trains _)).trans locked

@[simp] theorem mask_bootSense {S : List Part} (hrep : .rep ∈ S) (hfuse : .fuse ∈ S) (herr : .err ∈ S)
    (hfree : .free ∈ S) (d : Dev) :
    mask S (bootSense d) = mask S d := by
  simp only [bootSense, mask_senseFuses, mask_applyLanes, hrep, hfuse, herr, hfree]

@[simp] theorem mask_followListen {S : List Part} (hpwr : .pwr ∈ S) (htb : .tb ∈ S) (d : Dev) :
    mask S (followListen d) = mask S d := by
  simp only [followListen, mask_stopOscIfListening, mask_set_pwr, hpwr, htb]

end Sys2Proof.Machine
end

section
/-!
The boot order, the resets of both scopes, and the balls of POR and PERST#.
-/

namespace Sys2Proof.Machine

/-! ### The link's state -/

/-- Training, rate and state of the link are the same. -/
structure LinkStands (d e : Dev) : Prop where
  up : e.link.up = d.link.up
  training : e.link.training = d.link.training
  rate : e.link.rate = d.link.rate
  lanes : e.link.twoLanes = d.link.twoLanes
  l0 : d.link.lstate = .l0 → e.link.lstate = .l0

theorem LinkStands.trans {a b c : Dev} (h : LinkStands a b) (k : LinkStands b c) : LinkStands a c :=
  ⟨k.up.trans h.up, k.training.trans h.training, k.rate.trans h.rate, k.lanes.trans h.lanes, k.l0 ∘ h.l0⟩

theorem LinkStands.of_eq {d e : Dev} (h : e.link = d.link) : LinkStands d e :=
  ⟨by rw [h], by rw [h], by rw [h], by rw [h], by rw [h]; exact id⟩

theorem LinkStands.from_link {d d' e : Dev} (h : LinkStands d' e) (link : d'.link = d.link) : LinkStands d e :=
  (LinkStands.of_eq link).trans h

theorem SameBut.linkStands {S : List Part} {d e : Dev} (h : SameBut S d e) (p : .link ∉ S) (q : .reads ∉ S) : LinkStands d e :=
  .of_eq (by rw [h.eq]; exact (if_neg p).trans (if_neg q))

theorem LinkStands.ite_of {p : Prop} [Decidable p] {a b d : Dev} (ha : LinkStands d a) (hb : LinkStands d b) :
    LinkStands d (if p then a else b) := by
  split
  · exact ha
  · exact hb

theorem linkStands_emitHost (m : OutMsg) (d : Dev) : LinkStands d (emitHost m d) := by
  unfold emitHost
  split
  · exact .of_eq rfl
  · split
    · exact ⟨rfl, rfl, rfl, rfl, id⟩
    · split
      · exact ⟨rfl, rfl, rfl, rfl, id⟩
      · exact ⟨rfl, rfl, rfl, rfl, fun _ => rfl⟩

theorem linkStands_msix (v : Nat) (d : Dev) : LinkStands d (msix v d) := by
  unfold msix
  split
  · exact .of_eq rfl
  · split
    · exact ⟨rfl, rfl, rfl, rfl, id⟩
    · exact linkStands_emitHost _ d

theorem linkStands_setBoot (b : BootStatus) (d : Dev) : LinkStands d (setBoot b d) := by
  unfold setBoot
  simp only []
  split
  · exact .of_eq rfl
  · exact .of_eq rfl
  · exact .of_eq rfl
  · split
    · exact (linkStands_msix ..).from_link rfl
    · exact .of_eq rfl

theorem linkStands_takeSsid (d : Dev) : LinkStands d (takeSsid d) := by
  unfold takeSsid
  simp only []
  split <;> exact ⟨rfl, rfl, rfl, rfl, id⟩

/-! ### What the responder sends -/

theorem linkStands_doeReply (type : Nat) (bs : Bytes) (d : Dev) : LinkStands d (doeReply type bs d) :=
  (linkStands_msix 0 (emit (.doe (doeObject type bs)) { d with spdm.doeBusy := false })).from_link rfl

/-- The answer to a request is one data object; its making changes the responder's own state alone. -/
theorem spdmAnswer_replies (i : Instr) (d : Dev) :
    spdmAnswer i d = d ∨ ∃ type bs e, SameBut [.spdm, .free] d e ∧ spdmAnswer i d = doeReply type bs e := by
  have refuses (bs : Bytes) : ∃ type bs' e, SameBut [.spdm, .free] d e ∧ spdmReply bs d = doeReply type bs' e :=
    ⟨1, bs, d, rfl, rfl⟩
  have agreed {f : Dev → Dev} (answers : ∃ type bs e, SameBut [.spdm, .free] d e ∧ f d = doeReply type bs e) :
      ∃ type bs e, SameBut [.spdm, .free] d e ∧ afterAlgs f d = doeReply type bs e := by
    unfold afterAlgs
    split
    · exact answers
    · exact refuses _
  unfold spdmAnswer
  split
  · exact .inr ⟨1, versionMsg, _, mask_set_spdm d (by simp) _, rfl⟩
  · refine .inr ?_
    unfold onCapabilities
    split
    · exact refuses _
    · exact ⟨1, _, _, (mask_set_spdm _ (by simp) _).trans (mask_takeFree (by simp) d), rfl⟩
  · refine .inr ?_
    unfold onAlgorithms
    split
    · exact refuses _
    · exact ⟨1, _, _, mask_set_spdm d (by simp) _, rfl⟩
  · exact .inr (agreed ⟨1, _, _, mask_set_spdm d (by simp) _, rfl⟩)
  · refine .inr (agreed ?_)
    unfold onCertificate
    simp only []
    split
    · exact refuses _
    · exact ⟨1, _, _, mask_set_spdm d (by simp) _, rfl⟩
  · refine .inr (agreed ?_)
    unfold onChallenge
    split
    · exact refuses _
    · exact ⟨1, _, _, (mask_set_spdm _ (by simp) _).trans ((mask_spdmSign (by simp) ..).trans
        ((mask_summaryBytes (by simp) ..).trans (mask_nonceBytes (by simp) d))), rfl⟩
  · refine .inr (agreed ?_)
    unfold onMeasurements
    extract_lets +onlyGivenNames all picked
    split
    · exact refuses _
    · extract_lets +onlyGivenNames n d' rec q m
      split
      · exact ⟨1, _, _, (mask_set_spdm _ (by simp) _).trans ((mask_spdmSign (by simp) ..).trans
          (mask_nonceBytes (by simp) d)), rfl⟩
      · exact ⟨1, _, _, (mask_set_spdm _ (by simp) _).trans (mask_nonceBytes (by simp) d), rfl⟩
  · exact .inr ⟨0, _, d, rfl, rfl⟩
  · exact .inr (refuses _)
  · exact .inl rfl

theorem linkStands_spdmAnswer (i : Instr) (d : Dev) : LinkStands d (spdmAnswer i d) := by
  obtain same | ⟨type, bs, e, same, replies⟩ := spdmAnswer_replies i d
  · exact .of_eq (by rw [same])
  · rw [replies]
    exact (same.linkStands (by decide) (by decide)).trans (linkStands_doeReply ..)

theorem linkStands_holdDoe (i : Instr) (d : Dev) : LinkStands d (holdDoe i d) := .of_eq rfl

theorem linkStands_doeError (d : Dev) : LinkStands d { d with link.doeError := true } := ⟨rfl, rfl, rfl, rfl, id⟩

theorem linkStands_doeRequest (i : Instr) (d : Dev) : LinkStands d (doeRequest i d) := by
  have answers := linkStands_spdmAnswer i d
  have holds := linkStands_holdDoe i d
  have refuses : LinkStands d (spdmReply (spdmError 0x03 0) d) := linkStands_doeReply ..
  have drops := linkStands_doeError d
  unfold doeRequest
  split
  · exact .of_eq rfl
  · split
    · exact drops
    · split
      · exact holds
      · exact holds
      · exact holds
      · exact holds
      · exact .ite_of holds answers
      · exact .ite_of holds answers
      · exact .ite_of answers refuses
      · exact .ite_of answers refuses
      · exact .ite_of answers holds
      · exact .ite_of (.ite_of answers drops) answers

theorem linkStands_flushDoe (d : Dev) : LinkStands d (flushDoe d) := by
  unfold flushDoe
  split
  · exact (linkStands_doeRequest ..).from_link rfl
  · exact .of_eq rfl

/-! ### Boot steps -/

theorem setBoot_boot (b : BootStatus) (d : Dev) : (setBoot b d).boot = { d.boot with status := b } := by
  unfold setBoot
  simp only []
  split
  · rfl
  · rfl
  · rfl
  · split
    · exact SameBut.boot_eq (S := [.link, .out]) (mask_msix (by decide) (by decide) ..) (by decide)
    · rfl

theorem flushDoe_boot (d : Dev) : (flushDoe d).boot = d.boot :=
  SameBut.boot_eq (S := [.link, .out, .spdm, .free])
    (mask_flushDoe (by decide) (by decide) (by decide) (by decide) d) (by decide)

theorem openBar2_boot (d : Dev) : (openBar2 d).boot = { d.boot with status := .waitImage, buf := [] } := by
  rw [openBar2, flushDoe_boot, setBoot_boot]

theorem linkStands_openBar2 (d : Dev) : LinkStands d (openBar2 d) :=
  ((linkStands_setBoot .waitImage { d with boot.buf := [] }).trans (linkStands_flushDoe _)).from_link rfl

/-- BIST fails both cores. -/
def coresFail (d : Dev) : Bool := d.rep.core0Fail && d.rep.core1Fail

/-- BOOT_STATUS when the cores have been started: a link that is up and a peer go on to WAIT_IMAGE (log entries 61 and
65). -/
def bootedStatus (d : Dev) : BootStatus :=
  if coresFail d then .failed else if d.link.up || ownNode d ≠ 0 then .waitImage else .rom

/-- The device after BIST found a core that runs, with the locks and patches of the ROM; the link trains. -/
def romReady (d : Dev) : Dev :=
  let r := romStep { d with boot.status := .bist, rep.core := d.rep.core0Fail }
  { r with link.training := !d.link.up && ownNode d == 0 }

/-- The ROM runs. -/
def romStarted (d : Dev) : Dev := setBoot .rom (romReady d)

theorem linkStands_romStarted (d : Dev) :
    LinkStands { d with link.training := !d.link.up && ownNode d == 0 } (romStarted d) :=
  (linkStands_setBoot .rom (romReady d)).from_link rfl

theorem romStarted_cas (d : Dev) : (romStarted d).cas = d.cas :=
  (SameBut.cas_eq (S := [.boot, .link, .out]) (mask_setBoot (by decide) (by decide) (by decide) ..) (by decide)
    (by decide)).trans rfl

theorem bootCores_of_fail {d : Dev} (fails : coresFail d = true) :
    bootCores d = setBoot .failed { d with boot.status := .bist, boot.err := 0x96, link.training := !d.link.up } :=
  if_pos fails

theorem bootCores_of_run {d : Dev} (runs : coresFail d = false) :
    bootCores d = if d.link.up || ownNode d ≠ 0 then openBar2 (romStarted d) else romStarted d := by
  have started : bootCores d = if (romStarted d).link.up || ownNode (romStarted d) ≠ 0 then openBar2 (romStarted d)
      else romStarted d := if_neg (ne_true_of_eq_false runs)
  have up : (romStarted d).link.up = d.link.up := (linkStands_romStarted d).up
  have node : ownNode (romStarted d) = ownNode d := by rw [ownNode, romStarted_cas, ownNode]
  rw [started, up, node]

theorem romStarted_status (d : Dev) : (romStarted d).boot.status = .rom := by
  rw [romStarted, setBoot_boot]

theorem bootCores_status (d : Dev) : (bootCores d).boot.status = bootedStatus d := by
  unfold bootedStatus
  cases fails : coresFail d
  · rw [bootCores_of_run fails, if_neg Bool.false_ne_true]
    split
    · rw [openBar2_boot]
    · exact romStarted_status d
  · rw [bootCores_of_fail fails, setBoot_boot, if_pos rfl]

/-- The boot trains a link that is down, but on a peer. -/
theorem linkStands_bootCores (d : Dev) :
    LinkStands { d with link.training := !d.link.up && (coresFail d || ownNode d == 0) } (bootCores d) := by
  cases fails : coresFail d
  · rw [bootCores_of_run fails, Bool.false_or]
    split
    · exact (linkStands_romStarted d).trans (linkStands_openBar2 _)
    · exact linkStands_romStarted d
  · rw [bootCores_of_fail fails, Bool.true_or, Bool.and_true]
    exact (linkStands_setBoot ..).from_link rfl

theorem sameBut_bootCores (d : Dev) : SameBut [.boot, .link, .out, .rep, .fuse, .spdm, .free] d (bootCores d) :=
  mask_bootCores (by decide) (by decide) (by decide) (by decide) (by decide) (by decide) (by decide) d

theorem sameBut_bootOn (d : Dev) : SameBut [.boot, .link, .out, .rep, .fuse, .spdm, .free] d (bootOn d) :=
  mask_ite (mask_setBoot (by decide) (by decide) (by decide) ..) (sameBut_bootCores d)

theorem bootOn_status (d : Dev) : (bootOn d).boot.status = if d.pwr.perst then .hold else bootedStatus d := by
  unfold bootOn
  split
  · rw [setBoot_boot]
  · exact bootCores_status d

theorem bootOn_linkUp (d : Dev) : (bootOn d).link.up = d.link.up := by
  unfold bootOn
  split
  · exact (linkStands_setBoot ..).up
  · exact (linkStands_bootCores d).up

/-! ### Sensing the fuses -/

/-- What BIST found of the cores is the same. -/
def SameCores (q r : Rep) : Prop := r.core0Fail = q.core0Fail ∧ r.core1Fail = q.core1Fail

theorem SameCores.trans {q r s : Rep} (h : SameCores q r) (k : SameCores r s) : SameCores q s :=
  ⟨k.1.trans h.1, k.2.trans h.2⟩

theorem sameCores_applyRepair (r : Rep) (e : Nat) : SameCores r (applyRepair r e) := by
  unfold applyRepair
  simp only []
  split <;> (try split) <;> exact ⟨rfl, rfl⟩

theorem sameCores_repairs (l : List Nat) : ∀ r : Rep, SameCores r (l.foldl applyRepair r) := by
  induction l with
  | nil => exact fun r => ⟨rfl, rfl⟩
  | cons e l ih =>
    exact fun r => (sameCores_applyRepair r e).trans (ih _)

theorem coresFail_congr {d e : Dev} (h : SameCores d.rep e.rep) : coresFail e = coresFail d := by
  unfold coresFail
  rw [h.1, h.2]

theorem sameCores_senseFuses (d : Dev) : SameCores d.rep (senseFuses d).rep := by
  unfold senseFuses
  extract_lets +onlyGivenNames bad good r
  exact sameCores_repairs _ { d.rep with lanesFactory := [], factoryNear := [], factoryDeep := [] }

theorem sameCores_applyLanes (d : Dev) : SameCores d.rep (applyLanes d).rep := ⟨rfl, rfl⟩

theorem sameCores_bootSense (d : Dev) : SameCores d.rep (bootSense d).rep :=
  (sameCores_senseFuses d).trans (sameCores_applyLanes _)

theorem sameBut_bootSense (d : Dev) : SameBut [.rep, .fuse, .err, .free] d (bootSense d) :=
  mask_bootSense (by decide) (by decide) (by decide) (by decide) d

theorem bootedStatus_congr {d e : Dev} (cores : SameCores d.rep e.rep) (up : e.link.up = d.link.up) (cas : e.cas = d.cas) :
    bootedStatus e = bootedStatus d := by
  unfold bootedStatus ownNode
  rw [coresFail_congr cores, up, cas]

theorem SameBut.link_eq {S : List Part} {d e : Dev} (h : SameBut S d e) (p : .link ∉ S) (q : .reads ∉ S) : e.link = d.link := by
  rw [h.eq]
  exact (if_neg p).trans (if_neg q)

theorem SameBut.tb_eq {S : List Part} {d e : Dev} (h : SameBut S d e) (p : .tb ∉ S) (q : .timers ∉ S) : e.tb = d.tb := by
  rw [h.eq]
  exact (if_neg p).trans (if_neg q)

theorem bootSense_status (d : Dev) : bootedStatus (bootSense d) = bootedStatus d :=
  bootedStatus_congr (sameCores_bootSense d) (by rw [(sameBut_bootSense d).link_eq (by decide) (by decide)])
    ((sameBut_bootSense d).cas_eq (by decide) (by decide))

/-- The device at the start of step 3 of a boot from step 1 or 2. -/
def strapped (d : Dev) : Dev := sampleStraps { d with link.clkreq := !d.pwr.perst }

/-- The device at the start of step 5. -/
def sensed (d : Dev) : Dev := takeSsid (bootSense (strapped d))

theorem sameBut_strapped (d : Dev) : SameBut [.ports, .link] d (strapped d) :=
  (mask_set_ports _ (by decide) _).trans (mask_set_link _ (by decide) _)

theorem sameBut_sensed (d : Dev) : SameBut [.ports, .link, .rep, .fuse, .err, .free] d (sensed d) :=
  SameBut.trans ((sameBut_strapped d).mono (by decide)) (SameBut.trans ((sameBut_bootSense (strapped d)).mono (by decide))
    (mask_takeSsid (by decide) (bootSense (strapped d))))

theorem linkStands_sensed (d : Dev) : LinkStands d (sensed d) :=
  LinkStands.trans (b := strapped d) ⟨rfl, rfl, rfl, rfl, id⟩
    (((sameBut_bootSense (strapped d)).linkStands (by decide) (by decide)).trans (linkStands_takeSsid _))

theorem sensed_ports (d : Dev) :
    (sensed d).ports = { d.ports with p0.strap := d.ports.p0.ball, p1.strap := d.ports.p1.ball } :=
  (SameBut.ports_eq (S := [.link]) (mask_takeSsid (by decide) _) (by decide)).trans
    ((sameBut_bootSense (strapped d)).ports_eq (by decide))

theorem sameCores_sensed (d : Dev) : SameCores d.rep (sensed d).rep := by
  have rep : (sensed d).rep = (bootSense (strapped d)).rep :=
    SameBut.rep_eq (S := [.link]) (mask_takeSsid (by decide) _) (by decide)
  rw [rep]
  exact sameCores_bootSense (strapped d)

theorem bootFull_eq (d : Dev) : bootFull d = bootOn (sensed d) := rfl

theorem sameBut_bootFull (d : Dev) :
    SameBut [.ports, .boot, .link, .out, .rep, .fuse, .err, .spdm, .free] d (bootFull d) :=
  SameBut.trans ((sameBut_sensed d).mono (by decide)) ((sameBut_bootOn (sensed d)).mono (by decide))

theorem bootFull_status (d : Dev) : (bootFull d).boot.status = if d.pwr.perst then .hold else bootedStatus d := by
  rw [bootFull_eq, bootOn_status, (sameBut_sensed d).pwr_eq (by decide),
    bootedStatus_congr (sameCores_sensed d) (linkStands_sensed d).up ((sameBut_sensed d).cas_eq (by decide) (by decide))]

theorem bootFull_ports (d : Dev) :
    (bootFull d).ports = { d.ports with p0.strap := d.ports.p0.ball, p1.strap := d.ports.p1.ball } :=
  ((sameBut_bootOn (sensed d)).ports_eq (by decide)).trans (sensed_ports d)

theorem bootFull_linkUp (d : Dev) : (bootFull d).link.up = d.link.up :=
  (bootOn_linkUp _).trans (linkStands_sensed d).up

/-! ### A reset of DEVICE scope -/

theorem sameBut_cutFuse (record : Bool) (d : Dev) : SameBut [.fuse, .free] d (cutFuse record d) :=
  mask_cutFuse (by decide) (by decide) record d

/-- What is stored for good is the same. -/
def StoresKept (d e : Dev) : Prop :=
  e.tier.deep = d.tier.deep ∧ e.tier.cells = d.tier.cells ∧ e.tier.wear = d.tier.wear

theorem storesKept_deviceReset (k : ResetKind) (d : Dev) : StoresKept d (deviceReset k d) := by
  have tier : (deviceReset k d).tier = resetTier k d.tier :=
    congrArg (resetTier k) ((sameBut_cutFuse (k != .por) d).tier_eq (by decide))
  rw [StoresKept, tier]
  exact ⟨rfl, rfl, rfl⟩

theorem deviceReset_pwr (k : ResetKind) (d : Dev) : (deviceReset k d).pwr = resetPwr k d.pwr :=
  congrArg (resetPwr k) ((sameBut_cutFuse (k != .por) d).pwr_eq (by decide))

theorem StoresKept.of_tier {d e f : Dev} (h : StoresKept d e) (tier : f.tier = e.tier) : StoresKept d f := by
  rw [StoresKept, tier]
  exact h

/-! ### POR and the soft reset -/

theorem markBit_otpLock (row : Nat) (x : Nat × BurnOutcome) (d : Dev) : (markBit row x d).fuse.otpLock = d.fuse.otpLock := rfl

theorem markBits_otpLock (row : Nat) (l : List (Nat × BurnOutcome)) :
    ∀ d : Dev, (l.foldl (fun d x => markBit row x d) d).fuse.otpLock = d.fuse.otpLock := by
  induction l with
  | nil => exact fun _ => rfl
  | cons x l ih => exact fun d => (ih _).trans (markBit_otpLock row x d)

theorem cutFuse_otpLock (record : Bool) (d : Dev) : (cutFuse record d).fuse.otpLock = d.fuse.otpLock := by
  unfold cutFuse
  split
  · simp only []
    split <;> exact markBits_otpLock ..
  · rfl

theorem senseFuses_otpLock (d : Dev) : (senseFuses d).fuse.otpLock = d.fuse.otpLock := by
  unfold senseFuses
  extract_lets +onlyGivenNames bad good r
  rfl

theorem bootSense_otpLock (d : Dev) : (bootSense d).fuse.otpLock = d.fuse.otpLock := senseFuses_otpLock d

theorem fuse_of_sameBut {S : List Part} {d e : Dev} (h : SameBut S d e) (p : .fuse ∉ S) : e.fuse.otpLock = d.fuse.otpLock := by
  rw [h.fuse_eq p]

theorem romStarted_otpLock (d : Dev) : ∃ x, (romStarted d).fuse.otpLock = d.fuse.otpLock ||| x :=
  ⟨_, (fuse_of_sameBut (S := [.boot, .link, .out]) (mask_setBoot (by decide) (by decide) (by decide) ..) (by decide)).trans rfl⟩

/-- Locks are only added. -/
theorem bootCores_otpLock (d : Dev) : ∃ x, (bootCores d).fuse.otpLock = d.fuse.otpLock ||| x := by
  cases fails : coresFail d
  · obtain ⟨x, locks⟩ := romStarted_otpLock d
    refine ⟨x, ?_⟩
    rw [bootCores_of_run fails]
    split
    · exact (fuse_of_sameBut (S := [.boot, .link, .out, .spdm, .free])
        (mask_openBar2 (by decide) (by decide) (by decide) (by decide) (by decide) _) (by decide)).trans locks
    · exact locks
  · refine ⟨0, ?_⟩
    rw [bootCores_of_fail fails]
    refine Eq.trans ?_ (BitVec.or_zero).symm
    exact (fuse_of_sameBut (S := [.boot, .link, .out]) (mask_setBoot (by decide) (by decide) (by decide) ..) (by decide)).trans rfl

theorem softReset_eq {d : Dev} (released : d.pwr.perst = false) : softReset d = bootCores (bootSense (deviceReset .soft d)) := by
  have low : (bootSense (deviceReset .soft d)).pwr.perst = false := by
    rw [(sameBut_bootSense _).pwr_eq (by decide), deviceReset_pwr]
    exact released
  exact if_neg (ne_true_of_eq_false low)

theorem sameCores_deviceReset (k : ResetKind) (d : Dev) : SameCores d.rep (deviceReset k d).rep := by
  have rep : (deviceReset k d).rep = resetRep k d.rep :=
    congrArg (resetRep k) ((sameBut_cutFuse (k != .por) d).rep_eq (by decide))
  rw [rep]
  cases k <;> exact ⟨rfl, rfl⟩

theorem deviceReset_link (k : ResetKind) (d : Dev) : (deviceReset k d).link = resetHostLink k d.link :=
  congrArg (resetHostLink k) ((sameBut_cutFuse (k != .por) d).link_eq (by decide) (by decide))

theorem or_self_of_or {n : Nat} {a b : BitVec n} (h : ∃ x, a = b ||| x) : a = a ||| b := by
  obtain ⟨x, rfl⟩ := h
  ext i
  simp only [BitVec.getElem_or]
  cases b[i] <;> simp

/-- The soft reset: BOOT_STATUS goes on to WAIT_IMAGE at once, as the link is kept (log entry 61). -/
theorem softReset_holds {d : Dev} (reach : hostReach d = true) :
    let e := softReset d
    e.boot.status = (if d.rep.core0Fail && d.rep.core1Fail then .failed else .waitImage) ∧ e.queues = [] ∧
      e.link.up = true ∧ e.tier.deep = d.tier.deep ∧ e.tier.cells = d.tier.cells ∧ e.tier.wear = d.tier.wear ∧
      e.fuse.otpLock = e.fuse.otpLock ||| d.fuse.otpLock ∧ e.pwr.pace = 5 := by
  obtain ⟨⟨⟨up, released⟩, -⟩, -⟩ : ((d.link.up = true ∧ d.pwr.perst = false) ∧ _) ∧ _ := by simpa [hostReach] using reach
  rw [softReset_eq released]
  set r := deviceReset .soft d with reset
  have linkUp : r.link.up = true := by rw [reset, deviceReset_link]; exact up
  have same : SameBut [.boot, .link, .out, .rep, .fuse, .err, .spdm, .free] r (bootCores (bootSense r)) :=
    SameBut.trans ((sameBut_bootSense r).mono (by decide)) ((sameBut_bootCores _).mono (by decide))
  obtain ⟨deep, cells, wear⟩ := (storesKept_deviceReset .soft d).of_tier (same.tier_eq (by decide))
  refine ⟨?_, same.queues_eq (by decide), ?_, deep, cells, wear, ?_, ?_⟩
  · have cores : coresFail r = coresFail d := coresFail_congr (sameCores_deviceReset .soft d)
    rw [bootCores_status, bootSense_status, bootedStatus, cores, linkUp, Bool.true_or, if_pos rfl]
    rfl
  · rw [(linkStands_bootCores _).up]
    exact (by rw [(sameBut_bootSense r).link_eq (by decide) (by decide)]; exact linkUp :
      (bootSense r).link.up = true)
  · have kept : r.fuse.otpLock = d.fuse.otpLock := cutFuse_otpLock true d
    obtain ⟨x, locks⟩ := bootCores_otpLock (bootSense r)
    exact or_self_of_or ⟨x, by rw [locks, bootSense_otpLock, kept]⟩
  · rw [same.pwr_eq (by decide), reset, deviceReset_pwr]
    rfl

/-- The device at the start of a cold boot. -/
def coldStart (n : BitVec 2) (t0 t1 c0 c1 : Bool) (d : Dev) : Dev :=
  { deviceReset .por d with
    pwr.vin := true, pwr.vcoreLdo := true, pwr.phyLdo := true, cas.node := n, ports.p0.ball := t0, ports.p1.ball := t1
    rep.core0Fail := c0, rep.core1Fail := c1 }

theorem coldStart_pwr (n : BitVec 2) (t0 t1 c0 c1 : Bool) (d : Dev) :
    (coldStart n t0 t1 c0 c1 d).pwr = { perst := d.pwr.perst } := by
  have reset : (coldStart n t0 t1 c0 c1 d).pwr = { (deviceReset .por d).pwr with vin := true, vcoreLdo := true, phyLdo := true } :=
    rfl
  rw [reset, deviceReset_pwr]
  rfl

theorem coldStart_status (n : BitVec 2) (t0 t1 c0 c1 : Bool) (d : Dev) :
    bootedStatus (coldStart n t0 t1 c0 c1 d) = if c0 && c1 then .failed else if n = 0 then .rom else .waitImage := by
  have down : (coldStart n t0 t1 c0 c1 d).link.up = false := rfl
  have node : ownNode (coldStart n t0 t1 c0 c1 d) = n.toNat := rfl
  have cores : coresFail (coldStart n t0 t1 c0 c1 d) = (c0 && c1) := rfl
  rw [bootedStatus, cores, down, node]
  by_cases zero : n = 0
  · subst zero; rfl
  · have : n.toNat ≠ 0 := fun h => zero (BitVec.eq_of_toNat_eq h)
    rw [if_neg zero]
    simp [this]

/-- A cold boot: WAIT_IMAGE at once on a peer (log entry 65). -/
theorem coldBoot_holds (d : Dev) (n : BitVec 2) (t0 t1 c0 c1 : Bool) :
    let e := coldBoot n t0 t1 c0 c1 d
    e.boot.status = (if d.pwr.perst then .hold else if c0 && c1 then .failed
      else if n = 0 then .rom else .waitImage) ∧
    e.pwr = { perst := d.pwr.perst } ∧ e.regs = {} ∧ e.cas.node = n ∧
    e.ports.p0.strap = t0 ∧ e.ports.p1.strap = t1 ∧ e.queues = [] ∧ e.rings = {} ∧ e.tb.now = 0 ∧
    e.tier.deep = d.tier.deep ∧ e.tier.cells = d.tier.cells ∧ e.tier.wear = d.tier.wear := by
  have boots : coldBoot n t0 t1 c0 c1 d = bootFull (coldStart n t0 t1 c0 c1 d) := rfl
  rw [boots]
  have same := sameBut_bootFull (coldStart n t0 t1 c0 c1 d)
  have ports := bootFull_ports (coldStart n t0 t1 c0 c1 d)
  have pwr := coldStart_pwr n t0 t1 c0 c1 d
  refine ⟨?_, (same.pwr_eq (by decide)).trans pwr, same.regs_eq (by decide), ?_, ?_, ?_, same.queues_eq (by decide),
    same.rings_eq (by decide), ?_, (storesKept_deviceReset .por d).of_tier (same.tier_eq (by decide))⟩
  · rw [bootFull_status, pwr, coldStart_status]
  · rw [same.cas_eq (by decide) (by decide)]
    rfl
  · rw [ports]
    rfl
  · rw [ports]
    rfl
  · rw [same.tb_eq (by decide) (by decide)]
    rfl

/-- Settles O22: WAIT_IMAGE right after a soft reset and on a peer is the model's reading (log entries 61 and 65). -/
theorem porAndSoftResetBoot : Obligations.PorAndSoftResetBoot := by
  refine ⟨fun s n t0 t1 c0 c1 => ?_, fun s v other => ?_, fun s reach => ?_⟩
  · exact completes_of_exec_eq_act rfl (coldBoot_holds ..)
  · refine completes_of_exec_eq_act rfl ?_
    have ignored : softResetWrite v.toNat s.dev = s.dev :=
      if_neg fun h => other (BitVec.eq_of_toNat_eq h)
    rw [ignored, ite_self]
  · refine completes_of_exec_eq_act rfl ?_
    rw [if_pos reach]
    exact softReset_holds reach

/-! ### A reset of host-interface scope -/

theorem tblErase_all {α : Type} : ∀ t : Tbl α, (t.map (·.1)).foldl tblErase t = []
  | [] => rfl
  | e :: t => by
    have head : tblErase (e :: t) e.1 = t := if_pos rfl
    rw [List.map_cons, List.foldl_cons, head]
    exact tblErase_all t

/-- Dropping rings one by one, each taken off its table, is dropping their numbers from the table. -/
theorem foldl_rings {α β : Type} {f : Dev → α → Dev} {get : Rings → Tbl β} {set : Rings → Tbl β → Rings} {key : α → Nat}
    (step : ∀ d x, (f d x).rings = set d.rings (tblErase (get d.rings) (key x)))
    (get_set : ∀ r t, get (set r t) = t) (set_set : ∀ r t u, set (set r t) u = set r u) (set_get : ∀ r, set r (get r) = r)
    (l : List α) : ∀ d : Dev, (l.foldl f d).rings = set d.rings ((l.map key).foldl tblErase (get d.rings)) := by
  induction l with
  | nil => exact fun d => (set_get _).symm
  | cons x l ih =>
    intro d
    rw [List.foldl_cons, ih, step, get_set, set_set, List.map_cons, List.foldl_cons]

/-- All rings taken down, drain rings first. -/
def ringsDropped (d : Dev) : Dev :=
  let d := d.rings.drains.foldl (fun d e => dropDrain e.1 d) d
  let d := d.rings.fills.foldl (fun d e => dropFill e.1 d) d
  d.rings.comps.foldl (fun d e => dropComp e.1 d) d

theorem drains_dropped (d : Dev) :
    (d.rings.drains.foldl (fun d e => dropDrain e.1 d) d).rings = { d.rings with drains := [] } := by
  rw [foldl_rings (get := Rings.drains) (set := fun r t => { r with drains := t }) (key := Prod.fst)
    (fun d e => dropDrain_rings e.1 d) (fun _ _ => rfl) (fun _ _ _ => rfl) (fun _ => rfl), tblErase_all]

theorem fills_dropped (d : Dev) :
    (d.rings.fills.foldl (fun d e => dropFill e.1 d) d).rings = { d.rings with fills := [] } := by
  rw [foldl_rings (get := Rings.fills) (set := fun r t => { r with fills := t }) (key := Prod.fst)
    (fun d e => dropFill_rings e.1 d) (fun _ _ => rfl) (fun _ _ _ => rfl) (fun _ => rfl), tblErase_all]

theorem comps_dropped (d : Dev) :
    (d.rings.comps.foldl (fun d e => dropComp e.1 d) d).rings = { d.rings with comps := [] } := by
  rw [foldl_rings (get := Rings.comps) (set := fun r t => { r with comps := t }) (key := Prod.fst)
    (fun _ _ => rfl) (fun _ _ => rfl) (fun _ _ _ => rfl) (fun _ => rfl), tblErase_all]

theorem ringsDropped_rings (d : Dev) : (ringsDropped d).rings = {} := by
  unfold ringsDropped
  simp only []
  rw [comps_dropped, fills_dropped, drains_dropped]

theorem ringsDropped_none {d : Dev} (none : d.rings = {}) : ringsDropped d = d := by
  simp [ringsDropped, none]

/-- What the reset of the host interface does behind its rings and the command in execution. -/
def hostCleared (d : Dev) : Dev :=
  takeSsid { d with
    tb.timers := d.tb.timers.filter fun t => !hostTimer t.id
    adm := { run := d.adm.run, bg := d.adm.bg }
    regs := hostRegs d.regs
    link := resetLink d.link
    sweep := {}
    spdm := {} }

theorem hostReset_eq (d : Dev) : hostReset d = stallChecks (refreshFlags (hostCleared (resetRun (ringsDropped d)))) := rfl

theorem sameBut_ringsDropped (d : Dev) :
    SameBut [.timers, .reads, .out, .rings, .queues, .peers] d (ringsDropped d) := by
  unfold ringsDropped
  extract_lets +onlyGivenNames d1 d2
  have h1 : SameBut [.timers, .reads, .out, .rings, .queues, .peers] d d1 :=
    mask_foldl (fun d e => by simp) _ d
  have h2 : SameBut [.timers, .reads, .out, .rings, .queues, .peers] d1 d2 :=
    mask_foldl (fun d e => by simp) _ d1
  exact h1.trans (h2.trans (mask_foldl (fun d e => by simp) _ d2))

theorem sameBut_hostCleared (d : Dev) :
    SameBut [.timers, .adm, .regs, .link, .sweep, .spdm] d (hostCleared d) := by
  refine SameBut.trans (b := { d with
    tb.timers := d.tb.timers.filter fun t => !hostTimer t.id
    adm := { run := d.adm.run, bg := d.adm.bg }
    regs := hostRegs d.regs
    link := resetLink d.link
    sweep := {}
    spdm := {} }) ?_ (mask_takeSsid (by decide) _)
  simp [SameBut, mask]

/-- Flags and stall timers alone follow. -/
theorem sameBut_hostReset_tail (d : Dev) :
    SameBut [.ports, .timers] (hostCleared (resetRun (ringsDropped d))) (hostReset d) := by
  rw [hostReset_eq]
  generalize hostCleared (resetRun (ringsDropped d)) = g
  exact SameBut.trans (mask_refreshFlags (by decide) g) (mask_stallChecks (by decide) _)

theorem sameBut_resetRun (d : Dev) : SameBut [.timers, .out, .adm, .epoch, .queues, .peers] d (resetRun d) :=
  mask_resetRun (by decide) (by decide) (by decide) (by decide) (by decide) (by decide) d

theorem sameBut_hostReset (d : Dev) :
    SameBut [.timers, .reads, .out, .rings, .queues, .peers, .adm, .epoch, .regs, .link, .sweep, .spdm, .ports] d
      (hostReset d) := by
  have h1 := (sameBut_ringsDropped d).mono (T := [.timers, .reads, .out, .rings, .queues, .peers, .adm, .epoch, .regs, .link,
    .sweep, .spdm, .ports]) (by decide)
  have h2 := (sameBut_resetRun (ringsDropped d)).mono (T := [.timers, .reads, .out, .rings, .queues, .peers, .adm, .epoch, .regs,
    .link, .sweep, .spdm, .ports]) (by decide)
  have h3 := (sameBut_hostCleared (resetRun (ringsDropped d))).mono (T := [.timers, .reads, .out, .rings, .queues, .peers, .adm,
    .epoch, .regs, .link, .sweep, .spdm, .ports]) (by decide)
  exact h1.trans (h2.trans (h3.trans ((sameBut_hostReset_tail d).mono (by decide))))

theorem hostCleared_link (d : Dev) : LinkStands { d with link := {} } (hostCleared d) :=
  LinkStands.trans (b := { d with link := resetLink d.link }) ⟨rfl, rfl, rfl, rfl, id⟩ ((linkStands_takeSsid _).from_link rfl)

theorem hostReset_linkUp (d : Dev) : (hostReset d).link.up = false := by
  rw [(sameBut_hostReset_tail d).link_eq (by decide) (by decide)]
  exact (hostCleared_link _).up

theorem hostReset_adm (d : Dev) : ∃ run bg, (hostReset d).adm = { run := run, bg := bg } :=
  ⟨_, _, ((sameBut_hostReset_tail d).adm_eq (by decide)).trans
    (SameBut.adm_eq (S := [.link]) (mask_takeSsid (by decide) _) (by decide))⟩

theorem hostReset_rings (d : Dev) : (hostReset d).rings = {} := by
  rw [(sameBut_hostReset_tail d).rings_eq (by decide), (sameBut_hostCleared _).rings_eq (by decide),
    (sameBut_resetRun _).rings_eq (by decide), ringsDropped_rings]

/-- Without rings and a command in execution there is nothing to take back. -/
theorem sameBut_hostReset_idle {d : Dev} (rings : d.rings = {}) (idle : d.adm.run = none) :
    SameBut [.timers, .adm, .regs, .link, .sweep, .spdm, .ports] d (hostReset d) := by
  have kept : resetRun (ringsDropped d) = stopTimer .admin d := by
    rw [ringsDropped_none rings]
    unfold resetRun
    rw [idle]
  have tail := sameBut_hostReset_tail d
  rw [kept] at tail
  have h1 : SameBut [.timers, .adm, .regs, .link, .sweep, .spdm, .ports] d (stopTimer .admin d) := mask_stopTimer (by decide) ..
  have h2 := (sameBut_hostCleared (stopTimer .admin d)).mono (T := [.timers, .adm, .regs, .link, .sweep, .spdm, .ports])
    (by decide)
  exact h1.trans (h2.trans (tail.mono (by decide)))

/-! ### PERST# -/

theorem followListen_pwr (d : Dev) : (followListen d).pwr = { d.pwr with phyLdo := awake d && !listening d } := by
  unfold followListen
  generalize (awake d && !listening d) = on
  exact SameBut.pwr_eq (S := [.tb]) (mask_stopOscIfListening (by decide) _) (by decide)

theorem sameBut_followListen (d : Dev) : SameBut [.pwr, .tb] d (followListen d) :=
  mask_followListen (by decide) (by decide) d

/-- The device just after a falling edge of PERST#. -/
def perstLow (d : Dev) : Dev := { d with pwr.perst := true, link.clkreq := false }

theorem perstAssert_falls {d : Dev} (released : d.pwr.perst = false) : perstAssert d =
    if !awake (perstLow d) then perstLow d
    else if d.pwr.standbyPend then enterStandby (perstLow d)
    else if !fwRunning (perstLow d) || !d.regs.perstLink then bootFull (deviceReset .perst (perstLow d))
    else followListen { hostReset (perstLow d) with
      link.pmeEn := d.link.pmeEn, link.pmeStatus := d.link.pmeStatus, pwr.perstLink := true } :=
  if_neg (ne_true_of_eq_false released)

/-- The falling edge under scope LINK with the firmware running: the host interface alone is reset. -/
theorem perstAssert_link {d : Dev} (released : d.pwr.perst = false) (up : awake d = true) (go : d.pwr.standbyPend = false)
    (fw : fwRunning d = true) (scope : d.regs.perstLink = true) :
    perstAssert d = followListen { hostReset (perstLow d) with
      link.pmeEn := d.link.pmeEn, link.pmeStatus := d.link.pmeStatus, pwr.perstLink := true } := by
  have up' : awake (perstLow d) = true := up
  have fw' : fwRunning (perstLow d) = true := fw
  simp [perstAssert_falls released, up', fw', go, scope]

theorem perstAssert_device {d : Dev} (released : d.pwr.perst = false) (up : awake d = true) (go : d.pwr.standbyPend = false)
    (scope : (fwRunning d && d.regs.perstLink) = false) :
    perstAssert d = bootFull (deviceReset .perst (perstLow d)) := by
  have up' : awake (perstLow d) = true := up
  have scope' : (!fwRunning (perstLow d) || !d.regs.perstLink) = true := by
    have : fwRunning (perstLow d) = fwRunning d := rfl
    rw [this, ← Bool.not_and, scope, Bool.not_false]
  rw [perstAssert_falls released, up', go, scope']
  rfl

theorem perstAssert_standby {d : Dev} (released : d.pwr.perst = false) (up : awake d = true)
    (waits : d.pwr.standbyPend = true) : perstAssert d = enterStandby (perstLow d) := by
  have up' : awake (perstLow d) = true := up
  rw [perstAssert_falls released, up', waits]
  rfl

/-- The device just after a rising edge of PERST#. -/
def perstHigh (d : Dev) : Dev := { d with pwr.perst := false, pwr.perstLink := false, link.wakePin := false }

theorem perstDeassert_vin {d : Dev} (low : d.pwr.perst = true) (vin : d.pwr.vin = true) :
    perstDeassert d = if d.pwr.standby then leaveStandby (perstHigh d)
      else if d.boot.status = .hold then bootCores { perstHigh d with link.clkreq := true }
      else followListen { perstHigh d with link.training := !d.link.up, link.clkreq := true } := by
  unfold perstDeassert
  rw [low]
  exact (if_neg (by decide)).trans (if_neg (by simpa using vin))

theorem bootFull_training {d : Dev} (released : d.pwr.perst = false) :
    (bootFull d).link.training = (!d.link.up && (coresFail d || ownNode d == 0)) := by
  have high : (sensed d).pwr.perst = false := by rw [(sameBut_sensed d).pwr_eq (by decide)]; exact released
  have runs : bootFull d = bootCores (sensed d) := if_neg (ne_true_of_eq_false high)
  have cores : coresFail (sensed d) = coresFail d := coresFail_congr (sameCores_sensed d)
  have node : ownNode (sensed d) = ownNode d := by
    rw [ownNode, (sameBut_sensed d).cas_eq (by decide) (by decide), ownNode]
  rw [runs, (linkStands_bootCores _).training, cores, node, (linkStands_sensed d).up]

/-- A boot that comes to ROM trains the link. -/
theorem trains_of_rom {d : Dev} (rom : bootedStatus d = .rom) : (!d.link.up && (coresFail d || ownNode d == 0)) = true := by
  unfold bootedStatus at rom
  split at rom
  · cases rom
  · split at rom
    · cases rom
    · next h =>
      obtain ⟨up, node⟩ : d.link.up = false ∧ ownNode d = 0 := by simpa using h
      simp [up, node]

/-- A held boot goes on at the rising edge; WAIT_IMAGE at once on a peer or with the link up (log entry 61). -/
theorem perstDeassert_boots {d : Dev} (low : d.pwr.perst = true) (vin : d.pwr.vin = true)
    (waits : d.pwr.standby = true ∨ d.boot.status = .hold) :
    let e := perstDeassert d
    e.pwr.perst = false ∧ e.pwr.standby = false ∧ e.boot.status = bootedStatus d ∧
      (bootedStatus d = .rom → e.link.training = true) := by
  rw [perstDeassert_vin low vin]
  split
  next standby =>
    have left : leaveStandby (perstHigh d) =
        bootFull { perstHigh d with pwr.standby := false, pwr.vcoreLdo := true, pwr.phyLdo := true } := rfl
    rw [left]
    have pwr := (sameBut_bootFull { perstHigh d with pwr.standby := false, pwr.vcoreLdo := true, pwr.phyLdo := true }).pwr_eq
      (by decide)
    refine ⟨by rw [pwr]; rfl, by rw [pwr], by rw [bootFull_status]; rfl, fun rom => ?_⟩
    rw [bootFull_training rfl]
    exact trains_of_rom rom
  next awake =>
    have hold : d.boot.status = .hold := waits.resolve_left awake
    rw [if_pos hold]
    have pwr := (sameBut_bootCores { perstHigh d with link.clkreq := true }).pwr_eq (by decide)
    refine ⟨by rw [pwr]; rfl, by rw [pwr]; exact eq_false_of_ne_true awake, bootCores_status _, fun rom => ?_⟩
    rw [(linkStands_bootCores _).training]
    exact trains_of_rom rom

/-- Settles O23: the branches of the two edges; what a boot that was held reads is the model's reading (log entry 61). -/
theorem perstResetsByItsScope : Obligations.PerstResetsByItsScope := by
  refine ⟨fun s released up go fw scope => ?_, fun s released up go scope => ?_, fun s released up waits => ?_,
    fun s low vin waits => ?_, fun s low up runs => ?_⟩
  · refine completes_of_exec_eq_act (f := perstAssert) rfl ?_
    rw [perstAssert_link released up go fw scope]
    set r := hostReset (perstLow s.dev) with reset
    have same : SameBut _ (perstLow s.dev) r := sameBut_hostReset (perstLow s.dev)
    have follow := sameBut_followListen { r with
      link.pmeEn := s.dev.link.pmeEn, link.pmeStatus := s.dev.link.pmeStatus, pwr.perstLink := true }
    have link := follow.link_eq (by decide) (by decide)
    obtain ⟨run, bg, adm⟩ := hostReset_adm (perstLow s.dev)
    refine ⟨?_, ?_, ?_, ?_, ?_, ?_, ?_, fun rings idle => ?_⟩
    · rw [followListen_pwr]
      exact congrArg Pwr.perst (same.pwr_eq (by decide))
    · rw [followListen_pwr]
    · rw [link]
      exact hostReset_linkUp _
    · rw [follow.adm_eq (by decide)]
      exact congrArg Adm.en adm
    · rw [follow.boot_eq (by decide)]
      exact same.boot_eq (by decide)
    · rw [follow.rings_eq (by decide)]
      exact hostReset_rings _
    · rw [link]
    · have still : SameBut _ (perstLow s.dev) r := sameBut_hostReset_idle rings idle
      rw [follow.queues_eq (by decide), follow.tier_eq (by decide), follow.keys_eq (by decide)]
      exact ⟨still.queues_eq (by decide), still.tier_eq (by decide), still.keys_eq (by decide)⟩
  · refine completes_of_exec_eq_act (f := perstAssert) rfl ?_
    rw [perstAssert_device released up go scope]
    obtain ⟨vin, standby⟩ : s.dev.pwr.vin = true ∧ s.dev.pwr.standby = false := by simpa [awake] using up
    have same := sameBut_bootFull (deviceReset .perst (perstLow s.dev))
    have pwr : (deviceReset .perst (perstLow s.dev)).pwr = { perst := true } := by
      rw [deviceReset_pwr]
      simp [resetPwr, perstLow, vin]
    obtain ⟨deep, cells, -⟩ := (storesKept_deviceReset .perst (perstLow s.dev)).of_tier (same.tier_eq (by decide))
    refine ⟨?_, (same.pwr_eq (by decide)).trans pwr, same.regs_eq (by decide), same.queues_eq (by decide),
      same.rings_eq (by decide), ?_, deep, cells⟩
    · rw [bootFull_status, pwr]
      rfl
    · rw [bootFull_linkUp]
      rfl
  · refine completes_of_exec_eq_act (f := perstAssert) rfl ?_
    rw [perstAssert_standby released up waits]
    obtain ⟨deep, -, -⟩ := storesKept_deviceReset .perst (perstLow s.dev)
    have keys : (cutFuse true (perstLow s.dev)).keys.recA = s.dev.keys.recA :=
      congrArg (fun k : Keys => k.recA) ((sameBut_cutFuse true (perstLow s.dev)).keys_eq (by decide))
    refine ⟨rfl, ?_, rfl, rfl, rfl, deep, keys⟩
    exact (congrArg Pwr.perst (deviceReset_pwr .perst (perstLow s.dev))).trans rfl
  · exact completes_of_exec_eq_act (f := perstDeassert) rfl (perstDeassert_boots low vin waits)
  · obtain ⟨vin, standby⟩ : s.dev.pwr.vin = true ∧ s.dev.pwr.standby = false := by simpa [awake] using up
    refine completes_of_exec_eq_act (f := perstDeassert) rfl ?_
    rw [perstDeassert_vin low vin, if_neg (ne_true_of_eq_false standby), if_neg runs]
    have follow := sameBut_followListen { perstHigh s.dev with link.training := !s.dev.link.up, link.clkreq := true }
    refine ⟨?_, ?_, follow.boot_eq (by decide), ?_, follow.queues_eq (by decide)⟩
    · rw [followListen_pwr]
      rfl
    · rw [followListen_pwr]
      rfl
    · rw [follow.link_eq (by decide) (by decide)]

end Sys2Proof.Machine
end

section
/-!
The firmware download (R476 to R479, R597 to R599).
-/

namespace Sys2Proof.Machine

theorem linkUp_trains {d : Dev} (training : d.link.training = true) (high : d.pwr.perst = false) (up : awake d = true)
    (rate : LinkRate) (two : Bool) :
    let u := { d with
      link.training := false, link.up := true, link.lstate := .l0, link.clkreq := true, link.rate := rate
      link.twoLanes := two }
    linkUp rate two d = if d.boot.status = .rom then openBar2 u else u := by
  unfold linkUp
  rw [training, high, up]
  rfl

theorem linkUp_holds {d : Dev} (training : d.link.training = true) (high : d.pwr.perst = false) (up : awake d = true)
    (rate : LinkRate) (two : Bool) :
    let e := linkUp rate two d
    e.link.up = true ∧ e.link.training = false ∧ e.link.lstate = .l0 ∧ e.link.rate = rate ∧ e.link.twoLanes = two ∧
      (d.boot.status = .rom → e.boot.status = .waitImage ∧ e.boot.buf = []) ∧
      (d.boot.status ≠ .rom → e.boot = d.boot) := by
  rw [linkUp_trains training high up]
  split
  next rom =>
    have stands := linkStands_openBar2 { d with
      link.training := false, link.up := true, link.lstate := .l0, link.clkreq := true, link.rate := rate
      link.twoLanes := two }
    refine ⟨stands.up, stands.training, stands.l0 rfl, stands.rate, stands.lanes, fun _ => ?_, fun other => absurd rom other⟩
    rw [openBar2_boot]
    exact ⟨rfl, rfl⟩
  next other => exact ⟨rfl, rfl, rfl, rfl, rfl, fun rom => absurd rom other, fun _ => rfl⟩

theorem mailbox_status {d : Dev} (takes : mailbox d = true) : d.boot.status = .waitImage ∨ d.boot.status = .loading := by
  simpa [mailbox] using takes

theorem bootBusy_of_mailbox {d : Dev} (takes : mailbox d = true) : bootBusy d = d.boot.busy := by
  unfold bootBusy
  obtain h | h := mailbox_status takes <;> rw [h] <;> exact Bool.or_false _

theorem bootCmd_busy {d : Dev} (busy : bootBusy d = true) (c : Nat) :
    bootCmd c d = { d with boot.held := BitVec.ofNat 2 c } := if_pos busy

theorem bootCmd_free {d : Dev} (free : bootBusy d = false) :
    bootCmd 1 d = loadChunk d ∧ bootCmd 2 d = bootStart d ∧ bootCmd 3 d = bootRestart d :=
  ⟨if_neg (ne_true_of_eq_false free), if_neg (ne_true_of_eq_false free), if_neg (ne_true_of_eq_false free)⟩

theorem setHeld_same {d : Dev} (none : d.boot.held = 0) : { d with boot.held := 0 } = d := by
  rw [← none]

theorem bootCmd_none {d : Dev} (none : d.boot.held = 0) : bootCmd 0 d = d := by
  unfold bootCmd
  split
  · exact setHeld_same none
  · rfl

theorem bootStart_boot {d : Dev} (takes : mailbox d = true) : (bootStart d).boot = { d.boot with status := .verifying } := by
  rw [bootStart, if_pos takes, setBoot_boot]

theorem bootRestart_boot {d : Dev} (failed : d.boot.status = .failed) (err : d.boot.err ≠ 0x96) :
    (bootRestart d).boot = { d.boot with status := .waitImage, loaded := 0, image := [] } := by
  have restarts : bootRestart d = setBoot .waitImage { d with boot.loaded := 0, boot.image := [] } :=
    if_pos (by simpa [failed] using err)
  rw [restarts, setBoot_boot]

theorem loadChunk_eq {d : Dev} (takes : mailbox d = true) :
    loadChunk d = if chunkOk d then { d with boot.busy := true } else { d with boot.err := 0x93 } := by
  rw [loadChunk, takes]
  rfl

/-- The boot state when a chunk has been copied and no command is held. -/
theorem copyDone_boot {d : Dev} (busy : d.boot.busy = true) (runs : d.jtag.halted = false) (none : d.boot.held = 0) :
    (copyDone d).boot = { d.boot with
      status := .loading, busy := false, held := 0, loaded := d.boot.loaded + d.boot.len
      image := tblWriteBytes d.boot.image d.boot.loaded (tblReadBytes d.boot.buf 0 d.boot.len) } := by
  unfold copyDone
  rw [if_neg (by simp [busy, runs]), none]
  refine Eq.trans (congrArg Dev.boot (bootCmd_none ?_)) ?_
  · rw [setBoot_boot]
  · rw [setBoot_boot]

theorem getElem_tblReadBytes {t : Tbl Byte} {off n i : Nat} (h : i < (tblReadBytes t off n).length) :
    (tblReadBytes t off n)[i] = tblGet 0 t (off + i) := by
  simp [tblReadBytes]

theorem length_tblReadBytes (t : Tbl Byte) (off n : Nat) : (tblReadBytes t off n).length = n := by
  simp [tblReadBytes]

/-- Settles O24. -/
theorem firmwareDownloadCommands : Obligations.FirmwareDownloadCommands := by
  refine ⟨fun s rate two training high up => ?_, fun s off data reach takes free fits wf => ?_,
    fun s reach takes free => ?_, fun s busy runs none wf => ?_, fun s reach takes free => ?_,
    fun s reach failed err free => ?_, fun s reach busy => ⟨?_, ?_, ?_⟩⟩
  · exact completes_of_exec_eq_act rfl (linkUp_holds training high up rate two)
  · refine completes_of_exec_eq_act rfl ?_
    have whole : data.take (65536 - off.toNat) = data := List.take_of_length_le (by omega)
    have writes : bar2Write off.toNat data s.dev = { s.dev with boot.buf := tblWriteBytes s.dev.boot.buf off.toNat data } := by
      simp [bar2Write, takes, free, whole]
    rw [if_pos reach, writes]
    exact ⟨rfl, fun i hi => tblGet_writeBytes_same data _ _ i wf hi, fun a out => tblGet_writeBytes_other data _ _ a out⟩
  · refine completes_of_exec_eq_act rfl ?_
    rw [if_pos reach, (bootCmd_free free).1, loadChunk_eq takes]
  · refine completes_of_exec_eq_act (f := copyDone) rfl ?_
    rw [copyDone_boot busy runs none]
    refine ⟨rfl, rfl, rfl, fun i hi => ?_, fun a below => tblGet_writeBytes_other _ _ _ a (.inl below)⟩
    have hi' : i < (tblReadBytes s.dev.boot.buf 0 s.dev.boot.len).length := by rwa [length_tblReadBytes]
    rw [tblGet_writeBytes_same _ _ _ i wf hi', getElem_tblReadBytes, Nat.zero_add]
  · refine completes_of_exec_eq_act rfl ?_
    rw [if_pos reach, (bootCmd_free ((bootBusy_of_mailbox takes).trans free)).2.1]
    exact bootStart_boot takes
  · refine completes_of_exec_eq_act rfl ?_
    rw [if_pos reach, (bootCmd_free free).2.2]
    exact bootRestart_boot failed err
  · exact completes_of_exec_eq_act rfl (by rw [if_pos reach, bootCmd_busy busy]; rfl)
  · exact completes_of_exec_eq_act rfl (by rw [if_pos reach, bootCmd_busy busy]; rfl)
  · exact completes_of_exec_eq_act rfl (by rw [if_pos reach, bootCmd_busy busy]; rfl)

/-! ### The firmware starts -/

/-- A failed verification with no command held: FAILED with its code. -/
theorem imageVerified_fails {d : Dev} (lost : Unread) (verifying : d.boot.status = .verifying) (runs : d.jtag.halted = false)
    {code : Nat} (fault : imageFault d = some code) (none : d.boot.held = 0) :
    imageVerified lost d = setBoot .failed { d with boot.err := BitVec.ofNat 8 code, boot.held := 0 } := by
  unfold imageVerified
  rw [if_neg (by simp [verifying, runs]), fault, none]
  refine bootCmd_none ?_
  rw [setBoot_boot]

theorem imageVerified_holds {d : Dev} (lost : Unread) (verifying : d.boot.status = .verifying) (runs : d.jtag.halted = false)
    (fault : imageFault d = none) :
    imageVerified lost d = if ownNode d = 0 then startFirmware lost d else { d with cas.verified := true } := by
  unfold imageVerified
  rw [if_neg (by simp [verifying, runs]), fault]

theorem restoreKeys_lost (d : Dev) : (restoreKeys true d).keys.slots = [] := by
  unfold restoreKeys
  rw [if_neg (by simp)]
  split
  next h => cases h
  next => rfl

/-- The restore leaves the keys as it found them stored. -/
theorem sameBut_restore (lost : Unread) (d : Dev) :
    SameBut [.timers, .link, .out, .epoch, .queues, .tier, .rep, .err, .peers, .free]
      (restoreKeys lost.keys (deriveKeys d)) (restore lost d) := by
  unfold restore
  generalize restoreKeys lost.keys (deriveKeys d) = g
  refine (mask_set_tier _ (by decide) _).trans ?_
  refine (mask_restoreTier (by decide) (by decide) (by decide) (by decide) (by decide) (by decide) (by decide) (by decide)
    (by decide) ..).trans ?_
  refine (mask_restoreLevel (by decide) ..).trans ((mask_restoreWear (by decide) ..).trans ?_)
  refine (mask_restoreLineage (by decide) (by decide) _).trans ((mask_restoreImage (by decide) ..).trans ?_)
  exact mask_rebuildRemap (by decide) (by decide) (by decide) (by decide) (by decide) g

theorem restore_boot (lost : Unread) (d : Dev) : (restore lost d).boot = d.boot :=
  ((sameBut_restore lost d).boot_eq (by decide)).trans (SameBut.boot_eq (S := [.keys, .err, .free])
    ((mask_restoreKeys (by decide) (by decide) (by decide) ..).trans (mask_deriveKeys (by decide) d)) (by decide))

theorem restore_slots {lost : Unread} (keys : lost.keys = true) (d : Dev) : (restore lost d).keys.slots = [] := by
  rw [(sameBut_restore lost d).keys_eq (by decide), keys, restoreKeys_lost]

theorem sameBut_applyEpoch0 (d : Dev) :
    SameBut [.timers, .out, .bind, .epoch, .ports, .queues, .tier, .err, .peers] d (applyEpoch0 d) :=
  mask_applyEpoch0 (by decide) (by decide) (by decide) (by decide) (by decide) (by decide) (by decide) (by decide) (by decide) d

/-- Keys, queues and epoch 0 of the restored device, settled. -/
def firmwareRestored (lost : Unread) (d : Dev) : Dev := settleKeys (applyEpoch0 (restore lost (setBoot .fwStarting d)))

theorem firmwareRestored_boot (lost : Unread) (d : Dev) :
    (firmwareRestored lost d).boot = { d.boot with status := .fwStarting } := by
  have settled : (firmwareRestored lost d).boot = (applyEpoch0 (restore lost (setBoot .fwStarting d))).boot :=
    SameBut.boot_eq (S := [.tier, .keys, .free]) (mask_settleKeys (by decide) (by decide) (by decide) _) (by decide)
  rw [settled, (sameBut_applyEpoch0 _).boot_eq (by decide), restore_boot, setBoot_boot]

theorem settleKeys_none {d : Dev} (empty : d.keys.slots = []) : settleKeys d = d := by
  rw [settleKeys, empty]
  rfl

theorem settled_slots {d : Dev} (empty : d.keys.slots = []) : (settleKeys (applyEpoch0 d)).keys.slots = [] := by
  have still : (applyEpoch0 d).keys.slots = [] := by
    rw [(sameBut_applyEpoch0 _).keys_eq (by decide)]
    exact empty
  rw [settleKeys_none still]
  exact still

theorem firmwareRestored_slots {lost : Unread} (keys : lost.keys = true) (d : Dev) :
    (firmwareRestored lost d).keys.slots = [] := by
  unfold firmwareRestored
  exact settled_slots (restore_slots keys _)

/-- FW_RUNNING, with what follows it. -/
def firmwareRuns (d : Dev) : Dev :=
  let d := setBoot .fwRunning { d with pwr.listenOk := true }
  let d := if d.adm.en then activity d else d
  let d := d.err.badRows.foldl (fun d r => recordErr 0x8C 8 r d) d
  stopOscIfListening (stallChecks { d with err.badRows := [] })

theorem bootFirmware_eq (lost : Unread) (d : Dev) : bootFirmware lost d = firmwareRuns (firmwareRestored lost d) := by
  unfold bootFirmware firmwareRuns firmwareRestored
  rfl

theorem sameBut_firmwareRuns (d : Dev) :
    SameBut [.tb, .timers, .link, .out, .sweep, .err] (setBoot .fwRunning { d with pwr.listenOk := true }) (firmwareRuns d) := by
  have rows (e : Dev) : SameBut [.tb, .timers, .link, .out, .sweep, .err] e { e with err.badRows := [] } := by
    simp [SameBut, mask]
  unfold firmwareRuns
  generalize setBoot .fwRunning { d with pwr.listenOk := true } = g
  refine (mask_stopOscIfListening (by decide) _).trans ((mask_stallChecks (by decide) _).trans ((rows _).trans ?_))
  refine (mask_foldl (fun e r => mask_recordErr (by decide) (by decide) (by decide) ..) _ _).trans ?_
  exact mask_ite (mask_activity (by decide) (by decide) (by decide) (by decide) _) rfl

theorem firmwareRuns_boot (d : Dev) : (firmwareRuns d).boot = { d.boot with status := .fwRunning } := by
  rw [(sameBut_firmwareRuns d).boot_eq (by decide), setBoot_boot]

theorem firmwareRuns_keys (d : Dev) : (firmwareRuns d).keys = d.keys :=
  ((sameBut_firmwareRuns d).keys_eq (by decide)).trans (SameBut.keys_eq (S := [.boot, .link, .out, .pwr])
    ((mask_setBoot (by decide) (by decide) (by decide) ..).trans (mask_set_pwr _ (by decide) _)) (by decide))

theorem bootFirmware_boot (lost : Unread) (d : Dev) : (bootFirmware lost d).boot = { d.boot with status := .fwRunning } := by
  rw [bootFirmware_eq, firmwareRuns_boot, firmwareRestored_boot]

theorem bootFirmware_slots {lost : Unread} (keys : lost.keys = true) (d : Dev) : (bootFirmware lost d).keys.slots = [] := by
  rw [bootFirmware_eq, firmwareRuns_keys]
  exact firmwareRestored_slots keys d

/-- The device that step 9 starts from: the image is in the SRAMs, the ROM's responder has ended and the pending lanes are
recorded. -/
def imageLoaded (d : Dev) : Dev :=
  recordLanes (endRomSpdm { loadSram d with boot.held := 0, cas.switchClosed := false, cas.verified := false })

theorem imageLoaded_boot (d : Dev) : (imageLoaded d).boot = { (loadSram d).boot with held := 0 } :=
  SameBut.boot_eq (S := [.tier, .rep, .link, .out, .spdm]) (d := { loadSram d with
      boot.held := 0, cas.switchClosed := false, cas.verified := false })
    ((mask_recordLanes (by decide) (by decide) _).trans (mask_endRomSpdm (by decide) (by decide) (by decide) _)) (by decide)

/-- The beacons, and on node 0 the training of an enabled ring, begin. -/
def ringBegins (d : Dev) : Dev :=
  if ownNode d ≠ 0 then startTimer .beacon d
  else if d.regs.casEn then startTraining (startTimer .beacon d) else d

theorem startFirmware_eq (lost : Unread) (d : Dev) : startFirmware lost d = ringBegins (bootFirmware lost (imageLoaded d)) := by
  unfold startFirmware ringBegins imageLoaded
  rfl

theorem sameBut_ringBegins (d : Dev) : SameBut [.timers, .out, .cas, .peers] d (ringBegins d) := by
  refine mask_ite (mask_startTimer (by decide) ..) (mask_ite ?_ rfl)
  exact (mask_startTraining (by decide) (by decide) (by decide) _).trans (mask_startTimer (by decide) ..)

theorem startFirmware_boot (lost : Unread) (d : Dev) :
    (startFirmware lost d).boot = { (loadSram d).boot with held := 0, status := .fwRunning } := by
  rw [startFirmware_eq, (sameBut_ringBegins _).boot_eq (by decide), bootFirmware_boot, imageLoaded_boot]

theorem startFirmware_slots {lost : Unread} (keys : lost.keys = true) (d : Dev) :
    (startFirmware lost d).keys.slots = [] := by
  rw [startFirmware_eq, (sameBut_ringBegins _).keys_eq (by decide)]
  exact bootFirmware_slots keys _

/-- Settles O25. -/
theorem imageVerifiedFailsOrStartsTheFirmware : Obligations.ImageVerifiedFailsOrStartsTheFirmware := by
  intro s lost verifying runs
  refine completes_of_exec_eq_act (f := imageVerified lost) rfl ?_
  split
  next code fault =>
    intro none
    rw [imageVerified_fails lost verifying runs fault none]
    have same : SameBut [.boot, .link, .out] s.dev
        (setBoot .failed { s.dev with boot.err := BitVec.ofNat 8 code, boot.held := 0 }) :=
      (mask_setBoot (by decide) (by decide) (by decide) ..).trans (mask_set_boot _ (by decide) _)
    exact ⟨setBoot_boot .., same.queues_eq (by decide), same.keys_eq (by decide)⟩
  next fault =>
    rw [imageVerified_holds lost verifying runs fault]
    by_cases node : ownNode s.dev = 0
    · rw [if_neg (not_not.2 node), if_pos node]
      rw [startFirmware_boot]
      exact ⟨rfl, rfl, rfl, fun keys => startFirmware_slots keys _⟩
    · rw [if_pos node, if_neg node]

end Sys2Proof.Machine
end

section
/-!
What each operation leaves alone: the parts of the device that it changes at most.
-/

namespace Sys2Proof.Machine

@[simp] theorem mask_aerSet {S : List Part} (hlink : .link ∈ S) (hfree : .free ∈ S) (e : Aer) (d : Dev) :
    mask S (aerSet e d) = mask S d := by
  unfold aerSet
  simp only []
  split_ifs <;> simp only [mask_takeFree, mask_set_link, hlink, hfree]

@[simp] theorem mask_putEv {S : List Part} (hports : .ports ∈ S) (k : Nat) (e : List PortEv) (d : Dev) :
    mask S (putEv k e d) = mask S d := by
  unfold putEv
  split <;> simp only [mask_putI, mask_putE, hports]

@[simp] theorem mask_issueEv {S : List Part} (hports : .ports ∈ S) (k : Nat) (e : PortEv) (d : Dev) :
    mask S (issueEv k e d) = mask S d := by
  simp only [issueEv, mask_putEv, hports]

@[simp] theorem mask_cancelArm {S : List Part} (hports : .ports ∈ S) (k : Nat) (d : Dev) :
    mask S (cancelArm k d) = mask S d := by
  simp only [cancelArm, mask_putEv, hports]

@[simp] theorem mask_closePort {S : List Part} (hports : .ports ∈ S) (k : Nat) (d : Dev) :
    mask S (closePort k d) = mask S d := by
  unfold closePort
  split <;> simp only [mask_issueEv, hports]

@[simp] theorem mask_closePorts {S : List Part} (hports : .ports ∈ S) (d : Dev) :
    mask S (closePorts d) = mask S d := by
  simp only [closePorts, mask_closePort, hports]

@[simp] theorem mask_closePair {S : List Part} (htimers : .timers ∈ S) (hports : .ports ∈ S) (n : Nat) (d : Dev) :
    mask S (closePair n d) = mask S d := by
  unfold closePair
  simp only []
  split_ifs <;> simp only [mask_stopTimer, mask_putPair, mask_cancelArm, htimers, hports]

@[simp] theorem mask_cutPair {S : List Part} (htimers : .timers ∈ S) (hports : .ports ∈ S) (n : Nat) (d : Dev) :
    mask S (cutPair n d) = mask S d := by
  unfold cutPair
  simp only []
  split <;> simp only [mask_putE, mask_putPair, mask_closePair, htimers, hports]

end Sys2Proof.Machine
end

section
/-!
The error capture (R555 to R562), fatal conditions, and stalls of Weave lanes (R400 to R403).
-/

namespace Sys2Proof.Machine

theorem SameBut.err_eq {S : List Part} {d e : Dev} (h : SameBut S d e) (p : .fatal ∉ S) (q : .err ∉ S) : e.err = d.err := by
  rw [h.eq]
  exact (if_neg p).trans (if_neg q)

theorem SameBut.epoch_stands {S : List Part} {d e : Dev} (h : SameBut S d e) (p : .epoch ∉ S) : e.epoch = d.epoch :=
  h.epoch_eq p

/-! ### A record -/

/-- The record of a condition that is detected now. -/
def newRec (code src obj : Nat) (d : Dev) : ErrRec :=
  { code := BitVec.ofNat 8 code, source := src, object := obj, time := ticks d, seq := (d.err.seq + 1) % 65536 }

/-- The error state with a record, before the log. -/
def errWith (fatal : Bool) (code src obj : Nat) (d : Dev) : Err :=
  { countErr code d.err with
    seq := (d.err.seq + 1) % 65536
    fifo := (fifoPut fatal (newRec code src obj d) d.err.fifo).1
    overflow := (countErr code d.err).overflow || (fifoPut fatal (newRec code src obj d) d.err.fifo).2
    last := some (newRec code src obj d)
    first := some ((countErr code d.err).first.getD (newRec code src obj d)) }

theorem countErr_capture (code : Nat) (e : Err) :
    (countErr code e).overflow = e.overflow ∧ (countErr code e).first = e.first ∧ (countErr code e).fatal = e.fatal := by
  unfold countErr
  split_ifs <;> exact ⟨rfl, rfl, rfl⟩

theorem msix_err (v : Nat) (d : Dev) : (msix v d).err = d.err :=
  SameBut.err_eq (S := [.link, .out]) (mask_msix (by decide) (by decide) ..) (by decide) (by decide)

theorem logRec_err (kind code object cid opcode result1 : Nat) {d : Dev} {e : Err} (before : d.err = e) :
    ∃ l n, (logRec kind code object cid opcode result1 d).err = { e with log := l, logSeq := n } := by
  subst before
  exact ⟨_, _, rfl⟩

/-- The capture of a record; the log alone may have grown with it. -/
theorem capture_err (fatal : Bool) (code src obj : Nat) (d : Dev) :
    ∃ l n, (capture fatal code src obj d).err = { errWith fatal code src obj d with log := l, logSeq := n } := by
  have signalled : (if d.err.fifo.isEmpty then msix 0 { d with err := errWith fatal code src obj d }
      else { d with err := errWith fatal code src obj d }).err = errWith fatal code src obj d := by
    split
    · rw [msix_err]
    · rfl
  have unfolded : capture fatal code src obj d =
      let e := if d.err.fifo.isEmpty then msix 0 { d with err := errWith fatal code src obj d }
        else { d with err := errWith fatal code src obj d }
      if fwExec d then logRec 0 code obj 0 0 0 e else e := rfl
  rw [unfolded]
  dsimp only
  split
  · exact logRec_err 0 code obj 0 0 0 signalled
  · exact ⟨_, _, signalled⟩

theorem sameBut_capture (fatal : Bool) (code src obj : Nat) (d : Dev) :
    SameBut [.link, .out, .err] d (capture fatal code src obj d) :=
  mask_capture (by decide) (by decide) (by decide) ..

theorem length_fifoPut (fatal : Bool) (r : ErrRec) {fifo : List ErrRec} (room : fifo.length ≤ 16) :
    (fifoPut fatal r fifo).1.length ≤ 16 := by
  unfold fifoPut
  split
  · simp
  next n last =>
    have entries : fifo ≠ [] := by rintro rfl; cases last
    have pos : 0 < fifo.length := List.length_pos_iff.2 entries
    split_ifs <;> simp <;> omega

/-- Settles O31. -/
theorem captureNumbersAndKeepsRecords : Obligations.CaptureNumbersAndKeepsRecords := by
  intro d fatal code src obj
  obtain ⟨l, n, err⟩ := capture_err fatal code src obj d
  obtain ⟨overflow, first, -⟩ := countErr_capture code d.err
  rw [err]
  refine ⟨rfl, ⟨newRec code src obj d, rfl, rfl, rfl, rfl, rfl, rfl, rfl, ?_⟩, fun room => length_fifoPut fatal _ room, fun empty => ?_,
    fun set => ?_, (sameBut_capture ..).queues_eq (by decide)⟩
  · exact congrArg (fun f : Option ErrRec => some (f.getD _)) first
  · exact (by rw [empty]; rfl : (fifoPut fatal (newRec code src obj d) d.err.fifo).1.length = 1)
  · exact (by rw [overflow, set]; rfl :
      ((countErr code d.err).overflow || (fifoPut fatal (newRec code src obj d) d.err.fifo).2) = true)

theorem capture_last (fatal : Bool) (code src obj : Nat) (d : Dev) :
    (capture fatal code src obj d).err.last = some (newRec code src obj d) := by
  obtain ⟨l, n, err⟩ := capture_err fatal code src obj d
  rw [err]
  rfl

theorem capture_seq (fatal : Bool) (code src obj : Nat) (d : Dev) :
    (capture fatal code src obj d).err.seq = (d.err.seq + 1) % 65536 := by
  obtain ⟨l, n, err⟩ := capture_err fatal code src obj d
  rw [err]
  rfl

/-! ### The fatal condition -/

theorem sameBut_closedAll (d : Dev) :
    SameBut [.timers, .link, .ports, .free] d (cutPair 1 (cutPair 0 (closePorts (aerSet .uncorrectableInternal d)))) :=
  (mask_cutPair (by decide) (by decide) ..).trans ((mask_cutPair (by decide) (by decide) ..).trans
    ((mask_closePorts (by decide) _).trans (mask_aerSet (by decide) (by decide) ..)))

/-- The fatal condition stands: no pop or push is served and the ring's switches close. -/
def fatalStands (d : Dev) : Dev := { d with err.fatal := true, epoch.allFence := true, cas.switchClosed := true }

theorem goFatal_eq (d : Dev) : goFatal d = wakePerst (msix 0 (fatalStands
    (cutPair 1 (cutPair 0 (closePorts (aerSet .uncorrectableInternal d)))))) := by
  unfold goFatal fatalStands
  rfl

theorem sameBut_told (d : Dev) : SameBut [.link, .out] d (wakePerst (msix 0 d)) :=
  (mask_wakePerst (by decide) _).trans (mask_msix (by decide) (by decide) ..)

/-- A fatal condition is entered: the record of its cause stays. -/
theorem goFatal_stops (d : Dev) :
    (goFatal d).err = { d.err with fatal := true } ∧ (goFatal d).epoch = { d.epoch with allFence := true } ∧
      (goFatal d).cas = { d.cas with switchClosed := true } := by
  have closed := sameBut_closedAll d
  rw [goFatal_eq]
  generalize cutPair 1 (cutPair 0 (closePorts (aerSet .uncorrectableInternal d))) = c at closed ⊢
  have told := sameBut_told (fatalStands c)
  rw [told.err_eq (by decide) (by decide), told.epoch_eq (by decide), told.cas_eq (by decide) (by decide)]
  simp only [fatalStands, closed.err_eq (by decide) (by decide), closed.epoch_eq (by decide),
    closed.cas_eq (by decide) (by decide), and_self]

/-! ### Stalls of lanes -/

theorem sameBut_mapLane (x : Lane) (d : Dev) : SameBut [.tier, .rep] d (mapLane x d) :=
  mask_mapLane (by decide) (by decide) x d

theorem mapLane_lanePend (x : Lane) (d : Dev) : (mapLane x d).rep.lanePend = d.rep.lanePend := by
  unfold mapLane
  split
  · rfl
  · have kept (e : Dev) : (writeRepair e).rep = e.rep :=
      SameBut.rep_eq (S := [.tier]) (mask_writeRepair (by decide) e) (by decide)
    rw [kept]

/-- The device that has recorded a stall and holds the lane for retirement. -/
def stallNoted (g l : Nat) (d : Dev) : Dev :=
  let r := recordErr 0x49 9 (g * 8 + l) d
  { r with rep.lanePend := r.rep.lanePend ++ [{ group := g, lane := l }] }

/-- The same with the lane in the field repair map, where the firmware runs: the state that the watchdog meets. -/
def stallHeld (g l : Nat) (d : Dev) : Dev :=
  if fwRunning (stallNoted g l d) then mapLane { group := g, lane := l } (stallNoted g l d) else stallNoted g l d

theorem laneStall_pends {d : Dev} {g l : Nat} (up : awake d = true) (group : g < 1152)
    (whole : ∀ y ∈ d.rep.lanesFactory ++ d.rep.lanesField, y.group ≠ g) (room : d.rep.lanePend.length < 4)
    (fresh : ({ group := g, lane := l } : Lane) ∉ d.rep.lanePend) :
    laneStall g l d = if (stallHeld g l d).regs.wdogRst then watchdogReset (stallHeld g l d) else stallHeld g l d := by
  have rep : (recordErr 0x49 9 (g * 8 + l) d).rep = d.rep := (sameBut_capture ..).rep_eq (by decide)
  have spared : ((d.rep.lanesFactory ++ d.rep.lanesField).any fun x => decide (x.group = g)) = false := by
    simpa [or_imp, forall_and] using whole
  have held : (decide (({ group := g, lane := l } : Lane) ∈ d.rep.lanePend) || decide (4 ≤ d.rep.lanePend.length)) = false := by
    simp [fresh, room]
  unfold laneStall stallHeld stallNoted
  rw [if_neg (by simp [up, group]), spared]
  simp [rep, held]

theorem sameBut_stallNoted (g l : Nat) (d : Dev) : SameBut [.link, .out, .err, .rep] d (stallNoted g l d) :=
  ((sameBut_capture false 0x49 9 (g * 8 + l) d).mono (by decide)).trans (mask_set_rep _ (by decide) _)

theorem sameBut_stallHeld (g l : Nat) (d : Dev) : SameBut [.link, .out, .err, .tier, .rep] d (stallHeld g l d) :=
  SameBut.trans ((sameBut_stallNoted g l d).mono (by decide))
    (mask_ite ((sameBut_mapLane _ (stallNoted g l d)).mono (by decide)) rfl)

theorem stallHeld_err (g l : Nat) (d : Dev) : (stallHeld g l d).err = (recordErr 0x49 9 (g * 8 + l) d).err := by
  unfold stallHeld
  split
  · exact (sameBut_mapLane ..).err_eq (by decide) (by decide)
  · rfl

theorem stallNoted_rep (g l : Nat) (d : Dev) :
    (stallNoted g l d).rep = { d.rep with lanePend := d.rep.lanePend ++ [{ group := g, lane := l }] } :=
  congrArg (fun r : Rep => { r with lanePend := r.lanePend ++ [({ group := g, lane := l } : Lane)] })
    ((sameBut_capture false 0x49 9 (g * 8 + l) d).rep_eq (by decide))

theorem stallHeld_lanePend (g l : Nat) (d : Dev) :
    (stallHeld g l d).rep.lanePend = d.rep.lanePend ++ [{ group := g, lane := l }] := by
  unfold stallHeld
  split
  · rw [mapLane_lanePend, stallNoted_rep]
  · rw [stallNoted_rep]

/-- Without the firmware the repair state keeps everything else. -/
theorem stallHeld_rep {g l : Nat} {d : Dev} (stopped : fwRunning d = false) :
    (stallHeld g l d).rep = { d.rep with lanePend := (stallHeld g l d).rep.lanePend } := by
  have stopped' : fwRunning (stallNoted g l d) = false := by
    rw [fwRunning, (sameBut_stallNoted g l d).boot_eq (by decide)]
    exact stopped
  have held : stallHeld g l d = stallNoted g l d := if_neg (ne_true_of_eq_false stopped')
  rw [held, stallNoted_rep]

/-! ### The watchdog's reset -/

/-- The device that boots after the watchdog's reset. -/
def watchdogStart (d : Dev) : Dev := bootSense (wakePerst (recordErr 0x97 10 0 (deviceReset .soft d)))

theorem watchdogReset_eq (d : Dev) : watchdogReset d = bootOn (watchdogStart d) := rfl

theorem sameBut_watchdogReset (d : Dev) :
    SameBut [.boot, .link, .out, .rep, .fuse, .err, .spdm, .free] (deviceReset .soft d) (watchdogReset d) := by
  have recorded := (sameBut_capture false 0x97 10 0 (deviceReset .soft d)).mono
    (T := [.boot, .link, .out, .rep, .fuse, .err, .spdm, .free]) (by decide)
  have woken : SameBut [.boot, .link, .out, .rep, .fuse, .err, .spdm, .free] (recordErr 0x97 10 0 (deviceReset .soft d))
      (wakePerst (recordErr 0x97 10 0 (deviceReset .soft d))) := mask_wakePerst (by decide) _
  exact recorded.trans (woken.trans (SameBut.trans ((sameBut_bootSense _).mono (by decide))
    ((sameBut_bootOn (watchdogStart d)).mono (by decide))))

/-- The lanes that wait for retirement are the same. -/
def SamePend (d e : Dev) : Prop := e.rep.lanePend = d.rep.lanePend

theorem applyRepair_lanePend (r : Rep) (e : Nat) : (applyRepair r e).lanePend = r.lanePend := by
  unfold applyRepair
  simp only []
  split <;> (try split) <;> rfl

theorem repairs_lanePend (l : List Nat) : ∀ r : Rep, (l.foldl applyRepair r).lanePend = r.lanePend := by
  induction l with
  | nil => exact fun _ => rfl
  | cons e l ih => exact fun r => (ih _).trans (applyRepair_lanePend r e)

theorem senseFuses_lanePend (d : Dev) : SamePend d (senseFuses d) := by
  unfold senseFuses
  extract_lets +onlyGivenNames bad good r
  exact repairs_lanePend _ { d.rep with lanesFactory := [], factoryNear := [], factoryDeep := [] }

theorem applyLanes_lanePend (d : Dev) : SamePend d (applyLanes d) := rfl

theorem bootSense_lanePend (d : Dev) : SamePend d (bootSense d) :=
  (applyLanes_lanePend _).trans (senseFuses_lanePend d)

theorem bootCores_lanePend (d : Dev) : SamePend d (bootCores d) := by
  have rom : SamePend d (romStarted d) :=
    (congrArg Rep.lanePend (SameBut.rep_eq (S := [.boot, .link, .out])
      (mask_setBoot (by decide) (by decide) (by decide) .rom (romReady d)) (by decide))).trans rfl
  cases fails : coresFail d
  · rw [bootCores_of_run fails]
    split
    · exact (congrArg Rep.lanePend (SameBut.rep_eq (S := [.boot, .link, .out, .spdm, .free])
        (mask_openBar2 (by decide) (by decide) (by decide) (by decide) (by decide) _) (by decide))).trans rom
    · exact rom
  · rw [bootCores_of_fail fails]
    exact (congrArg Rep.lanePend (SameBut.rep_eq (S := [.boot, .link, .out])
      (mask_setBoot (by decide) (by decide) (by decide) ..) (by decide))).trans rfl

theorem bootOn_lanePend (d : Dev) : SamePend d (bootOn d) := by
  unfold bootOn
  split
  · exact congrArg Rep.lanePend (SameBut.rep_eq (S := [.boot, .link, .out])
      (mask_setBoot (by decide) (by decide) (by decide) ..) (by decide))
  · exact bootCores_lanePend d

theorem watchdogReset_lanePend (d : Dev) : SamePend d (watchdogReset d) := by
  have kept : (cutFuse true d).rep.lanePend = d.rep.lanePend :=
    congrArg (fun r : Rep => r.lanePend) ((sameBut_cutFuse true d).rep_eq (by decide))
  have reset : SamePend d (deviceReset .soft d) := kept
  have recorded : SamePend (deviceReset .soft d) (wakePerst (recordErr 0x97 10 0 (deviceReset .soft d))) :=
    congrArg Rep.lanePend ((SameBut.rep_eq (S := [.link]) (mask_wakePerst (by decide) _) (by decide)).trans
      ((sameBut_capture ..).rep_eq (by decide)))
  rw [watchdogReset_eq]
  exact (bootOn_lanePend _).trans ((bootSense_lanePend _).trans (recorded.trans reset))

theorem bootedStatus_ne (d : Dev) : bootedStatus d ≠ .fwRunning := by
  unfold bootedStatus
  split_ifs <;> decide

theorem watchdogReset_status (d : Dev) : (watchdogReset d).boot.status ≠ .fwRunning := by
  rw [watchdogReset_eq, bootOn_status]
  split
  · decide
  · exact bootedStatus_ne _

/-- Settles O26. -/
theorem laneStallPendsOrIsFatal : Obligations.LaneStallPendsOrIsFatal := by
  refine ⟨fun s g l x named up group whole room fresh => ?_, fun s g l up group spared => ?_⟩
  · subst named
    have same := sameBut_stallHeld g.toNat l.toNat s.dev
    have regs : (stallHeld g.toNat l.toNat s.dev).regs = s.dev.regs := same.regs_eq (by decide)
    refine ⟨fun off => ?_, fun on => ?_⟩
    · refine completes_of_exec_eq_act (f := laneStall g.toNat l.toNat) rfl ?_
      rw [laneStall_pends up group whole room fresh, regs, off, if_neg Bool.false_ne_true, stallHeld_err]
      refine ⟨stallHeld_lanePend .., stallHeld_rep, capture_seq .., ?_, same.queues_eq (by decide), same.ports_eq (by decide)⟩
      rw [recordErr, capture_last]
      rfl
    · refine completes_of_exec_eq_act (f := laneStall g.toNat l.toNat) rfl ?_
      rw [laneStall_pends up group whole room fresh, regs, on, if_pos rfl]
      have reset := sameBut_watchdogReset (stallHeld g.toNat l.toNat s.dev)
      refine ⟨(watchdogReset_lanePend _).trans (stallHeld_lanePend ..), reset.queues_eq (by decide),
        reset.rings_eq (by decide), ?_, watchdogReset_status _⟩
      rw [reset.keys_eq (by decide)]
      rfl
  · refine completes_of_exec_eq_act (f := laneStall g.toNat l.toNat) rfl ?_
    have any : ((s.dev.rep.lanesFactory ++ s.dev.rep.lanesField).any fun x => decide (x.group = g.toNat)) = true := by
      simpa [or_and_right, exists_or] using spared
    have stops : laneStall g.toNat l.toNat s.dev = goFatal (capture true 0x4B 9 (g.toNat * 8 + l.toNat) s.dev) := by
      unfold laneStall
      rw [if_neg (by simp [up, group]), any]
      exact if_pos rfl
    obtain ⟨err, epoch, cas⟩ := goFatal_stops (capture true 0x4B 9 (g.toNat * 8 + l.toNat) s.dev)
    rw [stops, err, epoch, cas, capture_last]
    exact ⟨rfl, rfl, rfl, rfl⟩

end Sys2Proof.Machine
end

section
/-!
Burns, locks and overrides of the fuse array only set bits (R500, R503, R510).
-/

namespace Sys2Proof.Machine

/-! ### Bits that stay set -/

theorem and_not_trans {n : Nat} {a b c : BitVec n} (h : a &&& ~~~ b = 0) (k : b &&& ~~~ c = 0) : a &&& ~~~ c = 0 := by
  ext i hi
  have hb : (a &&& ~~~ b)[i] = false := by simp [h]
  have kb : (b &&& ~~~ c)[i] = false := by simp [k]
  simp only [BitVec.getElem_and, BitVec.getElem_not, BitVec.ofNat_eq_ofNat, BitVec.getElem_zero] at hb kb ⊢
  grind

theorem and_not_or {n : Nat} (a x : BitVec n) : a &&& ~~~ (a ||| x) = 0 := by
  ext i hi
  simp only [BitVec.getElem_and, BitVec.getElem_not, BitVec.getElem_or, BitVec.ofNat_eq_ofNat, BitVec.getElem_zero]
  grind

/-- Every bit of the rows of `t` stands in `u` too. -/
def RowsGrow (t u : Tbl (BitVec 256)) : Prop := ∀ a, tblGet 0 t a &&& ~~~ tblGet 0 u a = 0

theorem RowsGrow.refl (t : Tbl (BitVec 256)) : RowsGrow t t := fun _ => BitVec.and_not_self _

theorem RowsGrow.trans {t u v : Tbl (BitVec 256)} (h : RowsGrow t u) (k : RowsGrow u v) : RowsGrow t v :=
  fun a => and_not_trans (h a) (k a)

theorem rowsGrow_modify {t : Tbl (BitVec 256)} (wf : tblWf 0 t = true) (k : Nat) (on : BitVec 256) :
    RowsGrow t (tblModify 0 t k (· ||| on)) := by
  intro a
  unfold tblModify
  by_cases same : a = k
  · subst same
    rw [tblGet_set_same wf]
    exact and_not_or ..
  · rw [tblGet_set_other _ _ _ same]
    exact BitVec.and_not_self _

/-- No burn is lost in the array. -/
structure ArrayGrows (d e : Dev) : Prop where
  lo : RowsGrow d.fuse.lo e.fuse.lo
  hi : RowsGrow d.fuse.hi e.fuse.hi
  loWf : tblWf 0 e.fuse.lo = true
  hiWf : tblWf 0 e.fuse.hi = true

theorem ArrayGrows.trans {a b c : Dev} (h : ArrayGrows a b) (k : ArrayGrows b c) : ArrayGrows a c :=
  ⟨h.lo.trans k.lo, h.hi.trans k.hi, k.loWf, k.hiWf⟩

theorem arrayGrows_markBit (row : Nat) (x : Nat × BurnOutcome) {d : Dev} (lo : tblWf 0 d.fuse.lo = true)
    (hi : tblWf 0 d.fuse.hi = true) : ArrayGrows d (markBit row x d) :=
  ⟨rowsGrow_modify lo _ _, rowsGrow_modify hi _ _, tblWf_modify lo _ (· ||| _), tblWf_modify hi _ (· ||| _)⟩

theorem arrayGrows_markBits (row : Nat) (l : List (Nat × BurnOutcome)) : ∀ {d : Dev}, tblWf 0 d.fuse.lo = true →
    tblWf 0 d.fuse.hi = true → ArrayGrows d (l.foldl (fun d x => markBit row x d) d) := by
  induction l with
  | nil => exact fun lo hi => ⟨.refl _, .refl _, lo, hi⟩
  | cons x l ih =>
    intro d lo hi
    have first := arrayGrows_markBit row x lo hi
    exact first.trans (ih first.loWf first.hiWf)

/-! ### The end of a burn -/

/-- The array and the other fuse state when a burn ends: the marked bits, and its result. -/
theorem burnEnd_fuse (b : BurnRun) (d : Dev) : ∃ weak bit weakMask, (burnEnd b d).fuse =
    { (b.steps.foldl (fun d x => markBit b.row x d) d).fuse with
      busy := false, burn := none, code := b.code, weak, bit, weakMask } := by
  unfold burnEnd
  dsimp only
  split
  · exact ⟨_, _, _, rfl⟩
  · exact ⟨_, _, _, rfl⟩

theorem sameBut_burnEnd (b : BurnRun) (d : Dev) : SameBut [.fuse] d (burnEnd b d) := by
  have marked : SameBut [.fuse] d (b.steps.foldl (fun d x => markBit b.row x d) d) :=
    mask_foldl (fun d x => mask_markBit (by decide) ..) _ d
  unfold burnEnd
  dsimp only
  split
  · exact SameBut.trans marked (mask_set_fuse _ (by decide) _)
  · exact SameBut.trans marked (mask_set_fuse _ (by decide) _)

theorem fuseDone_burns {d : Dev} {b : BurnRun} (busy : d.fuse.busy = true) (up : d.pwr.standby = false)
    (burning : d.fuse.burn = some b) : fuseDone d = burnEnd b d := by
  unfold fuseDone
  rw [if_neg (by simp [busy, up]), burning]

/-! ### Overrides -/

theorem setShadow_locked {d : Dev} (sec : d.fuse.otpLock.getLsbD 1 = true) (cust : d.fuse.otpLock.getLsbD 6 = true)
    (off : Nat) (v : Word) : setShadow off v d = d := by
  unfold setShadow
  rw [sec, cust]
  split_ifs <;> rfl

theorem setShadow_sec {d : Dev} (free : d.fuse.otpLock.getLsbD 1 = false) (v : Word) :
    setShadow 0x540 v d = { d with fuse.shdSec := d.fuse.shdSec ||| v.setWidth 64 } := by
  have whole : v.setWidth 64 <<< (8 * (0x540 - 0x540)) = v.setWidth 64 := by simp
  unfold setShadow
  dsimp only
  rw [if_pos (Or.inl rfl), if_neg (ne_true_of_eq_false free), whole]

/-- Settles O28. -/
theorem fusesLocksAndOverridesOnlySet : Obligations.FusesLocksAndOverridesOnlySet := by
  refine ⟨fun s b busy up burning lo hi => ?_, fun s v reach => ?_, fun s v reach free => ?_, fun s off v sec cust => ?_⟩
  · refine completes_of_exec_eq_act (f := fuseDone) rfl ?_
    rw [fuseDone_burns busy up burning]
    obtain ⟨weak, bit, weakMask, fuse⟩ := burnEnd_fuse b s.dev
    have grows := arrayGrows_markBits b.row b.steps lo hi
    rw [fuse]
    refine ⟨rfl, rfl, rfl, grows.hi, grows.lo, fun none => ?_, ?_⟩
    · rw [none]
      exact ⟨rfl, rfl⟩
    · rw [← fuse]
      exact (sameBut_burnEnd b s.dev).eq
  · exact completes_of_exec_eq_act rfl (if_pos reach)
  · refine completes_of_exec_eq_act rfl ?_
    rw [if_pos reach]
    exact setShadow_sec free v
  · refine completes_of_exec_eq_act rfl ?_
    rw [setShadow_locked sec cust, ite_self]

end Sys2Proof.Machine
end

section
/-!
The near code (R368, R369) and the checker test mode (R377 to R379, R611, R612).
-/

namespace Sys2Proof.Machine

/-! ### Parity -/

theorem foldl_xor_xor (f g : Nat → Bool) (l : List Nat) : ∀ p q : Bool,
    l.foldl (fun p i => p ^^ (f i ^^ g i)) (p ^^ q) = (l.foldl (fun p i => p ^^ f i) p ^^ l.foldl (fun p i => p ^^ g i) q) := by
  induction l with
  | nil => exact fun _ _ => rfl
  | cons i l ih =>
    intro p q
    have move : (p ^^ q ^^ (f i ^^ g i)) = ((p ^^ f i) ^^ (q ^^ g i)) := by
      cases p <;> cases q <;> cases f i <;> cases g i <;> rfl
    simp only [List.foldl_cons, move, ih]

theorem parity64_xor (a b : BitVec 64) : parity64 (a ^^^ b) = (parity64 a ^^ parity64 b) := by
  unfold parity64
  simp only [BitVec.getLsbD_xor]
  exact foldl_xor_xor a.getLsbD b.getLsbD _ false false

/-! ### The check byte -/

/-- Eight bits, the first lowest. -/
def byteOf (p0 p1 p2 p3 p4 p5 p6 p7 : Bool) : Nat :=
  flagAt p0 0 + (flagAt p1 1 + (flagAt p2 2 + (flagAt p3 3 + (flagAt p4 4 + (flagAt p5 5 + (flagAt p6 6 + (flagAt p7 7 + 0)))))))

theorem byteOf_eq_bit (p0 p1 p2 p3 p4 p5 p6 p7 : Bool) : byteOf p0 p1 p2 p3 p4 p5 p6 p7 =
    Nat.bit p0 (Nat.bit p1 (Nat.bit p2 (Nat.bit p3 (Nat.bit p4 (Nat.bit p5 (Nat.bit p6 (Nat.bit p7 0))))))) := by
  revert p0 p1 p2 p3 p4 p5 p6 p7
  decide

set_option maxRecDepth 20000 in
theorem parity_byteOf (p0 p1 p2 p3 p4 p5 p6 p7 : Bool) :
    parity64 ((BitVec.ofNat 8 (byteOf p0 p1 p2 p3 p4 p5 p6 p7)).setWidth 64) =
      (p0 ^^ p1 ^^ p2 ^^ p3 ^^ p4 ^^ p5 ^^ p6 ^^ p7) := by
  revert p0 p1 p2 p3 p4 p5 p6 p7
  decide

/-- The bit of the check byte that a mask gives. -/
def maskBit (w m : BitVec 64) : Bool := parity64 (w &&& m)

theorem maskBit_xor (a b m : BitVec 64) : maskBit (a ^^^ b) m = (maskBit a m ^^ maskBit b m) := by
  unfold maskBit
  rw [← parity64_xor]
  congr 1
  ext i hi
  simp [Bool.and_xor_distrib_right]

theorem maskBit_mask (w m n : BitVec 64) : maskBit w (m ^^^ n) = (maskBit w m ^^ maskBit w n) := by
  unfold maskBit
  rw [← parity64_xor]
  congr 1
  ext i hi
  simp [Bool.and_xor_distrib_left]

theorem nearCheck_eq (w : BitVec 64) : nearCheck w = BitVec.ofNat 8 (byteOf
    (maskBit w 0xAB55555556AAAD5B) (maskBit w 0xCD9999999B33366D) (maskBit w 0xF1E1E1E1E3C3C78E)
    (maskBit w 0x01FE01FE03FC07F0) (maskBit w 0x01FFFE0003FFF800) (maskBit w 0x01FFFFFFFC000000)
    (maskBit w 0xFE00000000000000) (maskBit w 0x972CD2D32DA65CB7)) := rfl

/-- The near code is linear. -/
theorem nearCheck_xor (a b : BitVec 64) : nearCheck (a ^^^ b) = nearCheck a ^^^ nearCheck b := by
  simp only [nearCheck_eq, maskBit_xor, byteOf_eq_bit, ← BitVec.ofNat_xor, Nat.xor_bit, Nat.xor_self]

/-- Every data bit stands under an odd number of masks. -/
theorem masks_cover : (0xAB55555556AAAD5B ^^^ (0xCD9999999B33366D ^^^ (0xF1E1E1E1E3C3C78E ^^^ (0x01FE01FE03FC07F0 ^^^
    (0x01FFFE0003FFF800 ^^^ (0x01FFFFFFFC000000 ^^^ (0xFE00000000000000 ^^^ 0x972CD2D32DA65CB7)))))) : BitVec 64) =
      BitVec.allOnes 64 := by decide

/-- A word with its own check byte has even parity. -/
theorem nearParity_own (w : BitVec 64) : nearParity w (nearCheck w) = false := by
  have word : parity64 w = maskBit w (BitVec.allOnes 64) := by rw [maskBit, BitVec.and_allOnes]
  rw [nearParity, nearCheck_eq, parity_byteOf, word, ← masks_cover]
  simp only [maskBit_mask, Bool.xor_assoc, Bool.xor_self]

/-! ### One flipped data bit -/

theorem cast_shift (n i : Nat) : ((1 <<< i : Nat) : BitVec n) = BitVec.twoPow n i := by
  have cast : ((1 <<< i : Nat) : BitVec n) = BitVec.ofNat n (2 ^ i) := congrArg (BitVec.ofNat n) (Nat.one_shiftLeft i)
  rw [cast]
  exact BitVec.eq_of_toNat_eq (by rw [BitVec.toNat_ofNat, BitVec.toNat_twoPow])

theorem parity_bit : ∀ i < 64, parity64 ((1 <<< i : Nat) : BitVec 64) = true := by decide +kernel

theorem parity64_zero : parity64 0#64 = false := by decide +kernel

/-- The mask that gives a bit of the check byte holds the data bit, or not. -/
theorem maskBit_bit {i : Nat} (data : i < 64) (m : BitVec 64) : maskBit ((1 <<< i : Nat) : BitVec 64) m = m.getLsbD i := by
  have one := parity_bit i data
  rw [cast_shift] at one ⊢
  rw [maskBit, BitVec.twoPow_and]
  split
  next on => rw [one, on]
  next off => rw [eq_false_of_ne_true off, parity64_zero]

/-- The check byte of a word with one bit set. -/
def columnOf (i : Nat) : BitVec 8 := BitVec.ofNat 8 (byteOf
  ((0xAB55555556AAAD5B : BitVec 64).getLsbD i) ((0xCD9999999B33366D : BitVec 64).getLsbD i)
  ((0xF1E1E1E1E3C3C78E : BitVec 64).getLsbD i) ((0x01FE01FE03FC07F0 : BitVec 64).getLsbD i)
  ((0x01FFFE0003FFF800 : BitVec 64).getLsbD i) ((0x01FFFFFFFC000000 : BitVec 64).getLsbD i)
  ((0xFE00000000000000 : BitVec 64).getLsbD i) ((0x972CD2D32DA65CB7 : BitVec 64).getLsbD i))

theorem nearCheck_bit {i : Nat} (data : i < 64) : nearCheck ((1 <<< i : Nat) : BitVec 64) = columnOf i := by
  simp only [nearCheck_eq, maskBit_bit data, columnOf]

theorem columns_are_positions : (List.range 64).map (fun i => (columnOf i).toNat % 128) = nearPositions := by decide +kernel

theorem nearPositions_nodup : nearPositions.Nodup := (List.nodup_range (n := 72)).filter _

theorem nearPositions_length : nearPositions.length = 64 := by rw [← columns_are_positions, List.length_map, List.length_range]

theorem column_eq_position {i : Nat} (data : i < 64) :
    (columnOf i).toNat % 128 = nearPositions[i]'(nearPositions_length.symm ▸ data) := by
  simp only [← columns_are_positions, List.getElem_map, List.getElem_range]

/-- A position is found at its own place; it is not 0 and no power of two. -/
theorem position_found {i : Nat} (data : i < 64) :
    (columnOf i).toNat % 128 ≠ 0 ∧ isPow2 ((columnOf i).toNat % 128) = false ∧
      nearPositions.findIdx? (fun p => decide (p = (columnOf i).toNat % 128)) = some i := by
  have place : i < nearPositions.length := nearPositions_length.symm ▸ data
  rw [column_eq_position data]
  obtain ⟨-, kept⟩ := List.mem_filter.1 (List.getElem_mem place)
  obtain ⟨high, plain⟩ : 3 ≤ nearPositions[i] ∧ isPow2 nearPositions[i] = false := by simpa using kept
  refine ⟨by omega, plain, List.findIdx?_eq_some_iff_getElem.2 ⟨place, by simp, fun j hj => ?_⟩⟩
  simpa using fun same => hj.ne ((nearPositions_nodup.getElem_inj_iff).1 same)

theorem column_injective {i j : Nat} (hi : i < 64) (hj : j < 64) (same : (columnOf i).toNat % 128 = (columnOf j).toNat % 128) :
    i = j := by
  rw [column_eq_position hi, column_eq_position hj] at same
  exact nearPositions_nodup.getElem_inj_iff.1 same

/-! ### The decoder -/

theorem xor_xor_self {n : Nat} (a b : BitVec n) : a ^^^ b ^^^ a = b := by
  rw [BitVec.xor_comm, ← BitVec.xor_assoc, BitVec.xor_self, BitVec.zero_xor]

theorem nearParity_data (w e : BitVec 64) (c : BitVec 8) : nearParity (w ^^^ e) c = (nearParity w c ^^ parity64 e) := by
  rw [nearParity, nearParity, parity64_xor]
  cases parity64 w <;> cases parity64 e <;> cases parity64 (c.setWidth 64) <;> rfl

theorem nearParity_check (w : BitVec 64) (c f : BitVec 8) :
    nearParity w (c ^^^ f) = (nearParity w c ^^ parity64 (f.setWidth 64)) := by
  rw [nearParity, nearParity, BitVec.setWidth_xor, parity64_xor, Bool.xor_assoc]

theorem decodeNear_even {w : BitVec 64} {c : BitVec 8} (even : nearParity w c = false)
    (bad : (nearCheck w ^^^ c).toNat % 128 ≠ 0) : (decodeNear w c).cls = 3 := by
  simp only [decodeNear, even, bad, Bool.not_false, if_true, if_false]

/-- A syndrome that is a data bit's position: that bit is flipped back. -/
theorem decodeNear_position {w : BitVec 64} {c : BitVec 8} {i : Nat} (odd : nearParity w c = true) (data : i < 64)
    (synd : nearCheck w ^^^ c = columnOf i) :
    (decodeNear w c).cls = 1 ∧ (decodeNear w c).data = w ^^^ (1 <<< i) ∧ (decodeNear w c).check = c := by
  obtain ⟨some, plain, found⟩ := position_found data
  simp [decodeNear, odd, synd, some, plain, found]

theorem parity_checkBit : ∀ k < 8, parity64 (((1 <<< k : Nat) : BitVec 8).setWidth 64) = true := by decide +kernel

theorem checkBit_syndrome : ∀ k < 7, (((1 <<< k : Nat) : BitVec 8)).toNat % 128 ≠ 0 ∧
    isPow2 ((((1 <<< k : Nat) : BitVec 8)).toNat % 128) = true ∧
    BitVec.ofNat 8 ((((1 <<< k : Nat) : BitVec 8)).toNat % 128) = ((1 <<< k : Nat) : BitVec 8) := by decide

theorem xor_xor_cancel {n : Nat} (a b : BitVec n) : a ^^^ b ^^^ b = a := by
  rw [BitVec.xor_assoc, BitVec.xor_self, BitVec.xor_zero]

/-- One flipped bit of the check byte. -/
theorem decodeNear_checkBit (w : BitVec 64) {k : Nat} (check : k < 8) :
    let r := decodeNear w (nearCheck w ^^^ (1 <<< k))
    r.cls = 1 ∧ r.data = w ∧ r.check = nearCheck w := by
  have odd : nearParity w (nearCheck w ^^^ ((1 <<< k : Nat) : BitVec 8)) = true := by
    rw [nearParity_check, nearParity_own, parity_checkBit k check]
    rfl
  have synd : nearCheck w ^^^ (nearCheck w ^^^ ((1 <<< k : Nat) : BitVec 8)) = ((1 <<< k : Nat) : BitVec 8) := by
    rw [← BitVec.xor_assoc, BitVec.xor_self, BitVec.zero_xor]
  obtain rfl | low : k = 7 ∨ k < 7 := by omega
  · have zero : (((1 <<< 7 : Nat) : BitVec 8)).toNat % 128 = 0 := by decide
    have top : ((1 <<< 7 : Nat) : BitVec 8) = 0x80 := by decide
    simp only [decodeNear, odd, synd, zero, Bool.not_true, Bool.false_eq_true, if_false, if_true, true_and]
    rw [top, xor_xor_cancel]
  · obtain ⟨some, power, back⟩ := checkBit_syndrome k low
    simp only [decodeNear, odd, synd, some, power, back, Bool.not_true, Bool.false_eq_true, if_false, if_true, true_and]
    exact xor_xor_cancel ..

/-- Settles O29: the code is linear, so a word reads as its error does: the syndrome of one flipped bit is its position, and
two positions differ. -/
theorem nearCodeCorrectsOneAndDetectsTwo : Obligations.NearCodeCorrectsOneAndDetectsTwo := by
  intro w
  refine ⟨?_, fun i hi => ?_, fun k hk => decodeNear_checkBit w hk, fun i hi j hj differ => ?_⟩
  · have even := nearParity_own w
    simp [decodeNear, even, flagAt]
  · have odd : nearParity (w ^^^ ((1 <<< i : Nat) : BitVec 64)) (nearCheck w) = true := by
      rw [nearParity_data, nearParity_own, parity_bit i hi]
      rfl
    have synd : nearCheck (w ^^^ ((1 <<< i : Nat) : BitVec 64)) ^^^ nearCheck w = columnOf i := by
      rw [nearCheck_xor, xor_xor_self, nearCheck_bit hi]
    obtain ⟨cls, data, check⟩ := decodeNear_position odd hi synd
    exact ⟨cls, data.trans (xor_xor_cancel ..), check⟩
  · refine decodeNear_even ?_ ?_
    · rw [nearParity_data, nearParity_data, nearParity_own, parity_bit i hi, parity_bit j hj]
      rfl
    · rw [nearCheck_xor, nearCheck_xor, BitVec.xor_assoc (nearCheck w), xor_xor_self, nearCheck_bit hi, nearCheck_bit hj, BitVec.toNat_xor]
      intro zero
      have : (columnOf i).toNat % 128 ^^^ (columnOf j).toNat % 128 = 0 := (Nat.xor_mod_two_pow (n := 7)).symm.trans zero
      exact differ (column_injective hi hj (Nat.xor_eq_zero_iff.1 this))

end Sys2Proof.Machine
end

section
/-!
The checker test mode (R377 to R379, R611, R612).
-/

namespace Sys2Proof.Machine

/-! ### A GO -/

/-- The test mode with the fields of a GO, and the operation under way. -/
def eccStarted (op : Nat) (deep valid : Bool) (index : Nat) (e : Ecc) : Ecc :=
  { e with
    op := BitVec.ofNat 2 op, deep, valid, index := BitVec.ofNat 9 index, busy := true
    run := if op = 2 then some (deep, BitVec.ofNat 9 index) else none }

section
variable {d : Dev} (reach : hostReach d = true) (en : d.ecc.en = true) (free : d.ecc.busy = false) (fw : fwRunning d = true)
include reach en free fw

theorem eccCommand_takes (op : Nat) (deep valid : Bool) (index : Nat) :
    eccCommand op deep valid index d =
      let i := if deep then min 127 index else index
      let d' := { d with ecc := eccStarted op deep valid i d.ecc }
      let near : TestWord := { data := (d.ecc.data.setWidth 64).setWidth 256, check := d.ecc.check &&& 0xFF, valid }
      match op, deep with
      | 0, false => { d' with ecc.nearSeg := tblSet {} d.ecc.nearSeg i near }
      | 0, true => { d' with ecc.buf := tblPut d.ecc.buf i { data := d.ecc.data, check := d.ecc.check } }
      | 1, true =>
        { d' with
          ecc.deepSeg := (List.range 128).map fun k =>
            (k, (tblFind d.ecc.buf k).getD { data := 0, check := Config.deepCheck 0 })
          ecc.buf := [] }
      | _, _ => d' := by
  have open' : (!d.ecc.en || d.ecc.busy || !fwRunning d) = false := by rw [en, free, fw]; rfl
  rw [eccCommand, if_pos reach]
  exact if_neg (ne_true_of_eq_false open')

end

theorem tblFind_map {α : Type} (f : Nat → α) {k : Nat} : ∀ l : List Nat, k ∈ l → tblFind (l.map fun i => (i, f i)) k = some (f k)
  | [], h => by cases h
  | i :: l, h => by
    rw [List.map_cons, tblFind]
    split
    next same => rw [same]
    next other => exact tblFind_map f l ((List.mem_cons.1 h).resolve_left fun e => other e.symm)

/-! ### The end of an operation -/

theorem eccDone_near {d : Dev} {index : BitVec 9} (busy : d.ecc.busy = true) (run : d.ecc.run = some (false, index)) :
    ∃ rv sy, eccDone d = { d with ecc := { d.ecc with
      busy := false, run := none, raw := (eccNear (tblGet {} d.ecc.nearSeg index.toNat)).raw
      rawCheck := (eccNear (tblGet {} d.ecc.nearSeg index.toNat)).check, rawValid := rv, synd := sy
      cls := (eccNear (tblGet {} d.ecc.nearSeg index.toNat)).cls
      corr := (eccNear (tblGet {} d.ecc.nearSeg index.toNat)).corr } } := by
  unfold eccDone
  rw [busy, run]
  exact ⟨_, _, rfl⟩

theorem eccDone_deep {d : Dev} {index : BitVec 9} (busy : d.ecc.busy = true) (run : d.ecc.run = some (true, index))
    (low : index.toNat < 128) :
    ∃ rv, eccDone d = { d with ecc := { d.ecc with
      busy := false, run := none, raw := (eccDeep (tblGet {} d.ecc.deepSeg index.toNat)).raw
      rawCheck := (eccDeep (tblGet {} d.ecc.deepSeg index.toNat)).check, rawValid := rv
      synd := (eccDeep (tblGet {} d.ecc.deepSeg index.toNat)).synd
      cls := (eccDeep (tblGet {} d.ecc.deepSeg index.toNat)).cls
      corr := (eccDeep (tblGet {} d.ecc.deepSeg index.toNat)).corr } } := by
  unfold eccDone
  rw [busy, run, ← Nat.mod_eq_of_lt low]
  exact ⟨_, rfl⟩

/-- The word as it stands, and its syndrome: the check bits of its data against those stored. -/
theorem eccDeep_shows (t : TestWord) :
    (eccDeep t).raw = t.data ∧ (eccDeep t).check = t.check ∧ (eccDeep t).synd = Config.deepCheck t.data ^^^ t.check := by
  unfold eccDeep
  dsimp only
  split
  · exact ⟨rfl, rfl, rfl⟩
  · split
    · exact ⟨rfl, rfl, rfl⟩
    · exact ⟨rfl, rfl, rfl⟩

theorem eccDeep_clean {t : TestWord} (own : t.check = Config.deepCheck t.data) :
    (eccDeep t).cls = 0 ∧ (eccDeep t).corr = t.data := by
  have zero : Config.deepCheck t.data ^^^ t.check = 0 := by rw [own]; exact BitVec.xor_self
  unfold eccDeep
  dsimp only
  rw [if_pos zero]
  exact ⟨rfl, rfl⟩

/-- Settles O30. INDEX above 127 is stored as 127 in the deep segment (log entry 54), and the deep syndrome is the check bits
of the data against those stored (log entry 5): both are the model's choice. -/
theorem eccTestOperations : Obligations.EccTestOperations := by
  intro s
  refine ⟨fun reach en free fw wf => ⟨fun index valid => ?_, fun index valid => ?_, ?_, fun index deep => ?_⟩,
    fun index busy run => ?_, fun index busy run low => ?_⟩
  · refine completes_of_exec_eq_act (f := eccCommand 0 false valid index.toNat) rfl ?_
    rw [eccCommand_takes reach en free fw]
    exact ⟨tblGet_set_same wf _ _, fun j other => tblGet_set_other _ _ _ other, rfl, rfl, rfl⟩
  · refine completes_of_exec_eq_act (f := eccCommand 0 true valid index.toNat) rfl ?_
    rw [eccCommand_takes reach en free fw]
    exact ⟨tblFind_put_same .., rfl, rfl, rfl, rfl⟩
  · refine completes_of_exec_eq_act (f := eccCommand 1 true false 0) rfl ?_
    rw [eccCommand_takes reach en free fw]
    exact ⟨rfl, rfl, fun k hk => tblFind_map _ _ (List.mem_range.2 hk), rfl⟩
  · refine completes_of_exec_eq_act (f := eccCommand 2 deep false index.toNat) rfl ?_
    rw [eccCommand_takes reach en free fw]
    refine ⟨rfl, ?_, rfl, rfl, rfl⟩
    cases deep
    · exact congrArg (fun i => some (false, i)) (BitVec.ofNat_toNat .. |>.trans (BitVec.setWidth_eq index))
    · rfl
  · refine completes_of_exec_eq_act (f := eccDone) rfl ?_
    obtain ⟨rv, sy, done⟩ := eccDone_near busy run
    rw [done]
    exact ⟨rfl, rfl, rfl, rfl, rfl⟩
  · refine completes_of_exec_eq_act (f := eccDone) rfl ?_
    obtain ⟨rv, done⟩ := eccDone_deep busy run low
    obtain ⟨raw, check, synd⟩ := eccDeep_shows (tblGet {} s.dev.ecc.deepSeg index.toNat)
    rw [done]
    exact ⟨rfl, raw, check, synd, eccDeep_clean, rfl⟩

end Sys2Proof.Machine
end

section
/-!
Host reads and writes of the setup registers (R8, R193, R556, R560, R595, R601, R611, R614).
-/

namespace Sys2Proof.Machine

/-! ### Reads -/

theorem readBar0_dword {off : Nat} (aligned : off % 4 = 0) (d : Dev) : readBar0 off .dword d = readDword off d :=
  if_pos aligned

theorem readBar0_qword {off : Nat} (aligned : off % 8 = 0) (d : Dev) :
    readBar0 off .qword d = readDword (off + 4) (readDword off d) := if_pos aligned

/-- A read of another size or off its alignment: 0, and no effect. -/
theorem readBar0_refused {off : Nat} {size : HostRead}
    (bad : match size with
      | .dword => off % 4 ≠ 0
      | .qword => off % 8 ≠ 0
      | .other _ => True) (d : Dev) : readBar0 off size d = { d with out := d.out ++ [.regRead off 0] } := by
  cases size with
  | dword => exact if_neg bad
  | qword => exact if_neg bad
  | other n => rfl

theorem readReg_counters (d : Dev) :
    readReg d 0x016C = d.regs.sweepStale + d.regs.sweepDone * 2 ^ 16 ∧ readReg d 0x0640 = d.err.cntCmd + d.err.cntMem * 2 ^ 16 ∧
      readReg d 0x0644 = d.err.cntPort + d.err.cntRing * 2 ^ 16 ∧ readReg d 0x0648 = d.err.cntSec + d.err.cntPwr * 2 ^ 16 ∧
      readReg d 0x064C = d.err.late :=
  ⟨rfl, rfl, rfl, rfl, rfl⟩

theorem readDword_clears (d : Dev) :
    ((readDword 0x016C d).regs.sweepStale = 0 ∧ (readDword 0x016C d).regs.sweepDone = 0) ∧
      ((readDword 0x0640 d).err.cntCmd = 0 ∧ (readDword 0x0640 d).err.cntMem = 0) ∧
      ((readDword 0x0644 d).err.cntPort = 0 ∧ (readDword 0x0644 d).err.cntRing = 0) ∧
      ((readDword 0x0648 d).err.cntSec = 0 ∧ (readDword 0x0648 d).err.cntPwr = 0) ∧ (readDword 0x064C d).err.late = 0 :=
  ⟨⟨rfl, rfl⟩, ⟨rfl, rfl⟩, ⟨rfl, rfl⟩, ⟨rfl, rfl⟩, rfl⟩

/-- An RC register reads 0 behind the read that cleared it. -/
theorem readReg_cleared (d : Dev) :
    readReg (readDword 0x016C d) 0x016C = 0 ∧ readReg (readDword 0x0640 d) 0x0640 = 0 ∧
      readReg (readDword 0x0644 d) 0x0644 = 0 ∧ readReg (readDword 0x0648 d) 0x0648 = 0 ∧
      readReg (readDword 0x064C d) 0x064C = 0 := by
  obtain ⟨⟨stale, done⟩, ⟨cmd, mem⟩, ⟨port, ring⟩, ⟨sec, pwr⟩, late⟩ := readDword_clears d
  obtain ⟨sweeps, -, -, -, -⟩ := readReg_counters (readDword 0x016C d)
  obtain ⟨-, cmds, -, -, -⟩ := readReg_counters (readDword 0x0640 d)
  obtain ⟨-, -, ports, -, -⟩ := readReg_counters (readDword 0x0644 d)
  obtain ⟨-, -, -, secs, -⟩ := readReg_counters (readDword 0x0648 d)
  obtain ⟨-, -, -, -, lates⟩ := readReg_counters (readDword 0x064C d)
  exact ⟨by simp [sweeps, stale, done], by simp [cmds, cmd, mem], by simp [ports, port, ring], by simp [secs, sec, pwr],
    lates.trans late⟩

/-- Settles O32. -/
theorem errorRegistersReadAndClear : Obligations.ErrorRegistersReadAndClear := by
  intro s reach
  refine ⟨?_, ?_, fun off member => ?_, ?_, ?_, fun off size bad => ?_⟩
  · refine completes_of_exec_eq_act rfl ?_
    rw [if_pos reach]
    exact ⟨rfl, rfl, rfl⟩
  · exact completes_of_exec_eq_act rfl (if_pos reach)
  · refine completes_of_exec_eq_act rfl ?_
    rw [if_pos reach]
    simp only [List.mem_cons, List.not_mem_nil, or_false] at member
    obtain ⟨sweeps, cmd, port, sec, late⟩ := readReg_cleared s.dev
    obtain rfl | rfl | rfl | rfl | rfl := member
    · rw [readBar0_dword rfl]
      exact ⟨rfl, sweeps, rfl⟩
    · rw [readBar0_dword rfl]
      exact ⟨rfl, cmd, rfl⟩
    · rw [readBar0_dword rfl]
      exact ⟨rfl, port, rfl⟩
    · rw [readBar0_dword rfl]
      exact ⟨rfl, sec, rfl⟩
    · rw [readBar0_dword rfl]
      exact ⟨rfl, late, rfl⟩
  · refine completes_of_exec_eq_act rfl ?_
    rw [if_pos reach, readBar0_dword rfl]
    rfl
  · refine completes_of_exec_eq_act rfl ?_
    rw [if_pos reach, readBar0_qword rfl]
    exact ⟨List.append_assoc .., rfl⟩
  · refine completes_of_exec_eq_act rfl ?_
    rw [if_pos reach]
    exact readBar0_refused bad s.dev

/-! ### Writes -/

/-- A write that names no reserved operation completes with its effects. -/
theorem completes_registerWrite {off : BitVec 14} {w : HostWrite} {s : State} {P : Dev → Prop}
    (plain : writesReserved (hostWrites off.toNat w) s.dev = false) (holds : P (writeBar0 (hostWrites off.toNat w) s.dev)) :
    Completes (.registerWrite off w) s P :=
  completes_of_exec_eq_act (if_neg (ne_true_of_eq_false plain)) holds

theorem writeBar0_one {d : Dev} (reach : hostReach d = true) (off v : Nat) : writeBar0 [(off, v)] d = writeReg off v d :=
  if_pos reach

theorem goReserved_other {off : Nat} (fuse : off ≠ 0x0500) (ecc : off ≠ 0x0340) (v : Nat) (d : Dev) :
    goReserved off v d = false := by
  simp [goReserved, fuse, ecc]

/-- A 32-bit write of a register that starts no operation. -/
theorem completes_dwordWrite {off : BitVec 14} {n : Nat} {v : Word} {s : State} {P : Dev → Prop}
    (reach : hostReach s.dev = true) (place : off.toNat = n) (aligned : n % 4 = 0) (fuse : n ≠ 0x0500) (ecc : n ≠ 0x0340)
    (holds : P (writeReg n v.toNat s.dev)) : Completes (.registerWrite off (.dword v)) s P := by
  have writes : hostWrites off.toNat (.dword v) = [(n, v.toNat)] := by
    rw [place]
    exact if_pos aligned
  refine completes_registerWrite ?_ ?_
  · rw [writes]
    simp [writesReserved, goReserved_other fuse ecc]
  · rw [writes, writeBar0_one reach]
    exact holds

/-- A 64-bit write of two such registers: two 32-bit writes, the lower address first. -/
theorem completes_qwordWrite {off : BitVec 14} {n : Nat} {v : DWord} {s : State} {P : Dev → Prop}
    (reach : hostReach s.dev = true) (reach' : hostReach (writeReg n (loWord v) s.dev) = true) (place : off.toNat = n)
    (aligned : n % 8 = 0) (fuse : n ≠ 0x0500 ∧ n + 4 ≠ 0x0500) (ecc : n ≠ 0x0340 ∧ n + 4 ≠ 0x0340)
    (holds : P (writeReg (n + 4) (hiWord v) (writeReg n (loWord v) s.dev))) :
    Completes (.registerWrite off (.qword v)) s P := by
  have writes : hostWrites off.toNat (.qword v) = [(n, loWord v), (n + 4, hiWord v)] := by
    rw [place]
    exact if_pos aligned
  have both : writeBar0 [(n, loWord v), (n + 4, hiWord v)] s.dev =
      writeBar0 [(n + 4, hiWord v)] (writeBar0 [(n, loWord v)] s.dev) := rfl
  refine completes_registerWrite ?_ ?_
  · rw [writes]
    simp [writesReserved, goReserved_other fuse.1 ecc.1, goReserved_other fuse.2 ecc.2]
  · rw [writes, both, writeBar0_one reach, writeBar0_one reach']
    exact holds

/-- A write that the device does not take. -/
theorem hostWrites_none {off : Nat} {w : HostWrite}
    (bad : match w with
      | .dword _ => off % 4 ≠ 0
      | .qword _ => off % 8 ≠ 0
      | .other _ => True) : hostWrites off w = [] := by
  cases w with
  | dword v => exact if_neg bad
  | qword v => exact if_neg bad
  | other n => rfl

theorem clampTo_range {lo hi v : Nat} (low : lo ≤ v) (high : v ≤ hi) : clampTo lo hi v = v := by
  unfold clampTo
  omega

theorem fault_of_reserved {off : BitVec 14} {w : HostWrite} {s : State}
    (reserved : writesReserved (hostWrites off.toNat w) s.dev = true) :
    exec (.registerWrite off w) s = .fault .reservedOperation := if_pos reserved

/-- Settles O34. The stop of a reserved GO is the model's choice (log entry 12). -/
theorem registerWritesReadBackOrStop : Obligations.RegisterWritesReadBackOrStop := by
  refine ⟨fun s v reach => ⟨?_, ?_, ?_⟩, fun s v reach => ?_, fun s off w bad => ?_, fun s reach =>
    ⟨fun ready => ⟨fun row => ?_, fun v go op => ?_⟩, fun free fw v go en op => ?_⟩⟩
  · refine completes_dwordWrite (n := 0x0108) reach rfl rfl (by decide) (by decide) ⟨rfl, ?_⟩
    have value : clampTo 0 8704 (bitsOf v.toNat 0 14) = min 8704 (v.toNat % 2 ^ 14) := by
      simp [clampTo, bitsOf]
    exact value
  · refine completes_dwordWrite (n := 0x0164) reach rfl rfl (by decide) (by decide) ?_
    have stored : readReg (writeReg 0x0164 v.toNat s.dev) 0x0164 = clampTo 1 1000000 (bitsOf v.toNat 0 20) := rfl
    refine ⟨rfl, stored ▸ Nat.le_max_left .., fun low high => stored.trans ?_⟩
    have whole : bitsOf v.toNat 0 20 = v.toNat := by
      simp only [bitsOf]
      omega
    rw [whole, clampTo_range low high]
  · exact completes_dwordWrite (n := 0x0000) reach rfl rfl (by decide) (by decide) rfl
  · refine completes_qwordWrite (n := 0x0160) reach reach rfl rfl (by decide) (by decide) ⟨?_, ?_, rfl⟩
    · have fast : clampTo 1 65535 (bitsOf (loWord v) 0 16) = max 1 (v.toNat % 2 ^ 16) := by
        simp only [clampTo, bitsOf, loWord]
        omega
      exact fast
    · have slow : clampTo 1 1000000 (bitsOf (hiWord v) 0 20) = max 1 (min 1000000 (v.toNat / 2 ^ 32 % 2 ^ 20)) := by
        simp only [clampTo, bitsOf, hiWord]
        omega
      exact slow
  · refine completes_registerWrite ?_ ?_
    · rw [hostWrites_none bad]
      rfl
    · rw [hostWrites_none bad]
      rfl
  · exact if_pos (by simp [reach, ready])
  · refine fault_of_reserved (off := 0x0500) ?_
    have writes : hostWrites (0x0500 : BitVec 14).toNat (.dword v) = [(0x0500, v.toNat)] := rfl
    rw [writes]
    simp [writesReserved, goReserved, reach, ready, go, op]
  · refine fault_of_reserved (off := 0x0340) ?_
    have writes : hostWrites (0x0340 : BitVec 14).toNat (.dword v) = [(0x0340, v.toNat)] := rfl
    rw [writes]
    simp [writesReserved, goReserved, reach, go, en, free, fw, op]

end Sys2Proof.Machine
end

section
/-!
What each operation leaves alone: the parts of the device that it changes at most.
-/

namespace Sys2Proof.Machine

@[simp] theorem mask_putRun {S : List Part} (hports : .ports ∈ S) (k : Nat) (r : PceRun) (d : Dev) :
    mask S (putRun k r d) = mask S d := by
  unfold putRun
  split <;> simp only [mask_putI, mask_putE, hports]

@[simp] theorem mask_putXing {S : List Part} (hports : .ports ∈ S) (k : Nat) (x : EventXing) (d : Dev) :
    mask S (putXing k x d) = mask S d := by
  unfold putXing
  split <;> simp only [mask_putI, mask_putE, hports]

@[simp] theorem mask_portAssemble {S : List Part} (htimers : .timers ∈ S) (hout : .out ∈ S) (hports : .ports ∈ S)
    (hqueues : .queues ∈ S) (hpeers : .peers ∈ S) (i : Nat) (d : Dev) :
    mask S (portAssemble i d) = mask S d := by
  unfold portAssemble
  simp only []
  split_ifs <;> simp only [mask_abortOwned, mask_putI, htimers, hout, hports, hqueues, hpeers]

@[simp] theorem mask_edgeSeen {S : List Part} (htimers : .timers ∈ S) (k : Nat) (d : Dev) :
    mask S (edgeSeen k d) = mask S d := by
  unfold edgeSeen
  split <;> simp only [mask_startTimer, htimers]

@[simp] theorem mask_pumpFlags {S : List Part} (htimers : .timers ∈ S) (hlink : .link ∈ S) (hout : .out ∈ S)
    (hrings : .rings ∈ S) (hports : .ports ∈ S) (d : Dev) :
    mask S (pumpFlags d) = mask S d := by
  simp only [pumpFlags, mask_pump, mask_refreshFlags, htimers, hlink, hout, hrings, hports]

@[simp] theorem mask_tagBeat {S : List Part} (hports : .ports ∈ S) (i : Nat) (v : Nat) (d : Dev) :
    mask S (tagBeat i v d) = mask S d := by
  unfold tagBeat
  simp only []
  split_ifs <;> simp only [mask_putI, hports]

@[simp] theorem mask_storeBeat {S : List Part} (hports : .ports ∈ S) (i qid : Nat) (tag : Option Nat) (stamp : Nat)
    (eop : Bool) (v : BitVec 16) (d : Dev) :
    mask S (storeBeat i qid tag stamp eop v d) = mask S d := by
  simp only [storeBeat, mask_putI, hports]

@[simp] theorem mask_dataBeat {S : List Part} (hlink : .link ∈ S) (hout : .out ∈ S) (hports : .ports ∈ S)
    (herr : .err ∈ S)
    (i : Nat) (eop : Bool) (v : BitVec 16) (d : Dev) : mask S (dataBeat i eop v d) = mask S d := by
  unfold dataBeat
  extract_lets +onlyGivenNames p _ _ d1 p1
  have told : mask S d1 = mask S d :=
    mask_ite rfl ((mask_recordErr hlink hout herr ..).trans (mask_putI hports ..))
  split
  · exact mask_putI hports ..
  · split
    · exact mask_storeBeat hports ..
    · split
      · exact (mask_storeBeat hports ..).trans told
      · exact (mask_recordErr hlink hout herr ..).trans ((mask_putI hports ..).trans told)

@[simp] theorem mask_portStall {S : List Part} (htimers : .timers ∈ S) (hlink : .link ∈ S) (hout : .out ∈ S)
    (hports : .ports ∈ S) (hqueues : .queues ∈ S) (herr : .err ∈ S) (hpeers : .peers ∈ S) (k : Nat) (d : Dev) :
    mask S (portStall k d) = mask S d := by
  unfold portStall
  simp only []
  split_ifs <;> simp only [mask_stopTimer, mask_recordErr, mask_abortOwned, mask_putI, mask_putE, mask_putPair, mask_putRun, mask_refreshFlags, htimers, hlink, hout, hports, hqueues, herr, hpeers]

@[simp] theorem mask_captureBeat {S : List Part} (hlink : .link ∈ S) (hout : .out ∈ S) (hports : .ports ∈ S)
    (herr : .err ∈ S) (i : Nat) (en tag eop : Bool) (v : BitVec 16) (d : Dev) :
    mask S (captureBeat i en tag eop v d) = mask S d := by
  unfold captureBeat
  split_ifs <;> simp only [mask_putI, mask_tagBeat, mask_dataBeat, hlink, hout, hports, herr]

@[simp] theorem mask_watchReturn {S : List Part} (hports : .ports ∈ S) (i : Nat) (en tag eop : Bool) (v : BitVec 16)
    (d : Dev) :
    mask S (watchReturn i en tag eop v d) = mask S d := by
  unfold watchReturn
  simp only []
  split <;> simp only [mask_putPair, hports]

@[simp] theorem mask_latchPin {S : List Part} (hqueues : .queues ∈ S) (q : Option Nat) (f : Ctl → Ctl) (d : Dev) :
    mask S (latchPin q f d) = mask S d := by
  unfold latchPin
  repeat' split
  all_goals simp only [mask_onQueue, hqueues]

@[simp] theorem mask_latchAbort {S : List Part} (htimers : .timers ∈ S) (hout : .out ∈ S) (hqueues : .queues ∈ S)
    (hpeers : .peers ∈ S) (i : Nat) (d : Dev) : mask S (latchAbort i d) = mask S d := by
  unfold latchAbort
  extract_lets d1
  have own : mask S d1 = mask S d :=
    mask_foldl (fun d e => mask_ite (mask_requestAbort hqueues ..) rfl) _ d
  exact (mask_foldl (fun d e => mask_foldl (fun d o =>
    (mask_sendAbort htimers hout hpeers ..).trans (mask_onPeer hpeers ..)) _ d) _ d1).trans own

@[simp] theorem mask_crossingLatch {S : List Part} (htimers : .timers ∈ S) (hout : .out ∈ S) (hports : .ports ∈ S)
    (hqueues : .queues ∈ S) (hpeers : .peers ∈ S) (k : Nat) (d : Dev) :
    mask S (crossingLatch k d) = mask S d := by
  unfold crossingLatch
  simp only []
  split_ifs <;> simp only [mask_putE, mask_putXing, mask_latchPin, mask_latchAbort, htimers, hout, hports, hqueues, hpeers]

@[simp] theorem mask_beatVisible {S : List Part} (htimers : .timers ∈ S) (hlink : .link ∈ S) (hout : .out ∈ S)
    (hrings : .rings ∈ S) (hports : .ports ∈ S) (hqueues : .queues ∈ S) (hpeers : .peers ∈ S) (i : Nat) (d : Dev) :
    mask S (beatVisible i d) = mask S d := by
  unfold beatVisible
  simp only []
  split <;> simp only [mask_putI, mask_portAssemble, mask_pumpFlags, htimers, hlink, hout, hrings, hports, hqueues, hpeers]

@[simp] theorem mask_driveBeat {S : List Part} (hout : .out ∈ S) (hports : .ports ∈ S) (e : Nat) (v : BitVec 16)
    (eop tagv : Bool) (p : EPort) (d : Dev) :
    mask S (driveBeat e v eop tagv p d) = mask S d := by
  simp only [driveBeat, mask_emit, mask_putE, hout, hports]

@[simp] theorem mask_afterBeat {S : List Part} (htimers : .timers ∈ S) (hports : .ports ∈ S) (e : Nat) (d : Dev) :
    mask S (afterBeat e d) = mask S d := by
  simp only [afterBeat, mask_putE, mask_stallCheck, htimers, hports]

@[simp] theorem mask_mustTake {S : List Part} (hqueues : .queues ∈ S) (gq : Nat) (d : Dev) :
    mask S (mustTake gq d) = mask S d := by
  simp only [mustTake, mask_onQueue, hqueues]

@[simp] theorem mask_driveUnder {S : List Part} (htimers : .timers ∈ S) (hout : .out ∈ S) (hports : .ports ∈ S)
    (e : Nat) (u : EmptyItem) (p : EPort) (d : Dev) :
    mask S (driveUnder e u p d) = mask S d := by
  simp only [driveUnder, mask_driveBeat, mask_afterBeat, htimers, hout, hports]

@[simp] theorem mask_driveEmpty {S : List Part} (htimers : .timers ∈ S) (hout : .out ∈ S) (hports : .ports ∈ S)
    (hqueues : .queues ∈ S) (e gq : Nat) (p : EPort) (d : Dev) :
    mask S (driveEmpty e gq p d) = mask S d := by
  simp only [driveEmpty, mask_mustTake, mask_driveUnder, htimers, hout, hports, hqueues]

@[simp] theorem mask_readNothing {S : List Part} (hports : .ports ∈ S) (e : Nat) (p : EPort) (d : Dev) :
    mask S (readNothing e p d) = mask S d := by
  simp only [readNothing, mask_putE, hports]

@[simp] theorem mask_gatedPop {S : List Part} (hqueues : .queues ∈ S) (e : Nat) (hold : Bool) (d : Dev) :
    mask S (gatedPop e hold d) = mask S d := by
  unfold gatedPop
  simp only []
  split
  all_goals try split
  all_goals simp [hqueues]

@[simp] theorem mask_applyCuts {S : List Part} (hports : .ports ∈ S) (e : Nat) (cuts : List (Nat × EsbCut))
    (d : Dev) :
    mask S (applyCuts e cuts d) = mask S d := by
  unfold applyCuts
  exact mask_foldl (fun d c => mask_ite (mask_putE hports ..) (mask_putE hports ..)) _ d

@[simp] theorem mask_armOpened {S : List Part} (hports : .ports ∈ S) (n : Nat) (d : Dev) :
    mask S (armOpened n d) = mask S d := by
  unfold armOpened
  split <;> simp only [mask_issueEv, hports]

@[simp] theorem mask_applyEvent {S : List Part} (htimers : .timers ∈ S) (hports : .ports ∈ S)
    (hqueues : .queues ∈ S) (k : Nat) (ev : PortEv) (d : Dev) :
    mask S (applyEvent k ev d) = mask S d := by
  unfold applyEvent
  repeat' split
  all_goals simp only [mask_putI, mask_applyEgress, mask_applyCuts, mask_armPair, mask_armOpened, htimers, hports, hqueues]

@[simp] theorem mask_portEventEffect {S : List Part} (htimers : .timers ∈ S) (hlink : .link ∈ S) (hout : .out ∈ S)
    (hrings : .rings ∈ S) (hports : .ports ∈ S) (hqueues : .queues ∈ S) (k : Nat) (d : Dev) :
    mask S (portEventEffect k d) = mask S d := by
  unfold portEventEffect
  split <;> simp only [mask_putEv, mask_stallChecks, mask_edgeSeen, mask_pumpFlags, mask_applyEvent, htimers, hlink, hout, hrings, hports, hqueues]

@[simp] theorem mask_reopenEgress {S : List Part} (hports : .ports ∈ S) (e : Nat) (d : Dev) :
    mask S (reopenEgress e d) = mask S d := by
  simp only [reopenEgress, mask_putE, hports]

@[simp] theorem mask_portReopen {S : List Part} (htimers : .timers ∈ S) (hports : .ports ∈ S) (k : Nat) (d : Dev) :
    mask S (portReopen k d) = mask S d := by
  unfold portReopen
  simp only []
  split_ifs <;> simp only [mask_putI, mask_putRun, mask_refreshFlags, mask_stallChecks, mask_armPair, mask_reopenEgress, htimers, hports]

@[simp] theorem mask_handOver {S : List Part} (htimers : .timers ∈ S) (hports : .ports ∈ S) (n : Nat)
    (forced level : Bool) (d : Dev) :
    mask S (handOver n forced level d) = mask S d := by
  simp only [handOver, mask_stopTimer, mask_putI, mask_putE, mask_putPair, mask_refreshFlags, htimers, hports]

end Sys2Proof.Machine
end

section
/-!
The stream ports' state: reads after stores, and what the timers and the flags leave of it.
-/

namespace Sys2Proof.Machine

/-! ### Reads after stores -/

section
variable (n k : Nat) (d : Dev)

@[simp] theorem iport_putI (p : IPort) : iport (putI n p d) n = p := by
  unfold iport putI
  split_ifs <;> rfl

@[simp] theorem eport_putE (p : EPort) : eport (putE n p d) n = p := by
  unfold eport putE
  split_ifs <;> rfl

@[simp] theorem pairOf_putPair (p : PairSt) : pairOf (putPair n p d) n = p := by
  unfold pairOf putPair
  split_ifs <;> rfl

@[simp] theorem iport_putE (p : EPort) : iport (putE k p d) n = iport d n := by
  unfold iport putE
  split_ifs <;> rfl

@[simp] theorem iport_putPair (p : PairSt) : iport (putPair k p d) n = iport d n := by
  unfold iport putPair
  split_ifs <;> rfl

@[simp] theorem eport_putI (p : IPort) : eport (putI k p d) n = eport d n := by
  unfold eport putI
  split_ifs <;> rfl

@[simp] theorem eport_putPair (p : PairSt) : eport (putPair k p d) n = eport d n := by
  unfold eport putPair
  split_ifs <;> rfl

@[simp] theorem pairOf_putI (p : IPort) : pairOf (putI k p d) n = pairOf d n := by
  unfold pairOf putI
  split_ifs <;> rfl

@[simp] theorem pairOf_putE (p : EPort) : pairOf (putE k p d) n = pairOf d n := by
  unfold pairOf putE
  split_ifs <;> rfl

theorem putI_putI (p q : IPort) : putI n p (putI n q d) = putI n p d := by
  unfold putI
  split_ifs <;> rfl

theorem putE_putE (p q : EPort) : putE n p (putE n q d) = putE n p d := by
  unfold putE
  split_ifs <;> rfl

theorem putI_iport : putI n (iport d n) d = d := by
  unfold putI iport
  split_ifs <;> rfl

theorem putE_eport : putE n (eport d n) d = d := by
  unfold putE eport
  split_ifs <;> rfl

@[simp] theorem runOf_putRun (r : PceRun) : runOf (putRun k r d) k = r := by
  unfold runOf putRun
  split_ifs <;> simp

/-! ### What leaves the ports alone -/

variable {n k d} {e : Dev}

theorem iport_congr (h : e.ports = d.ports) : iport e n = iport d n := by rw [iport, h, iport]

theorem eport_congr (h : e.ports = d.ports) : eport e n = eport d n := by rw [eport, h, eport]

theorem pairOf_congr (h : e.ports = d.ports) : pairOf e n = pairOf d n := by rw [pairOf, h, pairOf]

theorem runOf_congr (h : e.ports = d.ports) : runOf e k = runOf d k := by
  rw [runOf, iport_congr h, eport_congr h, runOf]

theorem portOpen_congr (h : e.ports = d.ports) : portOpen e k = portOpen d k := by rw [portOpen, runOf_congr h, portOpen]

theorem inBypass_congr (h : e.ports = d.ports) : inBypass e n = inBypass d n := by rw [inBypass, pairOf_congr h, inBypass]

theorem putI_mask {S : List Part} (h : .ports ∉ S) (p : IPort) (d : Dev) : mask S (putI n p d) = putI n p (mask S d) := by
  unfold putI
  split_ifs <;> simp [mask, h]

theorem putE_mask {S : List Part} (h : .ports ∉ S) (p : EPort) (d : Dev) : mask S (putE n p d) = putE n p (mask S d) := by
  unfold putE
  split_ifs <;> simp [mask, h]

theorem SameBut.putI {S : List Part} (same : SameBut S d e) (h : .ports ∉ S) (p : IPort) :
    SameBut S (putI n p d) (putI n p e) := by
  rw [SameBut, putI_mask h, putI_mask h, same]

theorem SameBut.putE {S : List Part} (same : SameBut S d e) (h : .ports ∉ S) (p : EPort) :
    SameBut S (putE n p d) (putE n p e) := by
  rw [SameBut, putE_mask h, putE_mask h, same]

end

section
variable (n : Nat) (d : Dev)

/-- The flags toward the pins change the flag of an ingress port alone. -/
theorem iport_refreshFlags : iport (refreshFlags d) n = { iport d n with af := (iport (refreshFlags d) n).af } := by
  unfold iport
  split_ifs <;> rfl

/-- The flags toward the pins change the flag of an egress port alone. -/
theorem eport_refreshFlags : eport (refreshFlags d) n = { eport d n with ae := (eport (refreshFlags d) n).ae } := by
  unfold eport
  split_ifs <;> rfl

@[simp] theorem pairOf_refreshFlags : pairOf (refreshFlags d) n = pairOf d n := rfl

@[simp] theorem pairOf_stopTimer (t : TimerId) : pairOf (stopTimer t d) n = pairOf d n := rfl

@[simp] theorem iport_stopTimer (t : TimerId) : iport (stopTimer t d) n = iport d n := rfl

@[simp] theorem eport_stopTimer (t : TimerId) : eport (stopTimer t d) n = eport d n := rfl

end

/-! ### Through-path pairs change hands (R148 to R151, R651) -/

section
variable (n : Nat) (forced level : Bool) (d : Dev)

theorem sameBut_handOver : SameBut [.ports, .timers] d (handOver n forced level d) :=
  mask_handOver (by decide) (by decide) ..

theorem pairOf_handOver :
    pairOf (handOver n forced level d) n = { pairOf d n with armed := false, pointB := false, handed := true, idle := 0 } := by
  simp [handOver]

theorem inBypass_handOver : inBypass (handOver n forced level d) n = false := by
  rw [inBypass, pairOf_handOver]
  simp

theorem iport_handOver :
    (iport (handOver n forced level d) n).tag = (pairOf d n).trackTag ∧
      (iport (handOver n forced level d) n).run.tpForced = forced := by
  unfold handOver
  rw [iport_refreshFlags]
  simp [settleFf]

theorem eport_handOver :
    (eport (handOver n forced level d) n).hiZ = false ∧ (eport (handOver n forced level d) n).eclk = .level level ∧
      (eport (handOver n forced level d) n).run.tpForced = forced := by
  unfold handOver
  rw [eport_refreshFlags]
  simp

variable {n d}

theorem forceHandOver_stillClock (armed : (pairOf d n).armed = true) (still : timerDue d (.noClock n) 16 = true) :
    forceHandOver n d = handOver n false ((takeFree d).1.getLsbD 0) (takeFree d).2 := by
  simp [forceHandOver, armed, still]

theorem forceHandOver_late (armed : (pairOf d n).armed = true) (clocked : timerDue d (.noClock n) 16 = false)
    (late : timerDue d (.handover n) 10000 = true) : forceHandOver n d = handOver n true false d := by
  simp [forceHandOver, armed, clocked, late]

end

/-- Settles O42. A hand-over for want of an I_CLK edge is none by PCE_S_TP_FORCED (log entry 90). -/
theorem throughPathsChangeHands : Obligations.ThroughPathsChangeHands := by
  intro s n
  refine ⟨fun armed point => ?_, fun armed clocked late => ?_, fun armed still => ?_, fun back point => ?_, fun v => ?_⟩
  · refine completes_of_exec_eq_act (f := fun d => if (pairOf d n.val).armed && (pairOf d n.val).pointB then
      handOver n.val false false d else d) rfl ?_
    rw [if_pos (by rw [armed, point]; rfl)]
    obtain ⟨tag, unforced⟩ := iport_handOver n.val false false s.dev
    obtain ⟨driven, low, -⟩ := eport_handOver n.val false false s.dev
    have pair := pairOf_handOver n.val false false s.dev
    exact ⟨congrArg (·.handed) pair, congrArg (·.armed) pair, inBypass_handOver .., tag, unforced, driven, low,
      (sameBut_handOver ..).eq⟩
  · refine completes_of_exec_eq_act (f := forceHandOver n.val) rfl ?_
    rw [forceHandOver_late armed clocked late]
    obtain ⟨-, forcedI⟩ := iport_handOver n.val true false s.dev
    obtain ⟨-, low, forcedE⟩ := eport_handOver n.val true false s.dev
    have pair := pairOf_handOver n.val true false s.dev
    exact ⟨congrArg (·.handed) pair, congrArg (·.armed) pair, forcedI, forcedE, low, (sameBut_handOver ..).eq⟩
  · refine completes_of_exec_eq_act (f := forceHandOver n.val) rfl ?_
    rw [forceHandOver_stillClock armed still]
    obtain ⟨-, unforced⟩ := iport_handOver n.val false ((takeFree s.dev).1.getLsbD 0) (takeFree s.dev).2
    obtain ⟨-, level, -⟩ := eport_handOver n.val false ((takeFree s.dev).1.getLsbD 0) (takeFree s.dev).2
    have pair := pairOf_handOver n.val false ((takeFree s.dev).1.getLsbD 0) (takeFree s.dev).2
    have same : SameBut [.ports, .timers, .free] s.dev
        (handOver n.val false ((takeFree s.dev).1.getLsbD 0) (takeFree s.dev).2) :=
      SameBut.trans (mask_takeFree (by decide) s.dev) ((sameBut_handOver ..).mono (by decide))
    exact ⟨congrArg (·.handed) pair, congrArg (·.armed) pair, unforced, ⟨_, level⟩, same.eq⟩
  · refine completes_of_exec_eq_act (f := fun d => if (pairOf d n.val).returning && (pairOf d n.val).pointB then
      putE n.val { eport d n.val with hiZ := true, pEn := false, eclk := .off }
        (putPair n.val { pairOf d n.val with handed := false, returning := false, pointB := false, idle := 0 } d)
      else d) rfl ?_
    rw [if_pos (by rw [back, point]; rfl)]
    refine ⟨by simp, by simp, by simp, by simp, by simp [inBypass], ?_⟩
    exact (SameBut.trans (S := [.ports]) (mask_putPair (by decide) ..) (mask_putE (by decide) ..)).eq
  · refine completes_of_exec_eq_act (f := fun d => putPair n.val { pairOf d n.val with ball := v } d) rfl ⟨rfl, ?_⟩
    simp [inBypass]

end Sys2Proof.Machine
end

section
/-!
Ports that stall, park and reopen (R142 to R144, R178 to R182).
-/

namespace Sys2Proof.Machine

/-! ### The counters and states of a port -/

section
variable {n k : Nat} (d : Dev)

@[simp] theorem runOf_stopTimer (t : TimerId) : runOf (stopTimer t d) k = runOf d k := rfl

@[simp] theorem runOf_startTimer (t : TimerId) : runOf (startTimer t d) k = runOf d k := rfl

@[simp] theorem runOf_putPair (p : PairSt) : runOf (putPair n p d) k = runOf d k := by
  simp [runOf]

@[simp] theorem runOf_refreshFlags : runOf (refreshFlags d) k = runOf d k := by
  rw [runOf, iport_refreshFlags, eport_refreshFlags, runOf]

theorem runOf_putI {p : IPort} (run : p.run = (iport d k).run) : runOf (putI k p d) k = runOf d k := by
  simp [runOf, run]

theorem runOf_putE {p : EPort} (low : ¬ k < 2) (run : p.run = (eport d (k - 2)).run) :
    runOf (putE (k - 2) p d) k = runOf d k := by
  simp [runOf, low, run]

end

/-! ### A port parks -/

/-- The runtime part of a port that parks (R142). -/
def parkRun (k : Nat) (d : Dev) : Dev :=
  stopTimer (.stall k) (putRun k { runOf d k with parked := true, parks := sat16 (runOf d k).parks 1 } d)

/-- The pins of a port that parks, and the packet that an ingress port leaves open (R142, R143). -/
def parkPins (k : Nat) (d : Dev) : Dev :=
  if k < 2 then abortOwned (.port k) (putI k (closedFlags (iport d k)) d)
  else putE (k - 2) { eport d (k - 2) with pEn := false } d

/-- The hand-over of a port that parks is cancelled. -/
def parkPair (n : Nat) (d : Dev) : Dev :=
  if (pairOf d n).armed then
    stopTimer (.noClock n) (stopTimer (.handover n) (putPair n { pairOf d n with armed := false, pointB := false } d))
  else d

/-- The port once it is parked, before the record. -/
def parkedPort (k : Nat) (d : Dev) : Dev := parkPair (k % 2) (parkPins k (parkRun k d))

theorem portStall_parks {k : Nat} {d : Dev} (waits : portWaits d k = true) (due : timerDue d (.stall k) d.regs.stallTo = true) :
    portStall k d = refreshFlags (recordErr 0x62 1 k (parkedPort k d)) := by
  unfold portStall
  rw [if_neg (by simp [waits, due])]
  rfl

theorem runOf_parkPins (k : Nat) (d : Dev) : runOf (parkPins k d) k = runOf d k := by
  unfold parkPins
  split
  · have aborted : SameBut [.timers, .out, .queues, .peers] (putI k (closedFlags (iport d k)) d)
        (abortOwned (.port k) (putI k (closedFlags (iport d k)) d)) :=
      mask_abortOwned (by decide) (by decide) (by decide) (by decide) ..
    rw [runOf_congr (aborted.ports_eq (by decide))]
    exact runOf_putI d rfl
  next high => exact runOf_putE d high rfl

theorem runOf_parkedPort (k : Nat) (d : Dev) :
    runOf (parkedPort k d) k = { runOf d k with parked := true, parks := sat16 (runOf d k).parks 1 } := by
  have pair (e : Dev) : runOf (parkPair (k % 2) e) k = runOf e k := by
    unfold parkPair
    split <;> simp
  rw [parkedPort, pair, runOf_parkPins, parkRun, runOf_stopTimer, runOf_putRun]

theorem sameBut_parkedPort (k : Nat) (d : Dev) : SameBut [.ports, .timers, .out, .queues, .peers] d (parkedPort k d) := by
  have pins (e : Dev) : SameBut [.ports, .timers, .out, .queues, .peers] e (parkPins k e) :=
    mask_ite ((mask_abortOwned (by decide) (by decide) (by decide) (by decide) ..).trans (mask_putI (by decide) ..))
      (mask_putE (by decide) ..)
  have pair (e : Dev) : SameBut [.ports, .timers, .out, .queues, .peers] e (parkPair (k % 2) e) :=
    mask_ite ((mask_stopTimer (by decide) ..).trans ((mask_stopTimer (by decide) ..).trans (mask_putPair (by decide) ..))) rfl
  exact SameBut.trans ((mask_stopTimer (by decide) ..).trans (mask_putRun (by decide) ..)) (SameBut.trans (pins _) (pair _))

/-- A port that has waited for PORT_STALL_TO is parked, counted and recorded. -/
theorem portStall_holds {k : Nat} {d : Dev} (waits : portWaits d k = true)
    (due : timerDue d (.stall k) d.regs.stallTo = true) :
    runOf (portStall k d) k = { runOf d k with parked := true, parks := sat16 (runOf d k).parks 1 } ∧
      (portStall k d).err.last = some (newRec 0x62 1 k (parkedPort k d)) ∧
      (portStall k d).err.seq = (d.err.seq + 1) % 65536 := by
  have recorded : SameBut [.link, .out, .err] (parkedPort k d) (recordErr 0x62 1 k (parkedPort k d)) := sameBut_capture ..
  rw [portStall_parks waits due]
  refine ⟨?_, capture_last .., ?_⟩
  · rw [runOf_refreshFlags, runOf_congr (recorded.ports_eq (by decide)), runOf_parkedPort]
  · refine (capture_seq ..).trans ?_
    rw [(sameBut_parkedPort k d).err_eq (by decide) (by decide)]

/-! ### PORT_UNPARK -/

/-- The mark of PORT_UNPARK. -/
def markUnpark (k : Nat) (d : Dev) : Dev := putRun k { runOf d k with unparkPend := true } d

theorem HostOnly.runOf_eq {d t : Dev} (h : HostOnly d t) (k : Nat) : runOf t k = runOf d k := by
  rw [show t = _ from h]
  rfl

theorem commutesWithHost_markUnpark (k : Nat) : CommutesWithHost (markUnpark k) := by
  intro d t h
  unfold markUnpark
  rw [h.runOf_eq]
  exact h.putRun ..

theorem keepsHost_markUnpark (k : Nat) : KeepsHost (markUnpark k) := by
  have same (t : Dev) : SameBut [.ports] t (markUnpark k t) := mask_putRun (by decide) ..
  exact .of_frame (fun t => (same t).adm_eq (by decide)) (fun t => (same t).link_eq (by decide) (by decide))
    (fun t => (same t).err_eq (by decide) (by decide)) fun t => congrArg (·.perst) ((same t).pwr_eq (by decide))

theorem unparkBody_parked {c : AdmCmd} {r : AdmRun} {d : Dev} (parked : (runOf d (bitsOf c.arg0.toNat 0 2)).parked = true) :
    unparkBody c r d = ends (okWith 0 0) (markUnpark (bitsOf c.arg0.toNat 0 2) d) := if_pos parked

theorem unparkBody_refuses {c : AdmCmd} {r : AdmRun} {d : Dev} (open_ : (runOf d (bitsOf c.arg0.toNat 0 2)).parked = false) :
    unparkBody c r d = ends (failWith 0x64) d := if_neg (by simp [open_])

/-! ### The first edge after it -/

theorem runOf_reopenEgress {k : Nat} (d : Dev) (high : ¬ k < 2) : runOf (reopenEgress (k - 2) d) k = runOf d k := by
  refine runOf_putE d high ?_
  unfold showFront setClock
  dsimp only
  repeat' split
  all_goals rfl

theorem runOf_armPair (n k : Nat) (d : Dev) : runOf (armPair n d) k = runOf d k := by
  unfold armPair
  dsimp only
  split <;> simp

/-- The runtime part of a port that reopens (R144). -/
def reopenRun (k : Nat) (d : Dev) : Dev := putRun k { runOf d k with parked := false, unparkPend := false } d

/-- The pins of a port that reopens. -/
def reopenPins (k : Nat) (d : Dev) : Dev :=
  if k < 2 then putI k { iport d k with flushPrev := none } d else reopenEgress (k - 2) d

/-- The pair of a port that reopens is armed again. -/
def reopenPair (n : Nat) (d : Dev) : Dev := if (pairOf d n).armed then d else armPair n d

theorem portReopen_reopens {k : Nat} {d : Dev} (parked : (runOf d k).parked = true) (marked : (runOf d k).unparkPend = true) :
    portReopen k d = stallChecks (refreshFlags (reopenPair (k % 2) (reopenPins k (reopenRun k d)))) := by
  unfold portReopen
  rw [if_neg (by simp [parked, marked])]
  rfl

theorem runOf_reopenPins (k : Nat) (d : Dev) : runOf (reopenPins k d) k = runOf d k := by
  unfold reopenPins
  split
  · exact runOf_putI d rfl
  next high => exact runOf_reopenEgress d high

theorem runOf_reopenPair (n k : Nat) (d : Dev) : runOf (reopenPair n d) k = runOf d k := by
  unfold reopenPair
  split
  · rfl
  · exact runOf_armPair ..

theorem sameBut_stallChecks (d : Dev) : SameBut [.timers] d (stallChecks d) := mask_stallChecks (by decide) _

/-- Settles O41. -/
theorem stalledPortsParkAndReopen : Obligations.StalledPortsParkAndReopen := by
  refine ⟨fun s k waits due => ?_, fun s c tag k hk takes room => ⟨fun parked => ?_, fun open_ => ?_⟩,
    fun s k parked marked => ?_⟩
  · refine completes_of_exec_eq_act (f := fun d => govTrack (portStall k.val d)) rfl ?_
    obtain ⟨run, last, seq⟩ := portStall_holds waits due
    have tracked := sameBut_govTrack (portStall k.val s.dev)
    rw [runOf_congr (tracked.ports_eq (by decide)), tracked.err_eq (by decide) (by decide), run, last, seq]
    exact ⟨rfl, rfl, rfl, rfl⟩
  · subst hk
    refine completes_of_ends (body := unparkBody c) (markUnpark (bitsOf c.arg0.toNat 0 2)) (okWith 0 0) rfl takes room
      (fun t h => unparkBody_parked (by rw [h.runOf_eq, parked])) (commutesWithHost_markUnpark _) (keepsHost_markUnpark _)
      fun e h => ⟨h.ace, h.frame⟩
  · subst hk
    exact completes_of_ends_self (body := unparkBody c) (failWith 0x64) rfl takes room
      (fun t h => unparkBody_refuses (by rw [h.runOf_eq, open_])) fun e h => ⟨h.ace, h.frame⟩
  · refine completes_of_exec_eq_act (f := fun d => govTrack (portReopen k.val d)) rfl ?_
    have same : SameBut [.ports, .timers] s.dev (govTrack (portReopen k.val s.dev)) :=
      (mask_govTrack (by decide) _).trans (mask_portReopen (by decide) (by decide) ..)
    refine ⟨?_, same.eq⟩
    rw [runOf_congr ((sameBut_govTrack _).ports_eq (by decide)), portReopen_reopens parked marked,
      runOf_congr ((sameBut_stallChecks _).ports_eq (by decide)), runOf_refreshFlags, runOf_reopenPair, runOf_reopenPins, reopenRun,
      runOf_putRun]

end Sys2Proof.Machine
end

section
/-!
The pulse pins and the event crossing toward the Weave (R139, R140, R158 to R166, R186).
-/

namespace Sys2Proof.Machine

theorem sameBut_edgeSeen (k : Nat) (d : Dev) : SameBut [.timers] d (edgeSeen k d) := mask_edgeSeen (by decide) ..

@[simp] theorem iport_edgeSeen (i k : Nat) (d : Dev) : iport (edgeSeen k d) i = iport d i :=
  iport_congr ((sameBut_edgeSeen k d).ports_eq (by decide))

@[simp] theorem eport_edgeSeen (i k : Nat) (d : Dev) : eport (edgeSeen k d) i = eport d i :=
  eport_congr ((sameBut_edgeSeen k d).ports_eq (by decide))

/-! ### FLUSH -/

/-- An ingress port with a sample of FLUSH. -/
def flushSampled (level : Bool) (p : IPort) : IPort :=
  if level && p.flushPrev = some false then
    { clearTag p with
      flushPrev := some level, isb := p.isb ++ [.cut], partBits := 0
      xing := if !p.xing.busy then { p.xing with busy := true, latched := false, rt := some 0 } else { p.xing with pRt := some 0 }
      run := if p.xing.busy && p.xing.pRt.isSome then { p.run with merges := sat16 p.run.merges 1 } else p.run }
  else { p with flushPrev := some level }

theorem flushPulse_open {i : Nat} {d : Dev} (op : portOpen d i = true) (own : inBypass d i = false) (level : Bool) :
    flushPulse i level d = putI i (flushSampled level (iport d i)) (edgeSeen i d) := by
  unfold flushPulse flushSampled
  rw [if_neg (by simp [op, own])]
  dsimp only
  rw [iport_edgeSeen]
  cases level && decide ((iport d i).flushPrev = some false) <;> rfl

/-- A sample of FLUSH changes the port alone. -/
theorem completes_flushPulse {i : Fin 2} {s : State} (op : portOpen s.dev i = true) (own : inBypass s.dev i = false)
    {level : Bool} {p' : IPort} (sampled : flushSampled level (iport s.dev i) = p') :
    Completes (.flushPulse i level) s fun e => e = { putI i p' s.dev with tb.timers := e.tb.timers } := by
  subst sampled
  refine completes_of_exec_eq_act (f := flushPulse i.val level) rfl ?_
  rw [flushPulse_open op own]
  exact ((sameBut_edgeSeen i.val s.dev).putI (by decide) _).eq

/-! ### RT, MRK and DROP -/

/-- The last sample of a pulse pin. -/
def prevSample (p : EPort) : PulsePin → Option Bool
  | .rt => p.rtPrev
  | .mrk => p.mrkPrev
  | .drop => p.dropPrev

/-- The port with a sample of a pin, before the event of it. -/
def pinSampled (pin : PulsePin) (level : Bool) (p : EPort) : EPort := (pulseEvent pin level (samplePin pin p)).2

section
variable (pin : PulsePin) (level : Bool) (p : EPort)

theorem pulseEvent_eq :
    pulseEvent pin level (samplePin pin p) = (level && decide (prevSample p pin = some false), pinSampled pin level p) := by
  have event : (pulseEvent pin level (samplePin pin p)).1 = (level && decide (prevSample p pin = some false)) := by
    cases pin <;> simp only [pulseEvent, samplePin, prevSample] <;> split <;> rfl
  rw [← event]
  rfl

/-- A sample changes neither the crossing, the ESB nor the queue that a pulse acts on; it can only end an edge. -/
theorem pinSampled_keeps :
    (pinSampled pin level p).xing = p.xing ∧ (pinSampled pin level p).esb = p.esb ∧
      pulseQueue (pinSampled pin level p) = pulseQueue p ∧ (p.fresh = false → (pinSampled pin level p).fresh = false) := by
  cases pin <;> simp only [pinSampled, pulseEvent, samplePin] <;> split <;>
    exact ⟨rfl, rfl, rfl, by simp [newEdge]⟩

/-- The port after a sample of a pin: the event of it is carried, or pends. -/
def pulsed : EPort :=
  let p' := pinSampled pin level p
  if level && prevSample p pin = some false then
    match pulseQueue p with
    | some q =>
      if !p.xing.busy then { p' with xing := setCarried { p.xing with busy := true, latched := false } q pin, fresh := true }
      else if p'.fresh && !p.xing.latched then
        mergeCount (carriedBit p.xing pin).isSome
          { p' with xing := if (carriedBit p.xing pin).isSome then p.xing else setCarried p.xing q pin }
      else
        mergeCount (pendingBit p.xing pin).isSome
          { p' with xing := if (pendingBit p.xing pin).isSome then p.xing else setPending p.xing q pin }
    | none => p'
  else p'

theorem mergeCount_keeps (b : Bool) : (mergeCount b p).xing = p.xing ∧ (mergeCount b p).esb = p.esb := by
  cases b <;> exact ⟨rfl, rfl⟩

theorem outPulse_open {e : Nat} {d : Dev} (op : portOpen d (e + 2) = true) (own : inBypass d e = false) :
    outPulse e pin level d = putE e (pulsed pin level (eport d e)) (edgeSeen (e + 2) d) := by
  obtain ⟨xing, -, queue, -⟩ := pinSampled_keeps pin level (eport d e)
  unfold outPulse
  rw [if_neg (by simp [op, own])]
  dsimp only
  rw [eport_edgeSeen, pulseEvent_eq]
  unfold pulsed
  dsimp only
  rw [queue, xing]
  cases level && decide (prevSample (eport d e) pin = some false)
  · rfl
  · cases pulseQueue (eport d e)
    · rfl
    · rw [if_pos rfl]
      dsimp only
      split_ifs <;> rfl

variable {pin level p}

theorem pulsed_still (still : (level && decide (prevSample p pin = some false)) = false) :
    (pulsed pin level p).xing = p.xing ∧ (pulsed pin level p).esb = p.esb := by
  obtain ⟨xing, esb, -⟩ := pinSampled_keeps pin level p
  unfold pulsed
  rw [if_neg (by simp [still])]
  exact ⟨xing, esb⟩

theorem pulsed_free {gq : Nat} (rose : prevSample p pin = some false) (free : p.xing.busy = false)
    (queue : pulseQueue p = some gq) :
    (pulsed pin true p).xing = setCarried { p.xing with busy := true, latched := false } gq pin ∧
      (pulsed pin true p).esb = p.esb := by
  obtain ⟨-, esb, -⟩ := pinSampled_keeps pin true p
  simp [pulsed, rose, free, queue, esb]

theorem pulsed_pends {gq : Nat} (rose : prevSample p pin = some false) (busy : p.xing.busy = true) (later : p.fresh = false)
    (first : pendingBit p.xing pin = none) (queue : pulseQueue p = some gq) :
    (pulsed pin true p).xing = setPending p.xing gq pin ∧ (pulsed pin true p).esb = p.esb := by
  obtain ⟨-, esb, -, ended⟩ := pinSampled_keeps pin true p
  simp [pulsed, rose, busy, first, queue, ended later, mergeCount, esb]

end

/-- A sample of a pulse pin changes the port alone. -/
theorem outPulse_carried {e : Nat} {d : Dev} (op : portOpen d (e + 2) = true) (own : inBypass d e = false) {pin : PulsePin}
    {level : Bool} {x : EventXing}
    (sampled : (pulsed pin level (eport d e)).xing = x ∧ (pulsed pin level (eport d e)).esb = (eport d e).esb) :
    (eport (outPulse e pin level d) e).xing = x ∧ (eport (outPulse e pin level d) e).esb = (eport d e).esb ∧
      outPulse e pin level d =
        { putE e (eport (outPulse e pin level d) e) d with tb.timers := (outPulse e pin level d).tb.timers } := by
  rw [outPulse_open _ _ op own, eport_putE]
  exact ⟨sampled.1, sampled.2, ((sameBut_edgeSeen (e + 2) d).putE (by decide) _).eq⟩

/-- Settles O36. -/
theorem pulsesAreCarriedAcross : Obligations.PulsesAreCarriedAcross := by
  intro s i own
  refine ⟨fun p hp op => ?_, fun p gq hp op queue => ?_⟩
  · subst hp
    refine ⟨completes_flushPulse op own (by simp [flushSampled]), fun low free => completes_flushPulse op own ?_,
      fun low busy first => completes_flushPulse op own ?_⟩
    · simp [flushSampled, clearTag, low, free]
    · simp [flushSampled, clearTag, low, busy, first]
  · subst hp
    have carried {pin : PulsePin} {level : Bool} {x : EventXing} := outPulse_carried (x := x) (pin := pin) (level := level) op own
    refine ⟨fun free => ⟨fun low => ?_, fun low => ?_, fun low => ?_⟩,
      fun busy later rt mrk drop => ⟨fun low => ?_, fun low => ?_, fun low => ?_⟩, ?_, ?_, ?_⟩
    · exact completes_of_exec_eq_act (f := outPulse i.val .rt true) rfl (carried (pulsed_free low free queue))
    · exact completes_of_exec_eq_act (f := outPulse i.val .mrk true) rfl (carried (pulsed_free low free queue))
    · exact completes_of_exec_eq_act (f := outPulse i.val .drop true) rfl (carried (pulsed_free low free queue))
    · exact completes_of_exec_eq_act (f := outPulse i.val .rt true) rfl (carried (pulsed_pends low busy later rt queue))
    · exact completes_of_exec_eq_act (f := outPulse i.val .mrk true) rfl (carried (pulsed_pends low busy later mrk queue))
    · exact completes_of_exec_eq_act (f := outPulse i.val .drop true) rfl (carried (pulsed_pends low busy later drop queue))
    · exact completes_of_exec_eq_act (f := outPulse i.val .rt false) rfl (carried (pulsed_still rfl))
    · exact completes_of_exec_eq_act (f := outPulse i.val .mrk false) rfl (carried (pulsed_still rfl))
    · exact completes_of_exec_eq_act (f := outPulse i.val .drop false) rfl (carried (pulsed_still rfl))

end Sys2Proof.Machine
end

section
/-!
The event crossing: a carried set at its turnstile, and the acknowledge (R161 to R166, R186).
-/

namespace Sys2Proof.Machine

/-! ### Folds over the queues -/

/-- A fold that changes some of the queues of a table, each by itself. -/
theorem queueOf_foldl_onQueue (p : Nat × Queue → Bool) (g : Nat → Queue → Queue) (l : Tbl Queue) (sorted : tblSorted l = true)
    (j : Nat) : ∀ d : Dev, tblWf {} d.queues = true →
      queueOf (l.foldl (fun d e => if p e then onQueue e.1 (g e.1) d else d) d) j =
        if (tblFind l j).any fun q => p (j, q) then g j (queueOf d j) else queueOf d j := by
  induction l with
  | nil => intro d _; rfl
  | cons e l ih =>
    obtain ⟨i, q⟩ := e
    obtain ⟨above, sorted⟩ := tblSorted_cons.1 sorted
    intro d wf
    have wf' : tblWf {} (onQueue i (g i) d).queues = true := putQueue_wf wf ..
    rw [List.foldl_cons, tblFind]
    by_cases here : i = j
    · subst here
      have later : tblFind l i = none := tblFind_above above
      cases hp : p (i, q)
      · simp [ih sorted d wf, later, hp]
      · simp [ih sorted _ wf', later, hp, queueOf_on_same wf]
    · cases hp : p (i, q)
      · simp [ih sorted d wf, here]
      · simp [ih sorted _ wf', here, queueOf_on_other _ _ (Ne.symm here)]

/-! ### A carried set is latched -/

@[simp] theorem xingOf_putXing (k : Nat) (x : EventXing) (d : Dev) : xingOf (putXing k x d) k = x := by
  unfold xingOf putXing
  split <;> simp

theorem xingOf_congr {k : Nat} {d e : Dev} (h : e.ports = d.ports) : xingOf e k = xingOf d k := by
  rw [xingOf, iport_congr h, eport_congr h, xingOf]

theorem sameBut_putXing (k : Nat) (x : EventXing) (d : Dev) : SameBut [.ports] d (putXing k x d) :=
  mask_putXing (by decide) ..

/-- The device once the crossing of a port is latched. -/
def latchedAt (k : Nat) (d : Dev) : Dev := putXing k { xingOf d k with latched := true } d

theorem crossingLatch_ingress {k : Nat} {d : Dev} (busy : (xingOf d k).busy = true) (fresh : (xingOf d k).latched = false)
    (runs : (runOf d k).parked = false) (low : k < 2) : crossingLatch k d = latchAbort k (latchedAt k d) := by
  unfold crossingLatch
  rw [if_neg (by simp [busy, fresh, runs])]
  exact if_pos low

/-- An egress port of a latched set. -/
def edgeDone (e : Nat) (d : Dev) : Dev := putE e { eport d e with fresh := false } d

theorem crossingLatch_egress {k : Nat} {d : Dev} (busy : (xingOf d k).busy = true) (fresh : (xingOf d k).latched = false)
    (runs : (runOf d k).parked = false) (high : 2 ≤ k) :
    crossingLatch k d = edgeDone (k - 2)
      (latchPin (xingOf d k).drop (fun c => { c with drop := c.drop ++ [.port k] })
        (latchPin (xingOf d k).mrk (fun c => { c with mark := c.mark ++ [.port k] })
          (latchPin (xingOf d k).rt (fun c => { c with rtx := c.rtx ++ [.port k] }) (latchedAt k d)))) := by
  unfold crossingLatch
  rw [if_neg (by simp [busy, fresh, runs])]
  exact if_neg (by omega)

theorem latchPin_local {gq : Nat} {d : Dev} (own : isLocal d gq = true) (f : Ctl → Ctl) :
    latchPin (some gq) f d = onQueue (gq % 4096) (fun q => { q with ctl := f q.ctl }) d := if_pos own

theorem xingOf_edgeDone {k : Nat} (high : 2 ≤ k) (d : Dev) : xingOf (edgeDone (k - 2) d) k = xingOf d k := by
  simp [xingOf, edgeDone, show ¬ k < 2 by omega]

/-- What a set of one pin asks for at its queue. -/
theorem asks_latched {k : Nat} {d : Dev} (wf : tblWf {} d.queues = true) (high : 2 ≤ k) (gq : Nat) (f : Ctl → Ctl) (e : Dev)
    (he : e = edgeDone (k - 2) (onQueue (gq % 4096) (fun q => { q with ctl := f q.ctl }) (latchedAt k d))) :
    queueOf e (gq % 4096) = { queueOf d (gq % 4096) with ctl := f (queueOf d (gq % 4096)).ctl } ∧
      (∀ j, j ≠ gq % 4096 → queueOf e j = queueOf d j) ∧
      xingOf e k = { xingOf d k with latched := true } ∧ e = { d with queues := e.queues, ports := e.ports } := by
  have latched : SameBut [.ports] d (latchedAt k d) := sameBut_putXing ..
  have done (d : Dev) : SameBut [.ports] d (edgeDone (k - 2) d) := mask_putE (by decide) ..
  have asked : SameBut [.queues] (latchedAt k d) (onQueue (gq % 4096) (fun q => { q with ctl := f q.ctl }) (latchedAt k d)) :=
    mask_onQueue (by decide) ..
  have queues : (latchedAt k d).queues = d.queues := latched.queues_eq (by decide)
  have there (j : Nat) : queueOf (latchedAt k d) j = queueOf d j := by rw [queueOf, queues, queueOf]
  have kept (j : Nat) : queueOf e j = queueOf (onQueue (gq % 4096) (fun q => { q with ctl := f q.ctl }) (latchedAt k d)) j := by
    rw [he, queueOf, (done _).queues_eq (by decide), queueOf]
  refine ⟨?_, fun j other => ?_, ?_, ?_⟩
  · rw [kept, queueOf_on_same (by rw [queues]; exact wf), there]
  · rw [kept, queueOf_on_other _ _ other, there]
  · rw [he, xingOf_edgeDone high, xingOf_congr (asked.ports_eq (by decide))]
    exact xingOf_putXing ..
  · have same : SameBut [.queues, .ports] d e := by
      rw [he]
      exact (latched.mono (by decide)).trans ((asked.mono (by decide)).trans ((done _).mono (by decide)))
    exact same.eq

theorem latchAbort_alone {i : Nat} {d : Dev} (alone : d.cas.peers = []) :
    latchAbort i d = d.queues.foldl (fun d e =>
      if e.2.lock = some (.port i) && e.2.cfg.valid then requestAbort e.1 (.port i) d else d) d := by
  have peers : (d.queues.foldl (fun d e =>
      if e.2.lock = some (.port i) && e.2.cfg.valid then requestAbort e.1 (.port i) d else d) d).cas.peers = [] := by
    have same : SameBut [.queues] d (d.queues.foldl (fun d e =>
        if e.2.lock = some (.port i) && e.2.cfg.valid then requestAbort e.1 (.port i) d else d) d) :=
      mask_foldl (fun d e => mask_ite (mask_requestAbort (by decide) ..) rfl) _ d
    rw [same.cas_eq (by decide) (by decide), alone]
  unfold latchAbort
  dsimp only
  rw [peers]
  rfl

/-- A queue's abort is asked for. -/
def abortAsked (i : Nat) (q : Queue) : Queue :=
  if .port i ∈ q.ctl.aborts then q else { q with ctl.aborts := q.ctl.aborts ++ [.port i] }

theorem abortAsked_asks (i : Nat) (q : Queue) :
    .port i ∈ (abortAsked i q).ctl.aborts ∧ abortAsked i q = { q with ctl.aborts := (abortAsked i q).ctl.aborts } := by
  unfold abortAsked
  split
  next asked => exact ⟨asked, rfl⟩
  · exact ⟨by simp, rfl⟩

/-- FLUSH reaches each queue in service that the port holds locked, and no other. -/
theorem queueOf_latchAbort {i : Nat} {d : Dev} (alone : d.cas.peers = []) (wf : tblWf {} d.queues = true) (j : Nat) :
    queueOf (latchAbort i d) j =
      if (queueOf d j).lock = some (.port i) ∧ (queueOf d j).cfg.valid = true then abortAsked i (queueOf d j)
      else queueOf d j := by
  have sorted : tblSorted d.queues = true := (Bool.and_eq_true _ _ ▸ wf : tblSorted d.queues = true ∧ _).1
  rw [latchAbort_alone alone]
  refine (queueOf_foldl_onQueue (fun e => e.2.lock = some (.port i) && e.2.cfg.valid) (fun _ => abortAsked i) d.queues
    sorted j d wf).trans ?_
  have found : queueOf d j = (tblFind d.queues j).getD {} := rfl
  rw [found]
  cases tblFind d.queues j with
  | none => rfl
  | some q => simp

/-! ### The acknowledge -/

theorem crossingFree_frees {k : Nat} {d : Dev} (busy : (xingOf d k).busy = true) (latched : (xingOf d k).latched = true)
    (runs : (runOf d k).parked = false) :
    xingOf (crossingFree k d) k =
        (if (xingOf d k).pRt.isNone && (xingOf d k).pMrk.isNone && (xingOf d k).pDrop.isNone then {}
          else { busy := true, rt := (xingOf d k).pRt, mrk := (xingOf d k).pMrk, drop := (xingOf d k).pDrop }) ∧
      SameBut [.ports, .timers] d (crossingFree k d) := by
  have fresh (e : Dev) : SameBut [.ports, .timers] e (putE (k - 2) { eport e (k - 2) with fresh := true } e) :=
    mask_putE (by decide) ..
  unfold crossingFree
  rw [if_neg (by simp [busy, latched, runs])]
  split
  · exact ⟨xingOf_putXing .., SameBut.trans (mask_edgeSeen (by decide) ..) (mask_putXing (by decide) ..)⟩
  · have next (x : EventXing) : SameBut [.ports, .timers] d (putXing k x (edgeSeen k d)) :=
      SameBut.trans (mask_edgeSeen (by decide) ..) (mask_putXing (by decide) ..)
    split
    · exact ⟨xingOf_putXing .., next _⟩
    next high =>
      refine ⟨?_, (next _).trans (fresh _)⟩
      refine Eq.trans ?_ (xingOf_putXing k _ (edgeSeen k d))
      simp [xingOf, high]

/-- Settles O37. -/
theorem crossingsLatchAndFree : Obligations.CrossingsLatchAndFree := by
  intro s k runs wf
  refine ⟨fun x gq hx busy fresh high own => ?_, fun x hx busy fresh low alone => ?_, fun x hx busy latched => ?_⟩
  · subst hx
    intro asks
    have cross := crossingLatch_egress busy fresh runs high
    have pin (f : Ctl → Ctl) : latchPin (some gq) f (latchedAt k.val s.dev) =
        onQueue (gq % 4096) (fun q => { q with ctl := f q.ctl }) (latchedAt k.val s.dev) := by
      refine latchPin_local ?_ f
      rw [isLocal, ownNode, latchedAt, (sameBut_putXing ..).cas_eq (by decide) (by decide)]
      exact own
    have one (f : Ctl → Ctl) (latch : crossingLatch k.val s.dev =
        edgeDone (k.val - 2) (latchPin (some gq) f (latchedAt k.val s.dev))) :
        Completes (.eventCrossingLatch k) s (asks f) :=
      completes_of_exec_eq_act (f := crossingLatch k.val) rfl
        (asks_latched wf high gq f _ (latch.trans (by rw [pin])))
    clear_value asks
    refine ⟨fun rt mrk drop => one _ ?_, fun rt mrk drop => one _ ?_, fun rt mrk drop => one _ ?_⟩ <;>
      rw [cross, rt, mrk, drop] <;> rfl
  · subst hx
    refine completes_of_exec_eq_act (f := crossingLatch k.val) rfl ?_
    have same := sameBut_putXing k.val { xingOf s.dev k with latched := true } s.dev
    have queues : (latchedAt k.val s.dev).queues = s.dev.queues := same.queues_eq (by decide)
    have peers : (latchedAt k.val s.dev).cas.peers = [] := by
      rw [latchedAt, same.cas_eq (by decide) (by decide), alone]
    have aborts : SameBut [.queues] (latchedAt k.val s.dev) (latchAbort k.val (latchedAt k.val s.dev)) := by
      rw [latchAbort_alone peers]
      exact mask_foldl (fun d e => mask_ite (mask_requestAbort (by decide) ..) rfl) _ _
    rw [crossingLatch_ingress busy fresh runs low]
    refine ⟨aborts.eq, fun j => ?_⟩
    have there : queueOf (latchedAt k.val s.dev) j = queueOf s.dev j := by rw [queueOf, queues, queueOf]
    rw [queueOf_latchAbort peers (by rw [queues]; exact wf), there]
    split
    · exact abortAsked_asks ..
    · rfl
  · subst hx
    refine completes_of_exec_eq_act (f := crossingFree k.val) rfl ?_
    obtain ⟨freed, same⟩ := crossingFree_frees busy latched runs
    exact ⟨freed, same.eq⟩

end Sys2Proof.Machine
end

section
/-!
One rising edge of I_CLK (R102 to R112, R145, R148, R155, R188).
-/

namespace Sys2Proof.Machine

/-! ### What an edge leaves alone beside its port -/

/-- Nothing but the timers and the states of the port pairs differs. -/
abbrev PairsAside (d e : Dev) : Prop :=
  e = { d with tb.timers := e.tb.timers, ports.p0 := e.ports.p0, ports.p1 := e.ports.p1 }

theorem PairsAside.trans {a b c : Dev} (h : PairsAside a b) (k : PairsAside b c) : PairsAside a c := by
  rw [PairsAside, show c = _ from k, show b = _ from h]

theorem SameBut.pairsAside {d e : Dev} (h : SameBut [.timers] d e) : PairsAside d e := by
  rw [show e = _ from h.eq]
  rfl

theorem pairsAside_putPair (n : Nat) (p : PairSt) (d : Dev) : PairsAside d (putPair n p d) := by
  unfold putPair
  split_ifs <;> rfl

section
variable {d e : Dev} (h : PairsAside d e)
include h

theorem PairsAside.putI (i : Nat) (p : IPort) : PairsAside (putI i p d) (putI i p e) := by
  rw [show e = _ from h]
  unfold Sys2Proof.Machine.putI
  split_ifs <;> rfl

theorem PairsAside.iport (i : Nat) : iport e i = iport d i := by
  rw [show e = _ from h]
  rfl

theorem PairsAside.portOpen (k : Nat) : portOpen e k = portOpen d k := by
  rw [show e = _ from h]
  rfl

theorem PairsAside.portWaits (k : Nat) : portWaits e k = portWaits d k := by
  rw [show e = _ from h]
  rfl

theorem PairsAside.portStamp (i : Nat) : portStamp e i = portStamp d i := by
  rw [show e = _ from h]
  rfl

theorem PairsAside.err : e.err = d.err := by
  rw [show e = _ from h]

theorem PairsAside.regs : e.regs = d.regs := by
  rw [show e = _ from h]

end

/-! ### Timers of the port -/

theorem timerDue_congr {d e : Dev} {id : TimerId} (same : timerOf e id = timerOf d id) (now : e.tb.now = d.tb.now) (n : Nat) :
    timerDue e id n = timerDue d id n := by
  unfold timerDue timerRan
  rw [same, now]

theorem timerOf_startTimer_same (id : TimerId) (d : Dev) :
    timerOf (startTimer id d) id = some { id, start := if d.tb.tickRun then some d.tb.now else none } := by
  have gone : (d.tb.timers.filter fun t => t.id ≠ id).find? (fun t => t.id = id) = none := by
    rw [List.find?_eq_none]
    simp
  rw [timerOf, startTimer, List.find?_append, gone]
  simp

theorem timerOn_of_due {d : Dev} {id : TimerId} {n : Nat} (due : timerDue d id n = true) : timerOn d id = true := by
  unfold timerDue at due
  unfold timerOn
  cases h : timerOf d id with
  | none => rw [h] at due; cases due
  | some t => rfl

theorem timerOf_govTrack {d : Dev} {j : TimerId} (up : j ≠ .govUp) (down : j ≠ .govDown) :
    timerOf (govTrack d) j = timerOf d j := by
  unfold govTrack govRefresh stopWindows
  split
  · dsimp only
    split_ifs <;>
      simp only [timerOf_startTimer_other _ up, timerOf_startTimer_other _ down, timerOf_stopTimer_other _ up,
        timerOf_stopTimer_other _ down]
  · rfl

/-- The stall timer of a port that waits runs from the edge on. -/
theorem timerOf_stallCheck_edgeSeen {k : Nat} {d : Dev} (waits : portWaits d k = true) (on : timerOn d (.stall k) = true) :
    timerOf (stallCheck k (edgeSeen k d)) (.stall k) =
      some { id := .stall k, start := if d.tb.tickRun then some d.tb.now else none } := by
  have started : edgeSeen k d = startTimer (.stall k) d := if_pos on
  have waits' : portWaits (startTimer (.stall k) d) k = true := waits
  rw [started, stallCheck, if_pos waits', if_pos (timerOn_startTimer_same ..), timerOf_startTimer_same]

/-! ### What an OPEN port captures -/

/-- An ingress port with a beat stored under a queue. -/
def storedPort (p : IPort) (eop : Bool) (v : BitVec 16) (qid : Nat) (tag : Option Nat) (stamp part : Nat) : IPort :=
  { p with
    isb := p.isb ++ [.beat (BitVec.ofNat 16 (v.toNat % 2 ^ portBits p.pce.width)) eop qid tag stamp p.pce.width]
    known := p.known + 1, partBits := part }

theorem storeBeat_eq (i qid : Nat) (tag : Option Nat) (stamp : Nat) (eop : Bool) (v : BitVec 16) (d : Dev) :
    ∃ part, storeBeat i qid tag stamp eop v d = putI i (storedPort (iport d i) eop v qid tag stamp part) d := ⟨_, rfl⟩

section
variable {i : Nat} {d : Dev} {eop : Bool} {v : BitVec 16}

/-- The end of an edge at a port that has changed to `p'` at it. -/
theorem settled_putI (p' : IPort) (e : Dev) : putI i (settleFf (iport (putI i p' e) i)) (putI i p' e) = putI i (settleFf p') e := by
  rw [iport_putI, putI_putI]

theorem captureBeat_idle {tag : Bool} : captureBeat i false tag eop v d = putI i (settleFf (iport d i)) d := rfl

theorem captureBeat_fixed {tag : Bool} (fixed : (iport d i).pce.tagged = false) (room : (iport d i).ff = false) :
    ∃ part, captureBeat i true tag eop v d =
      putI i (settleFf (storedPort (iport d i) eop v (iport d i).pce.qid.toNat none (portStamp d i) part)) d := by
  obtain ⟨part, stored⟩ := storeBeat_eq i (iport d i).pce.qid.toNat none (portStamp d i) eop v d
  refine ⟨part, ?_⟩
  have data : dataBeat i eop v d = storeBeat i (iport d i).pce.qid.toNat none (portStamp d i) eop v d := by
    simp [dataBeat, fixed, room]
  simp only [captureBeat, fixed, data, stored, Bool.not_true, Bool.false_and, Bool.false_eq_true, if_false, settled_putI]

theorem captureBeat_full {tag : Bool} (fixed : (iport d i).pce.tagged = false) (full : (iport d i).ff = true) :
    captureBeat i true tag eop v d =
      putI i (settleFf { iport d i with run := { (iport d i).run with ovf := sat16 (iport d i).run.ovf 1 } }) d := by
  have data : dataBeat i eop v d =
      putI i { iport d i with run := { (iport d i).run with ovf := sat16 (iport d i).run.ovf 1 } } d := by
    simp [dataBeat, full]
  simp only [captureBeat, fixed, data, Bool.not_true, Bool.false_and, Bool.false_eq_true, if_false, settled_putI]

theorem captureBeat_tagged (tagged : (iport d i).pce.tagged = true) (room : (iport d i).ff = false)
    (whole : (iport d i).tagBeats = 0) {t q : Nat} (tag : (iport d i).tag = some t) (qid : (iport d i).tagQid = some q) :
    ∃ part, captureBeat i true false eop v d =
      putI i (settleFf (storedPort (iport d i) eop v q (some t) (iport d i).tagStamp part)) d := by
  obtain ⟨part, stored⟩ := storeBeat_eq i q (some t) (iport d i).tagStamp eop v d
  refine ⟨part, ?_⟩
  have data : dataBeat i eop v d = storeBeat i q (some t) (iport d i).tagStamp eop v d := by
    simp [dataBeat, tagged, room, whole, tag, qid]
  simp only [captureBeat, data, stored, Bool.not_true, Bool.and_false, Bool.false_eq_true, if_false, settled_putI]

/-- An ingress port with a beat whose tag maps to no queue. -/
def unmappedPort (p : IPort) : IPort := { p with run := { p.run with unmapped := sat16 p.run.unmapped 1 } }

theorem captureBeat_unmapped (tagged : (iport d i).pce.tagged = true) (room : (iport d i).ff = false)
    (whole : (iport d i).tagBeats = 0) (qid : (iport d i).tagQid = none) :
    captureBeat i true false eop v d =
      putI i (settleFf (unmappedPort (iport d i))) (recordErr 0x61 1 i (putI i (unmappedPort (iport d i)) d)) := by
  have data : dataBeat i eop v d = recordErr 0x61 1 i (putI i (unmappedPort (iport d i)) d) := by
    unfold dataBeat
    rw [if_neg (by simp [room]), if_neg (by simp [tagged])]
    dsimp only
    rw [if_pos whole]
    split
    next mapped => exact absurd (qid.symm.trans mapped) (by simp)
    · rfl
  have recorded : SameBut [.link, .out, .err] (putI i (unmappedPort (iport d i)) d)
      (recordErr 0x61 1 i (putI i (unmappedPort (iport d i)) d)) := sameBut_capture ..
  have port : iport (recordErr 0x61 1 i (putI i (unmappedPort (iport d i)) d)) i = unmappedPort (iport d i) := by
    rw [iport_congr (recorded.ports_eq (by decide)), iport_putI]
  simp only [captureBeat, data, port, Bool.not_true, Bool.and_false, Bool.false_eq_true, if_false]

theorem captureBeat_tag (tagged : (iport d i).pce.tagged = true) (wide : (iport d i).pce.width = 2)
    (whole : (iport d i).partBits = 0) :
    captureBeat i true true eop v d =
      putI i (settleFf { iport d i with
        tag := some (v.toNat % 4096), tagQid := tagLookup (iport d i).map i (v.toNat % 4096)
        tagStamp := portStamp d i, tagAcc := 0, tagBeats := 0 }) d := by
  have beat : tagBeat i v.toNat d = putI i { iport d i with
      tag := some (v.toNat % 4096), tagQid := tagLookup (iport d i).map i (v.toNat % 4096)
      tagStamp := portStamp d i, tagAcc := 0, tagBeats := 0 } d := by
    simp [tagBeat, tagStep, wide, clearTag, whole]
  simp only [captureBeat, tagged, beat, Bool.not_true, Bool.and_true, Bool.false_eq_true, if_false, if_true, settled_putI]

end

/-! ### The edge -/

section
variable {i : Nat} {en tag eop : Bool} {v : BitVec 16} {d : Dev}

/-- The device as a capturing port finds it: the edge has passed the watch over its pair. -/
def edgeBefore (i : Nat) (en tag eop : Bool) (v : BitVec 16) (d : Dev) : Dev :=
  watchReturn i en tag eop v (stopTimer (.noClock i) d)

theorem pairsAside_edgeBefore : PairsAside d (edgeBefore i en tag eop v d) := by
  refine PairsAside.trans (b := stopTimer (.noClock i) d) rfl ?_
  unfold edgeBefore watchReturn
  dsimp only
  split
  · exact pairsAside_putPair ..
  · rfl

theorem timerOf_edgeBefore : timerOf (edgeBefore i en tag eop v d) (.stall i) = timerOf d (.stall i) := by
  have watched : SameBut [.ports] (stopTimer (.noClock i) d) (edgeBefore i en tag eop v d) := mask_watchReturn (by decide) ..
  rw [timerOf, watched.tb_eq (by decide) (by decide)]
  exact timerOf_stopTimer_other d (by simp)

theorem edgeBefore_now : (edgeBefore i en tag eop v d).tb.now = d.tb.now := by
  rw [show edgeBefore i en tag eop v d = _ from pairsAside_edgeBefore]

theorem edgeBefore_tickRun : (edgeBefore i en tag eop v d).tb.tickRun = d.tb.tickRun := by
  rw [show edgeBefore i en tag eop v d = _ from pairsAside_edgeBefore]

theorem raceLost_edgeBefore : raceLost i (edgeBefore i en tag eop v d) = raceLost i d := by
  unfold raceLost
  rw [pairsAside_edgeBefore.portWaits, pairsAside_edgeBefore.regs, timerDue_congr timerOf_edgeBefore edgeBefore_now]

/-- What the switches and the ownership of a pair depend on. -/
def pairKeeps (p q : PairSt) : Prop := q.ball = p.ball ∧ q.strap = p.strap ∧ q.handed = p.handed

theorem pairKeeps_watch (e : Dev) : pairKeeps (pairOf e i) (watch i en tag eop v e) := by
  unfold watch pairKeeps
  dsimp only
  split_ifs <;> exact ⟨rfl, rfl, rfl⟩

theorem pairKeeps_edgeBefore : pairKeeps (pairOf d i) (pairOf (edgeBefore i en tag eop v d) i) := by
  unfold edgeBefore watchReturn
  dsimp only
  split
  · rw [pairOf_putPair]
    exact pairKeeps_watch (eop := eop) (stopTimer (.noClock i) d)
  · exact ⟨rfl, rfl, rfl⟩

theorem PairsAside.inBypass {e : Dev} (keeps : pairKeeps (pairOf d i) (pairOf e i)) : inBypass e i = inBypass d i := by
  obtain ⟨-, strap, handed⟩ := keeps
  rw [Sys2Proof.Machine.inBypass, strap, handed, Sys2Proof.Machine.inBypass]

theorem PairsAside.switchConducts {e : Dev} (h : PairsAside d e) (keeps : pairKeeps (pairOf d i) (pairOf e i)) :
    switchConducts e i = switchConducts d i := by
  obtain ⟨x, p, q, rfl⟩ : ∃ x p q, e = { d with tb.timers := x, ports.p0 := p, ports.p1 := q } := ⟨_, _, _, h⟩
  obtain ⟨ball, strap, handed⟩ := keeps
  unfold Sys2Proof.Machine.switchConducts
  dsimp only
  rw [ball, strap, handed]
  rfl

/-- An edge at a port that captures. -/
theorem ingressBeat_captures (op : portOpen d i = true) (own : inBypass d i = false) (cut : switchConducts d i = false)
    (unarmed : (pairOf d i).armed = false) :
    ingressBeat i en tag eop v d =
      if raceLost i d then
        let f := takeFree (edgeBefore i en tag eop v d)
        let e := captureBeat i en tag eop v f.2
        if f.1.getLsbD 0 then portStall i e else stallCheck i (edgeSeen i e)
      else stallCheck i (captureBeat i en tag eop v (edgeSeen i (edgeBefore i en tag eop v d))) := by
  have captures : ¬ (!portOpen (edgeBefore i en tag eop v d) i || inBypass (edgeBefore i en tag eop v d) i ||
      switchConducts (edgeBefore i en tag eop v d) i) = true := by
    rw [pairsAside_edgeBefore.portOpen, PairsAside.inBypass pairKeeps_edgeBefore,
      pairsAside_edgeBefore.switchConducts pairKeeps_edgeBefore, op, own, cut]
    simp
  unfold ingressBeat
  rw [if_neg (by rw [cut]; simp : ¬ switchConducts d i = true)]
  dsimp only
  rw [if_neg (by rw [pairOf_stopTimer, unarmed]; simp)]
  rw [← edgeBefore, if_neg captures, raceLost_edgeBefore]

theorem ingressBeat_armed (armed : (pairOf d i).armed = true) :
    ∃ e, SameBut [.timers, .out] d e ∧ (ingressBeat i en tag eop v d = e ∨ ∃ p, ingressBeat i en tag eop v d = putPair i p e) := by
  refine ⟨edgeSeen i (stopTimer (.noClock i)
    (if switchConducts d i then emit (.through i en v eop tag) d else d)), ?_, ?_⟩
  · exact (mask_edgeSeen (by decide) ..).trans ((mask_stopTimer (by decide) ..).trans (mask_ite (mask_emit (by decide) ..) rfl))
  · have there : (pairOf (stopTimer (.noClock i) (if switchConducts d i then emit (.through i en v eop tag) d else d)) i).armed =
        true := by
      split <;> exact armed
    unfold ingressBeat
    generalize stopTimer (.noClock i) (if switchConducts d i then emit (.through i en v eop tag) d else d) = e at there
    dsimp only
    rw [if_pos there]
    split
    · exact .inl rfl
    · exact .inr ⟨_, rfl⟩

theorem ingressBeat_through (conducts : switchConducts d i = true) (unarmed : (pairOf d i).armed = false)
    (stays : (pairOf d i).returning = false) :
    ingressBeat i en tag eop v d = edgeSeen i (stopTimer (.noClock i) (emit (.through i en v eop tag) d)) := by
  have pair : pairOf (stopTimer (.noClock i) (emit (.through i en v eop tag) d)) i = pairOf d i := rfl
  have still : switchConducts (stopTimer (.noClock i) (emit (.through i en v eop tag) d)) i = true := conducts
  unfold ingressBeat
  rw [if_pos conducts]
  generalize stopTimer (.noClock i) (emit (.through i en v eop tag) d) = e at pair still
  have watched : watchReturn i en tag eop v e = e := if_neg (by rw [pair, stays]; simp)
  dsimp only
  rw [if_neg (by rw [pair, unarmed]; simp), watched, if_pos (by rw [still]; simp)]

end

/-! ### An edge that races the stall timer (R188) -/

section
variable {i : Nat} {d : Dev} {p : IPort}

theorem runOf_low (low : i < 2) (d : Dev) : runOf d i = (iport d i).run := if_pos low

theorem portWaits_putI (low : i < 2) (run : p.run = (iport d i).run) : portWaits (putI i p d) i = portWaits d i := by
  have open_ : portOpen (putI i p d) i = portOpen d i := by
    rw [portOpen, runOf_putI d run, portOpen]
  have lock : holdsLock (putI i p d) i = holdsLock d i := by
    unfold putI
    split_ifs <;> rfl
  rw [portWaits, open_, if_pos low, lock, portWaits, if_pos low]

theorem tb_putI : (putI i p d).tb = d.tb := by
  unfold putI
  split_ifs <;> rfl

theorem regs_putI : (putI i p d).regs = d.regs := by
  unfold putI
  split_ifs <;> rfl

theorem timerDue_putI (id : TimerId) (n : Nat) : timerDue (putI i p d) id n = timerDue d id n :=
  timerDue_congr (by rw [timerOf, tb_putI, timerOf]) (by rw [tb_putI]) n

theorem iport_portStall (low : i < 2) (waits : portWaits d i = true) (due : timerDue d (.stall i) d.regs.stallTo = true) :
    (iport (portStall i d) i).isb = (iport d i).isb := by
  have recorded : SameBut [.link, .out, .err] (parkedPort i d) (recordErr 0x62 1 i (parkedPort i d)) := sameBut_capture ..
  have pair (e : Dev) : iport (parkPair (i % 2) e) i = iport e i := by
    unfold parkPair
    split <;> simp
  have aborted (e : Dev) : SameBut [.timers, .out, .queues, .peers] e (abortOwned (.port i) e) :=
    mask_abortOwned (by decide) (by decide) (by decide) (by decide) ..
  rw [portStall_parks waits due, iport_refreshFlags, iport_congr (recorded.ports_eq (by decide)), parkedPort, pair, parkPins,
    if_pos low, iport_congr ((aborted _).ports_eq (by decide)), iport_putI, parkRun]
  simp [closedFlags, putRun, low]

end

/-- The beat of an edge that races the stall timer is kept, and the port parks or goes on (log entry 83). -/
theorem ingressBeat_races {i : Nat} {tag eop : Bool} {v : BitVec 16} {d : Dev} (low : i < 2) (op : portOpen d i = true)
    (own : inBypass d i = false) (cut : switchConducts d i = false) (unarmed : (pairOf d i).armed = false)
    (races : raceLost i d = true) (fixed : (iport d i).pce.tagged = false) (room : (iport d i).ff = false) :
    (iport (ingressBeat i true tag eop v d) i).isb = (iport d i).isb ++
        [.beat (BitVec.ofNat 16 (v.toNat % 2 ^ portBits (iport d i).pce.width)) eop (iport d i).pce.qid.toNat none
          (portStamp d i) (iport d i).pce.width] ∧
      (((iport (ingressBeat i true tag eop v d) i).run.parked = true ∧
          ((ingressBeat i true tag eop v d).err.last.map fun r => (r.code, r.object)) = some (0x62, i)) ∨
        ((iport (ingressBeat i true tag eop v d) i).run.parked = false ∧ (ingressBeat i true tag eop v d).err = d.err ∧
          timerOf (ingressBeat i true tag eop v d) (.stall i) =
            some { id := .stall i, start := if d.tb.tickRun then some d.tb.now else none })) := by
  have before : PairsAside d (edgeBefore i true tag eop v d) := pairsAside_edgeBefore
  have raced : raceLost i (edgeBefore i true tag eop v d) = true := raceLost_edgeBefore.trans races
  have timer : timerOf (edgeBefore i true tag eop v d) (.stall i) = timerOf d (.stall i) := timerOf_edgeBefore
  rw [ingressBeat_captures op own cut unarmed, if_pos races]
  dsimp only
  generalize edgeBefore i true tag eop v d = b at before raced timer
  obtain ⟨x, hx⟩ : ∃ x, x = (takeFree b).2 := ⟨_, rfl⟩
  have port : iport x i = iport d i := by rw [hx]; exact before.iport i
  have stamp : portStamp x i = portStamp d i := by rw [hx]; exact before.portStamp i
  have now : x.tb.now = d.tb.now := by rw [hx, show (takeFree b).2 = { b with free := b.free + 1 } from rfl, show b = _ from before]
  have ticks : x.tb.tickRun = d.tb.tickRun := by
    rw [hx, show (takeFree b).2 = { b with free := b.free + 1 } from rfl, show b = _ from before]
  have err : x.err = d.err := by rw [hx]; exact before.err
  have there : portWaits x i = true ∧ timerDue x (.stall i) x.regs.stallTo = true := by
    rw [hx]
    exact Bool.and_eq_true .. ▸ raced
  obtain ⟨waits, due⟩ := there
  rw [← hx]
  obtain ⟨part, captured⟩ := captureBeat_fixed (i := i) (d := x) (tag := tag) (eop := eop) (v := v) (by rw [port, fixed])
    (by rw [port, room])
  rw [captured, port, stamp]
  have run : (settleFf (storedPort (iport d i) eop v (iport d i).pce.qid.toNat none (portStamp d i) part)).run =
      (iport x i).run := by rw [port]; rfl
  have isb : (settleFf (storedPort (iport d i) eop v (iport d i).pce.qid.toNat none (portStamp d i) part)).isb =
      (iport d i).isb ++ [.beat (BitVec.ofNat 16 (v.toNat % 2 ^ portBits (iport d i).pce.width)) eop
        (iport d i).pce.qid.toNat none (portStamp d i) (iport d i).pce.width] := rfl
  generalize settleFf (storedPort (iport d i) eop v (iport d i).pce.qid.toNat none (portStamp d i) part) = p' at run isb
  have waits' : portWaits (putI i p' x) i = true := (portWaits_putI low run).trans waits
  have due' : timerDue (putI i p' x) (.stall i) (putI i p' x).regs.stallTo = true := by
    rw [timerDue_putI, regs_putI, due]
  split
  · obtain ⟨parks, last, -⟩ := portStall_holds waits' due'
    refine ⟨?_, .inl ⟨?_, ?_⟩⟩
    · rw [iport_portStall low waits' due', iport_putI, isb]
    · rw [← runOf_low low, parks]
    · rw [last]
      rfl
  · have goes : SameBut [.timers] (putI i p' x) (stallCheck i (edgeSeen i (putI i p' x))) :=
      (mask_stallCheck (by decide) ..).trans (mask_edgeSeen (by decide) ..)
    rw [iport_congr (goes.ports_eq (by decide)), iport_putI, goes.err_eq (by decide) (by decide)]
    refine ⟨isb, .inr ⟨?_, ?_, ?_⟩⟩
    · rw [run, port, ← runOf_low low]
      have := (Bool.and_eq_true .. ▸ op : (runOf d i).isOpen = true ∧ (!(runOf d i).parked) = true).2
      simpa using this
    · rw [(show SameBut [.ports] x (putI i p' x) from mask_putI (by decide) ..).err_eq (by decide) (by decide), err]
    · rw [timerOf_stallCheck_edgeSeen waits' (timerOn_of_due due'), tb_putI, now, ticks]

/-- An edge at which no timer has run out leaves what the port has captured. -/
theorem completes_ingressBeat {i : Fin 2} {en tag eop : Bool} {v : BitVec 16} {s : State} (op : portOpen s.dev i = true)
    (own : inBypass s.dev i = false) (cut : switchConducts s.dev i = false) (unarmed : (pairOf s.dev i).armed = false)
    (alone : raceLost i s.dev = false) {P : Dev → Prop}
    (holds : ∀ b, PairsAside s.dev b → ∀ e, SameBut [.timers] (captureBeat i en tag eop v b) e → P e) :
    Completes (.ingressBeat i en tag eop v) s P := by
  refine completes_of_exec_eq_act (f := fun d => govTrack (ingressBeat i.val en tag eop v d)) rfl ?_
  rw [ingressBeat_captures op own cut unarmed, if_neg (by simp [alone])]
  refine holds (edgeSeen i.val (edgeBefore i.val en tag eop v s.dev))
    (pairsAside_edgeBefore.trans (sameBut_edgeSeen ..).pairsAside) _ ?_
  exact (mask_govTrack (by decide) _).trans (mask_stallCheck (by decide) ..)

/-- The port of a capture that changes it alone. -/
theorem pairsAside_captured {i : Nat} {d b e c : Dev} {p : IPort} (before : PairsAside d b) (captured : c = putI i p b)
    (after : SameBut [.timers] c e) : iport e i = p ∧ PairsAside (putI i p d) e := by
  subst captured
  exact ⟨by rw [iport_congr (after.ports_eq (by decide)), iport_putI], (before.putI i p).trans after.pairsAside⟩

/-- Settles O35. At an edge that races the stall timer the free bit decides (log entry 83). -/
theorem ingressBeatsAreStoredOrCounted : Obligations.IngressBeatsAreStoredOrCounted := by
  intro s i en tag eop v p hp beat
  subst hp
  have low : i.val < 2 := i.isLt
  refine ⟨fun armed => ?_, fun conducts unarmed stays => ?_, fun op own cut unarmed => ⟨fun races fixed room => ?_, fun alone => ?_⟩⟩
  · refine completes_of_exec_eq_act (f := fun d => govTrack (ingressBeat i.val en tag eop v d)) rfl ?_
    obtain ⟨e, same, watched⟩ := ingressBeat_armed (i := i.val) (en := en) (tag := tag) (eop := eop) (v := v) armed
    have tracked := sameBut_govTrack (ingressBeat i.val en tag eop v s.dev)
    have port : iport (ingressBeat i.val en tag eop v s.dev) i = iport s.dev i := by
      obtain hw | ⟨q, hw⟩ := watched <;> rw [hw]
      · exact iport_congr (same.ports_eq (by decide))
      · rw [iport_putPair]
        exact iport_congr (same.ports_eq (by decide))
    have frame : SameBut [.ports, .timers, .out] s.dev (ingressBeat i.val en tag eop v s.dev) := by
      obtain hw | ⟨q, hw⟩ := watched <;> rw [hw]
      · exact same.mono (by decide)
      · exact (same.mono (by decide)).trans (mask_putPair (by decide) ..)
    exact ⟨(iport_congr (tracked.ports_eq (by decide))).trans port, (frame.trans (tracked.mono (by decide))).eq⟩
  · refine completes_of_exec_eq_act (f := fun d => govTrack (ingressBeat i.val en tag eop v d)) rfl ?_
    rw [ingressBeat_through conducts unarmed stays]
    have same : SameBut [.timers] (emit (.through i en v eop tag) s.dev)
        (govTrack (edgeSeen i (stopTimer (.noClock i) (emit (.through i en v eop tag) s.dev)))) :=
      (mask_govTrack (by decide) _).trans ((mask_edgeSeen (by decide) ..).trans (mask_stopTimer (by decide) ..))
    exact same.eq
  · refine completes_of_exec_eq_act (f := fun d => govTrack (ingressBeat i.val true tag eop v d)) rfl ?_
    have tracked := sameBut_govTrack (ingressBeat i.val true tag eop v s.dev)
    rw [iport_congr (tracked.ports_eq (by decide)), tracked.err_eq (by decide) (by decide),
      timerOf_govTrack (by simp) (by simp)]
    exact ingressBeat_races low op own cut unarmed races fixed room
  · intro kept settled stored
    refine ⟨?_, fun fixed => ⟨fun room => ?_, fun full => ?_⟩, fun tagged room whole => ⟨fun t q ht hq => ?_, fun none_ => ?_⟩,
      fun tagged wide whole => ?_⟩
    · refine completes_ingressBeat op own cut unarmed alone fun b before e after => ?_
      have captured : captureBeat i false tag eop v b = _ := captureBeat_idle
      rw [before.iport] at captured
      exact (pairsAside_captured before captured after).2
    · refine completes_ingressBeat op own cut unarmed alone fun b before e after => ?_
      obtain ⟨part, captured⟩ := captureBeat_fixed (i := i) (d := b) (tag := tag) (eop := eop) (v := v)
        (by rw [before.iport, fixed]) (by rw [before.iport, room])
      rw [before.iport, before.portStamp] at captured
      obtain ⟨port, frame⟩ := pairsAside_captured before captured after
      refine ⟨by rw [port]; rfl, ?_⟩
      rw [port]
      exact frame
    · refine completes_ingressBeat op own cut unarmed alone fun b before e after => ?_
      have captured := captureBeat_full (i := i) (d := b) (tag := tag) (eop := eop) (v := v) (by rw [before.iport, fixed])
        (by rw [before.iport, full])
      rw [before.iport] at captured
      exact (pairsAside_captured before captured after).2
    · refine completes_ingressBeat op own cut unarmed alone fun b before e after => ?_
      obtain ⟨part, captured⟩ := captureBeat_tagged (i := i) (d := b) (eop := eop) (v := v) (by rw [before.iport, tagged])
        (by rw [before.iport, room]) (by rw [before.iport, whole]) (by rw [before.iport, ht]) (by rw [before.iport, hq])
      rw [before.iport] at captured
      obtain ⟨port, frame⟩ := pairsAside_captured before captured after
      refine ⟨by rw [port]; rfl, ?_⟩
      rw [port]
      exact frame
    · refine completes_ingressBeat op own cut unarmed alone fun b before e after => ?_
      rw [captureBeat_unmapped (by rw [before.iport, tagged]) (by rw [before.iport, room]) (by rw [before.iport, whole])
        (by rw [before.iport, none_]), before.iport] at after
      have settles : SameBut [.ports] (recordErr 0x61 1 i (putI i (unmappedPort (iport s.dev i)) b))
          (putI i (settleFf (unmappedPort (iport s.dev i))) (recordErr 0x61 1 i (putI i (unmappedPort (iport s.dev i)) b))) :=
        mask_putI (by decide) ..
      rw [iport_congr (after.ports_eq (by decide)), iport_putI, after.err_eq (by decide) (by decide),
        settles.err_eq (by decide) (by decide), recordErr, capture_last]
      exact ⟨rfl, rfl, rfl⟩
    · refine completes_ingressBeat op own cut unarmed alone fun b before e after => ?_
      have captured := captureBeat_tag (i := i) (d := b) (eop := eop) (v := v) (by rw [before.iport, tagged])
        (by rw [before.iport, wide]) (by rw [before.iport, whole])
      rw [before.iport, before.portStamp] at captured
      exact (pairsAside_captured before captured after).2

end Sys2Proof.Machine
end

section
/-!
Beats, flags and pointers across (R113, R170, R173 to R176).
-/

namespace Sys2Proof.Machine

/-! ### The Weave's view of a port -/

theorem iport_pumpFlags (i : Nat) (d : Dev) :
    iport (pumpFlags d) i = { iport d i with af := (iport (pumpFlags d) i).af } := by
  have moved : SameBut [.timers, .link, .out, .rings] d (pump d) :=
    mask_pump (by decide) (by decide) (by decide) (by decide) _
  rw [← iport_congr (e := pump d) (d := d) (moved.ports_eq (by decide))]
  exact iport_refreshFlags i (pump d)

theorem beatVisible_sees {i : Nat} {d : Dev} (up : awake d = true) (runs : (iport d i).run.parked = false) :
    beatVisible i d =
      pumpFlags (portAssemble i (putI i { iport d i with vis := visibleAfter (iport d i).isb (iport d i).vis } d)) := by
  unfold beatVisible
  exact if_neg (by simp [runs, up])

theorem portAssemble_latched {i : Nat} {d : Dev} (latched : (iport d i).latched.isSome = true) : portAssemble i d = d := by
  unfold portAssemble
  exact if_pos (by simp [latched])

/-- A beat as wide as the element of its queue is one item. -/
theorem beatItems_one {ew : BitVec 2} {pb : Nat} (fits : pb = 8 * ewBytes ew) (data : Nat) (beat : BitVec 16) (eop : Bool) :
    beatItems ew pb data 0 beat eop = ([{ data := BitVec.ofNat 64 (beat.toNat % 2 ^ pb), bound := eop }], 0, 0) := by
  have pos : 0 < 8 * ewBytes ew := by
    unfold ewBytes
    positivity
  subst fits
  simp [beatItems, Nat.div_self pos, bitsOf]

/-- The burst of a lone beat that is one item. -/
def loneBurst (i : Nat) (dat : BitVec 16) (eop : Bool) (qid : Nat) (tag : Option Nat) (stamp : Nat) (w : BitVec 2) : Burst :=
  { prod := .port i, qid, stamp, tag, beats := 1
    items := [{ data := BitVec.ofNat 64 (dat.toNat % 2 ^ portBits w), bound := eop }] }

theorem gather_lone {ewf : Nat → BitVec 2} {i : Nat} {p : IPort} {dat : BitVec 16} {eop : Bool} {qid stamp : Nat}
    {tag : Option Nat} {w : BitVec 2} (vis : p.vis = 1) (bits : p.asmBits = 0) (beats : p.asmBeats = 0)
    (key : p.asmKey = none) (isb : p.isb = [.beat dat eop qid tag stamp w]) (fits : portBits w = 8 * ewBytes (ewf qid)) :
    gather ewf i 2 p none =
      ({ clearAsm p with isb := [], vis := 0 }, some (loneBurst i dat eop qid tag stamp w), false) := by
  have items := beatItems_one fits p.asmData dat eop
  cases eop <;> simp [gather, vis, bits, beats, key, isb, items, burstEnds, loneBurst]

theorem portAssemble_lone {i : Nat} {d : Dev} {dat : BitVec 16} {eop : Bool} {qid stamp : Nat} {tag : Option Nat} {w : BitVec 2}
    (free : (iport d i).latched = none) (vis : (iport d i).vis = 1) (bits : (iport d i).asmBits = 0)
    (beats : (iport d i).asmBeats = 0) (key : (iport d i).asmKey = none)
    (isb : (iport d i).isb = [.beat dat eop qid tag stamp w]) (fits : portBits w = 8 * ewBytes (ewOf d qid)) :
    portAssemble i d = putI i { clearAsm (iport d i) with
      isb := [], vis := 0, latched := some (loneBurst i dat eop qid tag stamp w) } d := by
  have whole := gather_lone (i := i) vis bits beats key isb fits
  unfold portAssemble
  rw [if_neg (by simp [free, vis])]
  have fuel : (iport d i).isb.length + 1 = 2 := by rw [isb]; rfl
  dsimp only
  rw [fuel, whole]
  rfl

/-- What a device does with a beat that has become visible, apart from its port. -/
theorem beatVisible_frame {i : Nat} {d e : Dev} (up : awake d = true) (runs : (iport d i).run.parked = false) {p : IPort}
    (assembled : portAssemble i (putI i { iport d i with vis := visibleAfter (iport d i).isb (iport d i).vis } d) = putI i p e)
    (same : SameBut [.ports] d e) :
    iport (govTrack (beatVisible i d)) i = { p with af := (iport (govTrack (beatVisible i d)) i).af } ∧
      SameBut [.ports, .rings, .link, .tb, .timers, .out] d (govTrack (beatVisible i d)) := by
  have pumped : SameBut [.ports, .rings, .link, .tb, .timers, .out] (putI i p e) (pumpFlags (putI i p e)) :=
    SameBut.mono (S := [.timers, .link, .out, .rings, .ports])
      (mask_pumpFlags (by decide) (by decide) (by decide) (by decide) (by decide) _) (by decide)
  have tracked := sameBut_govTrack (pumpFlags (putI i p e))
  rw [beatVisible_sees up runs, assembled]
  refine ⟨?_, (same.mono (by decide)).trans (SameBut.trans (mask_putI (by decide) ..) (pumped.trans (tracked.mono (by decide))))⟩
  rw [iport_congr (tracked.ports_eq (by decide)), iport_pumpFlags, iport_putI]

/-! ### Values at the port side (R173) -/

/-- The pins of the port side show no more than what it sees. -/
theorem showFront_keeps (d : Dev) (p : EPort) :
    (showFront d p).visible = p.visible ∧ (showFront d p).esb = p.esb ∧ (showFront d p).ef = p.ef ∧ (showFront d p).run = p.run := by
  unfold showFront
  split
  · split <;> exact ⟨rfl, rfl, rfl, rfl⟩
  · exact ⟨rfl, rfl, rfl, rfl⟩

/-- An egress port that sees its whole ESB. -/
def seesAll (p : EPort) : EPort := { p with visible := p.esb.length }

section
variable {k : Nat} {d : Dev} (op : portOpen d k = true)
include op

theorem valueAccept_flagIn (low : k < 2) :
    valueAccept k .flag d = putI k { iport d k with af := acceptValue (iport d k).af } (edgeSeen k d) := by
  unfold valueAccept
  rw [if_neg (by simp [op])]
  dsimp only
  rw [if_pos low, iport_edgeSeen]

theorem valueAccept_flagOut (high : ¬ k < 2) :
    valueAccept k .flag d =
      putE (k - 2) { eport d (k - 2) with ae := acceptValue (eport d (k - 2)).ae } (edgeSeen k d) := by
  unfold valueAccept
  rw [if_neg (by simp [op])]
  dsimp only
  rw [if_neg high, eport_edgeSeen]

theorem valueAccept_pointerIn (low : k < 2) (own : inBypass d k = false) :
    valueAccept k .pointer d = putI k (settleFf { iport d k with known := isbCount (iport d k) }) (edgeSeen k d) := by
  have own' : inBypass (edgeSeen k d) k = false := by
    rw [inBypass_congr ((sameBut_edgeSeen k d).ports_eq (by decide)), own]
  unfold valueAccept
  rw [if_neg (by simp [op])]
  dsimp only
  rw [if_pos low, if_neg (by simp [own']), iport_edgeSeen]

theorem valueAccept_pointerOut (high : ¬ k < 2) :
    valueAccept k .pointer d =
      putE (k - 2) (showFront (edgeSeen k d) { seesAll (eport d (k - 2)) with ef := noBeat d (seesAll (eport d (k - 2))) })
        (edgeSeen k d) := by
  have cfg : cfgOf (edgeSeen k d) = cfgOf d := by
    funext gq
    rw [cfgOf, queueOf, (sameBut_edgeSeen k d).queues_eq (by decide), cfgOf, queueOf]
  unfold valueAccept
  rw [if_neg (by simp [op])]
  dsimp only
  rw [if_neg high, eport_edgeSeen]
  unfold noBeat seesAll
  rw [cfg]

end

/-- Settles O39. -/
theorem beatsAndValuesCross : Obligations.BeatsAndValuesCross := by
  intro s i
  have low : i.val < 2 := i.isLt
  refine ⟨fun b up runs latched => ?_, fun dat eop qid stamp tag w up runs free vis bits beats key isb fits => ?_,
    fun k hk op => ⟨?_, fun own => ?_⟩, fun k hk op => ⟨?_, ?_⟩⟩
  · refine completes_of_exec_eq_act (f := fun d => govTrack (beatVisible i.val d)) rfl ?_
    obtain ⟨port, same⟩ := beatVisible_frame up runs (e := s.dev)
      (portAssemble_latched (by rw [iport_putI]; exact congrArg Option.isSome latched)) rfl
    rw [port]
    exact ⟨rfl, rfl, latched, same.eq⟩
  · refine completes_of_exec_eq_act (f := fun d => govTrack (beatVisible i.val d)) rfl ?_
    have seen : visibleAfter (iport s.dev i).isb (iport s.dev i).vis = 1 := by rw [isb, vis]; rfl
    have width : ewOf (putI i.val { iport s.dev i with vis := 1 } s.dev) qid = ewOf s.dev qid := by
      unfold putI
      split_ifs <;> rfl
    have whole := portAssemble_lone (i := i.val) (d := putI i.val { iport s.dev i with vis := 1 } s.dev) (by rw [iport_putI, free])
      (by rw [iport_putI]) (by rw [iport_putI, bits]) (by rw [iport_putI, beats]) (by rw [iport_putI, key])
      (by rw [iport_putI, isb]) (by rw [width, fits])
    obtain ⟨port, same⟩ := beatVisible_frame up runs (by rw [seen]; exact whole) (mask_putI (by decide) ..)
    rw [port]
    exact ⟨rfl, rfl, rfl, same.eq⟩
  · refine completes_of_exec_eq_act (f := valueAccept k.val .flag) rfl ?_
    rw [valueAccept_flagIn op (by omega), hk]
    exact ((sameBut_edgeSeen ..).putI (by decide) _).eq
  · refine completes_of_exec_eq_act (f := valueAccept k.val .pointer) rfl ?_
    rw [valueAccept_pointerIn op (by omega) (by rw [hk, own]), hk]
    exact ((sameBut_edgeSeen ..).putI (by decide) _).eq
  · refine completes_of_exec_eq_act (f := valueAccept k.val .flag) rfl ?_
    rw [valueAccept_flagOut op (by omega), show k.val - 2 = i.val by omega]
    exact ((sameBut_edgeSeen ..).putE (by decide) _).eq
  · refine completes_of_exec_eq_act (f := valueAccept k.val .pointer) rfl ?_
    obtain ⟨visible, esb, ef, -⟩ := showFront_keeps (edgeSeen k s.dev)
      { seesAll (eport s.dev i) with ef := noBeat s.dev (seesAll (eport s.dev i)) }
    rw [valueAccept_pointerOut op (by omega), show k.val - 2 = i.val by omega, eport_putE, visible, esb, ef]
    exact ⟨rfl, rfl, Option.isNone_iff_eq_none, ((sameBut_edgeSeen ..).putE (by decide) _).eq⟩

end Sys2Proof.Machine
end

section
/-!
What an egress port drives (R121 to R131, R145).
-/

namespace Sys2Proof.Machine

/-! ### The next beat and the fields it has nothing to do with -/

/-- A port with the samples of its pins, its skid and its clock as those of another. -/
def withPins (q p : EPort) : EPort :=
  { p with smpRt := q.smpRt, smpMrk := q.smpMrk, smpDrop := q.smpDrop, fresh := q.fresh, skid := q.skid, eclk := q.eclk }

theorem withPins_announce (q p : EPort) (qid : Nat) (i : Item) (pad : Bool) :
    announce (withPins q p) qid i pad = withPins q (announce p qid i pad) := by
  have esb : (withPins q p).esb = p.esb := rfl
  have status : (withPins q p).pce.status = p.pce.status := rfl
  unfold announce
  rw [esb, status]
  split
  · split_ifs <;> rfl
  · split_ifs <;> rfl

/-- The same for a last beat of an item. -/
theorem withPins_lastBeat (q p : EPort) (gq : Nat) (v : DWord) (ew : BitVec 2) (b : Bool) (i : Item) (pad : Bool) :
    announce (endItem gq v ew b (popEntry (withPins q p))) gq i pad =
      withPins q (announce (endItem gq v ew b (popEntry p)) gq i pad) :=
  withPins_announce q (endItem gq v ew b (popEntry p)) gq i pad

/-- The next beat depends on the ESB and what the port is in, not on the samples of its pins. -/
theorem nextBeat_withPins (cfg : Nat → QCfg) (q p : EPort) :
    nextBeat cfg (withPins q p) = (nextBeat cfg p).map fun r => { r with port := withPins q r.port } := by
  have seen : (withPins q p).esb.take (withPins q p).visible = p.esb.take p.visible := rfl
  have driven : (withPins q p).driven = p.driven := rfl
  have pce : (withPins q p).pce = p.pce := rfl
  unfold nextBeat
  rw [seen]
  dsimp only
  rw [driven, pce]
  split
  · rfl
  · dsimp only [Option.map]
    split_ifs <;> rfl
  · rfl
  next gq i ew rest _ =>
    have ended := withPins_lastBeat q { p with begun := some gq, midPkt := !p.cutAfter } gq
    have ended2 := withPins_lastBeat q (popEntry { p with begun := some gq, midPkt := !p.cutAfter }) gq
    split_ifs
    · rfl
    · exact congrArg some (congrArg (Driven.mk _ _ _) (ended ..))
    · exact congrArg some (congrArg (Driven.mk _ _ _) (ended ..))
    · split
      · split_ifs
        · exact congrArg some (congrArg (Driven.mk _ _ _) (ended2 ..))
        · exact congrArg some (congrArg (Driven.mk _ _ _) (ended ..))
      · exact congrArg some (congrArg (Driven.mk _ _ _) (ended ..))
      · rfl

theorem announce_pce (p : EPort) (qid : Nat) (i : Item) (pad : Bool) : (announce p qid i pad).pce = p.pce := by
  unfold announce
  split <;> split_ifs <;> rfl

theorem nextBeat_pce {cfg : Nat → QCfg} {p : EPort} {r : Driven} (next : nextBeat cfg p = some r) : r.port.pce = p.pce := by
  unfold nextBeat at next
  dsimp only at next
  split at next
  · cases next
  · obtain rfl := Option.some.inj next
    dsimp only
    split_ifs <;> rfl
  · obtain rfl := Option.some.inj next
    rfl
  · split_ifs at next
    · obtain rfl := Option.some.inj next
      rfl
    · obtain rfl := Option.some.inj next
      exact announce_pce ..
    · obtain rfl := Option.some.inj next
      exact announce_pce ..
    · split at next
      · split_ifs at next
        · obtain rfl := Option.some.inj next
          exact announce_pce ..
        · obtain rfl := Option.some.inj next
          exact announce_pce ..
      · obtain rfl := Option.some.inj next
        exact announce_pce ..
      · cases next

/-! ### A beat at the pins -/

/-- What is driven stands at the pins, and the port has gone on to what comes after it. -/
structure AtPins (e : Nat) (v : BitVec 16) (eop tagv : Bool) (p : EPort) (d f : Dev) : Prop where
  out : f.out = d.out ++ [.beat e v eop tagv]
  esb : (eport f e).esb = p.esb
  under : (eport f e).under = p.under
  pEn : (eport f e).pEn = p.pce.push
  pins : p.pce.fwft = false → (eport f e).pD = v ∧ (eport f e).pEop = eop ∧ (eport f e).pTagv = tagv
  same : SameBut [.ports, .timers, .out] d f

theorem showFront_pins (d : Dev) (p : EPort) :
    (showFront d p).under = p.under ∧ (showFront d p).pEn = p.pEn ∧ (p.pce.fwft = false → showFront d p = p) := by
  unfold showFront
  split
  next shown =>
    have fwft : p.pce.fwft = true := by
      simp only [Bool.and_eq_true] at shown
      exact shown.1.1
    split <;> exact ⟨rfl, rfl, fun h => absurd (fwft.symm.trans h) (by simp)⟩
  · exact ⟨rfl, rfl, fun _ => rfl⟩

theorem driveBeat_atPins (e : Nat) (v : BitVec 16) (eop tagv : Bool) (p : EPort) (d : Dev) :
    AtPins e v eop tagv p d (afterBeat e (driveBeat e v eop tagv p d)) := by
  have port : eport (driveBeat e v eop tagv p d) e = { p with pD := v, pEop := eop, pTagv := tagv, pEn := p.pce.push } :=
    eport_putE ..
  obtain ⟨off, hoff⟩ : ∃ off, off = outputsOff (driveBeat e v eop tagv p d) e (eport (driveBeat e v eop tagv p d) e) := ⟨_, rfl⟩
  obtain ⟨q, hq⟩ : ∃ q, q = { eport (driveBeat e v eop tagv p d) e with
      ef := noBeat (driveBeat e v eop tagv p d) (eport (driveBeat e v eop tagv p d) e), hiZ := off
      eclk := if off then .off else (eport (driveBeat e v eop tagv p d) e).eclk } := ⟨_, rfl⟩
  have after : afterBeat e (driveBeat e v eop tagv p d) =
      stallCheck (e + 2) (putE e (showFront (driveBeat e v eop tagv p d) q) (driveBeat e v eop tagv p d)) := by
    rw [hq, hoff]
    rfl
  have kept : SameBut [.timers] (putE e (showFront (driveBeat e v eop tagv p d) q) (driveBeat e v eop tagv p d))
      (afterBeat e (driveBeat e v eop tagv p d)) := by
    rw [after]
    exact mask_stallCheck (by decide) ..
  have there : eport (afterBeat e (driveBeat e v eop tagv p d)) e = showFront (driveBeat e v eop tagv p d) q := by
    rw [eport_congr (kept.ports_eq (by decide)), eport_putE]
  obtain ⟨-, esb, -⟩ := showFront_keeps (driveBeat e v eop tagv p d) q
  obtain ⟨under, pEn, front⟩ := showFront_pins (driveBeat e v eop tagv p d) q
  have put : SameBut [.ports] (driveBeat e v eop tagv p d)
      (putE e (showFront (driveBeat e v eop tagv p d) q) (driveBeat e v eop tagv p d)) := mask_putE (by decide) ..
  refine ⟨?_, ?_, ?_, ?_, fun fwft => ?_, ?_⟩
  · rw [kept.out_eq (by decide), put.out_eq (by decide), driveBeat, emit,
      (show SameBut [.ports] d (putE e _ d) from mask_putE (by decide) ..).out_eq (by decide)]
  · rw [there, esb, hq, port]
  · rw [there, under, hq, port]
  · rw [there, pEn, hq, port]
  · rw [there, front (by rw [hq, port]; exact fwft), hq, port]
    exact ⟨rfl, rfl, rfl⟩
  · exact SameBut.trans (b := driveBeat e v eop tagv p d) (mask_driveBeat (by decide) (by decide) ..)
      ((put.mono (by decide)).trans (kept.mono (by decide)))

/-! ### A pull (R121 to R126) -/

theorem cfgOf_congr {d e : Dev} (queues : e.queues = d.queues) : cfgOf e = cfgOf d := by
  funext gq
  rw [cfgOf, queueOf, queues, cfgOf, queueOf]

theorem cfgOf_edgeSeen (k : Nat) (d : Dev) : cfgOf (edgeSeen k d) = cfgOf d :=
  cfgOf_congr ((sameBut_edgeSeen k d).queues_eq (by decide))

section
variable {e : Nat} {d : Dev} (on : drives d e = true) (idle : (eport d e).under = none)
include on idle

/-- A pull at a port that has nothing in progress. -/
theorem egressRead_eq (pull : (eport d e).pce.push = false) :
    egressRead e d =
      match (if (eport d e).ef && (eport d e).run.isOpen then none else nextBeat (cfgOf d) (newEdge (eport d e))) with
      | some r => afterBeat e (driveBeat e r.d r.eop r.tagv r.port (edgeSeen (e + 2) d))
      | none =>
        match underQueue (eport d e) with
        | some gq =>
          if (cfgOf d gq).valid then driveEmpty e gq (newEdge (eport d e)) (edgeSeen (e + 2) d)
          else readNothing e (newEdge (eport d e)) (edgeSeen (e + 2) d)
        | none => readNothing e (newEdge (eport d e)) (edgeSeen (e + 2) d) := by
  have under : (newEdge (eport d e)).under = none := idle
  unfold egressRead
  rw [if_neg (by simp [on, pull])]
  dsimp only
  rw [eport_edgeSeen, cfgOf_edgeSeen, under]
  rfl

theorem egressRead_beat (pull : (eport d e).pce.push = false) (full : (eport d e).ef = false) {r : Driven}
    (next : nextBeat (cfgOf d) (eport d e) = some r) :
    egressRead e d =
      afterBeat e (driveBeat e r.d r.eop r.tagv (withPins (newEdge (eport d e)) r.port) (edgeSeen (e + 2) d)) := by
  have beat : nextBeat (cfgOf d) (newEdge (eport d e)) = some { r with port := withPins (newEdge (eport d e)) r.port } := by
    rw [show newEdge (eport d e) = withPins (newEdge (eport d e)) (eport d e) from rfl, nextBeat_withPins, next]
    rfl
  rw [egressRead_eq on idle pull, full, Bool.false_and, if_neg (by simp), beat]

theorem egressRead_nothing (pull : (eport d e).pce.push = false) (empty : (eport d e).ef = true)
    (op : (eport d e).run.isOpen = true) (blameless : ∀ gq, underQueue (eport d e) = some gq → (cfgOf d gq).valid = false) :
    egressRead e d = readNothing e (newEdge (eport d e)) (edgeSeen (e + 2) d) := by
  rw [egressRead_eq on idle pull, if_pos (by rw [empty, op]; rfl)]
  dsimp only
  split
  next gq h => rw [if_neg (by simp [blameless gq h])]
  · rfl

theorem egressRead_empty (pull : (eport d e).pce.push = false) (empty : (eport d e).ef = true)
    (op : (eport d e).run.isOpen = true) {gq : Nat} (falls : underQueue (eport d e) = some gq)
    (valid : (cfgOf d gq).valid = true) :
    egressRead e d = driveEmpty e gq (newEdge (eport d e)) (edgeSeen (e + 2) d) := by
  rw [egressRead_eq on idle pull, if_pos (by rw [empty, op]; rfl)]
  dsimp only
  rw [falls]
  exact if_pos valid

end

/-! ### A cycle of the forwarded clock (R128 to R131) -/

/-- The port at a cycle of the forwarded clock that samples HOLD#. -/
def pushPort (hold : Bool) (p : EPort) : EPort :=
  if p.run.isOpen then { newEdge (sampleHold hold p) with eclk := clockOf p.pce } else newEdge (sampleHold hold p)

theorem pushPort_withPins (hold : Bool) (p : EPort) : pushPort hold p = withPins (pushPort hold p) p := by
  unfold pushPort
  split <;> rfl

theorem pushPort_skid (hold : Bool) (p : EPort) :
    (pushPort hold p).skid = if hold then some (p.skid.getD 2) else none := by
  unfold pushPort
  split <;> rfl

/-- The port that may launch a beat: one beat less may go. -/
def launchPort (hold : Bool) (p : EPort) : EPort := { pushPort hold p with skid := (pushPort hold p).skid.map (· - 1) }

theorem launchPort_withPins (hold : Bool) (p : EPort) : launchPort hold p = withPins (launchPort hold p) p := by
  unfold launchPort
  rw [pushPort_withPins]
  rfl

/-- A port that launches nothing. -/
def noBeatOut (hold : Bool) (e : Nat) (d : Dev) : Dev :=
  putE e { pushPort hold (eport d e) with pEn := false } (edgeSeen (e + 2) d)

section
variable {e : Nat} {d : Dev} {hold : Bool} (on : drives d e = true) (cut : switchConducts d e = false)
  (push : (eport d e).pce.push = true) (idle : (eport d e).under = none)
include on cut push idle

/-- A cycle at a port that has nothing in progress. -/
theorem egressPush_eq :
    egressPush e hold d =
      if (pushPort hold (eport d e)).skid = some 0 then noBeatOut hold e d
      else match nextBeat (cfgOf d) (launchPort hold (eport d e)) with
        | some r => afterBeat e (driveBeat e r.d r.eop r.tagv r.port (edgeSeen (e + 2) d))
        | none =>
          match contQueue hold (pushPort hold (eport d e)) with
          | some gq =>
            if (cfgOf d gq).valid && available (queueOf (edgeSeen (e + 2) d) (gq % 4096)) = 0 &&
                !((pushPort hold (eport d e)).esb.any (entryOf gq)) then
              driveEmpty e gq (launchPort hold (eport d e)) (edgeSeen (e + 2) d)
            else gatedPop e hold (noBeatOut hold e d)
          | none => gatedPop e hold (noBeatOut hold e d) := by
  have under : (pushPort hold (eport d e)).under = none := by
    rw [pushPort_withPins]
    exact idle
  unfold egressPush
  rw [if_neg (by simp [cut] : ¬ switchConducts d e = true)]
  dsimp only
  rw [if_neg (by simp [on, push] : ¬ (!drives d e || !(eport d e).pce.push) = true), eport_edgeSeen, cfgOf_edgeSeen]
  change (if (pushPort hold (eport d e)).skid = some 0 then _ else
    match (pushPort hold (eport d e)).under with | some u => _ | none => _) = _
  rw [under]
  rfl

theorem egressPush_held (dry : (pushPort hold (eport d e)).skid = some 0) : egressPush e hold d = noBeatOut hold e d := by
  rw [egressPush_eq on cut push idle, if_pos dry]

theorem egressPush_beat (go : (pushPort hold (eport d e)).skid ≠ some 0) {r : Driven}
    (next : nextBeat (cfgOf d) (launchPort hold (eport d e)) = some r) :
    egressPush e hold d = afterBeat e (driveBeat e r.d r.eop r.tagv r.port (edgeSeen (e + 2) d)) := by
  rw [egressPush_eq on cut push idle, if_neg go, next]

/-- A gated port outside a packet that has nothing to send drives nothing. -/
theorem egressPush_gated (gated : (eport d e).pce.cont = false) (between : (eport d e).midPkt = false)
    (none_ : nextBeat (cfgOf d) (eport d e) = none) : egressPush e hold d = noBeatOut hold e d := by
  have pce : (pushPort hold (eport d e)).pce = (eport d e).pce := by rw [pushPort_withPins]; rfl
  have mid : (pushPort hold (eport d e)).midPkt = (eport d e).midPkt := by rw [pushPort_withPins]; rfl
  have launch : nextBeat (cfgOf d) (launchPort hold (eport d e)) = none := by
    rw [launchPort_withPins, nextBeat_withPins, none_]
    rfl
  have unasked : contQueue hold (pushPort hold (eport d e)) = none := by simp [contQueue, pce, gated]
  have asks : gatedPop e hold (noBeatOut hold e d) = noBeatOut hold e d := by
    have port : eport (noBeatOut hold e d) e = { pushPort hold (eport d e) with pEn := false } := eport_putE ..
    unfold gatedPop
    rw [port]
    dsimp only
    split
    · rw [mid, between]
      simp
    · rfl
  rw [egressPush_eq on cut push idle, launch, unasked, asks]
  exact ite_self _

end

/-- A port that launches nothing keeps its items. -/
theorem noBeatOut_holds (hold : Bool) (e : Nat) (d : Dev) :
    (eport (noBeatOut hold e d) e).pEn = false ∧ (eport (noBeatOut hold e d) e).esb = (eport d e).esb ∧
      (noBeatOut hold e d).out = d.out ∧ (noBeatOut hold e d).queues = d.queues := by
  have same : SameBut [.ports, .timers] d (noBeatOut hold e d) :=
    (mask_putE (by decide) ..).trans (mask_edgeSeen (by decide) ..)
  refine ⟨by rw [noBeatOut, eport_putE], ?_, same.out_eq (by decide), same.queues_eq (by decide)⟩
  rw [noBeatOut, eport_putE, pushPort_withPins]
  rfl

/-- Settles O40. -/
theorem egressPortsDriveTheNextBeat : Obligations.EgressPortsDriveTheNextBeat := by
  intro s i p hp
  subst hp
  have seen := sameBut_edgeSeen (i.val + 2) s.dev
  refine ⟨fun hold off through => ?_, fun on cut idle => ⟨fun r pull full next => ?_, fun pull empty op blameless => ?_,
    fun gq pull empty op falls valid wf => ?_, fun r push next => ?_, fun push dry => ?_, fun hold push gated between none_ => ?_⟩⟩
  · refine completes_of_exec_eq_act (f := egressPush i.val hold) rfl ?_
    unfold egressPush
    rw [if_pos through]
    exact if_pos (by rw [show drives (emit (.throughHold i hold) s.dev) i = false from off]; rfl)
  · refine completes_of_exec_eq_act (f := egressRead i.val) rfl ?_
    rw [egressRead_beat on idle pull full next]
    have pins := driveBeat_atPins i.val r.d r.eop r.tagv (withPins (newEdge (eport s.dev i)) r.port) (edgeSeen (i.val + 2) s.dev)
    refine ⟨by rw [pins.out, seen.out_eq (by decide)], pins.esb, ?_, fun fwft => pins.pins ?_⟩
    · rw [pins.same.queues_eq (by decide), seen.queues_eq (by decide)]
    · exact (congrArg Pce.fwft (nextBeat_pce next)).trans fwft
  · refine completes_of_exec_eq_act (f := egressRead i.val) rfl ?_
    rw [egressRead_nothing on idle pull empty op blameless]
    have same : SameBut [.ports, .timers] s.dev (readNothing i.val (newEdge (eport s.dev i)) (edgeSeen (i.val + 2) s.dev)) :=
      (mask_readNothing (by decide) ..).trans (mask_edgeSeen (by decide) ..)
    refine ⟨?_, same.out_eq (by decide), ?_, ?_, ?_, same.eq⟩ <;> rw [readNothing, eport_putE] <;> rfl
  · intro b
    refine completes_of_exec_eq_act (f := egressRead i.val) rfl ?_
    have drawn : driveEmpty i.val gq (newEdge (eport s.dev i)) (edgeSeen (i.val + 2) s.dev) =
        afterBeat i (driveBeat i b.1 false false { newEdge (eport s.dev i) with under := b.2 }
          (mustTake gq (edgeSeen (i.val + 2) s.dev))) := by
      rw [driveEmpty, cfgOf_edgeSeen]
      rfl
    rw [egressRead_empty on idle pull empty op falls valid, drawn]
    have pins := driveBeat_atPins i.val b.1 false false { newEdge (eport s.dev i) with under := b.2 }
      (mustTake gq (edgeSeen (i.val + 2) s.dev))
    have there (j : Nat) : queueOf (edgeSeen (i.val + 2) s.dev) j = queueOf s.dev j := by
      rw [queueOf, seen.queues_eq (by decide), queueOf]
    refine ⟨?_, pins.under, ?_, fun j other => ?_⟩
    · exact pins.out.trans (congrArg (· ++ [OutMsg.beat i b.1 false false]) (seen.out_eq (by decide)))
    · rw [queueOf, pins.same.queues_eq (by decide), ← queueOf, mustTake,
        queueOf_on_same (by rw [seen.queues_eq (by decide)]; exact wf), there]
    · rw [queueOf, pins.same.queues_eq (by decide), ← queueOf, mustTake, queueOf_on_other _ _ other, there]
  · refine completes_of_exec_eq_act (f := egressPush i.val false) rfl ?_
    have go : (pushPort false (eport s.dev i)).skid ≠ some 0 := by rw [pushPort_skid]; simp
    have launched : nextBeat (cfgOf s.dev) (launchPort false (eport s.dev i)) =
        some { r with port := withPins (launchPort false (eport s.dev i)) r.port } := by
      have same : launchPort false (eport s.dev i) =
          withPins (launchPort false (eport s.dev i)) { eport s.dev i with skid := none } := launchPort_withPins ..
      rw [same, nextBeat_withPins, next]
      rfl
    rw [egressPush_beat on cut push idle go launched]
    have pins := driveBeat_atPins i.val r.d r.eop r.tagv (withPins (launchPort false (eport s.dev i)) r.port)
      (edgeSeen (i.val + 2) s.dev)
    refine ⟨by rw [pins.out, seen.out_eq (by decide)], pins.esb, pins.pEn.trans ?_, ?_⟩
    · exact (congrArg Pce.push (nextBeat_pce next)).trans push
    · rw [pins.same.queues_eq (by decide), seen.queues_eq (by decide)]
  · refine completes_of_exec_eq_act (f := egressPush i.val true) rfl ?_
    rw [egressPush_held on cut push idle (by rw [pushPort_skid, dry]; rfl)]
    exact noBeatOut_holds ..
  · refine completes_of_exec_eq_act (f := egressPush i.val hold) rfl ?_
    rw [egressPush_gated on cut push idle gated between none_]
    exact noBeatOut_holds ..

end Sys2Proof.Machine
end

section
/-!
Internal events take effect at their ports (R98 to R101, R148, R167, R306, R307).
-/

namespace Sys2Proof.Machine

/-! ### Timers that the rings' reads leave alone -/

section
variable {j : TimerId} (other : ∀ tag, j ≠ .read tag)
include other

theorem timerOf_memReadOne (what : ReadFor) (addr len : Nat) (d : Dev) : timerOf (memReadOne what addr len d) j = timerOf d j := by
  have started (d : Dev) : (startWork d).tb = d.tb :=
    SameBut.tb_eq (S := [.link, .out]) (mask_startWork (by decide) (by decide) d) (by decide) (by decide)
  rw [memReadOne, timerOf_startTimer_other _ (other _), timerOf]
  exact congrArg (fun t : TimeBase => t.timers.find? fun t => t.id = j) (started d)

theorem timerOf_fetchFill (f : Nat) (d : Dev) : timerOf (fetchFill f d) j = timerOf d j := by
  unfold fetchFill
  split
  · rfl
  · split
    · exact timerOf_memReadOne other ..
    · rfl

theorem timerOf_readFill (f : Nat) : ∀ (n : Nat) (d : Dev), timerOf (readFill n f d) j = timerOf d j := by
  intro n
  induction n with
  | zero => intro d; rfl
  | succ n ih =>
    intro d
    unfold readFill
    split
    · rfl
    · split
      · rfl
      · split
        · exact (ih _).trans (timerOf_memReadOne other ..)
        · rfl

theorem timerOf_fetchDrain (n : Nat) (d : Dev) : timerOf (fetchDrain n d) j = timerOf d j := by
  unfold fetchDrain
  split
  · rfl
  · split
    · exact timerOf_memReadOne other ..
    · rfl

omit other in
theorem timerOf_foldl {β : Type} {f : Dev → β → Dev} (keeps : ∀ d x, timerOf (f d x) j = timerOf d j) (l : List β) :
    ∀ d, timerOf (l.foldl f d) j = timerOf d j := by
  induction l with
  | nil => intro d; rfl
  | cons x l ih => intro d; exact (ih _).trans (keeps d x)

/-- The rings' reads start the timers of the reads alone. -/
theorem timerOf_pump (d : Dev) : timerOf (pump d) j = timerOf d j := by
  have latched (f : Nat) (d : Dev) : timerOf (latchFill f d) j = timerOf d j := by
    rw [timerOf, SameBut.tb_eq (S := [.rings]) (mask_latchFill (by decide) f d) (by decide) (by decide), timerOf]
  have rings (d : Dev) : timerOf (pumpRings d) j = timerOf d j := by
    refine (timerOf_foldl (fun d e => timerOf_fetchDrain other ..) _ _).trans (timerOf_foldl (fun d e => ?_) _ d)
    exact (latched ..).trans ((timerOf_readFill other ..).trans (timerOf_fetchFill other ..))
  unfold pump askLink
  split <;> exact rings d

end

theorem timerOf_stallCheck {k : Nat} {j : TimerId} (other : j ≠ .stall k) (d : Dev) : timerOf (stallCheck k d) j = timerOf d j := by
  unfold stallCheck
  split_ifs
  · rfl
  · exact timerOf_startTimer_other d other
  · exact timerOf_stopTimer_other d other
  · rfl

theorem timerOf_stallChecks {j : TimerId} (other : ∀ k, j ≠ .stall k) (d : Dev) : timerOf (stallChecks d) j = timerOf d j := by
  unfold stallChecks
  rw [timerOf_stallCheck (other _), timerOf_stallCheck (other _), timerOf_stallCheck (other _), timerOf_stallCheck (other _)]

/-! ### What follows an event -/

/-- The device as an event finds it: the event is off the list, and the edge is seen. -/
def eventAt (k : Nat) (rest : List PortEv) (d : Dev) : Dev := edgeSeen k (putEv k rest d)

/-- What follows an event at its port: the rings, the flags and the stall timers. -/
def eventDone (d : Dev) : Dev := govTrack (stallChecks (pumpFlags d))

theorem portEventEffect_eq {k : Nat} {d : Dev} {ev : PortEv} {rest : List PortEv} (first : evOf d k = ev :: rest) :
    govTrack (portEventEffect k d) = eventDone (applyEvent k ev (eventAt k rest d)) := by
  unfold portEventEffect
  rw [first]
  rfl

section
variable (d : Dev)

theorem eport_pumpFlags (i : Nat) (d : Dev) :
    eport (pumpFlags d) i = { eport d i with ae := (eport (pumpFlags d) i).ae } := by
  have moved : SameBut [.timers, .link, .out, .rings] d (pump d) :=
    mask_pump (by decide) (by decide) (by decide) (by decide) _
  rw [← eport_congr (e := pump d) (d := d) (moved.ports_eq (by decide))]
  exact eport_refreshFlags i (pump d)

theorem pairOf_pumpFlags (n : Nat) : pairOf (pumpFlags d) n = pairOf d n := by
  have moved : SameBut [.timers, .link, .out, .rings] d (pump d) :=
    mask_pump (by decide) (by decide) (by decide) (by decide) _
  exact (pairOf_refreshFlags n (pump d)).trans (pairOf_congr (moved.ports_eq (by decide)))

theorem sameBut_afterPump (d : Dev) : SameBut [.timers] d (govTrack (stallChecks d)) :=
  (mask_govTrack (by decide) _).trans (mask_stallChecks (by decide) _)

theorem iport_eventDone (i : Nat) : iport (eventDone d) i = { iport d i with af := (iport (eventDone d) i).af } := by
  unfold eventDone
  rw [iport_congr ((sameBut_afterPump _).ports_eq (by decide))]
  exact iport_pumpFlags ..

theorem eport_eventDone (i : Nat) : eport (eventDone d) i = { eport d i with ae := (eport (eventDone d) i).ae } := by
  unfold eventDone
  rw [eport_congr ((sameBut_afterPump _).ports_eq (by decide))]
  exact eport_pumpFlags ..

theorem pairOf_eventDone (n : Nat) : pairOf (eventDone d) n = pairOf d n := by
  unfold eventDone
  rw [pairOf_congr ((sameBut_afterPump _).ports_eq (by decide)), pairOf_pumpFlags]

theorem runOf_eventDone (k : Nat) : runOf (eventDone d) k = runOf d k := by
  rw [runOf, iport_eventDone, eport_eventDone, runOf]

theorem pceOf_eventDone (k : Nat) : pceOf (eventDone d) k = pceOf d k := by
  rw [pceOf, iport_eventDone, eport_eventDone, pceOf]

theorem evOf_eventDone (k : Nat) : evOf (eventDone d) k = evOf d k := by
  rw [evOf, iport_eventDone, eport_eventDone, evOf]

theorem sameBut_eventDone : SameBut [.ports, .out, .link, .tb, .timers, .rings] d (eventDone d) := by
  refine SameBut.trans (b := pumpFlags d) ?_ ((sameBut_afterPump _).mono (by decide))
  exact mask_pumpFlags (by decide) (by decide) (by decide) (by decide) (by decide) _

theorem timerOf_eventDone {j : TimerId} (read : ∀ tag, j ≠ .read tag) (stall : ∀ k, j ≠ .stall k) (up : j ≠ .govUp)
    (down : j ≠ .govDown) : timerOf (eventDone d) j = timerOf d j := by
  unfold eventDone
  rw [timerOf_govTrack up down, timerOf_stallChecks stall]
  exact timerOf_pump read d

variable {d} {k : Nat} {rest : List PortEv}

theorem sameBut_eventAt : SameBut [.ports, .timers] d (eventAt k rest d) :=
  (mask_edgeSeen (by decide) ..).trans (mask_putEv (by decide) ..)

theorem evOf_eventAt : evOf (eventAt k rest d) k = rest := by
  have seen := sameBut_edgeSeen k (putEv k rest d)
  unfold eventAt
  rw [evOf, iport_congr (seen.ports_eq (by decide)), eport_congr (seen.ports_eq (by decide)), ← evOf, evOf_putEv_same]

theorem iport_eventAt (low : k < 2) : iport (eventAt k rest d) k = { iport d k with ev := rest } := by
  simp [eventAt, putEv, low]

theorem eport_eventAt (high : 2 ≤ k) : eport (eventAt k rest d) (k - 2) = { eport d (k - 2) with ev := rest } := by
  simp [eventAt, putEv, show ¬ k < 2 by omega]

theorem pairOf_eventAt (n : Nat) : pairOf (eventAt k rest d) n = pairOf d n := by
  rw [eventAt, pairOf_congr ((sameBut_edgeSeen k _).ports_eq (by decide)), putEv]
  split <;> simp

/-- The frame of an event, with the list of the port. -/
theorem event_only {ev : PortEv} (applied : SameBut [.ports, .timers, .queues] (eventAt k rest d) (applyEvent k ev (eventAt k rest d)))
    (list : evOf (applyEvent k ev (eventAt k rest d)) k = rest) :
    let e := eventDone (applyEvent k ev (eventAt k rest d))
    evOf e k = rest ∧
      e = { d with ports := e.ports, out := e.out, link := e.link, tb := e.tb, rings := e.rings, queues := e.queues } := by
  have same : SameBut [.ports, .out, .link, .tb, .timers, .rings, .queues] d
      (eventDone (applyEvent k ev (eventAt k rest d))) :=
    (sameBut_eventAt.mono (by decide)).trans ((applied.mono (by decide)).trans ((sameBut_eventDone _).mono (by decide)))
  exact ⟨by rw [evOf_eventDone, list], same.eq⟩

end

/-! ### A new PCE at an ingress port -/

theorem applyIngress_sets (np : Pce) (p : IPort) :
    (applyIngress np p).pce = np ∧ (applyIngress np p).ev = p.ev ∧
      (p.pce.en ≠ np.en → (applyIngress np p).run.isOpen = np.en ∧ (applyIngress np p).ff = true ∧
        (applyIngress np p).partBits = 0) ∧
      (p.pce.en = true → np.en = false →
        (applyIngress np p).run.parked = false ∧ (applyIngress np p).isb = p.isb ++ [.close]) := by
  unfold applyIngress
  split
  next closes =>
    obtain ⟨was, goes⟩ : p.pce.en = true ∧ np.en = false := by simpa using closes
    exact ⟨rfl, rfl, fun _ => ⟨goes.symm, rfl, rfl⟩, fun _ _ => ⟨rfl, rfl⟩⟩
  · split
    next opens =>
      obtain ⟨was, comes⟩ : p.pce.en = false ∧ np.en = true := by simpa using opens
      exact ⟨rfl, rfl, fun _ => ⟨comes.symm, rfl, rfl⟩, fun on => absurd (was.symm.trans on) (by simp)⟩
    next stays closes =>
      have same : p.pce.en = np.en := by
        revert stays closes
        cases p.pce.en <;> cases np.en <;> simp
      refine ⟨rfl, ?_, fun ne => absurd same ne, fun on off => absurd (on.symm.trans (same.trans off)) (by simp)⟩
      dsimp only
      split <;> rfl

/-- The port of a commit's event, with its tag map. -/
def committedPort (i : Nat) (np : Pce) (remap : Bool) (d : Dev) : IPort :=
  if remap then applyMap i d (applyIngress np (iport d i)) else applyIngress np (iport d i)

theorem committedPort_keeps (i : Nat) (np : Pce) (remap : Bool) (d : Dev) :
    (committedPort i np remap d).pce = (applyIngress np (iport d i)).pce ∧
      (committedPort i np remap d).ev = (applyIngress np (iport d i)).ev ∧
      (committedPort i np remap d).run = (applyIngress np (iport d i)).run ∧
      (committedPort i np remap d).ff = (applyIngress np (iport d i)).ff ∧
      (committedPort i np remap d).partBits = (applyIngress np (iport d i)).partBits ∧
      (committedPort i np remap d).isb = (applyIngress np (iport d i)).isb := by
  cases remap <;> exact ⟨rfl, rfl, rfl, rfl, rfl, rfl⟩

theorem applyEvent_ingress {k : Nat} (low : k < 2) (np : Pce) (remap : Bool) (st : Option Nat) (d : Dev) :
    applyEvent k (.commit (some np) remap st) d = putI k (committedPort k np remap d) d := if_pos low

/-! ### A new PCE at an egress port -/

theorem applyEvent_egress {k : Nat} (high : 2 ≤ k) (np : Pce) (remap : Bool) (st : Option Nat) (d : Dev) :
    applyEvent k (.commit (some np) remap st) d = armOpened (k - 2) (applyEgress (k - 2) np d) := if_neg (by omega)

theorem sameBut_armOpened (n : Nat) (d : Dev) : SameBut [.ports] d (armOpened n d) := mask_armOpened (by decide) ..

/-- The arming that follows is an event of the ingress port. -/
theorem eport_armOpened {n : Nat} (low : n < 2) (i : Nat) (d : Dev) : eport (armOpened n d) i = eport d i := by
  unfold armOpened
  split
  · simp [issueEv, putEv, low]
  · rfl

/-- The pins show a beat of the ESB, or what they showed. -/
theorem showFront_shows (d : Dev) (p : EPort) : ∃ v b t, showFront d p = { p with pD := v, pEop := b, pTagv := t } := by
  unfold showFront
  split
  · split <;> exact ⟨_, _, _, rfl⟩
  · exact ⟨_, _, _, rfl⟩

theorem headStays_of_idle {p : EPort} (idle : finishing p = false) : headStays p = 0 := by
  unfold finishing at idle
  simp only [Bool.or_eq_false_iff, decide_eq_false_iff_not] at idle
  omega

theorem openEgress_opens (e : Nat) (np : Pce) (d : Dev) :
    (eport (openEgress e np d) e).pce = np ∧ (eport (openEgress e np d) e).ev = (eport d e).ev ∧
      (eport (openEgress e np d) e).run.isOpen = true ∧
      (finishing (eport d e) = false → (eport (openEgress e np d) e).esb = [] ∧ (eport (openEgress e np d) e).ef = true) := by
  unfold openEgress
  dsimp only
  rw [eport_putE]
  obtain ⟨v, b, t, shown⟩ := showFront_shows d (setClock d e _)
  rw [shown]
  refine ⟨rfl, rfl, rfl, fun idle => ?_⟩
  simp [setClock, headStays_of_idle idle, noBeat, nextBeat]

theorem applyEgress_opens {e : Nat} {np : Pce} {d : Dev} (off : (eport d e).pce.en = false) (on : np.en = true) :
    applyEgress e np d = openEgress e np d := by
  simp [applyEgress, off, on]

theorem applyEgress_closes {e : Nat} {np : Pce} {d : Dev} (on : (eport d e).pce.en = true) (off : np.en = false) :
    applyEgress e np d = closeEgress e np d := by
  simp [applyEgress, off, on]

/-! ### A closing egress port gives its items back (R100) -/

theorem returnPlan_items (gq : Nat) (ew : BitVec 2) (is : List Item) : ∀ acc : List Item,
    (is.map fun i => EsbEntry.item gq i ew).foldl (fun (a : Bool × List Item) x => match x with
      | .item q i _ => if q = gq then (a.1, a.2 ++ [i]) else a
      | .status q true _ _ => if q ≠ gq then a else if a.2.isEmpty then (true, a.2) else (a.1, closeRun a.2)
      | _ => a) (false, acc) = (false, acc ++ is) := by
  induction is with
  | nil => intro acc; simp
  | cons i is ih =>
    intro acc
    rw [List.map_cons, List.foldl_cons]
    simpa using ih (acc ++ [i])

theorem esbQueues_items (gq : Nat) (ew : BitVec 2) {is : List Item} (some_ : is ≠ []) :
    esbQueues (is.map fun i => .item gq i ew) = [gq] := by
  unfold esbQueues
  rw [List.map_map]
  refine (congrArg List.dedup (List.map_const : _ = List.replicate is.length gq)).trans ?_
  exact List.replicate_dedup (by simpa using some_)

/-- The port that has given back all it held. -/
def returnedPort (p : EPort) : EPort :=
  { p with esb := [], visible := 0, driven := 0, cur := none, grantBytes := 0, retag := false, midPkt := false
           cutAfter := true, begun := none }

theorem returnEsb_items {e gq : Nat} {ew : BitVec 2} {is : List Item} {d : Dev} (some_ : is ≠ [])
    (esb : (eport d e).esb = is.map fun i => .item gq i ew) (whole : (eport d e).driven = 0) :
    returnEsb e d = onQueue (gq % 4096) (takeBack (false, is)) (putE e (returnedPort (eport d e)) d) := by
  obtain ⟨i, is', rfl⟩ := List.exists_cons_of_ne_nil some_
  have keep : closingKeep (eport d e) = 0 := by simp [closingKeep, headStays, esb, whole, isAnnouncement]
  have plan : returnPlan gq ((i :: is').map fun i => .item gq i ew) = (false, i :: is') := returnPlan_items gq ew _ []
  unfold returnEsb
  dsimp only
  rw [keep, esb, List.drop_zero, esbQueues_items gq ew some_, List.foldl_cons, List.foldl_nil, plan]
  rfl

theorem items_takeBack {is : List Item} (some_ : is ≠ []) (q : Queue) :
    (takeBack (false, is) q).items = (if q.owedEnd then closeRun is else is) ++ q.items := by
  obtain ⟨i, is', rfl⟩ := List.exists_cons_of_ne_nil some_
  rfl

theorem closeEgress_items {e gq : Nat} {ew : BitVec 2} {is : List Item} {np : Pce} {d : Dev} (some_ : is ≠ [])
    (esb : (eport d e).esb = is.map fun i => .item gq i ew) (whole : (eport d e).driven = 0)
    (idle : (eport d e).under = none) :
    (closeEgress e np d).queues = (onQueue (gq % 4096) (takeBack (false, is)) d).queues ∧
      (eport (closeEgress e np d) e).pce = np ∧ (eport (closeEgress e np d) e).ev = (eport d e).ev ∧
      (eport (closeEgress e np d) e).esb = [] ∧ (eport (closeEgress e np d) e).run.isOpen = false ∧
      (eport (closeEgress e np d) e).hiZ = !((pairOf d e).strap && (pairOf d e).handed) := by
  have port : eport (returnEsb e d) e = returnedPort (eport d e) := by
    rw [returnEsb_items some_ esb whole]
    exact eport_putE ..
  have pair : pairOf (returnEsb e d) e = pairOf d e := by
    rw [returnEsb_items some_ esb whole]
    exact pairOf_putE ..
  have queues : (returnEsb e d).queues = (onQueue (gq % 4096) (takeBack (false, is)) d).queues := by
    have put : (putE e (returnedPort (eport d e)) d).queues = d.queues :=
      SameBut.queues_eq (S := [.ports]) (mask_putE (by decide) ..) (by decide)
    rw [returnEsb_items some_ esb whole]
    simp only [onQueue, putQueue, queueOf, put]
  obtain ⟨run, hrun⟩ : ∃ run : PceRun, run = { (returnedPort (eport d e)).run with
      isOpen := false, parked := false, unparkPend := false } := ⟨_, rfl⟩
  have ended : finishing { returnedPort (eport d e) with run := run } = false := by
    simp [finishing, headStays, returnedPort, idle]
  have closed : closeEgress e np d = putE e { returnedPort (eport d e) with
      run := run, pce := np, ef := true, pEn := false, hiZ := !((pairOf d e).strap && (pairOf d e).handed)
      eclk := if !((pairOf d e).strap && (pairOf d e).handed) then .off else (eport d e).eclk } (returnEsb e d) := by
    unfold closeEgress
    dsimp only
    rw [port, ← hrun, closingPce, outputsOff, pair, ended, hrun]
    rfl
  rw [closed, eport_putE]
  refine ⟨?_, rfl, rfl, rfl, by rw [hrun], rfl⟩
  rw [(show SameBut [.ports] (returnEsb e d) (putE e _ (returnEsb e d)) from mask_putE (by decide) ..).queues_eq (by decide), queues]

/-! ### An arming (R148) and a discard (R72) -/

theorem runOf_putEv (k j : Nat) (l : List PortEv) (d : Dev) : runOf (putEv k l d) j = runOf d j := by
  unfold runOf putEv iport eport putI putE
  split_ifs <;> rfl

theorem portOpen_eventAt (k j : Nat) (rest : List PortEv) (d : Dev) : portOpen (eventAt k rest d) j = portOpen d j := by
  unfold eventAt
  rw [portOpen, runOf_congr ((sameBut_edgeSeen k _).ports_eq (by decide)), runOf_putEv, portOpen]

theorem inBypass_eventAt (k n : Nat) (rest : List PortEv) (d : Dev) : inBypass (eventAt k rest d) n = inBypass d n := by
  rw [inBypass, pairOf_eventAt, inBypass]

/-- A pair that is armed. -/
def armedAnew (s : PairSt) : PairSt :=
  { s with armed := true, idle := 0, pointB := false, trackAcc := 0, trackBeats := 0, trackTag := none }

theorem armPair_arms {n : Nat} {d : Dev} (own : inBypass d n = true) (opI : portOpen d n = true) (opE : portOpen d (n + 2) = true) :
    armPair n d = startTimer (.noClock n) (startTimer (.handover n) (putPair n (armedAnew (pairOf d n)) d)) := by
  unfold armPair
  exact if_neg (by simp [own, opI, opE])

/-- What a discard leaves of a port that completes nothing and is between packets. -/
theorem cutEsb_between {gq : Nat} {why : EsbCut} {owed : Bool} {p : EPort} (whole : headStays p = 0) (between : p.midPkt = false)
    (kind : why = .flush ∨ why = .rewind) :
    (cutEsb gq why owed p).esb = p.esb.filter (fun x => !entryOf gq x) ∧ (cutEsb gq why owed p).pce = p.pce ∧
      (cutEsb gq why owed p).ev = p.ev := by
  obtain rfl | rfl := kind <;> simp [cutEsb, whole, between]

theorem applyCuts_one {e gq : Nat} {why : EsbCut} {d : Dev} :
    ∃ b v x t, eport (applyCuts e [(gq, why)] d) e =
      { cutEsb gq why (queueOf d (gq % 4096)).owedEnd (eport d e) with ef := b, pD := v, pEop := x, pTagv := t } := by
  unfold applyCuts
  rw [List.foldl_cons, List.foldl_nil]
  dsimp only
  generalize cutEsb gq why (queueOf d (gq % 4096)).owedEnd (eport d e) = p
  split
  · exact ⟨_, _, _, _, eport_putE ..⟩
  · rw [eport_putE]
    split
    · exact ⟨_, _, _, _, rfl⟩
    · obtain ⟨v, x, t, shown⟩ := showFront_shows d { p with ef := p.ef || noBeat d p }
      exact ⟨_, v, x, t, shown⟩

theorem pceOf_low {k : Nat} (low : k < 2) (d : Dev) : pceOf d k = (iport d k).pce := if_pos low

theorem pceOf_high {k : Nat} (high : 2 ≤ k) (d : Dev) : pceOf d k = (eport d (k - 2)).pce := if_neg (by omega)

theorem evOf_low {k : Nat} (low : k < 2) (d : Dev) : evOf d k = (iport d k).ev := if_pos low

theorem evOf_high {k : Nat} (high : 2 ≤ k) (d : Dev) : evOf d k = (eport d (k - 2)).ev := if_neg (by omega)

theorem runOf_high {k : Nat} (high : 2 ≤ k) (d : Dev) : runOf d k = (eport d (k - 2)).run := if_neg (by omega)

/-- Settles O38. -/
theorem portEventsTakeEffect : Obligations.PortEventsTakeEffect := by
  intro s k rest only handed
  have start {ev : PortEv} (first : evOf s.dev k = ev :: rest) {P : Dev → Prop}
      (holds : P (eventDone (applyEvent k ev (eventAt k rest s.dev)))) : Completes (.portEventEffect k) s P :=
    completes_of_exec_eq_act (f := fun d => govTrack (portEventEffect k.val d)) rfl (by rw [portEventEffect_eq first]; exact holds)
  have queues (e : Dev) : (eventDone e).queues = e.queues := (sameBut_eventDone e).queues_eq (by decide)
  have before : (eventAt k rest s.dev).queues = s.dev.queues := sameBut_eventAt.queues_eq (by decide)
  refine ⟨fun np rm st first => ⟨fun low => start first ?_, fun high off on => start first ?_,
    fun is gq ew high on off some_ esb whole idle wf => start first ?_⟩, fun first own opI opE => start first ?_,
    fun gq why first high whole between kind => start first ?_⟩
  · have port := iport_eventAt (rest := rest) (d := s.dev) low
    obtain ⟨pce, ev, run, ff, part, isb⟩ := committedPort_keeps k np rm (eventAt k rest s.dev)
    obtain ⟨set, list, opens, closes⟩ := applyIngress_sets np (iport (eventAt k rest s.dev) k)
    rw [applyEvent_ingress low]
    have put : SameBut [.ports] (eventAt k rest s.dev) (putI k (committedPort k np rm (eventAt k rest s.dev)) (eventAt k rest s.dev)) :=
      mask_putI (by decide) ..
    have frame := event_only (ev := .commit (some np) rm st) (k := k) (rest := rest) (d := s.dev)
      (by rw [applyEvent_ingress low]; exact put.mono (by decide))
      (by rw [applyEvent_ingress low, evOf_low low, iport_putI, ev, list, port])
    rw [applyEvent_ingress low] at frame
    rw [runOf_eventDone, runOf_low low, iport_eventDone, iport_putI, run]
    refine ⟨frame, ?_, ?_, fun differs => ?_, fun on off => ?_⟩
    · rw [queues, put.queues_eq (by decide), before]
    · rw [pceOf_eventDone, pceOf_low low, iport_putI, pce, set]
    · obtain ⟨op, full, none_⟩ := opens (by rw [port]; rwa [pceOf_low low] at differs)
      exact ⟨op, ff.trans full, part.trans none_⟩
    · obtain ⟨runs, ends⟩ := closes (by rw [port]; rwa [pceOf_low low] at on) off
      exact ⟨runs, (isb.trans ends).trans (by rw [port])⟩
  · have port := eport_eventAt (rest := rest) (d := s.dev) high
    rw [pceOf_high high] at off
    have event : applyEvent k (.commit (some np) rm st) (eventAt k rest s.dev) =
        armOpened (k - 2) (openEgress (k - 2) np (eventAt k rest s.dev)) := by
      rw [applyEvent_egress high, applyEgress_opens (by rw [port, off]) on]
    obtain ⟨pce, ev, op, empty⟩ := openEgress_opens (k - 2) np (eventAt k rest s.dev)
    have armed := eport_armOpened (show k.val - 2 < 2 by omega) (k - 2) (openEgress (k - 2) np (eventAt k rest s.dev))
    have same : SameBut [.ports] (eventAt k rest s.dev) (applyEvent k (.commit (some np) rm st) (eventAt k rest s.dev)) := by
      rw [event]
      exact SameBut.trans (mask_openEgress (by decide) ..) (sameBut_armOpened ..)
    refine ⟨event_only (same.mono (by decide)) (by rw [event, evOf_high high, armed, ev, port]), ?_, ?_, ?_, fun idle => ?_⟩
    · rw [queues, same.queues_eq (by decide), before]
    · rw [pceOf_eventDone, pceOf_high high, event, armed, pce]
    · rw [runOf_eventDone, runOf_high high, event, armed, op]
    · rw [eport_eventDone, event, armed]
      exact empty (by rw [port]; exact idle)
  · have port := eport_eventAt (rest := rest) (d := s.dev) high
    rw [pceOf_high high] at on
    have event : applyEvent k (.commit (some np) rm st) (eventAt k rest s.dev) =
        armOpened (k - 2) (closeEgress (k - 2) np (eventAt k rest s.dev)) := by
      rw [applyEvent_egress high, applyEgress_closes (by rw [port, on]) off]
    obtain ⟨back, pce, ev, empty, closed, hiZ⟩ := closeEgress_items (np := np) (e := k - 2) (d := eventAt k rest s.dev) some_
      (by rw [port, esb]) (by rw [port, whole]) (by rw [port, idle])
    have armed := eport_armOpened (show k.val - 2 < 2 by omega) (k - 2) (closeEgress (k - 2) np (eventAt k rest s.dev))
    have same : SameBut [.ports, .queues] (eventAt k rest s.dev)
        (applyEvent k (.commit (some np) rm st) (eventAt k rest s.dev)) := by
      rw [event]
      exact SameBut.trans (mask_closeEgress (by decide) (by decide) ..) ((sameBut_armOpened ..).mono (by decide))
    have there (j : Nat) : queueOf (eventDone (applyEvent k (.commit (some np) rm st) (eventAt k rest s.dev))) j =
        queueOf (onQueue (gq % 4096) (takeBack (false, is)) (eventAt k rest s.dev)) j := by
      rw [queueOf, queues, event, (sameBut_armOpened ..).queues_eq (by decide), back, queueOf]
    have was (j : Nat) : queueOf (eventAt k rest s.dev) j = queueOf s.dev j := by rw [queueOf, before, queueOf]
    refine ⟨event_only (same.mono (by decide)) (by rw [event, evOf_high high, armed, ev, port]), ?_, fun j other => ?_, ?_, ?_,
      ?_, ?_⟩
    · rw [there, queueOf_on_same (by rw [before]; exact wf), items_takeBack some_, was]
    · rw [there, queueOf_on_other _ _ other, was]
    · rw [pceOf_eventDone, pceOf_high high, event, armed, pce]
    · rw [eport_eventDone, event, armed]
      exact empty
    · rw [runOf_eventDone, runOf_high high, event, armed, closed]
    · rw [eport_eventDone, event, armed]
      refine hiZ.trans ?_
      rw [pairOf_eventAt, show k.val - 2 = k.val % 2 by omega]
  · have event : applyEvent k .arm (eventAt k rest s.dev) = startTimer (.noClock (k % 2)) (startTimer (.handover (k % 2))
        (putPair (k % 2) (armedAnew (pairOf s.dev (k % 2))) (eventAt k rest s.dev))) := by
      rw [← pairOf_eventAt (k := k) (rest := rest)]
      exact armPair_arms (by rw [inBypass_eventAt, own]) (by rw [portOpen_eventAt, opI]) (by rw [portOpen_eventAt, opE])
    have same : SameBut [.ports, .timers] (eventAt k rest s.dev) (applyEvent k .arm (eventAt k rest s.dev)) :=
      mask_armPair (by decide) (by decide) ..
    have pair : pairOf (applyEvent k .arm (eventAt k rest s.dev)) (k % 2) = armedAnew (pairOf s.dev (k % 2)) := by
      rw [event]
      exact pairOf_putPair ..
    have list : evOf (applyEvent k .arm (eventAt k rest s.dev)) k = rest := by
      rw [event]
      refine Eq.trans ?_ (evOf_eventAt (k := k) (rest := rest) (d := s.dev))
      show evOf (putPair (k % 2) (armedAnew (pairOf s.dev (k % 2))) (eventAt k rest s.dev)) k = _
      rw [evOf, iport_putPair, eport_putPair, evOf]
    refine ⟨event_only (same.mono (by decide)) list, ?_, ?_, ?_, ?_, ?_⟩
    · rw [queues, same.queues_eq (by decide), before]
    · rw [pairOf_eventDone, pair]
      rfl
    · rw [pairOf_eventDone, pair]
      rfl
    · rw [timerOn, timerOf_eventDone _ (by simp) (by simp) (by simp) (by simp), ← timerOn, event,
        timerOn_startTimer_other _ (by simp), timerOn_startTimer_same]
    · rw [timerOn, timerOf_eventDone _ (by simp) (by simp) (by simp) (by simp), ← timerOn, event, timerOn_startTimer_same]
  · have port := eport_eventAt (rest := rest) (d := s.dev) high
    have event : applyEvent k (.cut [(gq, why)]) (eventAt k rest s.dev) =
        applyCuts (k - 2) [(gq, why)] (eventAt k rest s.dev) := if_neg (by omega)
    have same : SameBut [.ports] (eventAt k rest s.dev) (applyEvent k (.cut [(gq, why)]) (eventAt k rest s.dev)) := by
      rw [event]
      exact mask_applyCuts (by decide) ..
    obtain ⟨b, v, x, t, cut⟩ := applyCuts_one (e := k - 2) (gq := gq) (why := why) (d := eventAt k rest s.dev)
    obtain ⟨esb, pce, ev⟩ := cutEsb_between (gq := gq) (owed := (queueOf (eventAt k rest s.dev) (gq % 4096)).owedEnd)
      (p := eport (eventAt k rest s.dev) (k - 2)) (by rw [port]; exact whole) (by rw [port]; exact between) kind
    refine ⟨event_only (same.mono (by decide)) (by rw [event, evOf_high high, cut, ev, port]), ?_, ?_, ?_⟩
    · rw [queues, same.queues_eq (by decide), before]
    · rw [eport_eventDone, event, cut]
      refine esb.trans ?_
      rw [port]
    · rw [pceOf_eventDone, pceOf_high high, event, cut, pce, port, pceOf_high high]

end Sys2Proof.Machine
end

section
/-!
The rings' state: what the rings' own reads change of it, and the list of outstanding reads (R234 to R270).
-/

namespace Sys2Proof.Machine

/-! ### What the rings' reads change -/

/-- A descriptor in progress whose data is asked for and handed on. -/
def RunMoves (c c' : FillRun) : Prop := c' = { c with data := c'.data, asked := c'.asked, begun := c'.begun }

/-- A fill ring whose reads are issued and whose data is handed on. -/
structure FillMoves (r r' : FillRing) : Prop where
  frame : r' = { r with issued := r'.issued, cur := r'.cur, latched := r'.latched }
  idle : r.cur = none → r'.cur = none ∧ r'.latched = r.latched
  runs : ∀ c, r.cur = some c → ∃ c', r'.cur = some c' ∧ RunMoves c c'

/-- A drain ring whose reads are issued. -/
def DrainMoves (r r' : DrainRing) : Prop := r' = { r with issued := r'.issued }

/-- Every entry of a table is still there, as a relation allows. -/
def EachMoves {α : Type} (moves : α → α → Prop) (t t' : Tbl α) : Prop :=
  ∀ k r, tblFind t k = some r → ∃ r', tblFind t' k = some r' ∧ moves r r'

/-- The rings have issued reads and handed data on, and nothing else of them has changed. -/
structure RingsMove (d e : Dev) : Prop where
  fills : EachMoves FillMoves d.rings.fills e.rings.fills
  drains : EachMoves DrainMoves d.rings.drains e.rings.drains
  comps : e.rings.comps = d.rings.comps

theorem FillMoves.refl (r : FillRing) : FillMoves r r := ⟨rfl, fun h => ⟨h, rfl⟩, fun c h => ⟨c, h, rfl⟩⟩

theorem FillMoves.trans {a b c : FillRing} (h : FillMoves a b) (k : FillMoves b c) : FillMoves a c := by
  refine ⟨?_, fun idle => ?_, fun x runs => ?_⟩
  · rw [k.frame, h.frame]
  · obtain ⟨cur, latched⟩ := h.idle idle
    obtain ⟨cur', latched'⟩ := k.idle cur
    exact ⟨cur', latched'.trans latched⟩
  · obtain ⟨y, hy, moves⟩ := h.runs x runs
    obtain ⟨z, hz, moves'⟩ := k.runs y hy
    refine ⟨z, hz, ?_⟩
    rw [RunMoves, show z = _ from moves', show y = _ from moves]

theorem DrainMoves.trans {a b c : DrainRing} (h : DrainMoves a b) (k : DrainMoves b c) : DrainMoves a c := by
  rw [DrainMoves, show c = _ from k, show b = _ from h]

theorem DrainMoves.refl (r : DrainRing) : DrainMoves r r := rfl

theorem EachMoves.refl {α : Type} {moves : α → α → Prop} (same : ∀ r, moves r r) (t : Tbl α) : EachMoves moves t t :=
  fun _ r h => ⟨r, h, same r⟩

theorem EachMoves.trans {α : Type} {moves : α → α → Prop} (comp : ∀ a b c, moves a b → moves b c → moves a c) {t u v : Tbl α}
    (h : EachMoves moves t u) (k : EachMoves moves u v) : EachMoves moves t v := by
  intro i r found
  obtain ⟨r', found', moves'⟩ := h i r found
  obtain ⟨r'', found'', moves''⟩ := k i r' found'
  exact ⟨r'', found'', comp _ _ _ moves' moves''⟩

/-- One entry put in place of another. -/
theorem EachMoves.put {α : Type} {moves : α → α → Prop} (same : ∀ r, moves r r) {t : Tbl α} {k : Nat} {r r' : α}
    (found : tblFind t k = some r) (moved : moves r r') : EachMoves moves t (tblPut t k r') := by
  intro i x hx
  by_cases here : i = k
  · subst here
    obtain rfl := Option.some.inj (found.symm.trans hx)
    exact ⟨r', tblFind_put_same .., moved⟩
  · exact ⟨x, by rw [tblFind_put_other _ _ here, hx], same x⟩

theorem RingsMove.refl (d : Dev) : RingsMove d d := ⟨.refl .refl _, .refl DrainMoves.refl _, rfl⟩

theorem RingsMove.trans {a b c : Dev} (h : RingsMove a b) (k : RingsMove b c) : RingsMove a c :=
  ⟨h.fills.trans (moves := FillMoves) (fun _ _ _ x y => x.trans y) k.fills, h.drains.trans (moves := DrainMoves) (fun _ _ _ x y => x.trans y) k.drains, k.comps.trans h.comps⟩

theorem RingsMove.of_eq {d e : Dev} (h : e.rings = d.rings) : RingsMove d e := by
  refine ⟨?_, ?_, by rw [h]⟩ <;> rw [h]
  · exact .refl .refl _
  · exact .refl DrainMoves.refl _

theorem ringsMove_memReadOne (what : ReadFor) (addr len : Nat) (d : Dev) : RingsMove d (memReadOne what addr len d) :=
  .of_eq (SameBut.rings_eq (S := [.timers, .link, .out])
    (mask_memReadOne (by decide) (by decide) (by decide) what addr len d) (by decide))

theorem ringsMove_putFill {f : Nat} {r r' : FillRing} {d : Dev} (found : tblFind d.rings.fills f = some r)
    (moved : FillMoves r r') : RingsMove d (putFill f r' d) :=
  ⟨.put .refl found moved, .refl DrainMoves.refl _, rfl⟩

theorem ringsMove_putDrain {n : Nat} {r r' : DrainRing} {d : Dev} (found : tblFind d.rings.drains n = some r)
    (moved : DrainMoves r r') : RingsMove d (putDrain n r' d) :=
  ⟨.refl .refl _, .put DrainMoves.refl found moved, rfl⟩

theorem ringsMove_fetchFill (f : Nat) (d : Dev) : RingsMove d (fetchFill f d) := by
  unfold fetchFill
  split
  · exact .refl d
  next r found =>
    split
    · exact (ringsMove_putFill (r' := { r with issued := r.issued + 1 }) found
        ⟨rfl, fun h => ⟨h, rfl⟩, fun c h => ⟨c, h, rfl⟩⟩).trans (ringsMove_memReadOne ..)
    · exact .refl d

theorem ringsMove_readFill (f : Nat) : ∀ (n : Nat) (d : Dev), RingsMove d (readFill n f d) := by
  intro n
  induction n with
  | zero => exact .refl
  | succ n ih =>
    intro d
    unfold readFill
    split
    · exact .refl d
    next r found =>
      split
      · exact .refl d
      next c cur =>
        split
        · refine (ringsMove_putFill found ⟨rfl, fun h => ?_, fun c' h => ?_⟩).trans ((ringsMove_memReadOne ..).trans (ih _))
          · exact absurd (cur.symm.trans h) (by simp)
          · obtain rfl := Option.some.inj (cur.symm.trans h)
            exact ⟨_, rfl, rfl⟩
        · exact .refl d

theorem ringsMove_latchFill (f : Nat) (d : Dev) : RingsMove d (latchFill f d) := by
  unfold latchFill
  split
  · exact .refl d
  next r found =>
    split
    next c cur free =>
      dsimp only
      split
      · exact .refl d
      · refine ringsMove_putFill found ⟨rfl, fun h => ?_, fun c' h => ?_⟩
        · exact absurd (cur.symm.trans h) (by simp)
        · obtain rfl := Option.some.inj (cur.symm.trans h)
          exact ⟨_, rfl, rfl⟩
    · exact .refl d

theorem ringsMove_fetchDrain (n : Nat) (d : Dev) : RingsMove d (fetchDrain n d) := by
  unfold fetchDrain
  split
  · exact .refl d
  next r found =>
    split
    · exact (ringsMove_putDrain (r' := { r with issued := r.issued + 1 }) found rfl).trans (ringsMove_memReadOne ..)
    · exact .refl d

theorem ringsMove_foldl {β : Type} {f : Dev → β → Dev} (moves : ∀ d x, RingsMove d (f d x)) (l : List β) :
    ∀ d, RingsMove d (l.foldl f d) := by
  induction l with
  | nil => exact .refl
  | cons x l ih => intro d; exact (moves d x).trans (ih _)

theorem ringsMove_pump (d : Dev) : RingsMove d (pump d) := by
  have rings (d : Dev) : RingsMove d (pumpRings d) :=
    (ringsMove_foldl (fun d e => (ringsMove_fetchFill ..).trans ((ringsMove_readFill ..).trans (ringsMove_latchFill ..))) _ d).trans
      (ringsMove_foldl (fun d e => ringsMove_fetchDrain ..) _ _)
  unfold pump askLink
  split
  · exact (rings d).trans (.of_eq rfl)
  · exact rings d

/-! ### The list of outstanding reads -/

/-- Reads may have been issued: each takes a tag of its own. -/
structure ReadsGrow (d e : Dev) : Prop where
  next : d.link.nextTag ≤ e.link.nextTag
  fresh : ∀ r ∈ e.link.reads, r ∈ d.link.reads ∨ d.link.nextTag ≤ r.tag
  kept : ∀ r ∈ d.link.reads, r ∈ e.link.reads

theorem ReadsGrow.refl (d : Dev) : ReadsGrow d d := ⟨Nat.le_refl _, fun _ h => .inl h, fun _ h => h⟩

theorem ReadsGrow.trans {a b c : Dev} (h : ReadsGrow a b) (k : ReadsGrow b c) : ReadsGrow a c := by
  refine ⟨h.next.trans k.next, fun r hr => ?_, fun r hr => k.kept r (h.kept r hr)⟩
  obtain old | new := k.fresh r hr
  · exact h.fresh r old
  · exact .inr (h.next.trans new)

/-- Neither the reads nor their tags have changed. -/
def SameReads (d e : Dev) : Prop := e.link.reads = d.link.reads ∧ e.link.nextTag = d.link.nextTag

theorem SameReads.trans {a b c : Dev} (h : SameReads a b) (k : SameReads b c) : SameReads a c :=
  ⟨k.1.trans h.1, k.2.trans h.2⟩

theorem SameReads.grow {d e : Dev} (h : SameReads d e) : ReadsGrow d e := by
  obtain ⟨reads, next⟩ := h
  exact ⟨by rw [next], fun r hr => .inl (reads ▸ hr), fun r hr => reads.symm ▸ hr⟩

theorem SameBut.sameReads {S : List Part} {d e : Dev} (h : SameBut S d e) (p : .link ∉ S) (q : .reads ∉ S) : SameReads d e := by
  rw [SameReads, h.link_eq p q]
  exact ⟨rfl, rfl⟩

theorem sameReads_putFill (f : Nat) (r : FillRing) (d : Dev) : SameReads d (putFill f r d) := ⟨rfl, rfl⟩

theorem sameReads_putDrain (n : Nat) (r : DrainRing) (d : Dev) : SameReads d (putDrain n r d) := ⟨rfl, rfl⟩

theorem sameReads_emitHost (m : OutMsg) (d : Dev) : SameReads d (emitHost m d) := by
  unfold emitHost
  split_ifs <;> exact ⟨rfl, rfl⟩

theorem sameReads_sendLtr (us : Nat) (d : Dev) : SameReads d (sendLtr us d) := by
  unfold sendLtr
  split
  · exact SameReads.trans (b := { d with link.ltrSent := some ((ltrCode us).1 * 32 ^ (ltrCode us).2) }) ⟨rfl, rfl⟩
      (sameReads_emitHost ..)
  · exact ⟨rfl, rfl⟩

theorem sameReads_startWork (d : Dev) : SameReads d (startWork d) := by
  unfold startWork
  split
  · exact ⟨rfl, rfl⟩
  · exact SameReads.trans (b := { d with link.active := true }) ⟨rfl, rfl⟩ (sameReads_sendLtr ..)

theorem memReadOne_reads (what : ReadFor) (addr len : Nat) (d : Dev) :
    (memReadOne what addr len d).link.reads = d.link.reads ++ [{ tag := d.link.nextTag, what, addr, len }] ∧
      (memReadOne what addr len d).link.nextTag = d.link.nextTag + 1 := by
  obtain ⟨reads, -⟩ := sameReads_startWork d
  exact ⟨congrArg (· ++ [_]) reads, rfl⟩

theorem readsGrow_memReadOne (what : ReadFor) (addr len : Nat) (d : Dev) : ReadsGrow d (memReadOne what addr len d) := by
  obtain ⟨reads, next⟩ := memReadOne_reads what addr len d
  refine ⟨by omega, fun r hr => ?_, fun r hr => by rw [reads]; exact List.mem_append_left _ hr⟩
  rw [reads, List.mem_append, List.mem_singleton] at hr
  obtain old | rfl := hr
  · exact .inl old
  · exact .inr (Nat.le_refl _)

theorem readsGrow_foldl {β : Type} {f : Dev → β → Dev} (grows : ∀ d x, ReadsGrow d (f d x)) (l : List β) :
    ∀ d, ReadsGrow d (l.foldl f d) := by
  induction l with
  | nil => exact .refl
  | cons x l ih => intro d; exact (grows d x).trans (ih _)

theorem readsGrow_fetchFill (f : Nat) (d : Dev) : ReadsGrow d (fetchFill f d) := by
  unfold fetchFill
  split
  · exact .refl d
  · split
    · exact (sameReads_putFill ..).grow.trans (readsGrow_memReadOne ..)
    · exact .refl d

theorem readsGrow_readFill (f : Nat) : ∀ (n : Nat) (d : Dev), ReadsGrow d (readFill n f d) := by
  intro n
  induction n with
  | zero => exact .refl
  | succ n ih =>
    intro d
    unfold readFill
    split
    · exact .refl d
    · split
      · exact .refl d
      · split
        · exact (sameReads_putFill ..).grow.trans ((readsGrow_memReadOne ..).trans (ih _))
        · exact .refl d

theorem readsGrow_fetchDrain (n : Nat) (d : Dev) : ReadsGrow d (fetchDrain n d) := by
  unfold fetchDrain
  split
  · exact .refl d
  · split
    · exact (sameReads_putDrain ..).grow.trans (readsGrow_memReadOne ..)
    · exact .refl d

theorem sameReads_latchFill (f : Nat) (d : Dev) : SameReads d (latchFill f d) :=
  SameBut.sameReads (S := [.rings]) (mask_latchFill (by decide) f d) (by decide) (by decide)

theorem readsGrow_pump (d : Dev) : ReadsGrow d (pump d) := by
  have rings (d : Dev) : ReadsGrow d (pumpRings d) :=
    (readsGrow_foldl (fun d e => (readsGrow_fetchFill ..).trans ((readsGrow_readFill ..).trans (sameReads_latchFill ..).grow)) _ d).trans
      (readsGrow_foldl (fun d e => readsGrow_fetchDrain ..) _ _)
  unfold pump askLink
  split
  · exact (rings d).trans (SameReads.grow ⟨rfl, rfl⟩)
  · exact rings d

theorem readsGrow_memRead (what : ReadFor) (addr len : Nat) (d : Dev) : ReadsGrow d (memRead what addr len d) :=
  readsGrow_foldl (fun _ _ => readsGrow_memReadOne ..) _ d

/-- Each piece of a read is outstanding. -/
theorem memRead_asks (what : ReadFor) (addr len : Nat) (d : Dev) :
    ∀ p ∈ splitReq (min 512 d.link.mrrs) addr len, ∃ r ∈ (memRead what addr len d).link.reads,
      r.what = what ∧ r.addr = p.1 ∧ r.len = p.2 ∧ r.got = none := by
  unfold memRead
  generalize splitReq (min 512 d.link.mrrs) addr len = l
  induction l generalizing d with
  | nil => simp
  | cons q l ih =>
    intro p hp
    rw [List.foldl_cons]
    obtain rfl | later := List.mem_cons.1 hp
    · have grown := readsGrow_foldl (fun e (q : Nat × Nat) => readsGrow_memReadOne what q.1 q.2 e) l (memReadOne what p.1 p.2 d)
      refine ⟨_, grown.kept { tag := d.link.nextTag, what, addr := p.1, len := p.2 } ?_, rfl, rfl, rfl, rfl⟩
      rw [(memReadOne_reads ..).1]
      exact List.mem_append_right _ (List.mem_singleton.2 rfl)
    · exact ih _ p later

/-- A read of at most 4 KiB in pieces of 128 bytes or more: one piece more where it crosses a 4 KiB boundary. -/
theorem length_pieces {lim : Nat} (big : 128 ≤ lim) : ∀ (fuel addr len : Nat), len ≤ 4096 →
    (pieces lim fuel addr len).length ≤ (len + 127) / 128 + if 4096 < addr % 4096 + len then 1 else 0 := by
  intro fuel
  induction fuel with
  | zero => intro addr len _; exact Nat.zero_le _
  | succ fuel ih =>
    intro addr len small
    unfold pieces
    split
    · exact Nat.zero_le _
    · have rest := ih (addr + pieceLen lim addr len) (len - pieceLen lim addr len) (by omega)
      rw [List.length_cons]
      unfold pieceLen at rest ⊢
      split at rest <;> split <;> omega

end Sys2Proof.Machine
end

section
/-!
What each operation leaves alone: the parts of the device that it changes at most.
-/

namespace Sys2Proof.Machine

@[simp] theorem mask_dropRead {S : List Part} (htimers : .timers ∈ S) (hreads : .reads ∈ S) (tag : Nat) (d : Dev) :
    mask S (dropRead tag d) = mask S d := by
  simp only [dropRead, mask_stopTimer, mask_set_reads, htimers, hreads]

@[simp] theorem mask_dropReadsFor {S : List Part} (htimers : .timers ∈ S) (hreads : .reads ∈ S) (what : ReadFor)
    (d : Dev) :
    mask S (dropReadsFor what d) = mask S d := by simp [dropReadsFor, mask_foldl, htimers, hreads]

@[simp] theorem mask_lateSuccess {S : List Part} (herr : .err ∈ S) (cid opcode cookie : Nat) (d : Dev) :
    mask S (lateSuccess cid opcode cookie d) = mask S d := by
  have counted : mask S { d with err.late := sat16 d.err.late 1 } = mask S d := by simp [mask, herr]
  exact (mask_ite (mask_logRec herr ..) rfl).trans counted

@[simp] theorem mask_resumeSweep {S : List Part} (htimers : .timers ∈ S) (hlink : .link ∈ S) (hout : .out ∈ S)
    (hsweep : .sweep ∈ S) (d : Dev) :
    mask S (resumeSweep d) = mask S d := by
  unfold resumeSweep
  split_ifs <;> simp only [mask_startSweep, mask_set_sweep, htimers, hlink, hout, hsweep]

theorem mask_flushCe {S : List Part} (htimers : .timers ∈ S) (hlink : .link ∈ S) (hout : .out ∈ S)
    (hrings : .rings ∈ S)
    (hsweep : .sweep ∈ S) (n c : Nat) : ∀ d, mask S (flushCe n c d) = mask S d := by
  induction n with
  | zero => intro d; rfl
  | succ n ih =>
    intro d
    unfold flushCe
    split
    · rfl
    · split
      · rfl
      · exact mask_ite rfl ((ih _).trans (mask_putCe htimers hlink hout hrings hsweep ..))

@[simp] theorem mask_flushAce {S : List Part} (htimers : .timers ∈ S) (hlink : .link ∈ S) (hout : .out ∈ S)
    (hadm : .adm ∈ S) (hsweep : .sweep ∈ S) (d : Dev) :
    mask S (flushAce d) = mask S d := by
  unfold flushAce
  repeat' split
  all_goals simp only [mask_writeAce, mask_set_adm, htimers, hlink, hout, hadm, hsweep]

@[simp] theorem mask_readyCheck {S : List Part} (htimers : .timers ∈ S) (hout : .out ∈ S) (hqueues : .queues ∈ S)
    (hpeers : .peers ∈ S) (qid : Nat) (d : Dev) :
    mask S (readyCheck qid d) = mask S d := by
  unfold readyCheck
  simp only []
  split
  all_goals try split
  all_goals simp [htimers, hout, hqueues, hpeers]

@[simp] theorem mask_sweepTimer {S : List Part} (htimers : .timers ∈ S) (hlink : .link ∈ S) (hout : .out ∈ S)
    (hsweep : .sweep ∈ S) (d : Dev) :
    mask S (sweepTimer d) = mask S d := by
  unfold sweepTimer
  simp only []
  split_ifs <;> simp only [mask_stopTimer, mask_triggerSweep, mask_armSweep, htimers, hlink, hout, hsweep]

@[simp] theorem mask_countStale {S : List Part} (hregs : .regs ∈ S) (d : Dev) :
    mask S (countStale d) = mask S d := by
  simp only [countStale, mask_set_regs, hregs]

@[simp] theorem mask_endSweep {S : List Part} (htimers : .timers ∈ S) (hlink : .link ∈ S) (hout : .out ∈ S)
    (hsweep : .sweep ∈ S) (changed failed : Bool) (d : Dev) :
    mask S (endSweep changed failed d) = mask S d := by
  unfold endSweep
  simp only []
  split_ifs <;> simp only [mask_resumeSweep, mask_armSweep, mask_activity, mask_set_sweep, htimers, hlink, hout, hsweep]

@[simp] theorem mask_refuseFill {S : List Part} (htimers : .timers ∈ S) (hlink : .link ∈ S) (hout : .out ∈ S)
    (hrings : .rings ∈ S) (hsweep : .sweep ∈ S) (f : Nat) (x : FillDesc) (status qid : Nat) (d : Dev) :
    mask S (refuseFill f x status qid d) = mask S d := by
  unfold refuseFill
  repeat' split
  all_goals simp only [mask_stopTimer, mask_postCe, mask_putFill, mask_pump, mask_armDesc, htimers, hlink, hout, hrings, hsweep]

@[simp] theorem mask_descLost {S : List Part} (htimers : .timers ∈ S) (hlink : .link ∈ S) (hout : .out ∈ S)
    (hrings : .rings ∈ S) (hsweep : .sweep ∈ S) (hqueues : .queues ∈ S) (herr : .err ∈ S) (hpeers : .peers ∈ S)
    (drain : Bool) (n : Nat) (d : Dev) :
    mask S (descLost drain n d) = mask S d := by
  unfold descLost
  simp only []
  split
  all_goals try split
  all_goals simp [htimers, hlink, hout, hrings, hsweep, hqueues, herr, hpeers]

@[simp] theorem mask_drainWaitExpiry {S : List Part} (htimers : .timers ∈ S) (hout : .out ∈ S)
    (hqueues : .queues ∈ S) (hpeers : .peers ∈ S) (qid : Nat) (d : Dev) :
    mask S (drainWaitExpiry qid d) = mask S d := by
  unfold drainWaitExpiry
  split <;> simp only [mask_stopTimer, mask_onQueue, mask_readyCheck, htimers, hout, hqueues, hpeers]

@[simp] theorem mask_irqTimer {S : List Part} (htimers : .timers ∈ S) (hlink : .link ∈ S) (hout : .out ∈ S)
    (hrings : .rings ∈ S) (c : Nat) (d : Dev) :
    mask S (irqTimer c d) = mask S d := by
  unfold irqTimer
  repeat' split
  all_goals simp only [mask_stopTimer, mask_msix, mask_set_rings, htimers, hlink, hout, hrings]

end Sys2Proof.Machine
end

section
/-!
Sweeps of the doorbells (R234 to R243).
-/

namespace Sys2Proof.Machine

/-! ### A pulse on KICK# and the sweep timer -/

theorem canSweep_of_admin {d : Dev} (fw : fwRunning d = true) (ok : d.err.fatal = false) (en : d.adm.en = true) : canSweep d = true := by
  simp [canSweep, fw, ok, en]

/-- A sweep that is asked for while one runs is held. -/
theorem triggerSweep_running {timed kicked : Bool} {d : Dev} (can : canSweep d = true) (running : d.sweep.running = true) :
    triggerSweep timed kicked d =
      { d with
        sweep.pending := true
        sweep.pendKick := d.sweep.pendKick || kicked
        sweep.pendOther := d.sweep.pendOther || !kicked
        link.clkreq := d.link.clkreq || dmaAllowed d } := by
  unfold triggerSweep
  rw [if_neg (by simp [can]), if_pos (by simp [sweepWaits, running])]

/-- The doorbell block needs at most 18 reads. -/
theorem readRoom_doorbells {d : Dev} (none_ : d.link.reads = []) (big : 128 ≤ d.link.mrrs) (base : Nat) :
    readRoom d (splitReq (min 512 d.link.mrrs) base 2048).length = true := by
  have few := length_pieces (lim := min 512 d.link.mrrs) (by omega) 2049 base 2048 (by omega)
  have : (splitReq (min 512 d.link.mrrs) base 2048).length ≤ 17 + 1 := by
    refine few.trans ?_
    split <;> omega
  simp only [readRoom, none_, List.filter_nil, List.length_nil, decide_eq_true_eq]
  omega

theorem triggerSweep_starts {timed kicked : Bool} {d : Dev} (can : canSweep d = true) (still : d.sweep.running = false)
    (issue : canIssue d = true) (none_ : d.link.reads = []) (big : 128 ≤ d.link.mrrs) :
    triggerSweep timed kicked d = startSweep timed kicked d := by
  unfold triggerSweep
  rw [if_neg (by simp [can]), if_neg (by simp [sweepWaits, still, issue, readRoom_doorbells none_ big])]

/-- A sweep that starts reads the doorbell block. -/
theorem startSweep_reads (timed kicked : Bool) (d : Dev) :
    (startSweep timed kicked d).sweep = { d.sweep with running := true, timed := timed, kicked := kicked } ∧
      ∀ p ∈ splitReq (min 512 d.link.mrrs) d.adm.dbBase 2048, ∃ r ∈ (startSweep timed kicked d).link.reads,
        r.what = .doorbells ∧ r.addr = p.1 ∧ r.len = p.2 ∧ r.got = none := by
  refine ⟨?_, memRead_asks .doorbells d.adm.dbBase 2048
    { d with sweep.running := true, sweep.timed := timed, sweep.kicked := kicked }⟩
  exact SameBut.sweep_eq (S := [.timers, .link, .out]) (mask_memRead (by decide) (by decide) (by decide) ..) (by decide)

theorem kick_seen {low : Nat} {d : Dev} (long : 200 ≤ low) (vin : d.pwr.vin = true) :
    kick low d = if d.pwr.standby then leaveStandby d
      else if !fwRunning d || d.pwr.perst || !d.link.bme then d else triggerSweep false true d := by
  have drawn : (if d.pwr.vin && decide (50 ≤ low) && decide (low < 200) then (takeFree d).2 else d) = d :=
    if_neg (by simp; omega)
  have seen : ¬ (!(decide (200 ≤ low) || (decide (50 ≤ low) && (takeFree d).1.getLsbD 0)) || !d.pwr.vin) = true := by
    simp [long, vin]
  unfold kick
  dsimp only
  rw [drawn, if_neg seen]

theorem kick_short {low : Nat} (short : low < 50) (d : Dev) : kick low d = d := by
  have drawn : (if d.pwr.vin && decide (50 ≤ low) && decide (low < 200) then (takeFree d).2 else d) = d :=
    if_neg (by simp; omega)
  have unseen : (!(decide (200 ≤ low) || (decide (50 ≤ low) && (takeFree d).1.getLsbD 0)) || !d.pwr.vin) = true := by
    simp [show ¬ 200 ≤ low by omega, show ¬ 50 ≤ low by omega]
  unfold kick
  dsimp only
  rw [drawn, if_pos unseen]

theorem canIssue_allows {d : Dev} (issue : canIssue d = true) : d.pwr.perst = false ∧ d.link.bme = true ∧ d.err.fatal = false := by
  simp only [canIssue, dmaAllowed, Bool.and_eq_true, Bool.not_eq_true'] at issue
  obtain ⟨⟨⟨⟨⟨-, bme⟩, -⟩, fatal⟩, perst⟩, -⟩ := issue
  exact ⟨perst, bme, fatal⟩

theorem sameReads_armSweep (d : Dev) : SameReads d (armSweep d) := by
  unfold armSweep
  extract_lets +onlyGivenNames since
  split
  · exact SameReads.trans (b := stopTimer .sweep { d with sweep.stopped := true, link.active := false }) ⟨rfl, rfl⟩
      (sameReads_sendLtr d.regs.ltrIdle _)
  · exact ⟨rfl, rfl⟩

/-- Whether a timed sweep can still be armed is all that an arming changes of the sweeps. -/
theorem armSweep_sweep (d : Dev) : ∃ stopped, (armSweep d).sweep = { d.sweep with stopped := stopped } := by
  unfold armSweep
  extract_lets +onlyGivenNames since
  split
  · refine ⟨true, ?_⟩
    exact SameBut.sweep_eq (S := [.link, .out]) (mask_sendLtr (by decide) (by decide) ..) (by decide)
  · exact ⟨false, rfl⟩

theorem sweepTimer_running {d : Dev} (due : timerDue d .sweep d.sweep.interval = true) (can : canSweep d = true)
    (running : d.sweep.running = true) :
    (sweepTimer d).sweep.pending = true ∧ (sweepTimer d).sweep.running = true ∧ (sweepTimer d).link.reads = d.link.reads := by
  have held := triggerSweep_running (timed := true) (kicked := false) (d := stopTimer .sweep d) can running
  have armed : sweepTimer d = armSweep (triggerSweep true false (stopTimer .sweep d)) := by
    unfold sweepTimer
    rw [if_pos due]
    dsimp only
    rw [running]
    exact if_neg (by simp)
  obtain ⟨stopped, sweep⟩ := armSweep_sweep (triggerSweep true false (stopTimer .sweep d))
  obtain ⟨reads, -⟩ := sameReads_armSweep (triggerSweep true false (stopTimer .sweep d))
  rw [armed, sweep, reads, held]
  exact ⟨rfl, running, rfl⟩

theorem sweepTimer_starts {d : Dev} (due : timerDue d .sweep d.sweep.interval = true) (can : canSweep d = true)
    (still : d.sweep.running = false) (issue : canIssue d = true) (none_ : d.link.reads = []) (big : 128 ≤ d.link.mrrs) :
    sweepTimer d = startSweep true false (stopTimer .sweep d) := by
  have starts := triggerSweep_starts (timed := true) (kicked := false) (d := stopTimer .sweep d) can still issue none_ big
  unfold sweepTimer
  rw [if_pos due]
  dsimp only
  rw [starts, (startSweep_reads ..).1, still]
  rfl

/-! ### One doorbell (R235, R236) -/

/-- What a ring makes of its doorbell: its last index and whether it is halted. -/
def DbTakes (seen : DbSeen) (last last' : Word) (halted halted' : Bool) : Prop :=
  match seen with
  | .moved v => last' = v ∧ halted' = halted
  | .overrun => last' = last ∧ halted' = true
  | _ => last' = last ∧ halted' = halted

theorem recordErr_rings (code src obj : Nat) (d : Dev) : (recordErr code src obj d).rings = d.rings :=
  (sameBut_capture ..).rings_eq (by decide)

section
variable {i n : Nat} {w : DWord} {x : Bool × Dev}

theorem seeDoorbell_fill {r : FillRing} (below : n < 64) (found : tblFind x.2.rings.fills n = some r) :
    ∃ r', tblFind (seeDoorbell (64 + n) w x).2.rings.fills n = some r' ∧ r'.gen = r.gen ∧
      DbTakes (judgeDb r.gen r.tail (2 ^ r.log2 - (r.tail - r.consumed).toNat) w) r.tail r'.tail r.halted r'.halted := by
  have own : (64 + n) % 64 = n := by omega
  unfold seeDoorbell
  dsimp only
  rw [if_neg (by omega), if_neg (by omega), if_pos (by omega), own, found]
  dsimp only
  generalize judgeDb r.gen r.tail (2 ^ r.log2 - (r.tail - r.consumed).toNat) w = seen
  cases seen with
  | stale => exact ⟨r, found, rfl, rfl, rfl⟩
  | same => exact ⟨r, found, rfl, rfl, rfl⟩
  | overrun =>
    refine ⟨{ r with halted := true }, ?_, rfl, rfl, rfl⟩
    dsimp only
    rw [recordErr_rings]
    exact tblFind_put_same ..
  | moved v => exact ⟨{ r with tail := v }, tblFind_put_same .., rfl, rfl, rfl⟩

theorem seeDoorbell_drain {r : DrainRing} (below : n < 64) (found : tblFind x.2.rings.drains n = some r) :
    ∃ r', tblFind (seeDoorbell (128 + n) w x).2.rings.drains n = some r' ∧ r'.gen = r.gen ∧
      DbTakes (judgeDb r.gen r.tail (2 ^ r.log2 - (r.tail - r.consumed).toNat) w) r.tail r'.tail r.halted r'.halted := by
  have own : (128 + n) % 64 = n := by omega
  unfold seeDoorbell
  dsimp only
  rw [if_neg (by omega), if_neg (by omega), if_neg (by omega), if_pos (by omega), own, found]
  dsimp only
  generalize judgeDb r.gen r.tail (2 ^ r.log2 - (r.tail - r.consumed).toNat) w = seen
  cases seen with
  | stale => exact ⟨r, found, rfl, rfl, rfl⟩
  | same => exact ⟨r, found, rfl, rfl, rfl⟩
  | overrun =>
    refine ⟨{ r with halted := true }, ?_, rfl, rfl, rfl⟩
    dsimp only
    rw [recordErr_rings]
    exact tblFind_put_same ..
  | moved v => exact ⟨{ r with tail := v }, tblFind_put_same .., rfl, rfl, rfl⟩

theorem seeDoorbell_comp {r : CompRing} (below : n < 64) (found : tblFind x.2.rings.comps n = some r) :
    ∃ r', tblFind (seeDoorbell (192 + n) w x).2.rings.comps n = some r' ∧ r'.gen = r.gen ∧
      DbTakes (judgeDb r.gen r.head (r.written - r.head).toNat w) r.head r'.head r.halted r'.halted := by
  have own : (192 + n) % 64 = n := by omega
  unfold seeDoorbell
  dsimp only
  rw [if_neg (by omega), if_neg (by omega), if_neg (by omega), if_neg (by omega), own, found]
  dsimp only
  generalize judgeDb r.gen r.head ((r.written - r.head).toNat) w = seen
  cases seen with
  | stale => exact ⟨r, found, rfl, rfl, rfl⟩
  | same => exact ⟨r, found, rfl, rfl, rfl⟩
  | overrun =>
    refine ⟨{ r with halted := true }, ?_, rfl, rfl, rfl⟩
    dsimp only
    rw [recordErr_rings]
    exact tblFind_put_same ..
  | moved v => exact ⟨{ r with head := v }, tblFind_put_same .., rfl, rfl, rfl⟩

/-- The doorbell block: what each range of doorbells leaves of the rings of another number or kind. -/
theorem seeDoorbell_others (n i : Nat) (w : DWord) (x : Bool × Dev) (below : i < 256) :
    (i ≠ 64 + n → tblFind (seeDoorbell i w x).2.rings.fills n = tblFind x.2.rings.fills n) ∧
      (i ≠ 128 + n → tblFind (seeDoorbell i w x).2.rings.drains n = tblFind x.2.rings.drains n) ∧
      (i ≠ 192 + n → tblFind (seeDoorbell i w x).2.rings.comps n = tblFind x.2.rings.comps n) := by
  unfold seeDoorbell
  dsimp only
  split
  · split
    · exact ⟨fun _ => rfl, fun _ => rfl, fun _ => rfl⟩
    · split
      · exact ⟨fun _ => rfl, fun _ => rfl, fun _ => rfl⟩
      · exact ⟨fun _ => rfl, fun _ => rfl, fun _ => rfl⟩
      · dsimp only
        rw [recordErr_rings]
        exact ⟨fun _ => rfl, fun _ => rfl, fun _ => rfl⟩
      · split <;> exact ⟨fun _ => rfl, fun _ => rfl, fun _ => rfl⟩
  · split
    · exact ⟨fun _ => rfl, fun _ => rfl, fun _ => rfl⟩
    · split
      · split
        · exact ⟨fun _ => rfl, fun _ => rfl, fun _ => rfl⟩
        · split
          · exact ⟨fun _ => rfl, fun _ => rfl, fun _ => rfl⟩
          · exact ⟨fun _ => rfl, fun _ => rfl, fun _ => rfl⟩
          · dsimp only
            rw [recordErr_rings]
            exact ⟨fun ne => tblFind_put_other _ _ (by omega), fun _ => rfl, fun _ => rfl⟩
          · exact ⟨fun ne => tblFind_put_other _ _ (by omega), fun _ => rfl, fun _ => rfl⟩
      · split
        · split
          · exact ⟨fun _ => rfl, fun _ => rfl, fun _ => rfl⟩
          · split
            · exact ⟨fun _ => rfl, fun _ => rfl, fun _ => rfl⟩
            · exact ⟨fun _ => rfl, fun _ => rfl, fun _ => rfl⟩
            · dsimp only
              rw [recordErr_rings]
              exact ⟨fun _ => rfl, fun ne => tblFind_put_other _ _ (by omega), fun _ => rfl⟩
            · exact ⟨fun _ => rfl, fun ne => tblFind_put_other _ _ (by omega), fun _ => rfl⟩
        · split
          · exact ⟨fun _ => rfl, fun _ => rfl, fun _ => rfl⟩
          · split
            · exact ⟨fun _ => rfl, fun _ => rfl, fun _ => rfl⟩
            · exact ⟨fun _ => rfl, fun _ => rfl, fun _ => rfl⟩
            · dsimp only
              rw [recordErr_rings]
              exact ⟨fun _ => rfl, fun _ => rfl, fun ne => tblFind_put_other _ _ (by omega)⟩
            · exact ⟨fun _ => rfl, fun _ => rfl, fun ne => tblFind_put_other _ _ (by omega)⟩

end

/-- A fold in which one element alone can change what is looked at. -/
theorem foldl_at {σ α β : Type} {g : σ → α → σ} {proj : σ → β} {a : α} (l : List α) (others : ∀ x, ∀ b ∈ l, b ≠ a → proj (g x b) = proj x)
    (once : l.Nodup) (at_ : a ∈ l) (x : σ) : ∃ y, proj y = proj x ∧ proj (l.foldl g x) = proj (g y a) := by
  have stays (l : List α) (off : a ∉ l) (others : ∀ x, ∀ b ∈ l, b ≠ a → proj (g x b) = proj x) :
      ∀ x, proj (l.foldl g x) = proj x := by
    induction l with
    | nil => intro x; rfl
    | cons b l ih =>
      intro x
      obtain ⟨ne, off⟩ : a ≠ b ∧ a ∉ l := by simpa using off
      rw [List.foldl_cons, ih off (fun x c hc => others x c (List.mem_cons_of_mem _ hc)), others x b (by simp) (Ne.symm ne)]
  induction l generalizing x with
  | nil => cases at_
  | cons b l ih =>
    obtain ⟨fresh, once⟩ := List.nodup_cons.1 once
    have later : ∀ x, ∀ c ∈ l, c ≠ a → proj (g x c) = proj x := fun x c hc => others x c (List.mem_cons_of_mem _ hc)
    by_cases here : b = a
    · subst here
      exact ⟨x, rfl, stays l fresh later _⟩
    · obtain ⟨y, before, after⟩ := ih later once ((List.mem_cons.1 at_).resolve_left (Ne.symm here)) (g x b)
      exact ⟨y, before.trans (others x b (by simp) here), after⟩

/-- The device once the block is compared. -/
@[irreducible] def compared (block : List DWord) (d : Dev) : Bool × Dev :=
  (List.range 256).foldl (fun x i => seeDoorbell i (block.getD i 0) x) (false, d)

/-- What one doorbell alone can change is as that doorbell leaves it. -/
theorem compared_at {β : Type} (block : List DWord) (d : Dev) {proj : Bool × Dev → β} {a : Nat} (below : a < 256)
    (others : ∀ x i, i < 256 → i ≠ a → proj (seeDoorbell i (block.getD i 0) x) = proj x) :
    ∃ y, proj y = proj (false, d) ∧ proj (compared block d) = proj (seeDoorbell a (block.getD a 0) y) := by
  unfold compared
  exact foldl_at (List.range 256) (fun x i hi ne => others x i (List.mem_range.1 hi) ne) List.nodup_range
    (List.mem_range.2 below) (false, d)

section
variable {block : List DWord} {d : Dev} {n : Nat}

theorem compared_fill {r : FillRing} (below : n < 64) (found : tblFind d.rings.fills n = some r) :
    ∃ r', tblFind (compared block d).2.rings.fills n = some r' ∧ r'.gen = r.gen ∧
      DbTakes (judgeDb r.gen r.tail (2 ^ r.log2 - (r.tail - r.consumed).toNat) (block.getD (64 + n) 0)) r.tail r'.tail
        r.halted r'.halted := by
  obtain ⟨y, before, after⟩ := compared_at block d (proj := fun x => tblFind x.2.rings.fills n) (a := 64 + n) (by omega)
    fun x i hi ne => (seeDoorbell_others n i _ x hi).1 ne
  obtain ⟨r', taken, rest⟩ := seeDoorbell_fill (w := block.getD (64 + n) 0) below (before.trans found)
  exact ⟨r', after.trans taken, rest⟩

theorem compared_drain {r : DrainRing} (below : n < 64) (found : tblFind d.rings.drains n = some r) :
    ∃ r', tblFind (compared block d).2.rings.drains n = some r' ∧ r'.gen = r.gen ∧
      DbTakes (judgeDb r.gen r.tail (2 ^ r.log2 - (r.tail - r.consumed).toNat) (block.getD (128 + n) 0)) r.tail r'.tail
        r.halted r'.halted := by
  obtain ⟨y, before, after⟩ := compared_at block d (proj := fun x => tblFind x.2.rings.drains n) (a := 128 + n) (by omega)
    fun x i hi ne => (seeDoorbell_others n i _ x hi).2.1 ne
  obtain ⟨r', taken, rest⟩ := seeDoorbell_drain (w := block.getD (128 + n) 0) below (before.trans found)
  exact ⟨r', after.trans taken, rest⟩

theorem compared_comp {r : CompRing} (below : n < 64) (found : tblFind d.rings.comps n = some r) :
    ∃ r', tblFind (compared block d).2.rings.comps n = some r' ∧ r'.gen = r.gen ∧
      DbTakes (judgeDb r.gen r.head (r.written - r.head).toNat (block.getD (192 + n) 0)) r.head r'.head r.halted r'.halted := by
  obtain ⟨y, before, after⟩ := compared_at block d (proj := fun x => tblFind x.2.rings.comps n) (a := 192 + n) (by omega)
    fun x i hi ne => (seeDoorbell_others n i _ x hi).2.2 ne
  obtain ⟨r', taken, rest⟩ := seeDoorbell_comp (w := block.getD (192 + n) 0) below (before.trans found)
  exact ⟨r', after.trans taken, rest⟩

end

theorem compared_sweepDone (block : List DWord) (d : Dev) : (compared block d).2.regs.sweepDone = d.regs.sweepDone := by
  have one (i : Nat) (w : DWord) (x : Bool × Dev) : (seeDoorbell i w x).2.regs.sweepDone = x.2.regs.sweepDone := by
    have recorded (code src obj : Nat) (d : Dev) : (recordErr code src obj d).regs = d.regs :=
      (sameBut_capture ..).regs_eq (by decide)
    unfold seeDoorbell
    dsimp only
    repeat' split
    all_goals simp only [recorded, countStale, putFill, putDrain]
  unfold compared
  generalize List.range 256 = l
  have fold : ∀ x : Bool × Dev, (l.foldl (fun x i => seeDoorbell i (block.getD i 0) x) x).2.regs.sweepDone = x.2.regs.sweepDone := by
    induction l with
    | nil => intro x; rfl
    | cons i l ih => intro x; exact (ih _).trans (one ..)
  exact fold (false, d)

/-! ### Entries that waited (R246) -/

/-- A completion ring to which entries were written. -/
def CompMoves (r r' : CompRing) : Prop :=
  r' = { r with written := r'.written, phase := r'.phase, unreported := r'.unreported, waiting := r'.waiting }

theorem CompMoves.refl (r : CompRing) : CompMoves r r := rfl

theorem CompMoves.trans {a b c : CompRing} (h : CompMoves a b) (k : CompMoves b c) : CompMoves a c := by
  rw [CompMoves, show c = _ from k, show b = _ from h]

/-- An entry is written: the rings beside the completion ring stay. -/
theorem putCe_rings (c : Nat) (r : CompRing) (cookie lenStatus hi : Nat) (d : Dev) :
    ∃ r', (putCe c r cookie lenStatus hi d).rings = { d.rings with comps := tblPut d.rings.comps c r' } ∧
      r'.written = r.written + 1 ∧ CompMoves r r' := by
  obtain ⟨r', hr'⟩ : ∃ r' : CompRing, r' = { r with
      written := r.written + 1
      phase := if r.written.toNat % 2 ^ r.log2 + 1 = 2 ^ r.log2 then !r.phase else r.phase
      unreported := if r.irqEn && decide (r.thr ≤ r.unreported + 1) then 0 else r.unreported + 1 } := ⟨_, rfl⟩
  refine ⟨r', ?_, by rw [hr'], by rw [hr']; rfl⟩
  have same : SameBut [.timers, .link, .out, .sweep] { d with rings.comps := tblPut d.rings.comps c r' }
      (putCe c r cookie lenStatus hi d) := by
    subst hr'
    refine (mask_triggerSweep (by decide) (by decide) (by decide) (by decide) ..).trans
      ((mask_activity (by decide) (by decide) (by decide) (by decide) _).trans
        ((mask_ite ((mask_stopTimer (by decide) ..).trans (mask_msix (by decide) (by decide) ..))
          (mask_ite (mask_startTimer (by decide) ..) rfl)).trans (mask_memWrite (by decide) (by decide) ..)))
  exact same.rings_eq (by decide)

theorem flushCe_rings (n c : Nat) : ∀ d : Dev, (flushCe n c d).rings.fills = d.rings.fills ∧
    (flushCe n c d).rings.drains = d.rings.drains ∧ EachMoves CompMoves d.rings.comps (flushCe n c d).rings.comps := by
  have stays (d : Dev) : EachMoves CompMoves d.rings.comps d.rings.comps := .refl CompMoves.refl _
  induction n with
  | zero => intro d; exact ⟨rfl, rfl, stays d⟩
  | succ n ih =>
    intro d
    unfold flushCe
    split
    · exact ⟨rfl, rfl, stays d⟩
    next r found =>
      split
      · exact ⟨rfl, rfl, stays d⟩
      next w ws _ =>
        split
        · exact ⟨rfl, rfl, stays d⟩
        · obtain ⟨r', put, -, moved⟩ := putCe_rings c { r with waiting := ws } w.1 w.2.1 w.2.2 d
          obtain ⟨fills, drains, comps⟩ := ih (putCe c { r with waiting := ws } w.1 w.2.1 w.2.2 d)
          rw [put] at fills drains comps
          have first : EachMoves CompMoves d.rings.comps (tblPut d.rings.comps c r') :=
            .put (moves := CompMoves) CompMoves.refl found (by rw [CompMoves, show r' = _ from moved])
          exact ⟨fills, drains, first.trans (moves := CompMoves) (fun _ _ _ x y => x.trans y) comps⟩

/-- What follows the heads: entries that waited are written, and the rings move on. -/
theorem afterHeads_rings (d : Dev) : EachMoves FillMoves d.rings.fills (afterHeads d).rings.fills ∧
    EachMoves DrainMoves d.rings.drains (afterHeads d).rings.drains ∧
    EachMoves CompMoves d.rings.comps (afterHeads d).rings.comps := by
  have flushed (l : Tbl CompRing) : ∀ d : Dev,
      (l.foldl (fun d e => flushCe e.2.waiting.length e.1 d) d).rings.fills = d.rings.fills ∧
        (l.foldl (fun d e => flushCe e.2.waiting.length e.1 d) d).rings.drains = d.rings.drains ∧
        EachMoves CompMoves d.rings.comps (l.foldl (fun d e => flushCe e.2.waiting.length e.1 d) d).rings.comps := by
    induction l with
    | nil => intro d; exact ⟨rfl, rfl, .refl CompMoves.refl _⟩
    | cons e l ih =>
      intro d
      obtain ⟨fills, drains, comps⟩ := flushCe_rings e.2.waiting.length e.1 d
      obtain ⟨fills', drains', comps'⟩ := ih (flushCe e.2.waiting.length e.1 d)
      exact ⟨fills'.trans fills, drains'.trans drains, comps.trans (moves := CompMoves) (fun _ _ _ x y => x.trans y) comps'⟩
  obtain ⟨fills, drains, comps⟩ := flushed d.rings.comps d
  unfold afterHeads
  dsimp only
  generalize d.rings.comps.foldl (fun d e => flushCe e.2.waiting.length e.1 d) d = f at fills drains comps
  have next : SameBut [.timers, .link, .out, .adm, .sweep] f (fetchNext (flushAce f)) :=
    SameBut.trans (mask_flushAce (by decide) (by decide) (by decide) (by decide) (by decide) f)
      (mask_fetchNext (by decide) (by decide) (by decide) (by decide) _)
  obtain ⟨pFills, pDrains, pComps⟩ := ringsMove_pump (fetchNext (flushAce f))
  rw [next.rings_eq (by decide)] at pFills pDrains pComps
  rw [fills] at pFills
  rw [drains] at pDrains
  rw [pComps]
  exact ⟨pFills, pDrains, comps⟩

theorem afterHeads_regs (d : Dev) : (afterHeads d).regs = d.regs := by
  have flushed : SameBut [.timers, .link, .out, .rings, .sweep] d
      (d.rings.comps.foldl (fun d e => flushCe e.2.waiting.length e.1 d) d) :=
    mask_foldl (fun d e => mask_flushCe (by decide) (by decide) (by decide) (by decide) (by decide) ..) _ d
  have same : SameBut [.timers, .link, .out, .rings, .sweep, .adm] d (afterHeads d) :=
    (flushed.mono (by decide)).trans ((mask_pump (by decide) (by decide) (by decide) (by decide) _).trans
      ((mask_fetchNext (by decide) (by decide) (by decide) (by decide) _).trans
        (mask_flushAce (by decide) (by decide) (by decide) (by decide) (by decide) _)))
  exact same.regs_eq (by decide)

/-- The device with the block compared and counted. -/
def sweptOnce (block : List DWord) (d : Dev) : Dev :=
  { (compared block (dropReadsFor .doorbells d)).2 with
    regs.sweepDone := sat16 (compared block (dropReadsFor .doorbells d)).2.regs.sweepDone 1 }

theorem sweptOnce_sweepDone (block : List DWord) (d : Dev) :
    (sweptOnce block d).regs.sweepDone = sat16 d.regs.sweepDone 1 := by
  have dropped : SameBut [.timers, .reads] d (dropReadsFor .doorbells d) := mask_dropReadsFor (by decide) (by decide) ..
  have counted : (compared block (dropReadsFor .doorbells d)).2.regs.sweepDone = d.regs.sweepDone := by
    rw [compared_sweepDone, dropped.regs_eq (by decide)]
  unfold sweptOnce
  generalize compared block (dropReadsFor .doorbells d) = x at counted
  exact congrArg (sat16 · 1) counted

theorem sweepBlock_eq {block : List DWord} {d : Dev} (running : d.sweep.running = true) :
    sweepBlock block d =
      afterHeads (endSweep (compared block (dropReadsFor .doorbells d)).1 false (sweptOnce block d)) := by
  unfold sweepBlock
  rw [if_neg (by simp [running])]
  unfold sweptOnce compared
  rfl

/-- Settles O45. -/
theorem sweepsReadTheDoorbells : Obligations.SweepsReadTheDoorbells := by
  refine ⟨fun s low long vin up fw perst bme ok en running => ?_,
    fun s low long vin up fw en still issue none_ big => ?_, fun s low long vin standby => ?_, fun s low short => ?_,
    fun s due fw ok en => ⟨fun running => ?_, fun still issue none_ big => ?_⟩, fun s block running => ?_⟩
  · refine completes_of_exec_eq_act (f := kick low) rfl ?_
    rw [kick_seen long vin, if_neg (by simp [up]), if_neg (by simp [fw, perst, bme]),
      triggerSweep_running (canSweep_of_admin fw ok en) running]
    exact ⟨by simp, rfl⟩
  · refine completes_of_exec_eq_act (f := kick low) rfl ?_
    obtain ⟨perst, bme, ok⟩ := canIssue_allows issue
    rw [kick_seen long vin, if_neg (by simp [up]), if_neg (by simp [fw, perst, bme]),
      triggerSweep_starts (canSweep_of_admin fw ok en) still issue none_ big]
    obtain ⟨sweep, reads⟩ := startSweep_reads false true s.dev
    rw [sweep]
    exact ⟨rfl, rfl, reads⟩
  · refine completes_of_exec_eq_act (f := kick low) rfl ?_
    rw [kick_seen long vin, if_pos standby, leaveStandby, (sameBut_bootFull _).pwr_eq (by decide)]
    exact ⟨rfl, rfl⟩
  · refine completes_of_exec_eq_act (f := kick low) rfl ?_
    rw [kick_short short]
  · exact completes_of_exec_eq_act (f := sweepTimer) rfl (sweepTimer_running due (canSweep_of_admin fw ok en) running)
  · refine completes_of_exec_eq_act (f := sweepTimer) rfl ?_
    rw [sweepTimer_starts due (canSweep_of_admin fw ok en) still issue none_ big]
    obtain ⟨sweep, reads⟩ := startSweep_reads true false (stopTimer .sweep s.dev)
    rw [sweep]
    exact ⟨rfl, rfl, reads⟩
  · refine completes_of_exec_eq_act (f := sweepBlock block) rfl ?_
    rw [sweepBlock_eq running]
    have dropped : SameBut [.timers, .reads] s.dev (dropReadsFor .doorbells s.dev) :=
      mask_dropReadsFor (by decide) (by decide) ..
    have ended : SameBut [.timers, .link, .out, .sweep] (sweptOnce block s.dev)
        (endSweep (compared block (dropReadsFor .doorbells s.dev)).1 false (sweptOnce block s.dev)) :=
      mask_endSweep (by decide) (by decide) (by decide) (by decide) ..
    obtain ⟨fills, drains, comps⟩ :=
      afterHeads_rings (endSweep (compared block (dropReadsFor .doorbells s.dev)).1 false (sweptOnce block s.dev))
    have swept : (sweptOnce block s.dev).rings = (compared block (dropReadsFor .doorbells s.dev)).2.rings := by
      unfold sweptOnce
      rfl
    rw [ended.rings_eq (by decide), swept] at fills drains comps
    have before : (dropReadsFor .doorbells s.dev).rings = s.dev.rings := dropped.rings_eq (by decide)
    refine ⟨?_, fun f r below found => ?_, fun n r below found => ?_, fun c r below found => ?_⟩
    · have regs := (afterHeads_regs _).trans (ended.regs_eq (by decide))
      exact (congrArg (fun r : Regs => r.sweepDone) regs).trans (sweptOnce_sweepDone block s.dev)
    · obtain ⟨r', taken, gen, takes⟩ := compared_fill (block := block) (d := dropReadsFor .doorbells s.dev) below
        (by rw [before, found])
      obtain ⟨r'', later, moved⟩ := fills f r' taken
      refine ⟨r'', later, ?_⟩
      rw [moved.frame]
      exact ⟨gen, takes⟩
    · obtain ⟨r', taken, gen, takes⟩ := compared_drain (block := block) (d := dropReadsFor .doorbells s.dev) below
        (by rw [before, found])
      obtain ⟨r'', later, moved⟩ := drains n r' taken
      refine ⟨r'', later, ?_⟩
      rw [show r'' = _ from moved]
      exact ⟨gen, takes⟩
    · obtain ⟨r', taken, gen, takes⟩ := compared_comp (block := block) (d := dropReadsFor .doorbells s.dev) below
        (by rw [before, found])
      obtain ⟨r'', later, moved⟩ := comps c r' taken
      refine ⟨r'', later, ?_⟩
      rw [show r'' = _ from moved]
      exact ⟨gen, takes⟩

end Sys2Proof.Machine
end

section
/-!
Fill descriptors (R251 to R256, R264, R268).
-/

namespace Sys2Proof.Machine

/-! ### A completion of a ring -/

/-- A completion changes the completion rings alone. -/
theorem postCe_rings (c cookie lenStatus hi : Nat) (d : Dev) :
    (postCe c cookie lenStatus hi d).rings.fills = d.rings.fills ∧ (postCe c cookie lenStatus hi d).rings.drains = d.rings.drains := by
  unfold postCe
  split
  · exact ⟨rfl, rfl⟩
  next r _ =>
    split
    · exact ⟨rfl, rfl⟩
    · obtain ⟨r', put, -⟩ := putCe_rings c r cookie lenStatus hi d
      rw [put]
      exact ⟨rfl, rfl⟩

/-- A completion that has a slot is written at once. -/
theorem postCe_writes {c : Nat} {k : CompRing} {d : Dev} (found : tblFind d.rings.comps c = some k) (room : cqFull d c = false)
    (first : k.waiting = []) (cookie lenStatus hi : Nat) :
    ∃ k', tblFind (postCe c cookie lenStatus hi d).rings.comps c = some k' ∧ k'.written = k.written + 1 := by
  have slot : compFull k = false := by
    unfold cqFull at room
    rwa [found] at room
  obtain ⟨k', put, written, -⟩ := putCe_rings c k cookie lenStatus hi d
  refine ⟨k', ?_, written⟩
  unfold postCe
  rw [found]
  dsimp only
  rw [if_neg (by simp [slot, first]), put]
  exact tblFind_put_same ..

theorem armDesc_rings (f : Nat) (d : Dev) : (armDesc f d).rings = d.rings :=
  SameBut.rings_eq (S := [.timers]) (mask_armDesc (by decide) f d) (by decide)

/-! ### The next descriptor -/

/-- A fill ring whose next descriptor has become the one in progress. -/
def fillStarted (r : FillRing) (rest : List Bytes) (x : FillDesc) (seq : Nat) : FillRing :=
  { r with
    arrived := rest
    cur := some { addr := x.addr, len := x.len, qid := x.qid, sop := x.sop, eop := x.eop, cookie := x.cookie, stamp := seq } }

theorem fillFetch_starts {f : Nat} {r : FillRing} {bs : Bytes} {rest : List Bytes} {d : Dev}
    (found : tblFind d.rings.fills f = some r) (arrived : r.arrived = bs :: rest) (idle : r.cur = none) (fw : fwExec d = true)
    (room : cqFull d r.cq = false) (good : (parseFill bs).bad = false) (queue : fillQueueOk d (parseFill bs).qid = true)
    (length : (parseFill bs).len % ewBytes (ewOf d (parseFill bs).qid) = 0 ∨ (parseFill bs).eop = true) :
    fillFetch f d = pumpFlags (armDesc f (putFill f (fillStarted r rest (parseFill bs) d.epoch.seq) d)) := by
  have fits : ¬ (decide ((parseFill bs).len % ewBytes (ewOf d (parseFill bs).qid) ≠ 0) && !(parseFill bs).eop) = true := by
    obtain h | h := length <;> simp [h]
  unfold fillFetch
  rw [found]
  dsimp only
  rw [arrived, idle]
  dsimp only
  rw [if_neg (by simp [fw, room]), if_neg (by simp [good]), if_neg (by simp [queue]), if_neg fits]
  rfl

theorem fillFetch_refuses {f : Nat} {r : FillRing} {bs : Bytes} {rest : List Bytes} {d : Dev}
    (found : tblFind d.rings.fills f = some r) (arrived : r.arrived = bs :: rest) (fw : fwExec d = true)
    (room : cqFull d r.cq = false) (bad : (parseFill bs).bad = true) :
    fillFetch f d = refuseFill f (parseFill bs) 0x02 0 d := by
  unfold fillFetch
  rw [found]
  dsimp only
  rw [arrived]
  cases r.cur with
  | none =>
    dsimp only
    rw [if_neg (by simp [fw, room]), if_pos bad]
  | some c => exact if_pos (by simp [fw, room, bad])

/-- The counters of a ring with a refused descriptor. -/
def refusedCnt (status : Nat) (cnt : RingCnt) : RingCnt :=
  if status = 0x75 then { cnt with invalid := sat16 cnt.invalid 1 }
  else if status = 0x72 then { cnt with timeouts := sat16 cnt.timeouts 1 }
  else cnt

/-- The ring of a refused descriptor, before its completion. -/
def refusedAt (f status : Nat) (r : FillRing) (d : Dev) : Dev :=
  let d := putFill f { r with arrived := r.arrived.drop 1, cnt := refusedCnt status r.cnt } d
  if r.cur.isNone then stopTimer (.desc f) d else d

theorem refusedAt_rings (f status : Nat) (r : FillRing) (d : Dev) :
    (refusedAt f status r d).rings = { d.rings with
      fills := tblPut d.rings.fills f { r with arrived := r.arrived.drop 1, cnt := refusedCnt status r.cnt } } := by
  unfold refusedAt
  split <;> rfl

theorem refuseFill_eq {f status qid : Nat} {x : FillDesc} {r : FillRing} {d : Dev} (found : tblFind d.rings.fills f = some r) :
    refuseFill f x status qid d =
      pump (armDesc f (postCe r.cq x.cookie.toNat (ceWord 0 status) (qid + f * 2 ^ 16) (refusedAt f status r d))) := by
  unfold refuseFill
  rw [found]
  rfl

/-- The ring of a refused descriptor goes on without it. -/
theorem refuseFill_ring {f status qid : Nat} {x : FillDesc} {r : FillRing} {d : Dev} (found : tblFind d.rings.fills f = some r) :
    ∃ r', tblFind (refuseFill f x status qid d).rings.fills f = some r' ∧ (r.cur = none → r'.cur = none) ∧
      r'.arrived = r.arrived.drop 1 ∧ r'.cnt = refusedCnt status r.cnt := by
  rw [refuseFill_eq found]
  have after : tblFind (armDesc f (postCe r.cq x.cookie.toNat (ceWord 0 status) (qid + f * 2 ^ 16)
      (refusedAt f status r d))).rings.fills f =
      some { r with arrived := r.arrived.drop 1, cnt := refusedCnt status r.cnt } := by
    rw [armDesc_rings, (postCe_rings ..).1, refusedAt_rings]
    exact tblFind_put_same ..
  obtain ⟨r', taken, moved⟩ := (ringsMove_pump _).fills f _ after
  exact ⟨r', taken, fun idle => (moved.idle idle).1, by rw [moved.frame], by rw [moved.frame]⟩

theorem cqFull_congr {d e : Dev} (comps : e.rings.comps = d.rings.comps) (c : Nat) : cqFull e c = cqFull d c := by
  rw [cqFull, comps, cqFull]

/-- Its completion is written at once when there is a slot. -/
theorem refuseFill_writes {f status qid : Nat} {x : FillDesc} {r : FillRing} {k : CompRing} {d : Dev}
    (found : tblFind d.rings.fills f = some r) (comp : tblFind d.rings.comps r.cq = some k) (room : cqFull d r.cq = false)
    (first : k.waiting = []) :
    ∃ k', tblFind (refuseFill f x status qid d).rings.comps r.cq = some k' ∧ k'.written = k.written + 1 := by
  have comps : (refusedAt f status r d).rings.comps = d.rings.comps := by rw [refusedAt_rings]
  obtain ⟨k', put, written⟩ := postCe_writes (c := r.cq) (d := refusedAt f status r d) (by rw [comps, comp])
    (by rw [cqFull_congr comps, room]) first x.cookie.toNat (ceWord 0 status) (qid + f * 2 ^ 16)
  refine ⟨k', ?_, written⟩
  rw [refuseFill_eq found, (ringsMove_pump _).comps, armDesc_rings, put]

/-! ### A descriptor that has run out of time (R268) -/

theorem abortRingOn_rings (f qid : Nat) (d : Dev) : (abortRingOn f qid d).rings = d.rings :=
  SameBut.rings_eq (S := [.timers, .out, .queues, .peers])
    (mask_abortRingOn (by decide) (by decide) (by decide) (by decide) f qid d) (by decide)

/-- A fill ring whose descriptor in progress has timed out. -/
def fillTimedOut (r : FillRing) : FillRing :=
  { r with cur := none, latched := none, cnt := { r.cnt with timeouts := sat16 r.cnt.timeouts 1 } }

theorem finishFill_timeout {f : Nat} {r : FillRing} {c : FillRun} {d : Dev} (found : tblFind d.rings.fills f = some r)
    (cur : r.cur = some c) :
    ∃ r', tblFind (finishFill f 0x72 false d).rings.fills f = some r' ∧ r'.cur = none ∧ r'.latched = none ∧
      r'.cnt = { r.cnt with timeouts := sat16 r.cnt.timeouts 1 } := by
  obtain ⟨hi, eq⟩ : ∃ hi, finishFill f 0x72 false d = pump (armDesc f (postCe r.cq c.cookie.toNat (ceWord c.admitted 0x72) hi
      (orphanReads (.fillData f) (c.cookie.toNat % 2 ^ 32) (stopTimer (.desc f) (putFill f (fillTimedOut r) d))))) := by
    unfold finishFill
    rw [found]
    dsimp only
    rw [cur]
    exact ⟨_, rfl⟩
  have after : tblFind (armDesc f (postCe r.cq c.cookie.toNat (ceWord c.admitted 0x72) hi
      (orphanReads (.fillData f) (c.cookie.toNat % 2 ^ 32) (stopTimer (.desc f) (putFill f (fillTimedOut r) d))))).rings.fills f =
      some (fillTimedOut r) := by
    rw [armDesc_rings, (postCe_rings ..).1]
    exact tblFind_put_same ..
  obtain ⟨r', taken, moved⟩ := (ringsMove_pump _).fills f _ after
  obtain ⟨idle, latched⟩ := moved.idle rfl
  rw [eq]
  exact ⟨r', taken, idle, latched, by rw [moved.frame]; rfl⟩

section
variable {f : Nat} {r : FillRing} {d : Dev} (found : tblFind d.rings.fills f = some r)
  (due : timerDue d (.desc f) r.timeout = true)
include found due

theorem descTimeout_running {c : FillRun} (cur : r.cur = some c) :
    descTimeout f d = finishFill f 0x72 false (abortRingOn f c.qid d) := by
  unfold descTimeout
  rw [found]
  dsimp only
  rw [if_neg (by simp [due]), cur]

theorem descTimeout_waiting {bs : Bytes} {rest : List Bytes} (idle : r.cur = none) (arrived : r.arrived = bs :: rest) :
    descTimeout f d = refuseFill f (parseFill bs) 0x72 (if (parseFill bs).bad then 0 else (parseFill bs).qid)
      (if (parseFill bs).bad then d else abortRingOn f (parseFill bs).qid d) := by
  unfold descTimeout
  rw [found]
  dsimp only
  rw [if_neg (by simp [due]), idle, arrived]

theorem descTimeout_idle (idle : r.cur = none) (none_ : r.arrived = []) : descTimeout f d = stopTimer (.desc f) d := by
  unfold descTimeout
  rw [found]
  dsimp only
  rw [if_neg (by simp [due]), idle, none_]

end

/-- Settles O46. -/
theorem fillDescriptorsRunOrAreRefused : Obligations.FillDescriptorsRunOrAreRefused := by
  intro s n r found
  refine ⟨fun bs rest arrived fw room => ⟨fun idle good queue length => ?_, fun k bad comp first => ?_⟩, fun due =>
    ⟨fun c cur => ?_, fun bs rest idle arrived => ?_, fun idle none_ => ?_⟩⟩
  · refine completes_of_exec_eq_act (f := fillFetch n.toNat) rfl ?_
    rw [fillFetch_starts found arrived idle fw room good queue length]
    have after : tblFind (armDesc n.toNat (putFill n.toNat (fillStarted r rest (parseFill bs) s.dev.epoch.seq) s.dev)).rings.fills
        n.toNat = some (fillStarted r rest (parseFill bs) s.dev.epoch.seq) := by
      rw [armDesc_rings]
      exact tblFind_put_same ..
    obtain ⟨r', taken, moved⟩ := (ringsMove_pump _).fills _ _ after
    obtain ⟨c, cur, kept⟩ := moved.runs _ rfl
    have same : SameBut [.timers, .link, .out, .rings, .ports] s.dev
        (pumpFlags (armDesc n.toNat (putFill n.toNat (fillStarted r rest (parseFill bs) s.dev.epoch.seq) s.dev))) :=
      (mask_pumpFlags (by decide) (by decide) (by decide) (by decide) (by decide) _).trans
        ((mask_armDesc (by decide) ..).trans (mask_putFill (by decide) ..))
    refine ⟨r', c, taken, cur, by rw [moved.frame]; rfl, ?_⟩
    rw [show c = _ from kept]
    exact ⟨rfl, rfl, rfl, rfl, rfl, rfl, same.queues_eq (by decide)⟩
  · refine completes_of_exec_eq_act (f := fillFetch n.toNat) rfl ?_
    rw [fillFetch_refuses found arrived fw room bad]
    obtain ⟨r', taken, idle, rest', -⟩ := refuseFill_ring (x := parseFill bs) (status := 0x02) (qid := 0) found
    obtain ⟨k', put, written⟩ := refuseFill_writes (x := parseFill bs) (status := 0x02) (qid := 0) found comp room first
    have same : SameBut [.timers, .link, .out, .rings, .sweep] s.dev (refuseFill n.toNat (parseFill bs) 0x02 0 s.dev) :=
      mask_refuseFill (by decide) (by decide) (by decide) (by decide) (by decide) ..
    exact ⟨r', k', taken, idle, by rw [rest', arrived]; rfl, put, written, same.queues_eq (by decide)⟩
  · refine completes_of_exec_eq_act (f := descTimeout n.toNat) rfl ?_
    rw [descTimeout_running found due cur]
    exact finishFill_timeout (by rw [abortRingOn_rings, found]) cur
  · refine completes_of_exec_eq_act (f := descTimeout n.toNat) rfl ?_
    rw [descTimeout_waiting found due idle arrived]
    have there : tblFind (if (parseFill bs).bad then s.dev else abortRingOn n.toNat (parseFill bs).qid s.dev).rings.fills n.toNat =
        some r := by
      split
      · exact found
      · rw [abortRingOn_rings, found]
    obtain ⟨r', taken, still, rest', cnt⟩ := refuseFill_ring (x := parseFill bs) (status := 0x72)
      (qid := if (parseFill bs).bad then 0 else (parseFill bs).qid) there
    exact ⟨r', taken, still idle, by rw [rest', arrived]; rfl, cnt⟩
  · refine completes_of_exec_eq_act (f := descTimeout n.toNat) rfl ?_
    rw [descTimeout_idle found due idle none_]
    exact ⟨rfl, timerOn_stopTimer_same ..⟩

end Sys2Proof.Machine
end

section
/-!
Device reads that end (R199, R200, R209, R210, R225).
-/

namespace Sys2Proof.Machine

/-! ### What traffic leaves of the link -/

/-- The link without what its traffic moves: the link state, what waits to leave, the reads, the pending vectors. -/
def restOfLink (d : Dev) : Link :=
  { d.link with
    lstate := .l0, clkreq := true, heldOut := [], ltrSent := none, nextTag := 0, reads := [], active := true, pba := 0 }

theorem restOfLink_congr {d e : Dev} (h : e.link = d.link) : restOfLink e = restOfLink d := by
  unfold restOfLink
  rw [h]

theorem SameBut.restOfLink {S : List Part} {d e : Dev} (h : SameBut S d e) (p : .link ∉ S) : restOfLink e = restOfLink d := by
  have link : e.link = if .reads ∈ S then { d.link with reads := e.link.reads } else d.link :=
    (congrArg Dev.link h.eq).trans (if_neg p)
  unfold Machine.restOfLink
  rw [link]
  split <;> rfl

theorem restOfLink_emitHost (m : OutMsg) (d : Dev) : restOfLink (emitHost m d) = restOfLink d := by
  unfold emitHost
  split_ifs <;> rfl

theorem restOfLink_sendLtr (us : Nat) (d : Dev) : restOfLink (sendLtr us d) = restOfLink d := by
  unfold sendLtr
  split
  · exact (restOfLink_emitHost ..).trans rfl
  · rfl

theorem restOfLink_startWork (d : Dev) : restOfLink (startWork d) = restOfLink d := by
  unfold startWork
  split
  · rfl
  · exact (restOfLink_sendLtr ..).trans rfl

theorem restOfLink_memReadOne (what : ReadFor) (addr len : Nat) (d : Dev) : restOfLink (memReadOne what addr len d) = restOfLink d :=
  restOfLink_startWork d

theorem restOfLink_foldl {β : Type} {f : Dev → β → Dev} (same : ∀ d x, restOfLink (f d x) = restOfLink d) (l : List β) :
    ∀ d, restOfLink (l.foldl f d) = restOfLink d := by
  induction l with
  | nil => exact fun _ => rfl
  | cons x l ih => intro d; exact (ih _).trans (same d x)

theorem restOfLink_memRead (what : ReadFor) (addr len : Nat) (d : Dev) : restOfLink (memRead what addr len d) = restOfLink d :=
  restOfLink_foldl (fun _ _ => restOfLink_memReadOne ..) _ d

theorem restOfLink_memWrite (addr : Nat) (data : Bytes) (ro : Bool) (d : Dev) : restOfLink (memWrite addr data ro d) = restOfLink d :=
  (restOfLink_foldl (fun _ _ => restOfLink_emitHost ..) _ _).trans (restOfLink_startWork d)

theorem restOfLink_msix (v : Nat) (d : Dev) : restOfLink (msix v d) = restOfLink d := by
  unfold msix
  split
  · rfl
  · split
    · rfl
    · exact restOfLink_emitHost ..

theorem restOfLink_armSweep (d : Dev) : restOfLink (armSweep d) = restOfLink d := by
  unfold armSweep
  extract_lets +onlyGivenNames since
  split
  · exact (restOfLink_sendLtr ..).trans rfl
  · rfl

theorem restOfLink_activity (d : Dev) : restOfLink (activity d) = restOfLink d :=
  (restOfLink_armSweep _).trans rfl

theorem restOfLink_askLink {f : Dev → Dev} {d : Dev} (same : restOfLink (f d) = restOfLink d) : restOfLink (askLink f d) = restOfLink d := by
  unfold askLink
  split
  · exact same
  · exact same

theorem restOfLink_startSweep (timed kicked : Bool) (d : Dev) : restOfLink (startSweep timed kicked d) = restOfLink d :=
  restOfLink_memRead ..

theorem restOfLink_triggerSweep (timed kicked : Bool) (d : Dev) : restOfLink (triggerSweep timed kicked d) = restOfLink d := by
  unfold triggerSweep
  split
  · rfl
  · split
    · rfl
    · exact restOfLink_startSweep ..

theorem restOfLink_resumeSweep (d : Dev) : restOfLink (resumeSweep d) = restOfLink d := by
  unfold resumeSweep
  split
  · rfl
  · dsimp only
    split
    · exact restOfLink_startSweep ..
    · rfl

theorem restOfLink_putCe (c : Nat) (r : CompRing) (cookie lenStatus hi : Nat) (d : Dev) :
    restOfLink (putCe c r cookie lenStatus hi d) = restOfLink d := by
  unfold putCe
  extract_lets +onlyGivenNames slot data n fire r' _ d₁ d₂
  clear_value data fire r'
  have written : restOfLink d₁ = restOfLink d := (restOfLink_memWrite ..).trans rfl
  have signalled : restOfLink d₂ = restOfLink d₁ := by
    unfold d₂
    split_ifs
    · exact restOfLink_msix ..
    · rfl
    · rfl
  exact (restOfLink_triggerSweep ..).trans ((restOfLink_activity ..).trans (signalled.trans written))

theorem restOfLink_postCe (c cookie lenStatus hi : Nat) (d : Dev) : restOfLink (postCe c cookie lenStatus hi d) = restOfLink d := by
  unfold postCe
  split
  · rfl
  · split
    · rfl
    · exact restOfLink_putCe ..

theorem restOfLink_capture (fatal : Bool) (code src obj : Nat) (d : Dev) : restOfLink (capture fatal code src obj d) = restOfLink d := by
  unfold capture
  extract_lets +onlyGivenNames seq r p e d₁ d₂
  clear_value r p e
  have signalled : restOfLink d₂ = restOfLink d := by
    unfold d₂
    split
    · exact (restOfLink_msix ..).trans (restOfLink_congr rfl)
    · exact restOfLink_congr rfl
  split
  · have logged : restOfLink (logRec 0 code obj 0 0 0 d₂) = restOfLink d₂ :=
      SameBut.restOfLink (S := [.err]) (mask_logRec (by decide) ..) (by decide)
    exact logged.trans signalled
  · exact signalled

theorem restOfLink_fetchFill (f : Nat) (d : Dev) : restOfLink (fetchFill f d) = restOfLink d := by
  unfold fetchFill
  split
  · rfl
  · split
    · exact (restOfLink_memReadOne ..).trans rfl
    · rfl

theorem restOfLink_fetchDrain (n : Nat) (d : Dev) : restOfLink (fetchDrain n d) = restOfLink d := by
  unfold fetchDrain
  split
  · rfl
  · split
    · exact (restOfLink_memReadOne ..).trans rfl
    · rfl

theorem restOfLink_readFill (f : Nat) : ∀ (n : Nat) (d : Dev), restOfLink (readFill n f d) = restOfLink d := by
  intro n
  induction n with
  | zero => exact fun _ => rfl
  | succ n ih =>
    intro d
    unfold readFill
    split
    · rfl
    · split
      · rfl
      · split
        · exact (ih _).trans ((restOfLink_memReadOne ..).trans rfl)
        · rfl

theorem restOfLink_pump (d : Dev) : restOfLink (pump d) = restOfLink d := by
  refine restOfLink_askLink (f := pumpRings) ?_
  have latched (f : Nat) (e : Dev) : restOfLink (latchFill f e) = restOfLink e :=
    SameBut.restOfLink (S := [.rings]) (mask_latchFill (by decide) ..) (by decide)
  have one (f n : Nat) (e : Dev) : restOfLink (latchFill f (readFill n f (fetchFill f e))) = restOfLink e := by
    rw [latched, restOfLink_readFill, restOfLink_fetchFill]
  exact (restOfLink_foldl (fun _ _ => restOfLink_fetchDrain ..) _ _).trans (restOfLink_foldl (fun _ _ => one ..) _ d)

theorem restOfLink_fetchNext (d : Dev) : restOfLink (fetchNext d) = restOfLink d := by
  refine restOfLink_askLink (f := fetchAdmin) ?_
  unfold fetchAdmin
  split
  · exact (restOfLink_memReadOne ..).trans (restOfLink_congr rfl)
  · rfl

/-! ### What follows a read -/

theorem restOfLink_afterRead (d : Dev) : restOfLink (afterRead d) = restOfLink d := by
  have flags : restOfLink (afterRead d) = restOfLink (fetchNext (pump (resumeSweep d))) :=
    SameBut.restOfLink (S := [.ports]) (mask_refreshFlags (by decide) _) (by decide)
  rw [flags, restOfLink_fetchNext, restOfLink_pump, restOfLink_resumeSweep]

theorem readsGrow_fetchNext (d : Dev) : ReadsGrow d (fetchNext d) := by
  have fetches : ReadsGrow d (fetchAdmin d) := by
    unfold fetchAdmin
    split
    · exact ReadsGrow.trans (b := startTimer .admin { d with adm.fetch := some d.link.nextTag }) (SameReads.grow ⟨rfl, rfl⟩)
        (readsGrow_memReadOne ..)
    · exact .refl d
  unfold fetchNext askLink
  split
  · exact fetches.trans (SameReads.grow ⟨rfl, rfl⟩)
  · exact fetches

theorem readsGrow_startSweep (timed kicked : Bool) (d : Dev) : ReadsGrow d (startSweep timed kicked d) :=
  ReadsGrow.trans (b := { d with sweep.running := true, sweep.timed := timed, sweep.kicked := kicked })
    (SameReads.grow ⟨rfl, rfl⟩) (readsGrow_memRead ..)

theorem readsGrow_resumeSweep (d : Dev) : ReadsGrow d (resumeSweep d) := by
  unfold resumeSweep
  split
  · exact .refl d
  · dsimp only
    split
    · exact ReadsGrow.trans (b := { d with sweep.pending := false, sweep.pendKick := false, sweep.pendOther := false })
        (SameReads.grow ⟨rfl, rfl⟩) (readsGrow_startSweep ..)
    · exact SameReads.grow ⟨rfl, rfl⟩

theorem readsGrow_afterRead (d : Dev) : ReadsGrow d (afterRead d) := by
  have flags : SameReads (fetchNext (pump (resumeSweep d))) (afterRead d) :=
    SameBut.sameReads (S := [.ports]) (mask_refreshFlags (by decide) _) (by decide) (by decide)
  exact (readsGrow_resumeSweep d).trans ((readsGrow_pump _).trans ((readsGrow_fetchNext _).trans flags.grow))

theorem ringsMove_afterRead (d : Dev) : RingsMove d (afterRead d) := by
  have resumed : SameBut [.timers, .link, .out, .sweep] d (resumeSweep d) :=
    mask_resumeSweep (by decide) (by decide) (by decide) (by decide) d
  have fetched : SameBut [.timers, .link, .out, .adm, .ports] (pump (resumeSweep d)) (afterRead d) :=
    (mask_refreshFlags (by decide) _).trans (mask_fetchNext (by decide) (by decide) (by decide) (by decide) _)
  exact (RingsMove.of_eq (resumed.rings_eq (by decide))).trans
    ((ringsMove_pump _).trans (.of_eq (fetched.rings_eq (by decide))))

theorem sameBut_afterRead (d : Dev) : SameBut [.timers, .link, .out, .rings, .sweep, .adm, .ports] d (afterRead d) :=
  (mask_refreshFlags (by decide) _).trans ((mask_fetchNext (by decide) (by decide) (by decide) (by decide) _).trans
    ((mask_pump (by decide) (by decide) (by decide) (by decide) _).trans
      (mask_resumeSweep (by decide) (by decide) (by decide) (by decide) d)))

/-- A read that is over is not outstanding again: a later read takes a tag of its own. -/
theorem readOf_eq_none {d e : Dev} {tag : Nat} (grown : ReadsGrow d e) (ended : ∀ r ∈ d.link.reads, r.tag ≠ tag)
    (issued : tag < d.link.nextTag) : readOf e tag = none := by
  refine List.find?_eq_none.2 fun r hr => ?_
  have other : r.tag ≠ tag := by
    obtain old | new := grown.fresh r hr
    · exact ended r old
    · omega
  simp [other]

theorem dropRead_over (tag : Nat) (d : Dev) : ∀ r ∈ (dropRead tag d).link.reads, r.tag ≠ tag := by
  intro r hr
  have kept : r ∈ d.link.reads.filter fun r => r.tag ≠ tag := hr
  exact of_decide_eq_true (List.mem_filter.1 kept).2

/-! ### A completion without a request -/

theorem aerSet_mem (a : Aer) (d : Dev) : a ∈ (aerSet a d).link.aer := by
  unfold aerSet
  extract_lets +onlyGivenNames _ d₁ x
  have there : a ∈ d₁.link.aer := by
    unfold d₁
    split
    · assumption
    · exact List.mem_append_right _ (List.mem_singleton.2 rfl)
  split
  · exact there
  · exact there

/-- What a completion of each status does to the read it ends. -/
def readEnds (st : CplStatus) (q : ReadReq) (data : Bytes) (d : Dev) : Dev :=
  match st with
  | .ok => readArrived q data d
  | .unsupported => readFailed q { d with link.masterAbort := true }
  | .completerAbort => readFailed q { d with link.targetAbort := true }
  | .poisoned => readFailed q (aerSet .poisonedTlp d)

section
variable {tag : Nat} {data : Bytes} {d : Dev} (up : d.link.up = true) (perst : d.pwr.perst = false)
include up perst

theorem readCompletion_unexpected (none_ : readOf d tag = none) (st : CplStatus) :
    readCompletion tag st data d = aerSet .unexpectedCompletion d := by
  unfold readCompletion
  rw [if_neg (by simp [up, perst]), none_]

theorem readCompletion_of {q : ReadReq} (asked : readOf d tag = some q) (st : CplStatus) :
    readCompletion tag st data d = afterRead (readEnds st q data d) := by
  unfold readCompletion
  rw [if_neg (by simp [up, perst]), asked]
  cases st <;> rfl

end

theorem tag_of_readOf {d : Dev} {tag : Nat} {q : ReadReq} (asked : readOf d tag = some q) : q.tag = tag := by
  have found := List.find?_some asked
  simp only [Bool.and_eq_true, decide_eq_true_eq] at found
  exact found.1

/-! ### The data of a descriptor -/

/-- A fill ring that has taken a descriptor in. -/
def fillTook (r : FillRing) (bs : Bytes) : FillRing := { r with arrived := r.arrived ++ [bs], consumed := r.consumed + 1 }

theorem readArrived_fill {q : ReadReq} {f : Nat} {r : FillRing} {d : Dev} (what : q.what = .fillDesc f)
    (found : tblFind d.rings.fills f = some r) (data : Bytes) :
    readArrived q data d = pump (armDesc f (putFill f (fillTook r (sliceBytes data 0 q.len)) (dropRead q.tag d))) := by
  have there : tblFind (dropRead q.tag d).rings.fills f = some r := found
  unfold readArrived
  rw [what]
  dsimp only
  rw [there]
  rfl

theorem readArrived_fill_ring {q : ReadReq} {f : Nat} {r : FillRing} {d : Dev} (what : q.what = .fillDesc f)
    (found : tblFind d.rings.fills f = some r) (data : Bytes) :
    ∃ r', tblFind (afterRead (readArrived q data d)).rings.fills f = some r' ∧
      r'.arrived = r.arrived ++ [sliceBytes data 0 q.len] ∧ r'.consumed = r.consumed + 1 := by
  have after : tblFind (armDesc f (putFill f (fillTook r (sliceBytes data 0 q.len)) (dropRead q.tag d))).rings.fills f =
      some (fillTook r (sliceBytes data 0 q.len)) := by
    rw [armDesc_rings]
    exact tblFind_put_same ..
  obtain ⟨r', taken, moved⟩ := ((ringsMove_pump _).trans (ringsMove_afterRead _)).fills f _ after
  rw [readArrived_fill what found]
  exact ⟨r', taken, by rw [moved.frame]; rfl, by rw [moved.frame]; rfl⟩

theorem readsGrow_readArrived_fill {q : ReadReq} {f : Nat} {r : FillRing} {d : Dev} (what : q.what = .fillDesc f)
    (found : tblFind d.rings.fills f = some r) (data : Bytes) :
    ReadsGrow (dropRead q.tag d) (afterRead (readArrived q data d)) := by
  rw [readArrived_fill what found]
  have armed : SameReads (dropRead q.tag d) (armDesc f (putFill f (fillTook r (sliceBytes data 0 q.len)) (dropRead q.tag d))) :=
    SameBut.sameReads (S := [.timers, .rings])
      ((mask_armDesc (by decide) ..).trans (mask_putFill (by decide) ..)) (by decide) (by decide)
  exact armed.grow.trans ((readsGrow_pump _).trans (readsGrow_afterRead _))

/-! ### A drain descriptor that cannot be read -/

/-- A drain ring that has lost a descriptor. -/
def drainMissed (r : DrainRing) : DrainRing :=
  { r with consumed := r.consumed + 1, cnt := { r.cnt with dmaFaults := sat16 r.cnt.dmaFaults 1 } }

theorem readFailed_drain {q : ReadReq} {n : Nat} {r : DrainRing} {d : Dev} (what : q.what = .drainDesc n)
    (found : tblFind d.rings.drains n = some r) :
    readFailed q d = pump (postCe r.cq 0 (ceWord 0 0x74) (2 ^ 14 + n * 2 ^ 16)
      (putDrain n (drainMissed r) (recordErr 0x74 3 (128 + n) (dropRead q.tag d)))) := by
  have there : tblFind (recordErr 0x74 3 (128 + n) (dropRead q.tag d)).rings.drains n = some r := by
    rw [recordErr_rings]
    exact found
  unfold readFailed
  rw [what]
  dsimp only
  unfold descLost
  dsimp only
  rw [if_pos rfl, if_pos rfl, there]
  rfl

/-- What a failed read of a descriptor leaves of its drain ring, and its error record. -/
def DrainReadFailed (n : Nat) (r : DrainRing) (e : Dev) : Prop :=
  ∃ r', tblFind e.rings.drains n = some r' ∧ r'.consumed = r.consumed + 1 ∧
    r'.cnt = { r.cnt with dmaFaults := sat16 r.cnt.dmaFaults 1 } ∧ r'.arrived = r.arrived ∧
    (e.err.last.map fun x => (x.code, x.source, x.object)) = some (0x74, 3, 128 + n)

theorem drainReadFailed_afterRead {n : Nat} {r : DrainRing} {d d' : Dev} (found : tblFind d.rings.drains n = some (drainMissed r))
    (last : d.err.last = some (newRec 0x74 3 (128 + n) d')) : DrainReadFailed n r (afterRead (pump d)) := by
  obtain ⟨r', taken, moved⟩ := ((ringsMove_pump d).trans (ringsMove_afterRead _)).drains n _ found
  have same : SameBut [.timers, .link, .out, .rings, .sweep, .adm, .ports] d (afterRead (pump d)) :=
    SameBut.trans (mask_pump (by decide) (by decide) (by decide) (by decide) d) (sameBut_afterRead (pump d))
  refine ⟨r', taken, ?_, ?_, ?_, ?_⟩
  · rw [show r' = _ from moved]; rfl
  · rw [show r' = _ from moved]; rfl
  · rw [show r' = _ from moved]; rfl
  · rw [same.err_eq (by decide) (by decide), last]
    rfl

theorem readFailed_drain_fails {q : ReadReq} {n : Nat} {r : DrainRing} {d : Dev} (what : q.what = .drainDesc n)
    (found : tblFind d.rings.drains n = some r) :
    DrainReadFailed n r (afterRead (readFailed q d)) ∧ restOfLink (afterRead (readFailed q d)) = restOfLink d := by
  have dropped : restOfLink (dropRead q.tag d) = restOfLink d := rfl
  rw [readFailed_drain what found]
  generalize dropRead q.tag d = d' at dropped
  generalize recorded : recordErr 0x74 3 (128 + n) d' = d''
  have last : d''.err.last = some (newRec 0x74 3 (128 + n) d') := by rw [← recorded, recordErr, capture_last]
  have link : restOfLink d'' = restOfLink d := by rw [← recorded, recordErr, restOfLink_capture, dropped]
  generalize 2 ^ 14 + n * 2 ^ 16 = hi
  have after : tblFind (postCe r.cq 0 (ceWord 0 0x74) hi (putDrain n (drainMissed r) d'')).rings.drains n =
      some (drainMissed r) := by
    rw [(postCe_rings ..).2]
    exact tblFind_put_same ..
  have link' : restOfLink (postCe r.cq 0 (ceWord 0 0x74) hi (putDrain n (drainMissed r) d'')) = restOfLink d := by
    have put : restOfLink (putDrain n (drainMissed r) d'') = restOfLink d'' :=
      SameBut.restOfLink (S := [.rings]) (mask_putDrain (by decide) ..) (by decide)
    rw [restOfLink_postCe, put, link]
  have same : SameBut [.timers, .link, .out, .rings, .sweep] d'' (postCe r.cq 0 (ceWord 0 0x74) hi (putDrain n (drainMissed r) d'')) :=
    (mask_postCe (by decide) (by decide) (by decide) (by decide) (by decide) ..).trans (mask_putDrain (by decide) ..)
  have last' := congrArg Err.last (same.err_eq (by decide) (by decide))
  generalize postCe r.cq 0 (ceWord 0 0x74) hi (putDrain n (drainMissed r) d'') = e at after link' last'
  exact ⟨drainReadFailed_afterRead after (last'.trans last), by rw [restOfLink_afterRead, restOfLink_pump, link']⟩

theorem completionTimeout_fails {tag : Nat} {q : ReadReq} {d : Dev} (asked : readOf d tag = some q) (on : d.link.ctoDis = false)
    (due : timerDue d (.read tag) (ctoTicks d) = true) :
    completionTimeout tag d = afterRead (readFailed q (aerSet .completionTimeout d)) := by
  unfold completionTimeout
  rw [asked]
  exact if_neg (by simp [on, due])

theorem aer_eq_of_restOfLink {d e : Dev} (h : restOfLink e = restOfLink d) :
    e.link.aer = d.link.aer ∧ e.link.masterAbort = d.link.masterAbort ∧ e.link.targetAbort = d.link.targetAbort :=
  ⟨show (restOfLink e).aer = (restOfLink d).aer by rw [h], show (restOfLink e).masterAbort = (restOfLink d).masterAbort by rw [h],
    show (restOfLink e).targetAbort = (restOfLink d).targetAbort by rw [h]⟩

/-- Settles O47. -/
theorem deviceReadsEnd : Obligations.DeviceReadsEnd := by
  intro s tag data up perst
  refine ⟨fun none_ st => ?_, fun q f r issued asked what found => ?_, fun q n r asked what found => ?_⟩
  · refine completes_of_exec_eq_act (f := readCompletion tag st data) rfl ?_
    rw [readCompletion_unexpected up perst none_]
    exact ⟨aerSet_frame .., aerSet_mem ..⟩
  · refine completes_of_exec_eq_act (f := readCompletion tag .ok data) rfl ?_
    rw [readCompletion_of up perst asked, readEnds]
    obtain ⟨r', taken, arrived, consumed⟩ := readArrived_fill_ring what found data
    have ended : ∀ x ∈ (dropRead q.tag s.dev).link.reads, x.tag ≠ tag := by
      rw [← tag_of_readOf asked]
      exact dropRead_over q.tag s.dev
    refine ⟨r', taken, arrived, consumed, readOf_eq_none (readsGrow_readArrived_fill what found data) ended issued, ?_⟩
    have same : SameBut [.timers, .link, .reads, .out, .rings] s.dev (readArrived q data s.dev) := by
      rw [readArrived_fill what found]
      exact (mask_pump (by decide) (by decide) (by decide) (by decide) _).trans ((mask_armDesc (by decide) ..).trans
        ((mask_putFill (by decide) ..).trans (mask_dropRead (by decide) (by decide) ..)))
    rw [(sameBut_afterRead _).queues_eq (by decide), same.queues_eq (by decide)]
  · intro failed
    have fails (d : Dev) (rings : d.rings = s.dev.rings) := readFailed_drain_fails (d := d) what (by rw [rings, found])
    have aerRings (a : Aer) : (aerSet a s.dev).rings = s.dev.rings :=
      SameBut.rings_eq (S := [.link, .free]) (mask_aerSet (by decide) (by decide) ..) (by decide)
    refine ⟨?_, ?_, ?_, fun on due => ?_⟩
    · refine completes_of_exec_eq_act (f := readCompletion tag .unsupported data) rfl ?_
      rw [readCompletion_of up perst asked, readEnds]
      obtain ⟨missed, link⟩ := fails { s.dev with link.masterAbort := true } rfl
      exact ⟨missed, (aer_eq_of_restOfLink link).2.1⟩
    · refine completes_of_exec_eq_act (f := readCompletion tag .completerAbort data) rfl ?_
      rw [readCompletion_of up perst asked, readEnds]
      obtain ⟨missed, link⟩ := fails { s.dev with link.targetAbort := true } rfl
      exact ⟨missed, (aer_eq_of_restOfLink link).2.2⟩
    · refine completes_of_exec_eq_act (f := readCompletion tag .poisoned data) rfl ?_
      rw [readCompletion_of up perst asked, readEnds]
      obtain ⟨missed, link⟩ := fails (aerSet .poisonedTlp s.dev) (aerRings _)
      exact ⟨missed, by rw [(aer_eq_of_restOfLink link).1]; exact aerSet_mem ..⟩
    · refine completes_of_exec_eq_act (f := completionTimeout tag) rfl ?_
      rw [completionTimeout_fails asked on due]
      obtain ⟨missed, link⟩ := fails (aerSet .completionTimeout s.dev) (aerRings _)
      exact ⟨missed, by rw [(aer_eq_of_restOfLink link).1]; exact aerSet_mem ..⟩

end Sys2Proof.Machine
end

section
/-!
What the storage behind a queue changes of it: giving segments back, and the journal's records of it (R326, R330).
-/

namespace Sys2Proof.Machine

/-- Every entry of a canonical table under one function. -/
theorem tblGet_map {α : Type} [DecidableEq α] {dflt : α} {f : α → α} (fixed : f dflt = dflt) :
    ∀ {t : Tbl α}, tblSorted t = true → ∀ i, tblGet dflt (tblMap dflt f t) i = f (tblGet dflt t i)
  | [], _, _ => fixed.symm
  | (k, v) :: t, sorted, i => by
    obtain ⟨above, sorted'⟩ := tblSorted_cons.1 sorted
    have rest := tblGet_map fixed (t := t) sorted' i
    by_cases here : k = i
    · subst here
      have none_ : tblGet dflt t k = dflt := by rw [tblGet, tblFind_above above]; rfl
      have found : tblGet dflt ((k, v) :: t) k = v := by rw [tblGet, tblFind, if_pos rfl]; rfl
      rw [found]
      by_cases empty : f v = dflt
      · have gone : tblMap dflt f ((k, v) :: t) = tblMap dflt f t := by simp [tblMap, empty]
        rw [gone, rest, none_, fixed, empty]
      · simp [tblMap, empty, tblGet, tblFind]
    · have found : tblGet dflt ((k, v) :: t) i = tblGet dflt t i := by rw [tblGet, tblFind, if_neg here, tblGet]
      rw [found, ← rest]
      by_cases empty : f v = dflt
      · simp [tblMap, empty]
      · simp [tblMap, empty, tblGet, tblFind, here]

/-! ### All of a queue but its storage -/

/-- A queue without the segments that hold its items. -/
def restOfQueue (q : Queue) : Queue := { q with chain := [], resvFree := [] }

/-- The epoch's state, whether or not the configuration has changed since the last image. -/
def restOfEpoch (d : Dev) : Epoch := { d.epoch with cfgChanged := false }

/-- Of the queues the storage alone has moved, and nothing that was put out is lost. -/
structure StorageMoves (d e : Dev) : Prop where
  epoch : restOfEpoch e = restOfEpoch d
  wf : tblWf {} d.queues = true → tblWf {} e.queues = true
  rest : tblWf {} d.queues = true → ∀ i, restOfQueue (queueOf e i) = restOfQueue (queueOf d i)
  out : ∀ x ∈ d.out, x ∈ e.out

theorem StorageMoves.refl (d : Dev) : StorageMoves d d := ⟨rfl, id, fun _ _ => rfl, fun _ h => h⟩

theorem StorageMoves.trans {a b c : Dev} (h : StorageMoves a b) (k : StorageMoves b c) : StorageMoves a c :=
  ⟨k.epoch.trans h.epoch, fun wf => k.wf (h.wf wf), fun wf i => (k.rest (h.wf wf) i).trans (h.rest wf i), fun x hx => k.out x (h.out x hx)⟩

/-- The last move, and what leads up to it. -/
theorem StorageMoves.after {a b c : Dev} (k : StorageMoves b c) (h : StorageMoves a b) : StorageMoves a c := h.trans k

theorem StorageMoves.of_eq {d e : Dev} (queues : e.queues = d.queues) (epoch : e.epoch = d.epoch) (out : ∀ x ∈ d.out, x ∈ e.out) :
    StorageMoves d e := by
  refine ⟨by rw [restOfEpoch, epoch, restOfEpoch], by rw [queues]; exact id, fun _ i => ?_, out⟩
  rw [queueOf, queues, queueOf]

theorem SameBut.storageMoves {S : List Part} {d e : Dev} (h : SameBut S d e) (p : .queues ∉ S ∧ .epoch ∉ S) (q : .out ∉ S) :
    StorageMoves d e :=
  .of_eq (h.queues_eq p.1) (h.epoch_eq p.2) (by rw [h.out_eq q]; exact fun _ hx => hx)

theorem storageMoves_put {i : Nat} {q : Queue} {d : Dev} (same : restOfQueue q = restOfQueue (queueOf d i)) :
    StorageMoves d (putQueue i q d) := by
  refine ⟨rfl, fun wf => putQueue_wf wf i q, fun wf j => ?_, fun _ hx => hx⟩
  by_cases here : j = i
  · rw [here, queueOf_put_same wf, same]
  · rw [queueOf_put_other d q here]

theorem storageMoves_foldl {β : Type} {f : Dev → β → Dev} (moves : ∀ d x, StorageMoves d (f d x)) (l : List β) :
    ∀ d, StorageMoves d (l.foldl f d) := by
  induction l with
  | nil => exact .refl
  | cons x l ih => intro d; exact (moves d x).trans (ih _)

theorem StorageMoves.items {d e : Dev} (h : StorageMoves d e) (wf : tblWf {} d.queues = true) (i : Nat) :
    (queueOf e i).items = (queueOf d i).items :=
  show (restOfQueue (queueOf e i)).items = (restOfQueue (queueOf d i)).items by rw [h.rest wf i]

/-! ### The reserve of near segments -/

theorem storageMoves_fillShorts (n : Nat) : ∀ d, StorageMoves d (fillShorts n d) := by
  induction n with
  | zero => exact .refl
  | succ n ih =>
    intro d
    rw [fillShorts_succ]
    split
    · exact .refl d
    · split
      · exact (ih _).after (.of_eq rfl rfl fun _ hx => hx)
      · split
        · exact .refl d
        · exact (ih _).after (storageMoves_put rfl)

theorem storageMoves_settleShorts (d : Dev) : StorageMoves d (settleShorts d) := by
  unfold settleShorts
  split
  · exact storageMoves_fillShorts ..
  · exact .refl d

theorem capture_mem {fatal : Bool} {code src obj : Nat} {x : OutMsg} {d : Dev} (h : x ∈ d.out) :
    x ∈ (capture fatal code src obj d).out := by
  unfold capture
  extract_lets +onlyGivenNames seq r p e d₁ d₂
  clear_value r p e
  have signalled : x ∈ d₂.out := by
    unfold d₂
    split
    · exact msix_mem h
    · exact h
  split
  · have logged : (logRec 0 code obj 0 0 0 d₂).out = d₂.out := SameBut.out_eq (S := [.err]) (mask_logRec (by decide) ..) (by decide)
    rw [logged]
    exact signalled
  · exact signalled

theorem storageMoves_recordErr (code src obj : Nat) (d : Dev) : StorageMoves d (recordErr code src obj d) :=
  .of_eq ((sameBut_capture ..).queues_eq (by decide)) ((sameBut_capture ..).epoch_eq (by decide)) fun _ hx => capture_mem hx

theorem storageMoves_retireNear (n : Nat) (d : Dev) : StorageMoves d (retireNear n d) :=
  StorageMoves.trans (SameBut.storageMoves (S := [.tier]) (mask_writeRepair (by decide) d) (by decide) (by decide))
    ((storageMoves_recordErr ..).after (.of_eq rfl rfl fun _ hx => hx))

theorem storageMoves_giveNear (qid n : Nat) (d : Dev) : StorageMoves d (giveNear qid n d) := by
  have wiped : StorageMoves d (wipeNear n d) := .of_eq rfl rfl fun _ hx => hx
  unfold giveNear
  dsimp only
  split
  · exact wiped.trans ((storageMoves_retireNear ..).trans
      (StorageMoves.trans (SameBut.storageMoves (S := [.tier]) (mask_noteShort (by decide) ..) (by decide) (by decide))
        (storageMoves_settleShorts _)))
  · split
    · exact wiped.trans ((storageMoves_settleShorts _).after (storageMoves_put rfl))
    · exact wiped.trans (storageMoves_settleShorts _)

/-! ### The journal -/

theorem storageMoves_writeImage (d : Dev) : StorageMoves d (writeImage d) := by
  unfold writeImage
  extract_lets +onlyGivenNames first counted
  have before : StorageMoves d counted :=
    storageMoves_foldl (fun e i => SameBut.storageMoves (S := [.tier]) (mask_countProgram (by decide) ..) (by decide) (by decide)) _ d
  clear_value counted
  refine before.trans ⟨rfl, fun wf => ?_, fun wf i => ?_, fun _ hx => hx⟩
  · exact tblWf_map (fun q : Queue => { q with
      chain := q.chain.map fun s => { s with deep := s.deep.map fun r => { r with named := q.cfg.persist } } }) wf
  · rw [queueOf, tblGet_map rfl (Bool.and_eq_true _ _ ▸ wf).1]
    rfl

theorem storageMoves_flushJournal (d : Dev) : StorageMoves d (flushJournal d) := by
  unfold flushJournal
  split
  · exact .refl d
  · extract_lets +onlyGivenNames recs counted _ freed stopped
    have before : StorageMoves d stopped := by
      have counts : StorageMoves d counted :=
        SameBut.storageMoves (S := [.tier]) (mask_countProgram (by decide) ..) (by decide) (by decide)
      clear_value counted
      have frees : StorageMoves counted freed :=
        StorageMoves.after (SameBut.storageMoves (S := [.tier]) (mask_freeReleased (by decide) ..) (by decide) (by decide))
          (.of_eq rfl rfl fun _ hx => hx)
      exact counts.trans (frees.trans (.of_eq rfl rfl fun _ hx => hx))
    split
    · exact before.trans (storageMoves_writeImage _)
    · exact before

theorem storageMoves_addRecord (r : JRec) (d : Dev) : StorageMoves d (addRecord r d) := by
  unfold addRecord
  extract_lets +onlyGivenNames _ gathered timed
  have before : StorageMoves d timed := by
    unfold timed
    split
    · exact .of_eq rfl rfl fun _ hx => hx
    · exact .of_eq rfl rfl fun _ hx => hx
  split
  · exact before.trans (storageMoves_flushJournal _)
  · exact before

/-! ### Segments given back -/

theorem storageMoves_retireDeep (seg : Nat) (d : Dev) : StorageMoves d (retireDeep seg d) := by
  unfold retireDeep
  extract_lets +onlyGivenNames repaired _ _ recorded
  have before : StorageMoves d recorded :=
    StorageMoves.trans (SameBut.storageMoves (S := [.tier]) (mask_writeRepair (by decide) d) (by decide) (by decide))
      ((storageMoves_recordErr ..).after (.of_eq rfl rfl fun _ hx => hx))
  split
  · exact before
  · split
    · exact before.trans (.of_eq rfl rfl fun _ hx => hx)
    · exact before.trans ((storageMoves_recordErr ..).after (.of_eq rfl rfl fun _ hx => hx))

theorem storageMoves_freeDeep (qid seg : Nat) (named : Bool) (d : Dev) : StorageMoves d (freeDeep qid seg named d) := by
  unfold freeDeep
  split
  · dsimp only
    split
    · exact (storageMoves_retireDeep ..).trans (storageMoves_addRecord ..)
    · exact storageMoves_retireDeep ..
  · split
    · exact (storageMoves_addRecord ..).after (.of_eq rfl rfl fun _ hx => hx)
    · exact .of_eq rfl rfl fun _ hx => hx

theorem emitFlit_mem {type dst seq : Nat} {payload : Bytes} {x : OutMsg} {d : Dev} (h : x ∈ d.out) :
    x ∈ (emitFlit type dst seq payload d).out := by
  unfold emitFlit
  split
  · exact h
  · exact List.mem_append_left _ h

theorem sendItems_mem {src : Option Producer} {node type : Nat} {payload : Bytes} {x : OutMsg} {d : Dev} (h : x ∈ d.out) :
    x ∈ (sendItems src node type payload d).out := by
  unfold sendItems
  split
  · exact h
  · dsimp only
    split
    · exact h
    · split
      · refine emitFlit_mem ?_
        split <;> exact h
      · exact h

theorem storageMoves_sendSeq (node type : Nat) (payload : Bytes) (d : Dev) : StorageMoves d (sendSeq node type payload d) :=
  .of_eq (SameBut.queues_eq (S := [.timers, .out, .peers]) (mask_sendSeq (by decide) (by decide) (by decide) ..) (by decide))
    (SameBut.epoch_eq (S := [.timers, .out, .peers]) (mask_sendSeq (by decide) (by decide) (by decide) ..) (by decide))
    fun _ hx => sendItems_mem hx

theorem storageMoves_giveLoan (qid : Nat) (persist hole : Bool) (l : LoanRef) (d : Dev) :
    StorageMoves d (giveLoan qid persist hole l d) := by
  unfold giveLoan
  extract_lets +onlyGivenNames noted
  have before : StorageMoves d noted := by
    unfold noted
    split
    · exact storageMoves_addRecord ..
    · exact .refl d
  split
  · exact before
  · exact before.trans (storageMoves_sendSeq ..)

theorem storageMoves_releaseSeg (qid : Nat) (persist : Bool) (s : ChainSeg) (d : Dev) :
    StorageMoves d (releaseSeg qid persist s d) := by
  unfold releaseSeg
  extract_lets +onlyGivenNames near deep loan
  have one : StorageMoves d near := by
    unfold near
    split
    · exact storageMoves_giveNear ..
    · exact .refl d
  have two : StorageMoves near deep := by
    unfold deep
    split
    · exact storageMoves_freeDeep ..
    · exact .refl _
  have three : StorageMoves deep loan := by
    unfold loan
    split
    · exact storageMoves_giveLoan ..
    · exact .refl _
  exact one.trans (two.trans (three.trans (.of_eq rfl rfl fun _ hx => hx)))

theorem storageMoves_releaseUnused (qid : Nat) (d : Dev) : StorageMoves d (releaseUnused qid d) := by
  unfold releaseUnused
  extract_lets +onlyGivenNames q live tail stays
  split
  · exact .refl d
  · exact (storageMoves_foldl (fun _ _ => storageMoves_releaseSeg ..) _ _).after (storageMoves_put rfl)

end Sys2Proof.Machine
end

section
/-!
Drain rings and completion messages (R247, R259 to R267).
-/

namespace Sys2Proof.Machine

/-! ### What a ring puts out -/

/-- Each piece of a posted write that may be reordered leaves at once while DMA is possible. -/
theorem relaxedWrite_pieces {addr : Nat} {data : Bytes} {d : Dev} (issue : canIssue d = true) :
    ∀ p ∈ splitReq (min 256 d.link.mps) addr data.length,
      OutMsg.memWrite p.1 ((data.drop (p.1 - addr)).take p.2) d.link.roEn ∈ (memWrite addr data true d).out := by
  have roEn {d e : Dev} (h : restOfLink e = restOfLink d) : e.link.roEn = d.link.roEn :=
    show (restOfLink e).roEn = (restOfLink d).roEn by rw [h]
  have started := startWork_canIssue d issue
  unfold memWrite
  rw [← roEn (restOfLink_startWork d)]
  generalize splitReq (min 256 d.link.mps) addr data.length = l
  generalize startWork d = d' at started
  induction l generalizing d' with
  | nil => simp
  | cons q l ih =>
    intro p hp
    rw [List.foldl_cons]
    obtain rfl | later := List.mem_cons.1 hp
    · exact foldl_mem _ (fun _ _ h => emitHost_mem h) _ _ (emitHost_memWrite started)
    · have kept := roEn (restOfLink_emitHost (.memWrite q.1 ((data.drop (q.1 - addr)).take q.2) (true && d'.link.roEn)) d')
      have rest := ih _ (emitHost_canIssue (.memWrite q.1 ((data.drop (q.1 - addr)).take q.2) (true && d'.link.roEn)) _ started) p later
      rwa [kept] at rest

theorem putCe_mem {c cookie lenStatus hi : Nat} {r : CompRing} {x : OutMsg} {d : Dev} (h : x ∈ d.out) :
    x ∈ (putCe c r cookie lenStatus hi d).out := by
  unfold putCe
  extract_lets +onlyGivenNames slot data n fire r' _ d₁ d₂
  clear_value data fire r'
  have written : x ∈ d₁.out := memWrite_mem h
  have signalled : x ∈ d₂.out := by
    unfold d₂
    split_ifs
    · exact msix_mem written
    · exact written
    · exact written
  exact triggerSweep_mem (activity_mem signalled)

theorem postCe_mem {c cookie lenStatus hi : Nat} {x : OutMsg} {d : Dev} (h : x ∈ d.out) :
    x ∈ (postCe c cookie lenStatus hi d).out := by
  unfold postCe
  split
  · exact h
  · split
    · exact h
    · exact putCe_mem h

theorem fetchFill_mem {f : Nat} {x : OutMsg} {d : Dev} (h : x ∈ d.out) : x ∈ (fetchFill f d).out := by
  unfold fetchFill
  split
  · exact h
  · split
    · exact memReadOne_mem h
    · exact h

theorem fetchDrain_mem {n : Nat} {x : OutMsg} {d : Dev} (h : x ∈ d.out) : x ∈ (fetchDrain n d).out := by
  unfold fetchDrain
  split
  · exact h
  · split
    · exact memReadOne_mem h
    · exact h

theorem readFill_mem {f : Nat} {x : OutMsg} : ∀ (n : Nat) {d : Dev}, x ∈ d.out → x ∈ (readFill n f d).out := by
  intro n
  induction n with
  | zero => exact id
  | succ n ih =>
    intro d h
    unfold readFill
    split
    · exact h
    · split
      · exact h
      · split
        · exact ih (memReadOne_mem h)
        · exact h

theorem latchFill_out (f : Nat) (d : Dev) : (latchFill f d).out = d.out :=
  SameBut.out_eq (S := [.rings]) (mask_latchFill (by decide) ..) (by decide)

theorem pump_mem {x : OutMsg} {d : Dev} (h : x ∈ d.out) : x ∈ (pump d).out := by
  have one (f n : Nat) (e : Dev) (h : x ∈ e.out) : x ∈ (latchFill f (readFill n f (fetchFill f e))).out := by
    rw [latchFill_out]
    exact readFill_mem n (fetchFill_mem h)
  have rings : x ∈ (pumpRings d).out :=
    foldl_mem _ (fun _ _ h => fetchDrain_mem h) _ _ (foldl_mem _ (fun _ _ h => one _ _ _ h) _ _ h)
  unfold pump askLink
  split
  · exact rings
  · exact rings

/-! ### The next descriptor and the grant -/

section
variable {n : Nat} {r : DrainRing} {d : Dev} (found : tblFind d.rings.drains n = some r) (room : cqFull d r.cq = false)
include found room

theorem drainFetch_takes {bs : Bytes} {rest : List Bytes} (arrived : r.arrived = bs :: rest) (fw : fwExec d = true) :
    ∃ r', tblFind (drainFetch n d).rings.drains n = some r' ∧ r'.arrived = rest ∧
      r'.bufs = (if (parseDrain bs).2 then r.bufs else r.bufs ++ [(parseDrain bs).1]) ∧ (drainFetch n d).queues = d.queues := by
  have moves {x : DrainRing} {e : Dev} (there : tblFind e.rings.drains n = some x) :
      ∃ r', tblFind (pump e).rings.drains n = some r' ∧ r'.arrived = x.arrived ∧ r'.bufs = x.bufs := by
    obtain ⟨r', taken, moved⟩ := (ringsMove_pump e).drains n x there
    exact ⟨r', taken, by rw [show r' = _ from moved], by rw [show r' = _ from moved]⟩
  have pumped (e : Dev) : (pump e).queues = e.queues :=
    SameBut.queues_eq (S := [.timers, .link, .out, .rings]) (mask_pump (by decide) (by decide) (by decide) (by decide) e) (by decide)
  unfold drainFetch
  rw [found]
  dsimp only
  rw [arrived]
  dsimp only
  rw [if_neg (by simp [fw, room])]
  split
  · generalize 2 ^ 14 + n * 2 ^ 16 = hi
    have there : tblFind (postCe r.cq (parseDrain bs).1.cookie.toNat (ceWord 0 0x02) hi
        (putDrain n { r with arrived := rest } d)).rings.drains n = some { r with arrived := rest } := by
      rw [(postCe_rings ..).2]
      exact tblFind_put_same ..
    obtain ⟨r', taken, rest', bufs⟩ := moves there
    have posted : (postCe r.cq (parseDrain bs).1.cookie.toNat (ceWord 0 0x02) hi
        (putDrain n { r with arrived := rest } d)).queues = d.queues :=
      SameBut.queues_eq (S := [.timers, .link, .out, .rings, .sweep])
        ((mask_postCe (by decide) (by decide) (by decide) (by decide) (by decide) ..).trans (mask_putDrain (by decide) ..)) (by decide)
    exact ⟨r', taken, rest', bufs, (pumped _).trans posted⟩
  · obtain ⟨r', taken, rest', bufs⟩ := moves
      (e := putDrain n { r with arrived := rest, bufs := r.bufs ++ [(parseDrain bs).1] } d) (tblFind_put_same ..)
    exact ⟨r', taken, rest', bufs, pumped _⟩

/-- The transfer that a grant begins. -/
def grantedXfer (d : Dev) (n qid : Nat) (buf : DrainBuf) : Xfer :=
  { qid, buf, ew := ewOf d qid, remote := if isLocal d qid then none else some n }

/-- The ring that has granted its first buffer. -/
def drainGranted (r : DrainRing) (x : Xfer) (ab ag : Nat) : DrainRing :=
  { r with xfer := some x, arbB := ab, arbG := ag, ready := r.ready.filter (· ≠ x.qid) }

theorem drainGrant_grants {buf : DrainBuf} {bufs : List DrainBuf} {b : BindEnt} {ab ag : Nat} (head : r.bufs = buf :: bufs)
    (idle : r.xfer = none) (dma : dmaAllowed d = true) (fw : fwRunning d = true) (free : n ∉ d.epoch.fencedRings)
    (next : arbNext (d.bind.drain.filter fun b => b.target = n) r.arbB r.arbG (bindReady d r) = some (b, ab, ag)) :
    (drainGrant n d).rings = { d.rings with
      drains := tblPut d.rings.drains n (drainGranted r (grantedXfer d n b.qid buf) ab ag) } ∧
    (drainGrant n d).queues = d.queues := by
  have same (e : Dev) (node type : Nat) (payload : Bytes) : SameBut [.timers, .link, .out, .peers] e (sendSeq node type payload (startWork e)) :=
    (mask_sendSeq (by decide) (by decide) (by decide) ..).trans (mask_startWork (by decide) (by decide) e)
  have started (e : Dev) : SameBut [.timers, .link, .out, .peers] e (startWork e) := mask_startWork (by decide) (by decide) e
  unfold drainGrant
  rw [found]
  dsimp only
  split
  case h_2 other => exact absurd idle (other buf bufs head)
  next buf' bufs' head' _ =>
  obtain ⟨rfl, rfl⟩ : buf = buf' ∧ bufs = bufs' := by simpa using head.symm.trans head'
  rw [if_neg (by simp [dma, fw, room, free]), next]
  dsimp only
  split
  next own =>
    rw [(started _).rings_eq (by decide), (started _).queues_eq (by decide), grantedXfer, if_pos own]
    exact ⟨rfl, rfl⟩
  next away =>
    rw [(same ..).rings_eq (by decide), (same ..).queues_eq (by decide), grantedXfer, if_neg away]
    exact ⟨rfl, rfl⟩

/-! ### The end of a transfer -/

theorem drainEnd_asks {x : Xfer} (xfer : r.xfer = some x) (ended : x.ended = true) (dma : dmaAllowed d = true)
    (asleep : d.link.lstate = .l12) : drainEnd n d = { d with link.clkreq := true } := by
  unfold drainEnd
  rw [found]
  dsimp only
  rw [xfer]
  dsimp only
  rw [if_neg (by simp [ended, dma, room]), if_pos (by simp [canIssue, asleep])]

theorem drainEnd_local {x : Xfer} (xfer : r.xfer = some x) (ended : x.ended = true) (own : x.remote = none)
    (issue : canIssue d = true) :
    ∃ hi, drainEnd n d = pump (releaseUnused (x.qid % 4096) (postCe r.cq x.buf.cookie.toNat
      (ceWord (xferBytes d x).length x.status.toNat) hi
      (putDrain n { r with xfer := none, bufs := r.bufs.drop 1 } (memWrite x.buf.addr (xferBytes d x) true d)))) := by
  have dma : dmaAllowed d = true := by
    unfold canIssue at issue
    exact (Bool.and_eq_true_iff.1 issue).1
  unfold drainEnd
  rw [found]
  dsimp only
  rw [xfer]
  dsimp only
  rw [if_neg (by simp [ended, dma, room]), if_neg (by simp [issue]), own]
  exact ⟨_, rfl⟩

end

/-- What the end of a local transfer leaves: its ring, its completion, its bytes and the items of the queues. -/
theorem drainEnd_effect {n cq hi qid addr : Nat} {r : DrainRing} {k : CompRing} {data : Bytes} {d : Dev} (cookie lenStatus : Nat)
    (room : cqFull d cq = false) (comp : tblFind d.rings.comps cq = some k) (first : k.waiting = [])
    (issue : canIssue d = true) (wf : tblWf {} d.queues = true) (e : Dev)
    (eq : e = pump (releaseUnused qid (postCe cq cookie lenStatus hi (putDrain n r (memWrite addr data true d))))) :
    (∃ r', tblFind e.rings.drains n = some r' ∧ DrainMoves r r') ∧
      (∃ k', tblFind e.rings.comps cq = some k' ∧ k'.written = k.written + 1) ∧
      (∀ p ∈ splitReq (min 256 d.link.mps) addr data.length,
        OutMsg.memWrite p.1 ((data.drop (p.1 - addr)).take p.2) d.link.roEn ∈ e.out) ∧
      ∀ q, (queueOf e q).items = (queueOf d q).items := by
  have pieces := relaxedWrite_pieces (addr := addr) (data := data) issue
  have before : SameBut [.link, .out] d (memWrite addr data true d) := mask_memWrite (by decide) (by decide) ..
  have rings := before.rings_eq (by decide)
  have queues := before.queues_eq (by decide)
  subst eq
  generalize memWrite addr data true d = d₁ at pieces rings queues
  have there : tblFind (postCe cq cookie lenStatus hi (putDrain n r d₁)).rings.drains n = some r := by
    rw [(postCe_rings ..).2]
    exact tblFind_put_same ..
  obtain ⟨k', put, written⟩ := postCe_writes (c := cq) (k := k) (d := putDrain n r d₁) (by rw [← comp, ← rings]; rfl)
    ((cqFull_congr (by rw [← rings]; rfl) cq).trans room) first cookie lenStatus hi
  have posted : (postCe cq cookie lenStatus hi (putDrain n r d₁)).queues = d.queues := by
    rw [← queues]
    exact SameBut.queues_eq (S := [.timers, .link, .out, .rings, .sweep])
      ((mask_postCe (by decide) (by decide) (by decide) (by decide) (by decide) ..).trans (mask_putDrain (by decide) ..)) (by decide)
  have out : ∀ x ∈ d₁.out, x ∈ (postCe cq cookie lenStatus hi (putDrain n r d₁)).out := fun x hx => postCe_mem hx
  generalize postCe cq cookie lenStatus hi (putDrain n r d₁) = d₂ at there put posted out
  have released := storageMoves_releaseUnused qid d₂
  have kept : (releaseUnused qid d₂).rings = d₂.rings :=
    SameBut.rings_eq (S := [.timers, .link, .out, .epoch, .queues, .tier, .rep, .err, .peers])
      (mask_releaseUnused (by decide) (by decide) (by decide) (by decide) (by decide) (by decide) (by decide) (by decide) (by decide) ..)
      (by decide)
  generalize releaseUnused qid d₂ = d₃ at released kept
  refine ⟨(ringsMove_pump d₃).drains n r (by rw [kept, there]), ⟨k', ?_, written⟩, fun p hp => pump_mem (released.out _ (out _ (pieces p hp))),
    fun q => ?_⟩
  · rw [(ringsMove_pump d₃).comps, kept, put]
  · have pumped : (pump d₃).queues = d₃.queues :=
      SameBut.queues_eq (S := [.timers, .link, .out, .rings]) (mask_pump (by decide) (by decide) (by decide) (by decide) _) (by decide)
    have items := released.items (by rw [posted, wf]) q
    rw [queueOf, pumped]
    exact items.trans (by rw [queueOf, posted, queueOf])

/-! ### Timers -/

theorem drainWaitExpiry_waits {qid : Nat} {d : Dev} (wf : tblWf {} d.queues = true) (unarmed : (queueOf d qid).armed = none)
    (due : timerDue d (.drainWait qid) (drainWaitOf d qid) = true) :
    drainWaitExpiry qid d = stopTimer (.drainWait qid) (onQueue qid (fun q => { q with waited := true }) d) := by
  have same : queueOf (stopTimer (.drainWait qid) (onQueue qid (fun q => { q with waited := true }) d)) qid =
      { queueOf d qid with waited := true } := queueOf_on_same wf qid fun q => { q with waited := true }
  unfold drainWaitExpiry
  rw [if_pos due]
  unfold readyCheck
  dsimp only
  rw [same]
  dsimp only
  rw [unarmed]

theorem msix_emits {v : Nat} {d : Dev} (en : d.link.msixEn = true) (unmasked : d.link.funcMask = false)
    (vector : (msixEntry d v).masked = false) (issue : canIssue d = true) : (msix v d).out = d.out ++ [.msix v] := by
  simp only [canIssue, dmaAllowed, Bool.and_eq_true, Bool.not_eq_true', bne_iff_ne, ne_eq] at issue
  obtain ⟨⟨⟨⟨⟨up, bme⟩, d3⟩, -⟩, perst⟩, awake⟩ := issue
  unfold msix
  rw [if_neg (by simp [en, perst]), if_neg (by simp [unmasked, vector])]
  unfold emitHost
  rw [if_neg (by simp [up, perst]), if_neg (by simp [mayLeave, bme, d3]), if_neg awake]
  rfl

/-- Settles O48. -/
theorem drainTransfersAndMessages : Obligations.DrainTransfersAndMessages := by
  refine ⟨fun s n r found room => ⟨fun bs rest arrived fw => ?_, fun buf bufs b ab ag head idle dma fw free next => ?_,
      fun x xfer ended dma asleep => ?_, fun x k xfer ended own issue _ comp first wf => ?_⟩,
    fun s qid wf unarmed due => ?_, fun s c k found due en unmasked vector issue => ?_⟩
  · refine completes_of_exec_eq_act (f := drainFetch n.toNat) rfl ?_
    exact drainFetch_takes found room arrived fw
  · refine completes_of_exec_eq_act (f := drainGrant n.toNat) rfl ?_
    obtain ⟨rings, queues⟩ := drainGrant_grants found room head idle dma fw free next
    refine ⟨drainGranted r (grantedXfer s.dev n.toNat b.qid buf) ab ag, grantedXfer s.dev n.toNat b.qid buf, ?_, rfl, rfl, rfl,
      rfl, rfl, rfl, rfl, rfl, rfl, rfl, queues⟩
    rw [rings]
    exact tblFind_put_same ..
  · refine completes_of_exec_eq_act (f := drainEnd n.toNat) rfl ?_
    exact drainEnd_asks found room xfer ended dma asleep
  · refine completes_of_exec_eq_act (f := drainEnd n.toNat) rfl ?_
    obtain ⟨hi, eq⟩ := drainEnd_local found room xfer ended own issue
    obtain ⟨⟨r', taken, moved⟩, written, out, items⟩ := drainEnd_effect (data := xferBytes s.dev x) x.buf.cookie.toNat _ room comp first issue wf _ eq
    exact ⟨⟨r', taken, by rw [show r' = _ from moved], by rw [show r' = _ from moved]⟩, written, out, items⟩
  · refine completes_of_exec_eq_act (f := drainWaitExpiry qid.toNat) rfl ?_
    rw [drainWaitExpiry_waits wf unarmed due]
    exact ⟨queueOf_on_same wf qid.toNat fun q => { q with waited := true }, rfl⟩
  · refine completes_of_exec_eq_act (f := irqTimer c.toNat) rfl ?_
    have fires : irqTimer c.toNat s.dev = msix k.vector (stopTimer (.irq c.toNat)
        { s.dev with rings.comps := tblPut s.dev.rings.comps c.toNat { k with unreported := 0 } }) := by
      unfold irqTimer
      rw [found]
      exact if_pos due
    rw [fires]
    refine ⟨?_, msix_emits en unmasked vector issue⟩
    have same : SameBut [.link, .out] (stopTimer (.irq c.toNat)
        { s.dev with rings.comps := tblPut s.dev.rings.comps c.toNat { k with unreported := 0 } }) _ :=
      mask_msix (by decide) (by decide) k.vector _
    rw [same.rings_eq (by decide)]
    exact tblFind_put_same ..

end Sys2Proof.Machine
end

section
/-!
What each operation leaves alone: the parts of the device that it changes at most.
-/

namespace Sys2Proof.Machine

@[simp] theorem mask_flushHeld {S : List Part} (hlink : .link ∈ S) (hout : .out ∈ S) (d : Dev) :
    mask S (flushHeld d) = mask S d := by
  refine (mask_foldl (fun d m => ?_) _ _).trans (mask_set_link d hlink _)
  split
  · exact mask_msix hlink hout ..
  · exact mask_emitHost hlink hout ..

@[simp] theorem mask_mirrorWrite {S : List Part} (htimers : .timers ∈ S) (hlink : .link ∈ S) (hout : .out ∈ S)
    (hqueues : .queues ∈ S) (qid : Nat) (d : Dev) :
    mask S (mirrorWrite qid d) = mask S d := by
  simp only [mirrorWrite, mask_startTimer, mask_memWrite, mask_putQueue, htimers, hlink, hout, hqueues]

@[simp] theorem mask_mirrorFull {S : List Part} (htimers : .timers ∈ S) (hlink : .link ∈ S) (hout : .out ∈ S)
    (hadm : .adm ∈ S) (hqueues : .queues ∈ S) (d : Dev) : mask S (mirrorFull d) = mask S d := by
  have all (l : List Nat) (e : Dev) : mask S (l.foldl (fun d i => mirrorWrite i d) e) = mask S e :=
    mask_foldl (fun d i => mask_mirrorWrite htimers hlink hout hqueues i d) l e
  unfold mirrorFull
  split
  · rfl
  · split
    · rw [all]
      exact mask_set_adm d hadm _
    · exact mask_set_adm d hadm _

@[simp] theorem mask_mirrorResync {S : List Part} (htimers : .timers ∈ S) (hlink : .link ∈ S) (hout : .out ∈ S)
    (hadm : .adm ∈ S) (hqueues : .queues ∈ S) (d : Dev) : mask S (mirrorResync d) = mask S d := by
  unfold mirrorResync
  split
  · rfl
  · split
    · rw [mask_mirrorFull htimers hlink hout hadm hqueues]
    · refine mask_foldl (fun d e => ?_) _ d
      split
      · exact mask_mirrorWrite htimers hlink hout hqueues e.1 d
      · rfl

@[simp] theorem mask_sendPending {S : List Part} (hlink : .link ∈ S) (hout : .out ∈ S) (v : Nat) (d : Dev) :
    mask S (sendPending v d) = mask S d := by
  unfold sendPending
  split <;> simp only [mask_msix, mask_set_link, hlink, hout]

@[simp] theorem mask_sendAllPending {S : List Part} (hlink : .link ∈ S) (hout : .out ∈ S) (d : Dev) :
    mask S (sendAllPending d) = mask S d := by simp [sendAllPending, mask_foldl, hlink, hout]

@[simp] theorem mask_resumeLink {S : List Part} (htimers : .timers ∈ S) (hlink : .link ∈ S) (hout : .out ∈ S)
    (hadm : .adm ∈ S) (hrings : .rings ∈ S) (hsweep : .sweep ∈ S) (hqueues : .queues ∈ S) (d : Dev) :
    mask S (resumeLink d) = mask S d := by
  unfold resumeLink
  split <;> simp only [mask_flushHeld, mask_resumeSweep, mask_fetchNext, mask_mirrorResync, mask_pump, htimers, hlink, hout, hadm, hrings, hsweep, hqueues]

@[simp] theorem mask_dropKick {S : List Part} (hsweep : .sweep ∈ S) (d : Dev) :
    mask S (dropKick d) = mask S d := by
  unfold dropKick
  split <;> simp only [mask_set_sweep, hsweep]

end Sys2Proof.Machine
end

section
/-!
The host link: what its events and its configuration writes change (R194, R196 to R199, R204 to R210, R220, R223).
-/

namespace Sys2Proof.Machine

/-! ### A link that carries what the device sends -/

/-- The link is in L0, may carry the device's requests, and holds none of them back. -/
structure LinkOpen (d : Dev) : Prop where
  issue : canIssue d = true
  l0 : d.link.lstate = .l0
  clkreq : d.link.clkreq = true
  held : d.link.heldOut = []

theorem LinkOpen.of_eq {d e : Dev} (h : LinkOpen d) (link : e.link = d.link) (pwr : e.pwr = d.pwr) (err : e.err = d.err) : LinkOpen e :=
  ⟨by rw [canIssue, dmaAllowed, link, pwr, err]; exact h.issue, by rw [link, h.l0], by rw [link, h.clkreq], by rw [link, h.held]⟩

theorem LinkOpen.sameBut {S : List Part} {d e : Dev} (h : LinkOpen d) (same : SameBut S d e)
    (noLink : .link ∉ S ∧ .reads ∉ S) (noPwr : .pwr ∉ S) (noErr : .err ∉ S ∧ .fatal ∉ S) : LinkOpen e :=
  h.of_eq (same.link_eq noLink.1 noLink.2) (same.pwr_eq noPwr) (same.err_eq noErr.2 noErr.1)

/-- A message leaves at once. -/
theorem emitHost_open {d : Dev} (h : LinkOpen d) (m : OutMsg) :
    emitHost m d = emit m { d with link.lstate := .l0, link.clkreq := true } := by
  have issue := h.issue
  have dma : dmaAllowed d = true := (Bool.and_eq_true_iff.1 issue).1
  simp only [canIssue, dmaAllowed, Bool.and_eq_true, Bool.not_eq_true', bne_iff_ne, ne_eq] at issue
  obtain ⟨⟨⟨⟨⟨up, bme⟩, d3⟩, -⟩, perst⟩, asleep⟩ := issue
  have leaves : mayLeave d m = true := by
    cases m <;> simp [mayLeave, dma, bme, d3]
  unfold emitHost
  rw [if_neg (by simp [up, perst]), if_neg (by simp [leaves]), if_neg asleep]

theorem linkOpen_emitHost {d : Dev} (h : LinkOpen d) (m : OutMsg) : LinkOpen (emitHost m d) := by
  refine ⟨emitHost_canIssue m d h.issue, ?_, ?_, ?_⟩ <;> rw [emitHost_open h]
  · rfl
  · rfl
  · exact h.held

theorem linkOpen_sendLtr {d : Dev} (h : LinkOpen d) (us : Nat) : LinkOpen (sendLtr us d) := by
  unfold sendLtr
  split
  · exact linkOpen_emitHost (d := { d with link.ltrSent := some ((ltrCode us).1 * 32 ^ (ltrCode us).2) }) ⟨h.issue, h.l0, h.clkreq, h.held⟩ _
  · exact h

theorem linkOpen_startWork {d : Dev} (h : LinkOpen d) : LinkOpen (startWork d) := by
  unfold startWork
  split
  · exact h
  · exact linkOpen_sendLtr (d := { d with link.active := true }) ⟨h.issue, h.l0, h.clkreq, h.held⟩ _

theorem linkOpen_memReadOne {d : Dev} (h : LinkOpen d) (what : ReadFor) (addr len : Nat) : LinkOpen (memReadOne what addr len d) := by
  obtain ⟨issue, -, -, held⟩ := linkOpen_startWork h
  have dma : dmaAllowed (startWork d) = true := (Bool.and_eq_true_iff.1 issue).1
  refine ⟨?_, rfl, rfl, held⟩
  have kept : dmaAllowed (memReadOne what addr len d) = true := dma
  rw [canIssue, kept]
  rfl

theorem linkOpen_foldl {β : Type} {f : Dev → β → Dev} (stays : ∀ d x, LinkOpen d → LinkOpen (f d x)) (l : List β) :
    ∀ d, LinkOpen d → LinkOpen (l.foldl f d) := by
  induction l with
  | nil => exact fun _ h => h
  | cons x l ih => intro d h; exact ih _ (stays d x h)

theorem linkOpen_memRead {d : Dev} (h : LinkOpen d) (what : ReadFor) (addr len : Nat) : LinkOpen (memRead what addr len d) :=
  linkOpen_foldl (fun _ _ h => linkOpen_memReadOne h ..) _ d h

theorem linkOpen_memWrite {d : Dev} (h : LinkOpen d) (addr : Nat) (data : Bytes) (ro : Bool) : LinkOpen (memWrite addr data ro d) :=
  linkOpen_foldl (fun _ _ h => linkOpen_emitHost h _) _ _ (linkOpen_startWork h)

theorem linkOpen_msix {d : Dev} (h : LinkOpen d) (v : Nat) : LinkOpen (msix v d) := by
  unfold msix
  split
  · exact h
  · split
    · exact ⟨h.issue, h.l0, h.clkreq, h.held⟩
    · exact linkOpen_emitHost h _

theorem linkOpen_flushHeld {d : Dev} (issue : canIssue d = true) (l0 : d.link.lstate = .l0) (clkreq : d.link.clkreq = true) :
    LinkOpen (flushHeld d) := by
  refine linkOpen_foldl (fun e m h => ?_) _ _ ⟨issue, l0, clkreq, rfl⟩
  split
  · exact linkOpen_msix h _
  · exact linkOpen_emitHost h _

theorem linkOpen_resumeSweep {d : Dev} (h : LinkOpen d) : LinkOpen (resumeSweep d) := by
  have waiting : LinkOpen { d with sweep.pending := false, sweep.pendKick := false, sweep.pendOther := false } := h.of_eq rfl rfl rfl
  unfold resumeSweep
  split
  · exact h
  · dsimp only
    split
    · refine linkOpen_memRead ?_ ..
      exact waiting.of_eq rfl rfl rfl
    · exact waiting

theorem linkOpen_startTimer {d : Dev} (h : LinkOpen d) (id : TimerId) : LinkOpen (startTimer id d) := h.of_eq rfl rfl rfl

theorem linkOpen_mirrorWrite {d : Dev} (h : LinkOpen d) (qid : Nat) : LinkOpen (mirrorWrite qid d) := by
  unfold mirrorWrite
  refine linkOpen_startTimer (linkOpen_memWrite ?_ ..) _
  exact h.of_eq rfl rfl rfl

theorem linkOpen_mirrorResync {d : Dev} (h : LinkOpen d) : LinkOpen (mirrorResync d) := by
  unfold mirrorResync mirrorFull
  have all (l : List Nat) (e : Dev) (h : LinkOpen e) : LinkOpen (l.foldl (fun d i => mirrorWrite i d) e) :=
    linkOpen_foldl (fun _ _ h => linkOpen_mirrorWrite h _) l e h
  split
  · exact h
  · split
    · split
      · exact h
      · split
        · exact all _ _ (h.of_eq rfl rfl rfl)
        · exact h.of_eq rfl rfl rfl
    · refine linkOpen_foldl (fun e q h => ?_) _ d h
      split
      · exact linkOpen_mirrorWrite h _
      · exact h

theorem linkOpen_askLink {f : Dev → Dev} {d : Dev} (h : LinkOpen (f d)) : LinkOpen (askLink f d) := by
  unfold askLink
  split
  · exact ⟨h.issue, h.l0, rfl, h.held⟩
  · exact h

theorem linkOpen_fetchFill {d : Dev} (h : LinkOpen d) (f : Nat) : LinkOpen (fetchFill f d) := by
  unfold fetchFill
  split
  · exact h
  · split
    · refine linkOpen_memReadOne ?_ ..
      exact h.of_eq rfl rfl rfl
    · exact h

theorem linkOpen_fetchDrain {d : Dev} (h : LinkOpen d) (n : Nat) : LinkOpen (fetchDrain n d) := by
  unfold fetchDrain
  split
  · exact h
  · split
    · refine linkOpen_memReadOne ?_ ..
      exact h.of_eq rfl rfl rfl
    · exact h

theorem linkOpen_readFill (f : Nat) : ∀ (n : Nat) {d : Dev}, LinkOpen d → LinkOpen (readFill n f d) := by
  intro n
  induction n with
  | zero => exact id
  | succ n ih =>
    intro d h
    unfold readFill
    split
    · exact h
    · split
      · exact h
      · split
        · refine ih (linkOpen_memReadOne ?_ ..)
          exact h.of_eq rfl rfl rfl
        · exact h

theorem linkOpen_pump {d : Dev} (h : LinkOpen d) : LinkOpen (pump d) := by
  have one (f n : Nat) (e : Dev) (h : LinkOpen e) : LinkOpen (latchFill f (readFill n f (fetchFill f e))) :=
    (linkOpen_readFill f n (linkOpen_fetchFill h f)).sameBut (S := [.rings]) (mask_latchFill (by decide) ..)
      (by decide) (by decide) (by decide)
  refine linkOpen_askLink (f := pumpRings) ?_
  exact linkOpen_foldl (fun _ _ h => linkOpen_fetchDrain h _) _ _ (linkOpen_foldl (fun _ _ h => one _ _ _ h) _ d h)

theorem linkOpen_fetchNext {d : Dev} (h : LinkOpen d) : LinkOpen (fetchNext d) := by
  refine linkOpen_askLink (f := fetchAdmin) ?_
  unfold fetchAdmin
  split
  · refine linkOpen_memReadOne ?_ ..
    exact h.of_eq rfl rfl rfl
  · exact h

/-! ### Requests that go on -/

theorem restOfLink_flushHeld (d : Dev) : restOfLink (flushHeld d) = restOfLink d := by
  refine (restOfLink_foldl (fun e m => ?_) _ _).trans rfl
  split
  · exact restOfLink_msix ..
  · exact restOfLink_emitHost ..

theorem restOfLink_startTimer (id : TimerId) (d : Dev) : restOfLink (startTimer id d) = restOfLink d := rfl

theorem restOfLink_putQueue (qid : Nat) (q : Queue) (d : Dev) : restOfLink (putQueue qid q d) = restOfLink d := rfl

theorem restOfLink_mirrorWrite (qid : Nat) (d : Dev) : restOfLink (mirrorWrite qid d) = restOfLink d := by
  unfold mirrorWrite
  extract_lets +onlyGivenNames q seq
  rw [restOfLink_startTimer, restOfLink_memWrite, restOfLink_putQueue]

theorem restOfLink_mirrorResync (d : Dev) : restOfLink (mirrorResync d) = restOfLink d := by
  have all (l : List Nat) (e : Dev) : restOfLink (l.foldl (fun d i => mirrorWrite i d) e) = restOfLink e :=
    restOfLink_foldl (fun _ _ => restOfLink_mirrorWrite ..) l e
  unfold mirrorResync mirrorFull
  split
  · rfl
  · split
    · split
      · rfl
      · split
        · exact (all ..).trans (restOfLink_congr rfl)
        · exact restOfLink_congr rfl
    · refine restOfLink_foldl (fun e q => ?_) _ d
      split
      · exact restOfLink_mirrorWrite ..
      · rfl

theorem resumeLink_open {d : Dev} (issue : canIssue d = true) :
    resumeLink d = fetchNext (pump (mirrorResync (resumeSweep (flushHeld d)))) := by
  unfold resumeLink
  exact if_neg (by simp [issue])

theorem resumeLink_closed {d : Dev} (issue : canIssue d = false) : resumeLink d = d := by
  unfold resumeLink
  exact if_pos (by simp [issue])

theorem restOfLink_resumeLink (d : Dev) : restOfLink (resumeLink d) = restOfLink d := by
  cases issue : canIssue d with
  | false => rw [resumeLink_closed issue]
  | true => rw [resumeLink_open issue, restOfLink_fetchNext, restOfLink_pump, restOfLink_mirrorResync, restOfLink_resumeSweep,
      restOfLink_flushHeld]

theorem sameBut_resumeLink (d : Dev) : SameBut [.timers, .link, .out, .adm, .rings, .sweep, .queues] d (resumeLink d) :=
  mask_resumeLink (by decide) (by decide) (by decide) (by decide) (by decide) (by decide) (by decide) d

/-- In L0 the link stays there, and nothing waits for it that may leave. -/
theorem resumeLink_l0 {d : Dev} (l0 : d.link.lstate = .l0) (clkreq : d.link.clkreq = true) :
    (resumeLink d).link.lstate = .l0 ∧ (resumeLink d).link.clkreq = true ∧
      (canIssue (resumeLink d) = true → (resumeLink d).link.heldOut = []) := by
  cases issue : canIssue d with
  | false =>
    rw [resumeLink_closed issue]
    exact ⟨l0, clkreq, fun h => absurd (issue.symm.trans h) (by decide)⟩
  | true =>
    rw [resumeLink_open issue]
    obtain ⟨-, lstate, clk, held⟩ := linkOpen_fetchNext (linkOpen_pump (linkOpen_mirrorResync (linkOpen_resumeSweep
      (linkOpen_flushHeld issue l0 clkreq))))
    exact ⟨lstate, clk, fun _ => held⟩

end Sys2Proof.Machine
end

section
/-!
The host-link events and the configuration writes (R194, R196 to R199, R204 to R210, R220, R223).
-/

namespace Sys2Proof.Machine

/-! ### Vectors that become unmasked -/

theorem restOfLink_sendPending (v : Nat) (d : Dev) : restOfLink (sendPending v d) = restOfLink d := by
  unfold sendPending
  split
  · exact (restOfLink_msix ..).trans rfl
  · rfl

theorem restOfLink_sendAllPending (d : Dev) : restOfLink (sendAllPending d) = restOfLink d :=
  restOfLink_foldl (fun _ _ => restOfLink_sendPending ..) _ d

theorem sendAllPending_keeps (d : Dev) :
    (sendAllPending d).link.msixEn = d.link.msixEn ∧ (sendAllPending d).link.funcMask = d.link.funcMask ∧
      SameBut [.link, .out] d (sendAllPending d) := by
  have link := restOfLink_sendAllPending d
  have same : SameBut [.link, .out] d (sendAllPending d) := mask_sendAllPending (by decide) (by decide) d
  generalize sendAllPending d = e at link same
  exact ⟨show (restOfLink e).msixEn = (restOfLink d).msixEn by rw [link],
    show (restOfLink e).funcMask = (restOfLink d).funcMask by rw [link], same⟩

theorem pending_cleared (v : BitVec 5) (pba : Word) : (pba &&& ~~~(1#32 <<< v.toNat)).getLsbD v.toNat = false := by
  have small : v.toNat < 32 := v.isLt
  simp [small]

/-- A vector's message while nothing masks it. -/
theorem msix_leaves {v : Nat} {d : Dev} (en : d.link.msixEn = true) (unmasked : d.link.funcMask = false)
    (vector : (msixEntry d v).masked = false) (issue : canIssue d = true) :
    msix v d = emit (.msix v) { d with link.lstate := .l0, link.clkreq := true } := by
  simp only [canIssue, dmaAllowed, Bool.and_eq_true, Bool.not_eq_true', bne_iff_ne, ne_eq] at issue
  obtain ⟨⟨⟨⟨⟨up, bme⟩, d3⟩, -⟩, perst⟩, awake⟩ := issue
  unfold msix
  rw [if_neg (by simp [en, perst]), if_neg (by simp [unmasked, vector])]
  unfold emitHost
  rw [if_neg (by simp [up, perst]), if_neg (by simp [mayLeave, bme, d3]), if_neg awake]

theorem sendPending_sends {v : Nat} {d : Dev} (en : d.link.msixEn = true) (unmasked : d.link.funcMask = false)
    (vector : (msixEntry d v).masked = false) (pending : d.link.pba.getLsbD v = true) (issue : canIssue d = true) :
    sendPending v d = emit (.msix v)
      { d with link.pba := d.link.pba &&& ~~~(1#32 <<< v), link.lstate := .l0, link.clkreq := true } := by
  unfold sendPending
  rw [if_pos (by simp [en, unmasked, vector, pending])]
  exact msix_leaves (d := { d with link.pba := d.link.pba &&& ~~~(1#32 <<< v) }) en unmasked vector issue

/-- The device with one vector's Mask bit written. -/
def vectorMasked (v : Nat) (masked : Bool) (d : Dev) : Dev :=
  { d with link.vectors := tblModify {} d.link.vectors v fun e => { e with masked } }

theorem msixEntry_vectorMasked {v : Nat} {masked : Bool} {d : Dev} (wf : tblWf {} d.link.vectors = true) :
    (msixEntry (vectorMasked v masked d) v).masked = masked := by
  have entry : msixEntry (vectorMasked v masked d) v = { msixEntry d v with masked } := tblGet_set_same wf v _
  rw [entry]

/-! ### Power states of the link -/

theorem l12Entry_enters {d : Dev} (up : d.link.up = true) (perst : d.pwr.perst = false) (on : awake d = true)
    (l : d.link.lstate ≠ .l12) (idle : linkIdle d = true) (allowed : l12Allowed d = true) :
    l12Entry d = followListen { d with link.lstate := .l12, link.clkreq := false } := by
  unfold l12Entry
  exact if_pos (by simp [up, perst, on, l, idle, allowed])

theorem followListen_frame (d : Dev) :
    followListen d = { d with pwr.phyLdo := (followListen d).pwr.phyLdo, tb := (followListen d).tb } := by
  have pwr := followListen_pwr d
  have eq := (sameBut_followListen d).eq
  have named : (followListen d).pwr = { d.pwr with phyLdo := (followListen d).pwr.phyLdo } := by rw [pwr]
  calc followListen d = { d with pwr := (followListen d).pwr, tb := (followListen d).tb } := eq
    _ = _ := by rw [← named]

theorem listening_followListen (d : Dev) : listening (followListen d) = listening d := by
  have same := sameBut_followListen d
  have link := same.link_eq (by decide) (by decide)
  have boot := same.boot_eq (by decide)
  have pwr := followListen_pwr d
  simp only [listening, fwRunning, link, boot, pwr]

theorem l12Exit_leaves {d : Dev} (up : d.link.up = true) (perst : d.pwr.perst = false) (l : d.link.lstate = .l12) :
    l12Exit d = resumeLink (followListen { d with link.lstate := .l0, link.clkreq := true }) := by
  unfold l12Exit
  exact if_pos (by simp [up, perst, l])

theorem followListen_l0 {d : Dev} (l0 : d.link.lstate = .l0) (perst : d.pwr.perst = false) (on : awake d = true) :
    (followListen d).pwr.phyLdo = true := by
  rw [followListen_pwr]
  simp [on, listening, l0, perst]

/-! ### Bus mastering -/

/-- The device with Bus Master Enable and the D-state written. -/
def mastered (bme d3hot : Bool) (d : Dev) : Dev :=
  if bme then { d with link.bme := bme, link.d3hot := d3hot } else dropKick { d with link.bme := bme, link.d3hot := d3hot }

theorem busMaster_takes {bme d3hot : Bool} {d : Dev} (reach : cfgReach d = true) :
    busMaster bme d3hot d = resumeLink (mastered bme d3hot d) := by
  unfold busMaster
  rw [if_neg (by simp [reach])]
  rfl

theorem mastered_keeps (bme d3hot : Bool) (d : Dev) :
    (restOfLink (mastered bme d3hot d)).bme = bme ∧ (restOfLink (mastered bme d3hot d)).d3hot = d3hot ∧
      (mastered bme d3hot d).tier = d.tier ∧ (mastered bme d3hot d).keys = d.keys := by
  unfold mastered dropKick
  split
  · exact ⟨rfl, rfl, rfl, rfl⟩
  · split <;> exact ⟨rfl, rfl, rfl, rfl⟩

theorem bme_of_rest (d : Dev) : (restOfLink d).bme = d.link.bme := rfl

theorem d3_of_rest (d : Dev) : (restOfLink d).d3hot = d.link.d3hot := rfl

/-! ### Errors of the receiver -/

theorem aerSet_aer (a : Aer) (d : Dev) : ∀ x, x ≠ a → (x ∈ (aerSet a d).link.aer ↔ x ∈ d.link.aer) := by
  intro x other
  unfold aerSet
  extract_lets +onlyGivenNames _ d₁ y
  have there : x ∈ d₁.link.aer ↔ x ∈ d.link.aer := by
    unfold d₁
    split
    · rfl
    · exact (List.mem_append.trans (or_iff_left (by simp [other])))
  split
  · exact there
  · exact there

/-! ### Configuration writes -/

theorem mem_markAer (a : Aer) (v : Bool) (l : List Aer) : a ∈ markAer a v l ↔ v = true := by
  unfold markAer
  cases v with
  | false => simp
  | true =>
    rw [if_pos rfl]
    by_cases here : a ∈ l <;> simp [here]

theorem clearAer_first (x : Aer) (d : Dev) : (clearAer x d).link.aerCap.first ≠ some x := by
  have first : (clearAer x d).link.aerCap.first = if d.link.aerCap.first = some x then none else d.link.aerCap.first := rfl
  rw [first]
  split
  · simp
  · assumption

theorem mem_clearAer (x y : Aer) (d : Dev) : y ∈ (clearAer x d).link.aer ↔ y ≠ x ∧ y ∈ d.link.aer := by
  have aer : (clearAer x d).link.aer = d.link.aer.filter (· ≠ x) := rfl
  rw [aer, List.mem_filter, decide_eq_true_eq, and_comm]

theorem barWrite_toNat (old : DWord) (size : Nat) (v : Word) :
    (barWrite old size false v.toNat).toNat % 2 ^ 32 = v.toNat / size * size ∧
      (barWrite old size false v.toNat).toNat / 2 ^ 32 = old.toNat / 2 ^ 32 ∧
      (barWrite old size true v.toNat).toNat / 2 ^ 32 = v.toNat := by
  have vlt := v.isLt
  have olt := old.isLt
  have below : v.toNat / size * size ≤ v.toNat := Nat.div_mul_le_self ..
  unfold barWrite
  dsimp only
  rw [if_neg (by decide), if_neg (by decide), if_pos rfl, if_pos rfl, Nat.mod_eq_of_lt vlt]
  simp only [BitVec.toNat_ofNat]
  generalize v.toNat / size * size = x at below
  omega

theorem configWrite_reached {w : CfgWrite} {s : State} {P : Dev → Prop} (reach : cfgReach s.dev = true)
    (holds : P (configWrite w s.dev)) : Completes (.configSpaceWrite w) s P := by
  refine completes_of_exec_eq_act (f := fun d => if cfgReach d then configWrite w d else d) rfl ?_
  rw [if_pos reach]
  exact holds

theorem configHeader_bars (d : Dev) :
    configHeader d 0x10 = d.link.bar0.toNat % 2 ^ 32 + 4 ∧ configHeader d 0x14 = d.link.bar0.toNat / 2 ^ 32 ∧
      configHeader d 0x18 = d.link.bar2.toNat % 2 ^ 32 + 4 ∧ configHeader d 0x1C = d.link.bar2.toNat / 2 ^ 32 := ⟨rfl, rfl, rfl, rfl⟩

theorem configWrite_bars {s : State} (reach : cfgReach s.dev = true) (v : Word) :
    Completes (.configSpaceWrite (.bar 0 v)) s (fun e => e = { s.dev with link.bar0 := e.link.bar0 } ∧
        configHeader e 0x10 = v.toNat / 16384 * 16384 + 4 ∧ configHeader e 0x14 = configHeader s.dev 0x14) ∧
      Completes (.configSpaceWrite (.bar 1 v)) s (fun e => e = { s.dev with link.bar0 := e.link.bar0 } ∧
        configHeader e 0x14 = v.toNat) ∧
      Completes (.configSpaceWrite (.bar 2 v)) s (fun e => e = { s.dev with link.bar2 := e.link.bar2 } ∧
        configHeader e 0x18 = v.toNat / 65536 * 65536 + 4 ∧ configHeader e 0x1C = configHeader s.dev 0x1C) ∧
      Completes (.configSpaceWrite (.bar 4 v)) s fun e => e = s.dev := by
  obtain ⟨low0, high0, up0⟩ := barWrite_toNat s.dev.link.bar0 16384 v
  obtain ⟨low2, high2, -⟩ := barWrite_toNat s.dev.link.bar2 65536 v
  refine ⟨configWrite_reached reach ⟨rfl, ?_⟩, configWrite_reached reach ⟨rfl, ?_⟩, configWrite_reached reach ⟨rfl, ?_⟩,
    configWrite_reached reach rfl⟩
  · rw [(configHeader_bars _).1, (configHeader_bars _).2.1, (configHeader_bars _).2.1]
    exact ⟨congrArg (· + 4) low0, high0⟩
  · rw [(configHeader_bars _).2.1]
    exact up0
  · rw [(configHeader_bars _).2.2.1, (configHeader_bars _).2.2.2, (configHeader_bars _).2.2.2]
    exact ⟨congrArg (· + 4) low2, high2⟩

/-! ### The reset of the host interface -/

theorem hostInterfaceReset_resets {r : HostReset} {d : Dev} (up : d.link.up = true) (perst : d.pwr.perst = false) (on : awake d = true) :
    SameBut [.link] (hostReset d) (hostInterfaceReset r d) ∧ (hostInterfaceReset r d).link.up = decide (r = .flr) ∧
      (hostInterfaceReset r d).link.training = decide (r ≠ .flr) := by
  have down := hostReset_linkUp d
  have still : (hostReset d).link.training = false := by
    rw [(sameBut_hostReset_tail d).link_eq (by decide) (by decide)]
    exact (hostCleared_link _).training
  have taken : hostInterfaceReset r d = match r with
      | .flr => { hostReset d with link.up := true, link.rate := d.link.rate, link.twoLanes := d.link.twoLanes }
      | .hotReset => { hostReset d with link.training := true }
      | .linkDown => { hostReset d with link.training := true } := by
    cases r <;> exact if_neg (by simp [up, perst, on])
  rw [taken]
  cases r with
  | flr => exact ⟨mask_set_link (hostReset d) (by decide) _, rfl, still⟩
  | hotReset => exact ⟨mask_set_link (hostReset d) (by decide) _, down, rfl⟩
  | linkDown => exact ⟨mask_set_link (hostReset d) (by decide) _, down, rfl⟩

theorem hostReset_regs (d : Dev) : (hostReset d).regs = hostRegs d.regs ∧ (hostReset d).sweep = {} := by
  have tail := sameBut_hostReset_tail d
  have before : (resetRun (ringsDropped d)).regs = d.regs :=
    ((sameBut_resetRun _).regs_eq (by decide)).trans ((sameBut_ringsDropped d).regs_eq (by decide))
  have kept (e : Dev) : SameBut [.link] e (takeSsid e) := mask_takeSsid (by decide) e
  have cleared (e : Dev) : (hostCleared e).regs = hostRegs e.regs ∧ (hostCleared e).sweep = {} :=
    ⟨(kept _).regs_eq (by decide), (kept _).sweep_eq (by decide)⟩
  rw [tail.regs_eq (by decide), tail.sweep_eq (by decide), (cleared _).1, (cleared _).2, before]
  exact ⟨rfl, rfl⟩

/-- Settles O49: AER's own registers by log entry 77. -/
theorem hostLinkCommands : Obligations.HostLinkCommands := by
  intro s
  refine ⟨fun v reach en unmasked pending issue wf => ?_, fun reach => ?_, fun bme d3 reach => ?_, fun up perst aspm l0 idle => ?_,
    fun up perst on l idle allowed => ?_, fun up perst on l => ?_, fun up perst => ?_, fun reach => ?_, fun r up perst on => ?_⟩
  · refine completes_of_exec_eq_act (f := msixUnmask (.vector v)) rfl ?_
    have sent : msixUnmask (.vector v) s.dev = sendPending v.toNat (vectorMasked v.toNat false s.dev) := if_pos reach
    rw [sent, sendPending_sends (d := vectorMasked v.toNat false s.dev) en unmasked (msixEntry_vectorMasked wf) pending issue]
    exact ⟨rfl, pending_cleared v _, msixEntry_vectorMasked wf, rfl⟩
  · refine completes_of_exec_eq_act (f := msixUnmask .function) rfl ?_
    have sent : msixUnmask .function s.dev = sendAllPending { s.dev with link.funcMask := false } := if_pos reach
    rw [sent]
    obtain ⟨-, funcMask, same⟩ := sendAllPending_keeps { s.dev with link.funcMask := false }
    exact ⟨funcMask, (SameBut.trans (mask_set_link s.dev (by decide) _) same).eq⟩
  · refine completes_of_exec_eq_act (f := busMaster bme d3) rfl ?_
    rw [busMaster_takes reach]
    have same := sameBut_resumeLink (mastered bme d3 s.dev)
    obtain ⟨bme', d3', tier, keys⟩ := mastered_keeps bme d3 s.dev
    have link := restOfLink_resumeLink (mastered bme d3 s.dev)
    rw [same.tier_eq (by decide), same.keys_eq (by decide), ← bme_of_rest, ← d3_of_rest, link]
    exact ⟨bme', d3', tier, keys⟩
  · refine completes_of_exec_eq_act (f := l1Entry) rfl ?_
    unfold l1Entry
    exact if_pos (by simp [up, perst, aspm, l0, idle])
  · refine completes_of_exec_eq_act (f := l12Entry) rfl ?_
    rw [l12Entry_enters up perst on l idle allowed]
    have frame := followListen_frame { s.dev with link.lstate := .l12, link.clkreq := false }
    have ldo : (followListen { s.dev with link.lstate := .l12, link.clkreq := false }).pwr.phyLdo =
        !listening (followListen { s.dev with link.lstate := .l12, link.clkreq := false }) := by
      have awoken : awake { s.dev with link.lstate := .l12, link.clkreq := false } = true := on
      rw [listening_followListen, followListen_pwr, awoken]
      rfl
    generalize followListen { s.dev with link.lstate := .l12, link.clkreq := false } = e at frame ldo
    exact ⟨frame, ldo⟩
  · refine completes_of_exec_eq_act (f := l12Exit) rfl ?_
    rw [l12Exit_leaves up perst l]
    have same := sameBut_followListen { s.dev with link.lstate := .l0, link.clkreq := true }
    have link := same.link_eq (by decide) (by decide)
    have awoken : (followListen { s.dev with link.lstate := .l0, link.clkreq := true }).pwr.phyLdo = true :=
      followListen_l0 (d := { s.dev with link.lstate := .l0, link.clkreq := true }) rfl perst on
    generalize followListen { s.dev with link.lstate := .l0, link.clkreq := true } = d at link awoken
    obtain ⟨lstate, clkreq, held⟩ := resumeLink_l0 (d := d) (by rw [link]) (by rw [link])
    exact ⟨lstate, clkreq, by rw [(sameBut_resumeLink d).pwr_eq (by decide), awoken], held⟩
  · intro aer
    have sets (a : Aer) : aer a (onLink a s.dev) := by
      have on : onLink a s.dev = aerSet a s.dev := if_pos (by simp [up, perst])
      rw [on]
      exact ⟨aerSet_mem .., aerSet_aer a s.dev, aerSet_frame ..⟩
    exact ⟨fun r => completes_of_exec_eq_act (f := onLink .unsupportedRequest) rfl (sets _),
      completes_of_exec_eq_act (f := onLink .poisonedTlp) rfl (sets _),
      fun x => completes_of_exec_eq_act (f := onLink (rxAer x)) rfl (sets _)⟩
  · refine ⟨configWrite_reached reach rfl, fun c => configWrite_reached reach rfl, fun c => configWrite_reached reach rfl,
      fun v dis => configWrite_reached reach rfl, fun v => ⟨configWrite_reached reach rfl, configWrite_reached reach rfl,
        configWrite_reached reach rfl, configWrite_reached reach rfl, fun fm => configWrite_reached reach ?_⟩,
      configWrite_bars reach, fun x => configWrite_reached reach ?_, fun x v => ⟨configWrite_reached reach ⟨mem_markAer .., rfl⟩,
        configWrite_reached reach ⟨mem_markAer .., rfl⟩⟩, fun w v => configWrite_reached reach rfl,
      fun ns => configWrite_reached reach rfl, configWrite_reached reach rfl⟩
    · have sent : configWrite (.msixControl v fm) s.dev = sendAllPending { s.dev with link.msixEn := v, link.funcMask := fm } := rfl
      rw [sent]
      obtain ⟨msixEn, funcMask, same⟩ := sendAllPending_keeps { s.dev with link.msixEn := v, link.funcMask := fm }
      exact ⟨msixEn, funcMask, (SameBut.trans (mask_set_link s.dev (by decide) _) same).eq⟩
    · exact ⟨fun h => ((mem_clearAer ..).1 h).1 rfl, clearAer_first x s.dev, fun y other => (mem_clearAer ..).trans (and_iff_right other), rfl⟩
  · refine completes_of_exec_eq_act (f := hostInterfaceReset r) rfl ?_
    obtain ⟨same, linkUp, training⟩ := hostInterfaceReset_resets (r := r) up perst on
    obtain ⟨regs, sweep⟩ := hostReset_regs s.dev
    obtain ⟨run, bg, adm⟩ := hostReset_adm s.dev
    refine ⟨?_, linkUp, training, (same.regs_eq (by decide)).trans regs, (same.sweep_eq (by decide)).trans sweep, fun rings idle => ?_⟩
    · rw [same.adm_eq (by decide), adm]
    · have kept := SameBut.trans (sameBut_hostReset_idle rings idle) (same.mono (T := [.timers, .adm, .regs, .link, .sweep, .spdm, .ports]) (by decide))
      exact ⟨kept.queues_eq (by decide), kept.tier_eq (by decide), kept.keys_eq (by decide), kept.bind_eq (by decide)⟩

end Sys2Proof.Machine
end

section
/-!
Scrub steps (R380 to R386).
-/

namespace Sys2Proof.Machine

/-! ### A step of either walk -/

/-- The timers of a walk as its step starts: the gap's, and the lap's when none runs. -/
def stepStarted (gap lap : TimerId) (d : Dev) : Dev :=
  let d := startTimer gap d
  if timerOn d lap then d else startTimer lap d

theorem stepStarted_frame (gap lap : TimerId) (d : Dev) :
    stepStarted gap lap d = { d with tb.timers := (stepStarted gap lap d).tb.timers } := by
  unfold stepStarted
  dsimp only
  split <;> rfl

theorem addUpsets_nil (d : Dev) : addUpsets [] d = d := by
  unfold addUpsets
  split <;> rfl

theorem nearGroupFrom_congr {d e : Dev} (retired : e.tier.nearRetired = d.tier.nearRetired) (n : Nat) :
    nearGroupFrom e n = nearGroupFrom d n := by
  rw [nearGroupFrom, retired, nearGroupFrom]

section
variable {d : Dev} {g g' : Nat} (due : groupDue d d.regs.scrubNearEn .scrubNear d.regs.nearGap = true)
  (here : nearGroupFrom d d.rep.nearPos = some g) (next : nearGroupFrom d (g + 1) = some g')
include due here next

theorem scrubNear_steps (kept : (nearGroup g (stepStarted .scrubNear .lapNear d)).tier.nearRetired = d.tier.nearRetired) :
    scrubNear [] d = { nearGroup g (stepStarted .scrubNear .lapNear d) with rep.nearPos := g + 1 } := by
  have started := stepStarted_frame .scrubNear .lapNear d
  have pos : nearGroupFrom (stepStarted .scrubNear .lapNear d) (stepStarted .scrubNear .lapNear d).rep.nearPos = some g := by
    rw [nearGroupFrom_congr (d := d) (by rw [started]), show (stepStarted .scrubNear .lapNear d).rep = d.rep by rw [started], here]
  unfold scrubNear
  rw [addUpsets_nil]
  dsimp only
  rw [if_neg (by simp [due])]
  split
  next none_ => exact absurd (pos.symm.trans none_) (by simp)
  next x found =>
    obtain rfl : g = x := Option.some.inj (pos.symm.trans found)
    split
    next y _ => rfl
    next none_ => exact absurd ((nearGroupFrom_congr kept (g + 1)).symm.trans none_) (by simp [next])

theorem scrubNear_clean (none_ : d.rep.upset = []) :
    scrubNear [] d = { d with rep.nearPos := g + 1, tb.timers := (stepStarted .scrubNear .lapNear d).tb.timers } := by
  have started := stepStarted_frame .scrubNear .lapNear d
  have idle : nearGroup g (stepStarted .scrubNear .lapNear d) = stepStarted .scrubNear .lapNear d := by
    unfold nearGroup
    rw [show (stepStarted .scrubNear .lapNear d).rep = d.rep by rw [started], none_]
    rfl
  rw [scrubNear_steps due here next (by rw [idle, started]), idle]
  rw [started]

end

/-! ### A word with one error -/

/-- The device with a word's error corrected and its address on the suspect list. -/
def suspected (a : Nat) (d : Dev) : Dev :=
  { d with
    rep.nearCorr := sat32 d.rep.nearCorr 1
    rep.upset := tblErase d.rep.upset a
    rep.nearSuspects := addSuspect a d.rep.nearSuspects }

theorem mem_addSuspect (a : Nat) (l : List Suspect) : ∃ y ∈ addSuspect a l, y.addr = a := by
  unfold addSuspect
  dsimp only
  refine ⟨{ addr := a }, ?_, rfl⟩
  rw [List.drop_append_of_le_length (by simp)]
  exact List.mem_append_right _ (List.mem_singleton.2 rfl)

theorem readNear_corrects {a qid : Nat} {x : BitVec 74} {c : ChainSeg} {d : Dev} (upset : d.rep.upset = [(a, x)])
    (owner : nearOwner d (a / 512) = some (qid, c)) (written : a % 512 * 8 < c.used * ewBytes (queueOf d qid).cfg.ew)
    (one : upsetClass x = 1) (fresh : ∀ y ∈ d.rep.nearSuspects, y.addr ≠ a) :
    readNear a d = onQueue qid (residue c.pos (a % 512 * 8) (decodeUpset x).data) (suspected a d) := by
  have found : tblFind d.rep.upset a = some x := by
    rw [upset]
    exact if_pos rfl
  have corrected : correctedNear a d = suspected a d := by
    have unlisted : ¬ (d.rep.nearSuspects.any fun s => decide (s.addr = a)) = true := by simpa using fresh
    exact if_neg unlisted
  unfold readNear
  rw [found]
  dsimp only
  rw [owner]
  dsimp only
  rw [if_neg (by omega), one, if_neg (by decide), if_neg (by decide), if_pos rfl, corrected]

theorem nearGroup_one {g a : Nat} {x : BitVec 74} {d : Dev} (upset : d.rep.upset = [(a, x)]) (group : a / 8 = g) :
    nearGroup g d = readNear a d := by
  unfold nearGroup
  rw [upset]
  simp [group]

/-! ### The deep walk -/

theorem sectorFrom_congr {d e : Dev} (tier : e.tier = d.tier) (a : Nat) : sectorFrom e a = sectorFrom d a := by
  have same (n : Nat) : walked e n = walked d n := by
    rw [walked, tier, walked]
  have from_ (n : Nat) : walkFrom e n = walkFrom d n := by
    have : walked e = walked d := funext same
    rw [walkFrom, tier, this, walkFrom]
  rw [sectorFrom, from_, sectorFrom]

section
variable {d : Dev} {a a' : Nat} {r : DeepRead} (due : groupDue d d.regs.scrubDeepEn .scrubDeep d.regs.deepGap = true)
  (here : sectorFrom d d.rep.deepPos = some a) (next : sectorFrom d (a + 1) = some a') (keyless : d.keys.slots = [])
include due here next keyless

/-- A step whose reading moves nothing of the tier and of the keys. -/
theorem scrubDeep_steps (tier : (deepGroup a r (stepStarted .scrubDeep .lapDeep d)).tier = d.tier)
    (keys : (deepGroup a r (stepStarted .scrubDeep .lapDeep d)).keys = d.keys) :
    scrubDeep r d = { deepGroup a r (stepStarted .scrubDeep .lapDeep d) with rep.deepPos := a + 1 } := by
  have started := stepStarted_frame .scrubDeep .lapDeep d
  have pos : sectorFrom (stepStarted .scrubDeep .lapDeep d) (stepStarted .scrubDeep .lapDeep d).rep.deepPos = some a := by
    rw [sectorFrom_congr (d := d) (by rw [started]), show (stepStarted .scrubDeep .lapDeep d).rep = d.rep by rw [started], here]
  unfold scrubDeep
  dsimp only
  rw [if_neg (by simp [due])]
  split
  next none_ => exact absurd (pos.symm.trans none_) (by simp)
  next x found =>
    obtain rfl : a = x := Option.some.inj (pos.symm.trans found)
    split
    next y _ => exact settleKeys_none (show (deepGroup a r (stepStarted .scrubDeep .lapDeep d)).keys.slots = [] by rw [keys, keyless])
    next none_ => exact absurd ((sectorFrom_congr tier (a + 1)).symm.trans none_) (by simp [next])

theorem govTrack_scrubDeep_clean :
    ∃ t, govTrack (scrubDeep .clean d) = { d with rep.deepPos := a + 1, tb.timers := t } := by
  have started := stepStarted_frame .scrubDeep .lapDeep d
  have step := scrubDeep_steps due here next keyless (r := .clean)
    (show (stepStarted .scrubDeep .lapDeep d).tier = d.tier by rw [started])
    (show (stepStarted .scrubDeep .lapDeep d).keys = d.keys by rw [started])
  refine ⟨(govTrack (scrubDeep .clean d)).tb.timers, ?_⟩
  rw [(sameBut_govTrack (scrubDeep .clean d)).eq, step, started]
  rfl

theorem govTrack_scrubDeep_one :
    ∃ t, govTrack (scrubDeep .one d) =
      { d with rep.deepPos := a + 1, rep.deepCorr1 := sat32 d.rep.deepCorr1 1, tb.timers := t } := by
  have started := stepStarted_frame .scrubDeep .lapDeep d
  have step := scrubDeep_steps due here next keyless (r := .one)
    (show (stepStarted .scrubDeep .lapDeep d).tier = d.tier by rw [started])
    (show (stepStarted .scrubDeep .lapDeep d).keys = d.keys by rw [started])
  refine ⟨(govTrack (scrubDeep .one d)).tb.timers, ?_⟩
  rw [(sameBut_govTrack (scrubDeep .one d)).eq, step, started]
  rfl

end

/-- Settles O51. -/
theorem scrubStepsMoveTheWalks : Obligations.ScrubStepsMoveTheWalks := by
  intro s
  refine ⟨fun g g' due here next => ⟨fun none_ => ?_, fun a x qid c upset group owner written one fresh => ?_⟩,
    fun a a' due here next keyless => ⟨?_, ?_⟩⟩
  · refine completes_of_exec_eq_act (f := scrubNear []) rfl ?_
    rw [scrubNear_clean due here next none_]
  · refine completes_of_exec_eq_act (f := scrubNear []) rfl ?_
    have started := stepStarted_frame .scrubNear .lapNear s.dev
    have rep : (stepStarted .scrubNear .lapNear s.dev).rep = s.dev.rep := by rw [started]
    have read : nearGroup g (stepStarted .scrubNear .lapNear s.dev) =
        onQueue qid (residue c.pos (a % 512 * 8) (decodeUpset x).data) (suspected a (stepStarted .scrubNear .lapNear s.dev)) := by
      rw [nearGroup_one (by rw [rep, upset]) group]
      refine readNear_corrects (by rw [rep, upset]) ?_ ?_ one (by rw [rep]; exact fresh)
      · rw [started]; exact owner
      · rw [started]; exact written
    rw [scrubNear_steps due here next (by rw [read, started]; rfl), read]
    generalize stepStarted .scrubNear .lapNear s.dev = d at rep
    refine ⟨?_, ?_, ?_, rfl, ?_⟩
    · have erased : tblErase d.rep.upset a = [] := by
        rw [rep, upset]
        exact if_pos rfl
      exact erased
    · show sat32 d.rep.nearCorr 1 = sat32 s.dev.rep.nearCorr 1
      rw [rep]
    · exact mem_addSuspect a _
    · show d.rep.nearUncorr = s.dev.rep.nearUncorr
      rw [rep]
  · refine completes_of_exec_eq_act (f := fun d => govTrack (scrubDeep .clean d)) rfl ?_
    obtain ⟨t, eq⟩ := govTrack_scrubDeep_clean due here next keyless
    rw [eq]
  · refine completes_of_exec_eq_act (f := fun d => govTrack (scrubDeep .one d)) rfl ?_
    obtain ⟨t, eq⟩ := govTrack_scrubDeep_one due here next keyless
    rw [eq]

end Sys2Proof.Machine
end

section
/-!
What each operation leaves alone: the parts of the device that it changes at most.
-/

namespace Sys2Proof.Machine

@[simp] theorem mask_wakeReport {S : List Part} (hlink : .link ∈ S) (hout : .out ∈ S) (d : Dev) :
    mask S (wakeReport d) = mask S d := by
  unfold wakeReport
  split_ifs <;> simp only [mask_emitHost, mask_msix, mask_set_link, hlink, hout]

@[simp] theorem mask_wakeFire {S : List Part} (hregs : .regs ∈ S) (hlink : .link ∈ S) (hout : .out ∈ S)
    (pressure : Bool) (queue : Option Nat) (d : Dev) :
    mask S (wakeFire pressure queue d) = mask S d := by
  unfold wakeFire
  simp only []
  split <;> simp only [mask_wakeReport, mask_set_regs, hregs, hlink, hout]

@[simp] theorem mask_cutConsumers {S : List Part} (hrings : .rings ∈ S) (hports : .ports ∈ S)
    (hqueues : .queues ∈ S) (hfree : .free ∈ S) (gq : Nat) (why : EsbCut) (d : Dev) :
    mask S (cutConsumers gq why d) = mask S d := by
  unfold cutConsumers
  simp only []
  split_ifs <;> simp only [mask_takeFree, mask_onQueue, mask_putE, mask_issueEv, mask_set_rings, hrings, hports, hqueues, hfree]

@[simp] theorem mask_wakeRound {S : List Part} (hregs : .regs ∈ S) (hlink : .link ∈ S) (hout : .out ∈ S) (qid : Nat)
    (was : Bool) (d : Dev) :
    mask S (wakeRound qid was d) = mask S d := by
  simp only [wakeRound, mask_wakeFire, mask_set_regs, hregs, hlink, hout]

@[simp] theorem mask_staged {S : List Part} (hstage : .stage ∈ S) (hepoch : .epoch ∈ S) (f : Stage → Stage)
    (d : Dev) :
    mask S (staged f d) = mask S d := by simp [staged, mask, hstage, hepoch]

@[simp] theorem mask_commitPair {S : List Part} (htimers : .timers ∈ S) (hports : .ports ∈ S) (staged : List Nat)
    (n : Nat)
    (d : Dev) : mask S (commitPair staged n d) = mask S d := by
  unfold commitPair
  dsimp only
  repeat' split
  all_goals simp only [mask_putPair, mask_issueEv, mask_cancelArm, mask_stopTimer, htimers, hports]

@[simp] theorem mask_commitPorts {S : List Part} (hports : .ports ∈ S) (st : Stage) (old : Bindings) (stamp : Nat)
    (d : Dev) :
    mask S (commitPorts st old stamp d) = mask S d := by
  unfold commitPorts
  extract_lets new port
  have one (k : Nat) (d : Dev) : mask S (port k d) = mask S d := by
    unfold port
    extract_lets rebound np remap d1
    have issued : mask S d1 = mask S d := mask_ite (mask_issueEv hports ..) rfl
    exact mask_ite ((mask_putE hports ..).trans issued) issued
  rw [one, one, one, one]

@[simp] theorem mask_commitDrains {S : List Part} (htimers : .timers ∈ S) (hout : .out ∈ S) (hrings : .rings ∈ S)
    (hpeers : .peers ∈ S) (old new : Bindings) (d : Dev) : mask S (commitDrains old new d) = mask S d := by
  unfold commitDrains
  refine mask_foldl (fun d e => ?_) _ d
  dsimp only
  split
  · rfl
  · rw [mask_foldl (fun d x => mask_armBind htimers hout hpeers x d), mask_putDrain hrings]

end Sys2Proof.Machine
end

section
/-!
The commit instant (R304 to R308, R15, R465, R492).
-/

namespace Sys2Proof.Machine

/-! ### What the work around a commit leaves as it is -/

/-- The configuration of a queue and the epoch it carries. -/
def liveCfg (d : Dev) (i : Nat) : QCfg × Word := ((queueOf d i).cfg, (queueOf d i).epoch)

/-- The epoch's state, the staging area, the bindings and the live configurations are as they were. -/
structure LiveStands (d e : Dev) : Prop where
  epoch : restOfEpoch e = restOfEpoch d
  stage : e.stage = d.stage
  bind : e.bind = d.bind
  wf : tblWf {} d.queues = true → tblWf {} e.queues = true
  cfg : tblWf {} d.queues = true → ∀ i, liveCfg e i = liveCfg d i

theorem LiveStands.refl (d : Dev) : LiveStands d d := ⟨rfl, rfl, rfl, id, fun _ _ => rfl⟩

theorem LiveStands.trans {a b c : Dev} (h : LiveStands a b) (k : LiveStands b c) : LiveStands a c :=
  ⟨k.epoch.trans h.epoch, k.stage.trans h.stage, k.bind.trans h.bind, fun wf => k.wf (h.wf wf),
    fun wf i => (k.cfg (h.wf wf) i).trans (h.cfg wf i)⟩

/-- The last step, and what leads up to it. -/
theorem LiveStands.after {a b c : Dev} (k : LiveStands b c) (h : LiveStands a b) : LiveStands a c := h.trans k

theorem SameBut.liveStands {S : List Part} {d e : Dev} (h : SameBut S d e) (p : .queues ∉ S ∧ .epoch ∉ S ∧ .stage ∉ S ∧ .bind ∉ S) :
    LiveStands d e := by
  obtain ⟨queues, epoch, stage, bind⟩ := p
  refine ⟨by rw [restOfEpoch, h.epoch_eq epoch, restOfEpoch], h.stage_eq stage, h.bind_eq bind, by rw [h.queues_eq queues]; exact id,
    fun _ i => ?_⟩
  rw [liveCfg, queueOf, h.queues_eq queues, liveCfg, queueOf]

theorem StorageMoves.liveStands {S : List Part} {d e : Dev} (h : StorageMoves d e) (same : SameBut S d e)
    (p : .stage ∉ S ∧ .bind ∉ S) : LiveStands d e := by
  refine ⟨h.epoch, same.stage_eq p.1, same.bind_eq p.2, h.wf, fun wf i => ?_⟩
  show ((restOfQueue (queueOf e i)).cfg, (restOfQueue (queueOf e i)).epoch) =
    ((restOfQueue (queueOf d i)).cfg, (restOfQueue (queueOf d i)).epoch)
  rw [h.rest wf i]

theorem liveStands_put {i : Nat} {q : Queue} {d : Dev} (cfg : q.cfg = (queueOf d i).cfg) (epoch : q.epoch = (queueOf d i).epoch) :
    LiveStands d (putQueue i q d) := by
  refine ⟨rfl, rfl, rfl, fun wf => putQueue_wf wf i q, fun wf j => ?_⟩
  by_cases here : j = i
  · rw [here, liveCfg, queueOf_put_same wf, cfg, epoch, liveCfg]
  · rw [liveCfg, queueOf_put_other d q here, liveCfg]

theorem liveStands_on {i : Nat} {f : Queue → Queue} {d : Dev} (cfg : ∀ q, (f q).cfg = q.cfg) (epoch : ∀ q, (f q).epoch = q.epoch) :
    LiveStands d (onQueue i f d) := liveStands_put (cfg _) (epoch _)

theorem liveStands_foldl {β : Type} {f : Dev → β → Dev} (stands : ∀ d x, LiveStands d (f d x)) (l : List β) :
    ∀ d, LiveStands d (l.foldl f d) := by
  induction l with
  | nil => exact .refl
  | cons x l ih => intro d; exact (stands d x).trans (ih _)

theorem liveStands_writeUnseal (d : Dev) : LiveStands d (writeUnseal d) := by
  have same : SameBut [.timers, .epoch, .queues, .tier] d (writeUnseal d) :=
    mask_writeUnseal (by decide) (by decide) (by decide) (by decide) d
  refine StorageMoves.liveStands ?_ same (by decide)
  unfold writeUnseal
  split
  · exact (storageMoves_flushJournal _).after (storageMoves_addRecord ..)
  · exact .refl d

theorem liveStands_cutConsumers (gq : Nat) (why : EsbCut) (d : Dev) : LiveStands d (cutConsumers gq why d) := by
  unfold cutConsumers
  extract_lets +onlyGivenNames cut cutBoth q holds
  have one (e : Nat) (d : Dev) : LiveStands d (cut e d) := by
    have ports (d' : Dev) (p : EPort) (h : LiveStands d d') : LiveStands d (putE e p d') :=
      h.trans (SameBut.liveStands (S := [.ports]) (mask_putE (by decide) ..) (by decide))
    unfold cut
    dsimp only
    split
    · exact ports _ _ (SameBut.liveStands (S := [.ports]) (mask_issueEv (by decide) ..) (by decide))
    · exact ports _ _ (.refl d)
  have both : LiveStands d cutBoth := (one 0 d).trans (one 1 _)
  clear_value cutBoth
  split
  · exact both
  · extract_lets +onlyGivenNames f _ _ moved
    have drains : LiveStands cutBoth moved :=
      SameBut.liveStands (S := [.free, .rings])
        (SameBut.trans (b := (takeFree cutBoth).2) (mask_takeFree (by decide) _) (mask_set_rings _ (by decide) _)) (by decide)
    clear_value moved
    exact (both.trans drains).trans (liveStands_on (fun _ => rfl) fun _ => rfl)

theorem liveStands_releaseUnused (qid : Nat) (d : Dev) : LiveStands d (releaseUnused qid d) :=
  (storageMoves_releaseUnused qid d).liveStands (S := [.timers, .link, .out, .epoch, .queues, .tier, .rep, .err, .peers])
    (mask_releaseUnused (by decide) (by decide) (by decide) (by decide) (by decide) (by decide) (by decide) (by decide) (by decide) ..)
    (by decide)

/-! ### One staged QTE -/

theorem takeCfg_live (cfg : QCfg) (now : Word) (seq : Nat) (q : Queue) :
    (trimReserve (takeCfg cfg now seq q)).cfg = cfg ∧ (trimReserve (takeCfg cfg now seq q)).epoch = now := ⟨rfl, rfl⟩

/-- One queue has its new configuration; everything else stands. -/
structure QteTaken (i : Nat) (cfg : QCfg) (now : Word) (d e : Dev) : Prop where
  epoch : restOfEpoch e = restOfEpoch d
  stage : e.stage = d.stage
  bind : e.bind = d.bind
  wf : tblWf {} d.queues = true → tblWf {} e.queues = true
  taken : tblWf {} d.queues = true → liveCfg e i = (cfg, now)
  others : tblWf {} d.queues = true → ∀ j, j ≠ i → liveCfg e j = liveCfg d j

theorem QteTaken.after {i : Nat} {cfg : QCfg} {now : Word} {a b c : Dev} (k : QteTaken i cfg now b c) (h : LiveStands a b) :
    QteTaken i cfg now a c :=
  ⟨k.epoch.trans h.epoch, k.stage.trans h.stage, k.bind.trans h.bind, fun wf => k.wf (h.wf wf), fun wf => k.taken (h.wf wf),
    fun wf j ne => (k.others (h.wf wf) j ne).trans (h.cfg wf j)⟩

theorem LiveStands.afterTaken {i : Nat} {cfg : QCfg} {now : Word} {a b c : Dev} (k : LiveStands b c) (h : QteTaken i cfg now a b) :
    QteTaken i cfg now a c :=
  ⟨k.epoch.trans h.epoch, k.stage.trans h.stage, k.bind.trans h.bind, fun wf => k.wf (h.wf wf),
    fun wf => (k.cfg (h.wf wf) i).trans (h.taken wf), fun wf j ne => (k.cfg (h.wf wf) j).trans (h.others wf j ne)⟩

theorem qteTaken_put {i : Nat} {q : Queue} {cfg : QCfg} {now : Word} (hcfg : q.cfg = cfg) (epoch : q.epoch = now) (d : Dev) :
    QteTaken i cfg now d (putQueue i q d) := by
  refine ⟨rfl, rfl, rfl, fun wf => putQueue_wf wf i q, fun wf => ?_, fun wf j ne => ?_⟩
  · rw [liveCfg, queueOf_put_same wf, hcfg, epoch]
  · rw [liveCfg, queueOf_put_other d q ne, liveCfg]

theorem qteTaken_commitQte (qid : Nat) (cfg : QCfg) (now : Word) (seq : Nat) (d : Dev) :
    QteTaken qid cfg now d (commitQte qid cfg now seq d) := by
  unfold commitQte
  extract_lets +onlyGivenNames gq cut q settled released
  have before : LiveStands d cut := by
    unfold cut
    split
    · exact liveStands_cutConsumers ..
    · exact .refl d
  have put : QteTaken qid cfg now cut (putQueue qid (trimReserve q) cut) :=
    qteTaken_put (takeCfg_live cfg now seq (queueOf cut qid)).1 (takeCfg_live cfg now seq (queueOf cut qid)).2 cut
  have settles : LiveStands (putQueue qid (trimReserve q) cut) settled := by
    have noted : StorageMoves (putQueue qid (trimReserve q) cut) (noteShort qid (putQueue qid (trimReserve q) cut)) :=
      SameBut.storageMoves (S := [.tier]) (mask_noteShort (by decide) ..) (by decide) (by decide)
    exact StorageMoves.liveStands (S := [.queues, .tier]) ((storageMoves_settleShorts _).after noted)
      ((mask_settleShorts (by decide) (by decide) _).trans (mask_noteShort (by decide) ..)) (by decide)
  have releases : LiveStands settled released := liveStands_releaseUnused ..
  refine LiveStands.afterTaken (b := released) ?_ (releases.afterTaken (settles.afterTaken (put.after before)))
  exact SameBut.liveStands (S := [.ports]) (mask_set_ports released (by decide) _) (by decide)

/-- The staged QTEs have become live one by one. -/
def commitQtes (now : Word) (seq : Nat) (qtes : Tbl QCfg) (d : Dev) : Dev :=
  qtes.foldl (fun d e => commitQte e.1 e.2 now seq d) d

theorem commitQtes_live (now : Word) (seq : Nat) {qtes : Tbl QCfg} (sorted : tblSorted qtes = true) {d : Dev}
    (wf : tblWf {} d.queues = true) :
    restOfEpoch (commitQtes now seq qtes d) = restOfEpoch d ∧ (commitQtes now seq qtes d).stage = d.stage ∧
      (commitQtes now seq qtes d).bind = d.bind ∧ tblWf {} (commitQtes now seq qtes d).queues = true ∧
      ∀ i, liveCfg (commitQtes now seq qtes d) i = ((tblFind qtes i).map fun cfg => (cfg, now)).getD (liveCfg d i) := by
  induction qtes generalizing d with
  | nil => exact ⟨rfl, rfl, rfl, wf, fun _ => rfl⟩
  | cons x qtes ih =>
    obtain ⟨k, cfg⟩ := x
    obtain ⟨above, sorted'⟩ := tblSorted_cons.1 sorted
    have one := qteTaken_commitQte k cfg now seq d
    have unfolded : commitQtes now seq ((k, cfg) :: qtes) d = commitQtes now seq qtes (commitQte k cfg now seq d) := by
      rw [commitQtes, List.foldl_cons, commitQtes]
    rw [unfolded]
    generalize commitQte k cfg now seq d = d' at one
    obtain ⟨epoch, stage, bind, wf', live⟩ := ih sorted' (one.wf wf)
    refine ⟨by rw [epoch, one.epoch], by rw [stage, one.stage], by rw [bind, one.bind], wf', fun i => ?_⟩
    rw [live]
    by_cases here : k = i
    · subst here
      rw [tblFind_above above, tblFind, if_pos rfl]
      exact one.taken wf
    · rw [tblFind, if_neg here, one.others wf i (Ne.symm here)]

/-! ### What follows at each queue -/

theorem liveStands_spillCheck (qid : Nat) : ∀ (n : Nat) (d : Dev), LiveStands d (spillCheck n qid d) := by
  intro n
  induction n with
  | zero => exact .refl
  | succ n ih =>
    intro d
    unfold spillCheck
    dsimp only
    split
    · split
      · refine (ih _).after ?_
        exact LiveStands.after (liveStands_on (fun _ => rfl) fun _ => rfl)
          (SameBut.liveStands (S := [.tier]) (mask_set_tier d (by decide) _) (by decide))
      · exact .refl d
    · exact .refl d

theorem liveStands_readCheck (qid : Nat) (d : Dev) : LiveStands d (readCheck qid d) := by
  unfold readCheck
  extract_lets +onlyGivenNames q
  split
  · exact .refl d
  · extract_lets +onlyGivenNames ahead coming cand0 cand
    refine liveStands_foldl (fun e s => ?_) _ d
    have asked (node type : Nat) (payload : Bytes) (e : Dev) : LiveStands e (sendSeq node type payload e) :=
      SameBut.liveStands (S := [.timers, .out, .peers]) (mask_sendSeq (by decide) (by decide) (by decide) ..) (by decide)
    split
    · dsimp only
      split
      · exact (asked ..).after (liveStands_on (fun _ => rfl) fun _ => rfl)
      · exact liveStands_on (fun _ => rfl) fun _ => rfl
    · exact .refl e

theorem liveStands_drainWaitCheck (qid : Nat) (d : Dev) : LiveStands d (drainWaitCheck qid d) := by
  unfold drainWaitCheck
  dsimp only
  split
  · split
    · exact LiveStands.after (SameBut.liveStands (S := [.timers]) (mask_stopTimer (by decide) ..) (by decide))
        (liveStands_put rfl rfl)
    · exact .refl d
  · split
    · exact SameBut.liveStands (S := [.timers]) (mask_startTimer (by decide) ..) (by decide)
    · exact .refl d

theorem liveStands_wakeRound (qid : Nat) (was : Bool) (d : Dev) : LiveStands d (wakeRound qid was d) :=
  SameBut.liveStands (S := [.regs, .link, .out]) (mask_wakeRound (by decide) (by decide) (by decide) ..) (by decide)

theorem liveStands_mirrorWrite (qid : Nat) (d : Dev) : LiveStands d (mirrorWrite qid d) := by
  unfold mirrorWrite
  exact LiveStands.after (SameBut.liveStands (S := [.timers, .link, .out])
    ((mask_startTimer (by decide) ..).trans (mask_memWrite (by decide) (by decide) ..)) (by decide)) (liveStands_put rfl rfl)

theorem liveStands_queueAfter (qid n : Nat) (was : Bool) (d : Dev) :
    LiveStands d (drainWaitCheck qid (wakeRound qid was (onQueue qid (setFlags d) (readCheck qid (spillCheck n qid d))))) := by
  have read := (liveStands_spillCheck qid n d).trans (liveStands_readCheck qid _)
  generalize readCheck qid (spillCheck n qid d) = d₁ at read
  have flags : LiveStands d₁ (onQueue qid (setFlags d) d₁) := liveStands_on (fun _ => rfl) fun _ => rfl
  exact read.trans (flags.trans ((liveStands_wakeRound ..).trans (liveStands_drainWaitCheck ..)))

end Sys2Proof.Machine
end

section
/-!
The commit instant: what is live afterwards (R304 to R308, R15).
-/

namespace Sys2Proof.Machine

/-- The epoch's state as the commit instant leaves it, before the queues take their QTEs. -/
def epochAdvanced (e : Epoch) : Epoch :=
  { e with
    now := nextEpoch e.now, seq := e.seq + 1, fence := false, fenced := [], fencedPorts := [], fencedRings := []
    taken := none, during := {}, cfgChanged := true }

/-- The epoch, the staging area and the bindings as the commit instant takes them up. -/
def stageTaken (st : Stage) (d : Dev) : Dev :=
  { d with
    bind := st.bind.getD d.bind
    stage := stageAfter d.epoch.during (st.bind.getD d.bind)
    epoch := epochAdvanced d.epoch }

theorem epoch_fields_of_rest {d e : Dev} (h : restOfEpoch e = restOfEpoch d) :
    e.epoch.now = d.epoch.now ∧ e.epoch.seq = d.epoch.seq ∧ e.epoch.fence = d.epoch.fence ∧ e.epoch.fenced = d.epoch.fenced ∧
      e.epoch.fencedPorts = d.epoch.fencedPorts ∧ e.epoch.fencedRings = d.epoch.fencedRings ∧ e.epoch.taken = d.epoch.taken ∧
      e.epoch.during = d.epoch.during := by
  have field {α : Type} (f : Epoch → α) : f (restOfEpoch e) = f (restOfEpoch d) := by rw [h]
  exact ⟨field Epoch.now, field Epoch.seq, field Epoch.fence, field Epoch.fenced, field Epoch.fencedPorts, field Epoch.fencedRings,
    field Epoch.taken, field Epoch.during⟩

/-- Ports, rings, pairs and flags follow a commit; the command ends. -/
theorem commitInstant_follows {d : Dev} {st : Stage} (fence : d.epoch.fence = true) (still : d.epoch.allFence = false)
    (taken : d.epoch.taken = some st) :
    ∃ u, LiveStands d u ∧
      LiveStands (commitQtes (nextEpoch u.epoch.now) (u.epoch.seq + 1) st.qtes (stageTaken st u)) (commitInstant d) := by
  unfold commitInstant
  split
  case h_2 other => exact absurd taken (other st (by rw [fence, still]; rfl))
  next st' _ taken' =>
  obtain rfl : st = st' := Option.some.inj (taken.symm.trans taken')
  extract_lets +onlyGivenNames persists u now stamp old new was _ took qtes drains pairs waits flags ended
  refine ⟨u, ?_, ?_⟩
  · unfold u
    split
    · exact liveStands_writeUnseal d
    · exact .refl d
  · have one : LiveStands qtes drains :=
      SameBut.liveStands (S := [.timers, .out, .rings, .peers, .ports])
        ((mask_commitDrains (by decide) (by decide) (by decide) (by decide) ..).trans (mask_commitPorts (by decide) ..)) (by decide)
    have two : LiveStands drains pairs :=
      SameBut.liveStands (S := [.timers, .ports])
        ((mask_commitPair (by decide) (by decide) ..).trans (mask_commitPair (by decide) (by decide) ..)) (by decide)
    have three : LiveStands pairs waits := by
      refine liveStands_foldl (fun e b => ?_) _ pairs
      split
      · exact liveStands_drainWaitCheck ..
      · exact .refl e
    have four : LiveStands waits flags := by
      refine liveStands_foldl (fun e x => ?_) _ waits
      have after := liveStands_queueAfter x.1 512 x.2 e
      dsimp only
      split
      · exact after.trans (liveStands_mirrorWrite ..)
      · exact after
    have five : LiveStands flags ended :=
      SameBut.liveStands (S := [.timers, .link, .out, .adm, .sweep, .err, .cas, .peers])
        (mask_finishRun (by decide) (by decide) (by decide) (by decide) (by decide) (by decide) (by decide) (by decide) ..) (by decide)
    have six : LiveStands ended (settleKeys (pumpFlags (stallChecks ended))) :=
      SameBut.liveStands (S := [.timers, .link, .out, .rings, .ports, .tier, .keys, .free])
        ((mask_settleKeys (by decide) (by decide) (by decide) _).trans ((mask_pumpFlags (by decide) (by decide) (by decide) (by decide)
          (by decide) _).trans (mask_stallChecks (by decide) _))) (by decide)
    have rest := one.trans (two.trans (three.trans (four.trans (five.trans six))))
    exact rest

theorem commitInstant_waits {d : Dev} (all : d.epoch.allFence = true) : commitInstant d = d := by
  unfold commitInstant
  rw [all]
  simp

/-- Settles O44. -/
theorem commitInstantMakesTheStageLive : Obligations.CommitInstantMakesTheStageLive := by
  refine ⟨fun s st fence still taken sorted wf => ?_, fun s all => ?_⟩
  · refine completes_of_exec_eq_act (f := fun d => govTrack (commitInstant d)) rfl ?_
    obtain ⟨u, before, after⟩ := commitInstant_follows fence still taken
    have tracked : LiveStands (commitInstant s.dev) (govTrack (commitInstant s.dev)) :=
      (sameBut_govTrack _).liveStands (by decide)
    have live := after.trans tracked
    generalize govTrack (commitInstant s.dev) = e at live
    obtain ⟨now, seq, -, -, -, -, -, during⟩ := epoch_fields_of_rest before.epoch
    have wf' : tblWf {} (stageTaken st u).queues = true := before.wf wf
    obtain ⟨epoch, stage, bind, wf'', cfg⟩ := commitQtes_live (nextEpoch u.epoch.now) (u.epoch.seq + 1) sorted wf'
    obtain ⟨now', seq', fence', fenced, ports, rings, taken', during'⟩ := epoch_fields_of_rest (live.epoch.trans epoch)
    have bind' : e.bind = st.bind.getD s.dev.bind := by
      rw [live.bind, bind, ← before.bind]
      rfl
    have epochNow : e.epoch.now = nextEpoch s.dev.epoch.now := by rw [now', ← now]; rfl
    have queue (q : Nat) : liveCfg e q = ((tblFind st.qtes q).map fun cfg => (cfg, e.epoch.now)).getD (liveCfg s.dev q) := by
      rw [live.cfg wf'', cfg, epochNow, ← now]
      exact congrArg _ (before.cfg wf q)
    refine ⟨epochNow, fence', taken', by rw [seq', ← seq]; rfl, fenced, ports, rings, during', ?_, bind', fun q => ?_⟩
    · rw [live.stage, stage, bind', ← before.bind, ← during]
      rfl
    · have q' := queue q
      cases found : tblFind st.qtes q with
      | none =>
        rw [found] at q'
        exact ⟨congrArg Prod.fst q', fun h => by simp at h⟩
      | some c =>
        rw [found] at q'
        exact ⟨congrArg Prod.fst q', fun _ => congrArg Prod.snd q'⟩
  · refine completes_of_exec_eq_act (f := fun d => govTrack (commitInstant d)) rfl ?_
    rw [commitInstant_waits all]
    exact (sameBut_govTrack s.dev).eq

end Sys2Proof.Machine
end

section
/-!
Deep programs, deep reads and the journal's timer (R326 to R350, R541): the tier's state behind a queue.
-/

namespace Sys2Proof.Machine

/-! ### What housekeeping leaves of the tier -/

/-- The programs that run, SEAL's progress, the level, the loans made and the cells. -/
def tierWork (d : Dev) : List Prog × Option SealRun × Int × Tbl Loan × Tbl Bytes :=
  (d.tier.active, d.tier.sealRun, d.tier.level, d.tier.loans, d.tier.cells)

/-- What counting a program changes of the tier. -/
theorem countProgram_tier (seg : Nat) (d : Dev) : ∃ w n c b, countProgram seg d =
    { d with tier.wear := w, tier.wearSince := n, tier.wearCopy := c, tier.wearB := b } := by
  have many (l : List Nat) (first : Nat) (e : Dev) : ∃ w n, l.foldl (fun d i => addWear (first + i) d) e =
      { e with tier.wear := w, tier.wearSince := n } := by
    induction l generalizing e with
    | nil => exact ⟨e.tier.wear, e.tier.wearSince, rfl⟩
    | cons i l ih =>
      obtain ⟨w, n, eq⟩ := ih (addWear (first + i) e)
      exact ⟨w, n, eq⟩
  unfold countProgram
  dsimp only
  split
  · unfold writeWearCopy
    dsimp only
    generalize List.range 9 = l
    generalize (if (addWear seg d).tier.wearB then 8464 else 8473) = first
    obtain ⟨w, n, eq⟩ := many l first (addWear seg d)
    rw [eq]
    exact ⟨_, _, _, _, rfl⟩
  · exact ⟨_, _, _, _, rfl⟩

theorem tierWork_congr {d e : Dev} (tier : e.tier = d.tier) : tierWork e = tierWork d := by
  rw [tierWork, tier, tierWork]

theorem tierWork_countProgram (seg : Nat) (d : Dev) : tierWork (countProgram seg d) = tierWork d := by
  obtain ⟨w, n, c, b, eq⟩ := countProgram_tier seg d
  rw [eq]
  rfl

theorem tierWork_foldl {β : Type} {f : Dev → β → Dev} (same : ∀ d x, tierWork (f d x) = tierWork d) (l : List β) :
    ∀ d, tierWork (l.foldl f d) = tierWork d := by
  induction l with
  | nil => exact fun _ => rfl
  | cons x l ih => intro d; exact (ih _).trans (same d x)

theorem tierWork_writeImage (d : Dev) : tierWork (writeImage d) = tierWork d := by
  unfold writeImage
  extract_lets +onlyGivenNames first counted
  have same : tierWork counted = tierWork d := tierWork_foldl (fun _ _ => tierWork_countProgram ..) _ d
  clear_value counted
  exact same

theorem tierWork_freeReleased (recs : List JRec) (d : Dev) : tierWork (freeReleased recs d) = tierWork d := by
  unfold freeReleased
  refine tierWork_foldl (fun e r => ?_) recs d
  split
  · split <;> rfl
  · rfl

theorem tierWork_flushJournal (d : Dev) : tierWork (flushJournal d) = tierWork d := by
  unfold flushJournal
  split
  · rfl
  · extract_lets +onlyGivenNames recs counted _ freed stopped
    have before : tierWork stopped = tierWork d := by
      have counts : tierWork counted = tierWork d := tierWork_countProgram ..
      have frees : tierWork freed = tierWork counted := (tierWork_freeReleased ..).trans rfl
      exact Eq.trans (tierWork_congr rfl) (frees.trans counts)
    split
    · exact (tierWork_writeImage _).trans before
    · exact before

theorem tierWork_addRecord (r : JRec) (d : Dev) : tierWork (addRecord r d) = tierWork d := by
  unfold addRecord
  extract_lets +onlyGivenNames _ gathered timed
  have before : tierWork timed = tierWork d := by
    unfold timed
    split
    · rfl
    · exact tierWork_congr (d := gathered) rfl
  split
  · exact (tierWork_flushJournal _).trans before
  · exact before

theorem tierWork_writeRepair (d : Dev) : tierWork (writeRepair d) = tierWork d := by
  unfold writeRepair
  split
  · rfl
  · exact tierWork_countProgram ..

theorem tierWork_recordErr (code src obj : Nat) (d : Dev) : tierWork (recordErr code src obj d) = tierWork d :=
  tierWork_congr ((sameBut_capture ..).tier_eq (by decide))

theorem tierWork_retireNear (n : Nat) (d : Dev) : tierWork (retireNear n d) = tierWork d := by
  unfold retireNear
  dsimp only
  rw [tierWork_recordErr]
  exact tierWork_writeRepair d

theorem tierWork_fillShorts (n : Nat) : ∀ d, tierWork (fillShorts n d) = tierWork d := by
  induction n with
  | zero => exact fun _ => rfl
  | succ n ih =>
    intro d
    rw [fillShorts_succ]
    split
    · rfl
    · split
      · rw [ih]; rfl
      · split
        · rfl
        · rw [ih]; rfl

theorem tierWork_settleShorts (d : Dev) : tierWork (settleShorts d) = tierWork d := by
  unfold settleShorts
  split
  · exact tierWork_fillShorts ..
  · rfl

theorem tierWork_giveNear (qid n : Nat) (d : Dev) : tierWork (giveNear qid n d) = tierWork d := by
  have noted (e : Dev) : tierWork (noteShort qid e) = tierWork e := by
    unfold noteShort
    split <;> rfl
  unfold giveNear
  dsimp only
  split
  · rw [tierWork_settleShorts, noted, tierWork_retireNear]
    rfl
  · split
    · rw [tierWork_settleShorts]
      rfl
    · rw [tierWork_settleShorts]
      rfl

theorem tierWork_retireDeep (seg : Nat) (d : Dev) : tierWork (retireDeep seg d) = tierWork d := by
  unfold retireDeep
  extract_lets +onlyGivenNames repaired _ _ recorded
  have before : tierWork recorded = tierWork d := by
    have repairs : tierWork repaired = tierWork d := tierWork_writeRepair d
    clear_value repaired
    exact (tierWork_recordErr ..).trans repairs
  split
  · exact before
  · split
    · exact before
    · exact (tierWork_recordErr ..).trans before

theorem tierWork_queueRelocation {seg : Nat} {d e : Dev} (queued : queueRelocation seg d = some e) : tierWork e = tierWork d := by
  unfold queueRelocation at queued
  split at queued
  · cases queued
  · obtain rfl := Option.some.inj queued
    rfl

theorem tierWork_getD {o : Option Dev} {d : Dev} (same : ∀ e, o = some e → tierWork e = tierWork d) : tierWork (o.getD d) = tierWork d := by
  cases o with
  | none => rfl
  | some e => exact same e rfl

theorem tierWork_retireDeepSeg (seg : Nat) (d : Dev) : tierWork (retireDeepSeg seg d) = tierWork d := by
  have moves : tierWork (let d := if seg ∈ d.tier.deepPending then d else { d with tier.deepPending := d.tier.deepPending ++ [seg] }
      if relocating d seg then d else (queueRelocation seg d).getD d) = tierWork d := by
    extract_lets +onlyGivenNames _ pending
    have before : tierWork pending = tierWork d := by
      unfold pending
      split <;> rfl
    split
    · exact before
    · exact (tierWork_getD fun _ => tierWork_queueRelocation).trans before
  unfold retireDeepSeg
  split
  · exact moves
  · exact moves
  · exact tierWork_retireDeep ..

theorem tierWork_hardFaultDeep (a : Nat) (d : Dev) : tierWork (hardFaultDeep a d) = tierWork d := by
  unfold hardFaultDeep
  dsimp only
  split
  · rfl
  · split
    · exact (tierWork_retireDeepSeg ..).trans rfl
    · split
      · exact (tierWork_retireDeepSeg ..).trans rfl
      · exact (tierWork_writeRepair _).trans rfl

theorem tierWork_settleKeys (d : Dev) : tierWork (settleKeys d) = tierWork d := by
  have record (e : Dev) : tierWork (writeKeyRecord e) = tierWork e := by
    have fresh : tierWork (newRecord e).2 = tierWork e :=
      tierWork_congr (SameBut.tier_eq (S := [.free]) (mask_newRecord (by decide) e) (by decide))
    unfold writeKeyRecord
    dsimp only
    split
    · exact (tierWork_countProgram ..).trans fresh
    · exact (tierWork_countProgram ..).trans fresh
  refine tierWork_foldl (fun e x => ?_) _ d
  unfold settleKey
  dsimp only
  split
  · split
    · exact (record _).trans rfl
    · rfl
  · rfl

/-- Keys that settle leave the line of programs. -/
theorem settleKeys_progQ (d : Dev) : (settleKeys d).tier.progQ = d.tier.progQ := by
  have record (e : Dev) : (writeKeyRecord e).tier.progQ = e.tier.progQ := by
    have fresh : (newRecord e).2.tier = e.tier := SameBut.tier_eq (S := [.free]) (mask_newRecord (by decide) e) (by decide)
    have counts (seg : Nat) (d : Dev) : (countProgram seg d).tier.progQ = d.tier.progQ := by
      obtain ⟨w, n, c, b, eq⟩ := countProgram_tier seg d
      rw [eq]
    unfold writeKeyRecord
    dsimp only
    split
    · exact (counts ..).trans (congrArg Tier.progQ fresh)
    · exact (counts ..).trans (congrArg Tier.progQ fresh)
  have one (slot : Nat) (e : Dev) : (settleKey slot e).tier.progQ = e.tier.progQ := by
    unfold settleKey
    dsimp only
    split
    · split
      · exact (record _).trans rfl
      · rfl
    · rfl
  unfold settleKeys
  generalize d.keys.slots = l
  induction l generalizing d with
  | nil => rfl
  | cons x l ih => exact (ih _).trans (one ..)

theorem tierWork_govTrack (d : Dev) : tierWork (govTrack d) = tierWork d :=
  tierWork_congr ((sameBut_govTrack d).tier_eq (by decide))

end Sys2Proof.Machine
end

section
/-!
Deep programs, deep reads and the journal's timer (R326 to R350, R541): the chain of a queue.
-/

namespace Sys2Proof.Machine

/-! ### One segment of a chain -/

theorem find_segMap (g : ChainSeg → ChainSeg) (keeps : ∀ s, (g s).pos = s.pos) (l : List ChainSeg) (pos : Nat) :
    (l.map g).find? (fun s => decide (s.pos = pos)) = (l.find? fun s => decide (s.pos = pos)).map g := by
  rw [List.find?_map]
  congr 2
  funext s
  simp [keeps]

theorem pos_of_segAt {q : Queue} {pos : Nat} {x : ChainSeg} (found : segAt q pos = some x) : x.pos = pos := by
  have at_ := List.find?_some found
  simpa using at_

/-- The changed segment reads back. -/
theorem segAt_changed {q : Queue} {pos : Nat} {x : ChainSeg} {f : ChainSeg → ChainSeg} (keeps : ∀ s, (f s).pos = s.pos)
    (found : segAt q pos = some x) :
    segAt { q with chain := q.chain.map fun s => if s.pos = pos then f s else s } pos = some (f x) := by
  have mapped := find_segMap (fun s => if s.pos = pos then f s else s) (fun s => by split <;> simp [keeps]) q.chain pos
  unfold segAt at found ⊢
  rw [mapped, found]
  exact congrArg some (if_pos (pos_of_segAt found))

theorem segAt_onSeg {qid pos : Nat} {x : ChainSeg} {f : ChainSeg → ChainSeg} {d : Dev} (wf : tblWf {} d.queues = true)
    (keeps : ∀ s, (f s).pos = s.pos) (found : segAt (queueOf d qid) pos = some x) :
    segAt (queueOf (onSeg qid pos f d) qid) pos = some (f x) := by
  have changed : queueOf (onSeg qid pos f d) qid =
      { queueOf d qid with chain := (queueOf d qid).chain.map fun s => if s.pos = pos then f s else s } := queueOf_on_same wf qid _
  rw [changed]
  exact segAt_changed keeps found

theorem storageMoves_onSeg (qid pos : Nat) (f : ChainSeg → ChainSeg) (d : Dev) : StorageMoves d (onSeg qid pos f d) :=
  storageMoves_put rfl

theorem cfg_of_storage {d e : Dev} (h : StorageMoves d e) (wf : tblWf {} d.queues = true) (i : Nat) :
    (queueOf e i).cfg = (queueOf d i).cfg :=
  show (restOfQueue (queueOf e i)).cfg = (restOfQueue (queueOf d i)).cfg by rw [h.rest wf i]

/-! ### Housekeeping that leaves the chains -/

/-- The chains are as they were. -/
structure ChainsStand (d e : Dev) : Prop where
  wf : tblWf {} d.queues = true → tblWf {} e.queues = true
  chain : tblWf {} d.queues = true → ∀ i, (queueOf e i).chain = (queueOf d i).chain

theorem ChainsStand.refl (d : Dev) : ChainsStand d d := ⟨id, fun _ _ => rfl⟩

theorem ChainsStand.trans {a b c : Dev} (h : ChainsStand a b) (k : ChainsStand b c) : ChainsStand a c :=
  ⟨fun wf => k.wf (h.wf wf), fun wf i => (k.chain (h.wf wf) i).trans (h.chain wf i)⟩

/-- The last step, and what leads up to it. -/
theorem ChainsStand.after {a b c : Dev} (k : ChainsStand b c) (h : ChainsStand a b) : ChainsStand a c := h.trans k

theorem ChainsStand.of_eq {d e : Dev} (queues : e.queues = d.queues) : ChainsStand d e := by
  refine ⟨by rw [queues]; exact id, fun _ i => ?_⟩
  rw [queueOf, queues, queueOf]

theorem chainsStand_put {i : Nat} {q : Queue} {d : Dev} (same : q.chain = (queueOf d i).chain) : ChainsStand d (putQueue i q d) := by
  refine ⟨fun wf => putQueue_wf wf i q, fun wf j => ?_⟩
  by_cases here : j = i
  · rw [here, queueOf_put_same wf, same]
  · rw [queueOf_put_other d q here]

theorem chainsStand_fillShorts (n : Nat) : ∀ d, ChainsStand d (fillShorts n d) := by
  induction n with
  | zero => exact .refl
  | succ n ih =>
    intro d
    rw [fillShorts_succ]
    split
    · exact .refl d
    · split
      · exact (ih _).after (.of_eq rfl)
      · split
        · exact .refl d
        · exact (ih _).after (chainsStand_put rfl)

theorem chainsStand_giveNear (qid n : Nat) (d : Dev) : ChainsStand d (giveNear qid n d) := by
  have settles (e : Dev) : ChainsStand e (settleShorts e) := by
    unfold settleShorts
    split
    · exact chainsStand_fillShorts ..
    · exact .refl e
  unfold giveNear
  dsimp only
  split
  · refine (settles _).after (.of_eq ?_)
    have retired : SameBut [.link, .out, .tier, .rep, .err] (wipeNear n d) (noteShort qid (retireNear n (wipeNear n d))) :=
      (mask_noteShort (by decide) ..).trans (mask_retireNear (by decide) (by decide) (by decide) (by decide) (by decide) ..)
    exact retired.queues_eq (by decide)
  · split
    · refine (settles _).after (ChainsStand.trans (b := wipeNear n d) (.of_eq rfl) ?_)
      exact chainsStand_put rfl
    · exact (settles _).after (.of_eq rfl)

/-! ### The journal names a copy as PERSISTENT -/

/-- A segment as an image of the journal names it. -/
def imageSeg (persist : Bool) (s : ChainSeg) : ChainSeg := { s with deep := s.deep.map fun r => { r with named := persist } }

/-- A queue as an image of the journal names its copies. -/
def imageQueue (q : Queue) : Queue := { q with chain := q.chain.map (imageSeg q.cfg.persist) }

theorem queueOf_writeImage {d : Dev} (wf : tblWf {} d.queues = true) (i : Nat) :
    queueOf (writeImage d) i = imageQueue (queueOf d i) := by
  have counted (l : List Nat) (first : Nat) : (l.foldl (fun d i => countProgram (first + i) d) d).queues = d.queues :=
    SameBut.queues_eq (S := [.tier]) (mask_foldl (fun d i => mask_countProgram (by decide) ..) l d) (by decide)
  unfold writeImage
  generalize List.range 72 = l
  dsimp only
  rw [queueOf]
  dsimp only
  rw [counted, tblGet_map rfl (Bool.and_eq_true _ _ ▸ wf).1]
  rfl

theorem queueOf_addRecord {r : JRec} {d : Dev} (wf : tblWf {} d.queues = true) :
    (∀ i, queueOf (addRecord r d) i = queueOf d i) ∨ ∀ i, queueOf (addRecord r d) i = imageQueue (queueOf d i) := by
  have same {e e' : Dev} (queues : e'.queues = e.queues) (i : Nat) : queueOf e' i = queueOf e i := by
    rw [queueOf, queues, queueOf]
  have flushed (e : Dev) (queues : e.queues = d.queues) : (∀ i, queueOf (flushJournal e) i = queueOf d i) ∨
      ∀ i, queueOf (flushJournal e) i = imageQueue (queueOf d i) := by
    unfold flushJournal
    split
    · exact .inl (same queues)
    · extract_lets +onlyGivenNames recs counted _ freed stopped
      have kept : stopped.queues = d.queues := by
        have counts : counted.queues = e.queues := SameBut.queues_eq (S := [.tier]) (mask_countProgram (by decide) ..) (by decide)
        have frees : freed.queues = counted.queues :=
          (SameBut.queues_eq (S := [.tier]) (mask_freeReleased (by decide) ..) (by decide)).trans rfl
        exact frees.trans (counts.trans queues)
      split
      · exact .inr fun i => by rw [queueOf_writeImage (by rw [kept, wf]), same kept]
      · exact .inl (same kept)
  unfold addRecord
  extract_lets +onlyGivenNames _ gathered timed
  have kept : timed.queues = d.queues := by
    unfold timed
    split <;> rfl
  split
  · exact flushed _ kept
  · exact .inl (same kept)

theorem segAt_addRecord {i pos : Nat} {r : JRec} {d : Dev} (wf : tblWf {} d.queues = true) :
    segAt (queueOf (addRecord r d) i) pos = segAt (queueOf d i) pos ∨
      segAt (queueOf (addRecord r d) i) pos = (segAt (queueOf d i) pos).map (imageSeg (queueOf d i).cfg.persist) := by
  obtain same | imaged := queueOf_addRecord (r := r) wf
  · exact .inl (by rw [same])
  · refine .inr ?_
    rw [imaged]
    exact find_segMap (imageSeg (queueOf d i).cfg.persist) (fun _ => rfl) _ _

/-! ### A near segment for what arrives -/

/-- While the pool holds one, a free near segment can be found. -/
theorem nearFree_of_pool {d : Dev} (pool : 0 < nearPool d) : ∃ n, nearFree d = some n := by
  have some_ : (nearFree d).isSome = true := by
    rw [nearFree, List.find?_isSome]
    by_contra none_
    have covered : List.range 512 ⊆ nearUsed d ++ d.tier.nearRetired := by
      intro n hn
      by_contra free
      rw [List.mem_append, not_or] at free
      exact none_ ⟨n, hn, by simp [free.1, free.2]⟩
    have few := (List.subperm_of_subset List.nodup_range covered).length_le
    rw [List.length_range, List.length_append] at few
    unfold nearPool at pool
    omega
  exact Option.isSome_iff_exists.1 some_

theorem takeNear_takes {qid : Nat} {d : Dev} (can : canTakeNear d (queueOf d qid) = true) :
    ∃ n resvd e, takeNear qid d = some (n, resvd, e) ∧ StorageMoves d e ∧ ChainsStand d e ∧
      e.keys = d.keys := by
  unfold takeNear
  dsimp only
  rw [if_neg (by simp [can])]
  unfold canTakeNear at can
  simp only [Bool.and_eq_true, Bool.or_eq_true, decide_eq_true_eq, Bool.not_eq_true'] at can
  obtain ⟨-, room⟩ := can
  cases free : (queueOf d qid).resvFree with
  | cons n rest => exact ⟨n, true, _, rfl, storageMoves_put rfl, chainsStand_put rfl, rfl⟩
  | nil =>
    rw [free] at room
    obtain ⟨-, pool⟩ := room.resolve_left (by simp)
    obtain ⟨n, found⟩ := nearFree_of_pool pool
    dsimp only
    rw [found]
    exact ⟨n, false, d, rfl, .refl d, .refl d, rfl⟩

end Sys2Proof.Machine
end

section
/-!
Deep programs, deep reads and the journal's timer (R326 to R350, R541).
-/

namespace Sys2Proof.Machine

theorem queues_settleKeys (d : Dev) : (settleKeys d).queues = d.queues :=
  SameBut.queues_eq (S := [.tier, .keys, .free]) (mask_settleKeys (by decide) (by decide) (by decide) d) (by decide)

theorem queueOf_govTrack (d : Dev) (i : Nat) : queueOf (govTrack d) i = queueOf d i := by
  rw [queueOf, (sameBut_govTrack d).queues_eq (by decide), queueOf]

theorem queueOf_settleKeys (d : Dev) (i : Nat) : queueOf (settleKeys d) i = queueOf d i := by
  rw [queueOf, queues_settleKeys, queueOf]

/-! ### The start of a program -/

section
variable {d : Dev} {p : Prog} {qid pos n g : Nat} {x : ChainSeg} (there : segAt (queueOf d qid) pos = some x)
  (near : x.near = some n) (deep : x.deep = none) (loan : x.loan = none) (valid : (queueOf d qid).cfg.valid = true)
  (usable : slotUsable d (queueOf d qid).cfg.slot.toNat = true) (quota : deepCopies d qid (queueOf d qid) < (queueOf d qid).cfg.deepQuota)
  (taken : takeDeep d = some g)
include there near deep loan valid usable quota taken

/-- The program as it runs. -/
def runningProg (p : Prog) (qid : Nat) (x : ChainSeg) (d : Dev) : Prog :=
  { p with
    slot := (queueOf d qid).cfg.slot.toNat, gen := slotGen d (queueOf d qid).cfg.slot.toNat, items := progItems (queueOf d qid) x }

theorem startChain_begins (clean : d.rep.upset = []) (first : p.again = false) (level : 4096 ≤ d.tier.level) :
    startChain p false qid pos d =
      .begun (beginProgram (runningProg p qid x d) g (claimSeg g (onQueue qid (setProg pos .started) (debit d)))) := by
  have kept : dropCached qid d = d := by
    unfold dropCached
    exact if_pos quota
  have read : readNearSeg n d = d := by
    unfold readNearSeg
    rw [clean]
    rfl
  unfold startChain
  dsimp only
  rw [there]
  dsimp only
  rw [near]
  dsimp only
  rw [if_neg (by simp [deep, loan, valid])]
  simp only [Bool.false_eq_true, if_false, kept]
  rw [if_neg (by simp [usable]), if_pos quota, taken]
  dsimp only
  have queue : queueOf (debit d) qid = queueOf d qid := rfl
  have gen : slotGen (debit d) (queueOf d qid).cfg.slot.toNat = slotGen d (queueOf d qid).cfg.slot.toNat := rfl
  rw [if_neg (by simp; omega), read, first]
  simp only [Bool.false_eq_true, if_false, Bool.false_and, queue, gen, runningProg, first]

theorem startChain_blocks (level : d.tier.level < 4096) : startChain p false qid pos d = .blocked := by
  have kept : dropCached qid d = d := by
    unfold dropCached
    exact if_pos quota
  unfold startChain
  dsimp only
  rw [there]
  dsimp only
  rw [near]
  dsimp only
  rw [if_neg (by simp [deep, loan, valid])]
  simp only [Bool.false_eq_true, if_false, kept]
  rw [if_neg (by simp [usable]), if_pos quota, taken]
  dsimp only
  rw [if_pos (by simp; omega)]

end

theorem programStart_spill {d : Dev} {p : Prog} {qid pos : Nat} (fw : fwExec d = true) (idle : tierBusy d = false)
    (line : d.tier.progQ = [p]) (what : p.what = .spill qid pos) : programStart d = scanProgs [] [p] d := by
  have rank : progRank p = 2 := by
    unfold progRank
    rw [what]
  have inLine : progLine d = [p] := by
    unfold progLine
    rw [line]
    simp [rank]
  unfold programStart
  rw [if_neg (by simp [fw, idle]), inLine]

theorem scanProgs_begun {d e : Dev} {p : Prog} {qid pos : Nat} (what : p.what = .spill qid pos) (free : d.fuse.burn = none)
    (begun : startChain p false qid pos d = .begun e) : scanProgs [] [p] d = { e with tier.progQ := [] } := by
  have start : startOne p d = .begun e := by
    unfold startOne
    rw [what]
    exact begun
  unfold scanProgs
  rw [start]
  dsimp only
  rw [if_neg (by simp [free])]
  rfl

theorem scanProgs_blocked {d : Dev} {p : Prog} {qid pos : Nat} (what : p.what = .spill qid pos) (line : d.tier.progQ = [p])
    (blocked : startChain p false qid pos d = .blocked) : scanProgs [] [p] d = d := by
  have start : startOne p d = .blocked := by
    unfold startOne
    rw [what]
    exact blocked
  unfold scanProgs
  rw [start]
  dsimp only
  rw [List.nil_append, ← line]

/-- What the beginning of a program changes of the tier. -/
theorem beginProgram_tier (p : Prog) (g : Nat) (d : Dev) :
    (beginProgram p g d).tier.active = d.tier.active ++ [{ p with seg := some g }] ∧
      (beginProgram p g d).tier.level = d.tier.level ∧ (beginProgram p g d).tier.debited = d.tier.debited ∧
      (beginProgram p g d).tier.deep = d.tier.deep ∧ (beginProgram p g d).queues = d.queues := by
  unfold beginProgram
  generalize (d.rep.deepSuspects.map fun s => if s.addr / 128 = g then { s with reprogrammed := true } else s) = suspects
  generalize (d.rep.reportedDeep.filter fun a => decide (a / 128 ≠ g)) = reported
  obtain ⟨w, n, c, b, counted⟩ := countProgram_tier g { d with
    tier.active := d.tier.active ++ [{ p with seg := some g }], rep.deepSuspects := suspects, rep.reportedDeep := reported }
  rw [counted]
  exact ⟨rfl, rfl, rfl, rfl, rfl⟩

/-- The device with the level debited and the segment and its program claimed. -/
def programClaimed (g qid pos : Nat) (d : Dev) : Dev := claimSeg g (onQueue qid (setProg pos .started) (debit d))

theorem programClaimed_tier (g qid pos : Nat) (d : Dev) :
    (programClaimed g qid pos d).tier.active = d.tier.active ∧ (programClaimed g qid pos d).tier.level = d.tier.level - 4096 ∧
      (programClaimed g qid pos d).tier.debited = d.tier.debited + 4096 ∧
      (programClaimed g qid pos d).tier.deep = tblPut d.tier.deep g .busy ∧
      (programClaimed g qid pos d).queues = (onQueue qid (setProg pos .started) d).queues := ⟨rfl, rfl, rfl, rfl, rfl⟩

/-- What a program that begins leaves of the tier and of its queue. -/
theorem programStarted_effect (p : Prog) (g qid pos : Nat) (d : Dev) (wf : tblWf {} d.queues = true) (e : Dev)
    (eq : e = { beginProgram p g (programClaimed g qid pos d) with tier.progQ := [] }) :
    e.tier.active = d.tier.active ++ [{ p with seg := some g }] ∧ e.tier.progQ = [] ∧ e.tier.level = d.tier.level - 4096 ∧
      e.tier.debited = d.tier.debited + 4096 ∧ tblFind e.tier.deep g = some .busy ∧
      queueOf e qid = setProg pos .started (queueOf d qid) ∧ ∀ j, j ≠ qid → queueOf e j = queueOf d j := by
  obtain ⟨active, level, debited, deep, queues⟩ := beginProgram_tier p g (programClaimed g qid pos d)
  obtain ⟨active', level', debited', deep', queues'⟩ := programClaimed_tier g qid pos d
  generalize beginProgram p g (programClaimed g qid pos d) = b at active level debited deep queues eq
  have same (j : Nat) : queueOf e j = queueOf (onQueue qid (setProg pos .started) d) j := by
    rw [eq, queueOf]
    dsimp only
    rw [queues, queues', queueOf]
  refine ⟨?_, by rw [eq], ?_, ?_, ?_, ?_, fun j ne => ?_⟩
  · rw [eq, ← active']; exact active
  · rw [eq, ← level']; exact level
  · rw [eq, ← debited']; exact debited
  · rw [eq]
    dsimp only
    rw [deep, deep', tblFind_put_same]
  · rw [same, queueOf_on_same wf]
  · rw [same, queueOf_on_other d _ ne]

/-! ### The end of a program -/

/-- The reference that a verified program leaves in its chain. -/
def verifiedRef (p : Prog) (g : Nat) (q : Queue) : DeepRef := { seg := g, gen := p.gen, named := q.cfg.persist }

/-- The device once the chain and the cells hold the verified copy. -/
def copyStored (p : Prog) (qid pos g : Nat) (d : Dev) : Dev :=
  let q := queueOf d qid
  let d := onSeg qid pos (fun s => { s with deep := some (verifiedRef p g q), prog := .none }) d
  writeCells g p.slot q.cfg.ew p.items { d with tier.deep := tblPut d.tier.deep g (.copy qid pos p.slot p.gen p.items) }

/-- The device with the verified copy journalled. -/
def copyNamed (p : Prog) (qid pos g : Nat) (x : ChainSeg) (d : Dev) : Dev :=
  let e := copyStored p qid pos g d
  if (queueOf d qid).cfg.persist then addRecord (.add qid { pos, seg := g, begins := x.begins }) e else e

section
variable {d : Dev} {p : Prog} {qid pos g : Nat} {x : ChainSeg} (wf : tblWf {} d.queues = true)
  (there : segAt (queueOf d qid) pos = some x)
include wf there

theorem copyStored_effect :
    StorageMoves d (copyStored p qid pos g d) ∧
      segAt (queueOf (copyStored p qid pos g d) qid) pos =
        some { x with deep := some (verifiedRef p g (queueOf d qid)), prog := .none } ∧
      tierWork (copyStored p qid pos g d) = (d.tier.active, d.tier.sealRun, d.tier.level, d.tier.loans,
        tblPut d.tier.cells g (cipher Config.xtsEncrypt (slotKey d p.slot) (ownNode d) g 0
          (segBytes (queueOf d qid).cfg.ew p.items))) := by
  refine ⟨?_, segAt_onSeg wf (fun _ => rfl) there, rfl⟩
  have changed := storageMoves_onSeg qid pos (fun s => { s with deep := some (verifiedRef p g (queueOf d qid)), prog := .none }) d
  exact changed.trans (.of_eq rfl rfl fun _ hx => hx)

theorem copyNamed_effect :
    StorageMoves d (copyNamed p qid pos g x d) ∧
      segAt (queueOf (copyNamed p qid pos g x d) qid) pos =
        some { x with deep := some (verifiedRef p g (queueOf d qid)), prog := .none } ∧
      tierWork (copyNamed p qid pos g x d) = tierWork (copyStored p qid pos g d) := by
  obtain ⟨moves, seg, -⟩ := copyStored_effect (p := p) (g := g) wf there
  unfold copyNamed
  dsimp only
  split
  · refine ⟨moves.trans (storageMoves_addRecord ..), ?_, tierWork_addRecord ..⟩
    have cfg := cfg_of_storage moves wf qid
    obtain same | imaged := segAt_addRecord (i := qid) (pos := pos) (r := .add qid { pos, seg := g, begins := x.begins }) (moves.wf wf)
    · rw [same, seg]
    · rw [imaged, seg, cfg]
      rfl
  · exact ⟨moves, seg, rfl⟩

/-- The near copy goes where the policy lets it go. -/
theorem releaseNear_effect : StorageMoves d (releaseNear qid pos d) ∧ tierWork (releaseNear qid pos d) = tierWork d ∧
    ∃ r, segAt (queueOf (releaseNear qid pos d) qid) pos = some { x with near := none, resvd := r } := by
  unfold releaseNear
  rw [there]
  dsimp only [Option.bind]
  cases near : x.near with
  | none => exact ⟨.refl d, rfl, x.resvd, by rw [there, ← near]⟩
  | some n =>
    dsimp only
    have changed := storageMoves_onSeg qid pos (fun s => { s with near := none, resvd := false }) d
    have chain := (chainsStand_giveNear qid n (onSeg qid pos (fun s => { s with near := none, resvd := false }) d)).chain (changed.wf wf) qid
    refine ⟨changed.trans (storageMoves_giveNear ..), (tierWork_giveNear ..).trans rfl, false, ?_⟩
    rw [segAt, chain]
    exact segAt_onSeg wf (fun _ => rfl) there

end

theorem sealProgress_none {qid pos : Nat} {counts : Bool} {d : Dev} (idle : d.tier.sealRun = none) : sealProgress qid pos counts d = d := by
  unfold sealProgress
  rw [idle]

/-- What a verified program of a chain leaves. -/
theorem verifiedChain_effect {d : Dev} {p : Prog} {qid pos g : Nat} {x : ChainSeg} (wf : tblWf {} d.queues = true)
    (there : segAt (queueOf d qid) pos = some x) (idle : d.tier.sealRun = none) :
    StorageMoves d (verifiedChain p false qid pos g d) ∧
      tierWork (verifiedChain p false qid pos g d) = (d.tier.active, none, d.tier.level, d.tier.loans,
        tblPut d.tier.cells g (cipher Config.xtsEncrypt (slotKey d p.slot) (ownNode d) g 0
          (segBytes (queueOf d qid).cfg.ew p.items))) ∧
      ∃ x', segAt (queueOf (verifiedChain p false qid pos g d) qid) pos = some x' ∧ x'.prog = .none ∧
        x'.deep = some (verifiedRef p g (queueOf d qid)) ∧ (letGo (queueOf d qid) pos = true → x'.near = none) ∧
        (letGo (queueOf d qid) pos = false → x'.near = x.near) := by
  obtain ⟨-, -, stored⟩ := copyStored_effect (p := p) (g := g) wf there
  obtain ⟨moves, seg, named⟩ := copyNamed_effect (p := p) (g := g) wf there
  have unfolded : verifiedChain p false qid pos g d = sealProgress qid pos false
      (if letGo (queueOf d qid) pos then releaseNear qid pos (copyNamed p qid pos g x d) else copyNamed p qid pos g x d) := by
    unfold verifiedChain
    dsimp only
    rw [there]
    rfl
  rw [idle] at stored
  rw [unfolded]
  generalize copyNamed p qid pos g x d = e at moves seg named
  have work := named.trans stored
  cases lets : letGo (queueOf d qid) pos with
  | true =>
    obtain ⟨released, same, r, near⟩ := releaseNear_effect (moves.wf wf) seg
    rw [if_pos rfl, sealProgress_none (congrArg (fun w => w.2.1) (same.trans work))]
    exact ⟨moves.trans released, same.trans work, _, near, rfl, rfl, fun _ => rfl, fun h => absurd h (by decide)⟩
  | false =>
    rw [if_neg (by decide), sealProgress_none (congrArg (fun w => w.2.1) work)]
    exact ⟨moves, work, _, seg, rfl, rfl, fun h => absurd h (by decide), fun _ => rfl⟩

end Sys2Proof.Machine
end

section
/-!
Deep programs that fail, deep reads, and the journal's timer (R335 to R350, R387 to R389).
-/

namespace Sys2Proof.Machine

/-! ### A program that fails -/

theorem storageMoves_retireDeepSeg (seg : Nat) (d : Dev) : StorageMoves d (retireDeepSeg seg d) := by
  have moves : StorageMoves d (let d := if seg ∈ d.tier.deepPending then d else { d with tier.deepPending := d.tier.deepPending ++ [seg] }
      if relocating d seg then d else (queueRelocation seg d).getD d) := by
    extract_lets +onlyGivenNames _ pending
    have before : StorageMoves d pending := by
      unfold pending
      split
      · exact .refl d
      · exact .of_eq rfl rfl fun _ hx => hx
    split
    · exact before
    · cases queued : queueRelocation seg pending with
      | none => exact before
      | some e =>
        unfold queueRelocation at queued
        split at queued
        · cases queued
        · obtain rfl := Option.some.inj queued
          exact before.trans (.of_eq rfl rfl fun _ hx => hx)
  unfold retireDeepSeg
  split
  · exact moves
  · exact moves
  · exact storageMoves_retireDeep ..

theorem storageMoves_hardFaultDeep (a : Nat) (d : Dev) : StorageMoves d (hardFaultDeep a d) := by
  have repaired (e : Dev) : StorageMoves e (writeRepair e) :=
    SameBut.storageMoves (S := [.tier]) (mask_writeRepair (by decide) e) (by decide) (by decide)
  unfold hardFaultDeep
  dsimp only
  split
  · exact .refl d
  · split
    · exact (storageMoves_retireDeepSeg ..).after (.of_eq rfl rfl fun _ hx => hx)
    · split
      · exact (storageMoves_retireDeepSeg ..).after (.of_eq rfl rfl fun _ hx => hx)
      · exact (repaired _).after (.of_eq rfl rfl fun _ hx => hx)

/-- What a failed program of a chain leaves: it is first in line again. -/
theorem programFailed_effect {d : Dev} {p : Prog} {qid pos : Nat} (g : Nat) (what : p.what = .spill qid pos)
    (idle : d.tier.sealRun = none) :
    StorageMoves d (programFailed p g d) ∧ (programFailed p g d).tier.active = d.tier.active ∧
      (programFailed p g d).tier.level = d.tier.level ∧
      (programFailed p g d).tier.progQ.head? = some { what := .spill qid pos, again := true, spills := p.spills } := by
  have drawn : StorageMoves d (takeFree d).2 := .of_eq rfl rfl fun _ hx => hx
  have work : tierWork (takeFree d).2 = tierWork d := rfl
  generalize bits : (takeFree d).1.toNat % 128 = bad at *
  obtain ⟨e, moved, same, eq⟩ : ∃ e, StorageMoves d e ∧ tierWork e = tierWork d ∧
      programFailed p g d = { e with
        tier.progQ := { what := .spill qid pos, again := true, spills := p.spills : Prog } :: e.tier.progQ } := by
    have erased : StorageMoves d { (takeFree d).2 with tier.deep := tblErase (takeFree d).2.tier.deep g } :=
      drawn.trans (.of_eq rfl rfl fun _ hx => hx)
    have faulted := erased.trans (storageMoves_hardFaultDeep (g * 128 + bad) _)
    have kept : tierWork (hardFaultDeep (g * 128 + bad) { (takeFree d).2 with tier.deep := tblErase (takeFree d).2.tier.deep g }) =
        tierWork d := (tierWork_hardFaultDeep ..).trans work
    generalize fault : hardFaultDeep (g * 128 + bad) { (takeFree d).2 with tier.deep := tblErase (takeFree d).2.tier.deep g } = h at faulted kept
    refine ⟨onQueue qid (setProg pos .queued) h, faulted.trans (storageMoves_put rfl), kept, ?_⟩
    have none_ : h.tier.sealRun = none := (congrArg (fun w => w.2.1) kept).trans idle
    unfold programFailed
    dsimp only
    rw [what]
    dsimp only
    rw [bits, fault]
    simp [none_]
  rw [eq]
  exact ⟨moved.trans (.of_eq rfl rfl fun _ hx => hx), congrArg Prod.fst same, congrArg (fun w => w.2.2.1) same, rfl⟩

/-- The device as a program leaves the list of those that run. -/
def programOver (g : Nat) (d : Dev) : Dev := { d with tier.active := d.tier.active.filter fun x => x.seg ≠ some g }

theorem programVerified_alone {d : Dev} {p : Prog} {qid pos g : Nat} (line : d.tier.active = [p]) (seg : p.seg = some g)
    (what : p.what = .spill qid pos) (ok : Bool) :
    programVerified g ok d = settleKeys (if ok then verifiedChain p false qid pos g (programOver g d)
      else programFailed p g (programOver g d)) ∧ (programOver g d).tier.active = [] := by
  have found : d.tier.active.find? (fun p => decide (p.seg = some g)) = some p := by
    rw [line]
    simp [seg]
  refine ⟨?_, ?_⟩
  · unfold programVerified
    rw [found]
    cases ok with
    | true =>
      dsimp only
      rw [what]
      rfl
    | false => rfl
  · unfold programOver
    dsimp only
    rw [line]
    simp [seg]

/-! ### A segment that arrives -/

theorem deepRead_arrives {d : Dev} {qid pos : Nat} {x : ChainSeg} {r : DeepRef} (wf : tblWf {} d.queues = true)
    (fw : fwExec d = true) (there : segAt (queueOf d qid) pos = some x) (deep : x.deep = some r) (reading : x.reading = true)
    (near : x.near = none) (can : canTakeNear d (queueOf d qid) = true)
    (reads : copyReads d (queueOf d qid).cfg.slot.toNat r.gen = true) :
    StorageMoves d (deepRead qid pos [] d) ∧ ∃ n resvd, segAt (queueOf (deepRead qid pos [] d) qid) pos =
      some { x with near := some n, resvd := resvd, reading := false } := by
  obtain ⟨n, resvd, e, taken, moves, chains, keys⟩ := takeNear_takes can
  have nothing (l : List Nat) (e : Dev) : l.foldl (fun d k => readSector qid pos r.seg k (([] : List DeepRead).getD k .clean) d) e = e := by
    induction l with
    | nil => rfl
    | cons k l ih =>
      rw [List.foldl_cons]
      exact ih
  have arrived := moves.trans (storageMoves_onSeg qid pos (fun s => { s with near := some n, resvd, reading := false }) e)
  have there' : segAt (queueOf e qid) pos = some x := by rw [segAt, chains.chain wf]; exact there
  have seg := segAt_onSeg (f := fun s => { s with near := some n, resvd, reading := false }) (moves.wf wf) (fun _ => rfl) there'
  have keys' : (onSeg qid pos (fun s => { s with near := some n, resvd, reading := false }) e).keys = d.keys := keys
  have unfolded : deepRead qid pos [] d =
      settleKeys (onSeg qid pos (fun s => { s with near := some n, resvd, reading := false }) e) := by
    unfold deepRead
    dsimp only
    rw [if_neg (by simp [fw]), there]
    dsimp only
    rw [deep]
    dsimp only
    rw [if_neg (by simp [reading, near])]
    unfold arriveNear
    rw [taken]
    dsimp only
    rw [nothing]
    have reads' : copyReads (onSeg qid pos (fun s => { s with near := some n, resvd, reading := false }) e)
        (queueOf (onSeg qid pos (fun s => { s with near := some n, resvd, reading := false }) e) qid).cfg.slot.toNat r.gen = true := by
      rw [cfg_of_storage arrived wf]
      rw [← reads, copyReads, slotUsable, slotGen, slotOf, keys', copyReads, slotUsable, slotGen, slotOf]
    rw [if_pos reads']
  rw [unfolded]
  generalize onSeg qid pos (fun s => { s with near := some n, resvd, reading := false }) e = e' at arrived seg
  have settled : StorageMoves e' (settleKeys e') :=
    SameBut.storageMoves (S := [.tier, .keys, .free]) (mask_settleKeys (by decide) (by decide) (by decide) e') (by decide) (by decide)
  exact ⟨arrived.trans settled, n, resvd, by rw [queueOf_settleKeys, seg]⟩

/-! ### The journal's timer -/

theorem freeReleased_tier (recs : List JRec) (d : Dev) :
    (freeReleased recs d).tier.journal = d.tier.journal ∧ (freeReleased recs d).tier.gathered = d.tier.gathered ∧
      (freeReleased recs d).tier.jPos = d.tier.jPos ∧ (freeReleased recs d).tier.jSegs = d.tier.jSegs := by
  unfold freeReleased
  induction recs generalizing d with
  | nil => exact ⟨rfl, rfl, rfl, rfl⟩
  | cons r recs ih =>
    rw [List.foldl_cons]
    obtain ⟨journal, gathered, jPos, jSegs⟩ := ih (match r with
      | .release _ seg =>
        (match tblFind d.tier.deep seg with
         | some (.released _) => { d with tier.deep := tblErase d.tier.deep seg }
         | _ => d)
      | _ => d)
    refine ⟨journal.trans ?_, gathered.trans ?_, jPos.trans ?_, jSegs.trans ?_⟩ <;>
    · split
      · split <;> rfl
      · rfl

theorem flushJournal_writes {d : Dev} (works : d.tier.exhausted = false) (some_ : d.tier.gathered ≠ []) (few : d.tier.jSegs < 95) :
    (flushJournal d).tier.journal = d.tier.journal ++ d.tier.gathered ∧ (flushJournal d).tier.gathered = [] ∧
      (flushJournal d).tier.jPos = d.tier.jPos + 1 ∧ (flushJournal d).queues = d.queues := by
  unfold flushJournal
  rw [if_neg (by simp [works, some_])]
  extract_lets +onlyGivenNames recs counted _ freed stopped
  obtain ⟨w, n, c, b, counts⟩ := countProgram_tier (8336 + d.tier.jPos % 128) d
  have counted' : counted = { d with tier.wear := w, tier.wearSince := n, tier.wearCopy := c, tier.wearB := b } := counts
  obtain ⟨journal, gathered, jPos, jSegs⟩ := freeReleased_tier recs { counted with
    tier.journal := counted.tier.journal ++ recs, tier.gathered := [], tier.jSegs := counted.tier.jSegs + 1
    tier.jPos := counted.tier.jPos + 1 }
  have queues : stopped.queues = d.queues := by
    have frees : freed.queues = counted.queues :=
      (SameBut.queues_eq (S := [.tier]) (mask_freeReleased (by decide) ..) (by decide)).trans rfl
    exact frees.trans (by rw [counted'])
  have room : ¬ 96 ≤ stopped.tier.jSegs := by
    have : stopped.tier.jSegs = d.tier.jSegs + 1 := jSegs.trans (by rw [counted'])
    omega
  rw [if_neg room]
  exact ⟨journal.trans (by rw [counted']), gathered, jPos.trans (by rw [counted']), queues⟩

/-- Settles O50. -/
theorem deepProgramsReadsAndJournal : Obligations.DeepProgramsReadsAndJournal := by
  intro s wf
  refine ⟨fun p qid pos n g x q eq fw idle free line what first there near deep loan valid clean usable quota taken => ⟨fun level => ?_, fun level => ?_⟩,
    fun p qid pos g x line seg what there idle => ⟨?_, ?_⟩, fun qid pos x r fw there deep reading near can reads => ?_,
    fun fw due works some_ few => ?_⟩
  · subst eq
    refine completes_of_exec_eq_act (f := fun d => govTrack (programStart d)) rfl ?_
    have begins := startChain_begins there near deep loan valid usable quota taken clean first level
    have started : programStart s.dev = { beginProgram (runningProg p qid x s.dev) g (programClaimed g qid pos s.dev) with tier.progQ := [] } := by
      rw [programStart_spill fw idle line what, scanProgs_begun what free begins]
      rfl
    obtain ⟨active, progQ, level', debited, busy, queue, others⟩ := programStarted_effect _ g qid pos s.dev wf _ started
    have tier : (govTrack (programStart s.dev)).tier = (programStart s.dev).tier := (sameBut_govTrack _).tier_eq (by decide)
    rw [tier, queueOf_govTrack]
    exact ⟨⟨_, active, what, rfl, rfl, rfl⟩, progQ, level', debited, busy, queue, fun j ne => (queueOf_govTrack ..).trans (others j ne)⟩
  · subst eq
    refine completes_of_exec_eq_act (f := fun d => govTrack (programStart d)) rfl ?_
    have blocks := startChain_blocks (p := p) there near deep loan valid usable quota taken level
    rw [programStart_spill fw idle line what, scanProgs_blocked what line blocks]
    exact (sameBut_govTrack s.dev).eq
  · refine completes_of_exec_eq_act (f := fun d => govTrack (programVerified g.toNat true d)) rfl ?_
    obtain ⟨verified, ended⟩ := programVerified_alone line seg what true
    rw [if_pos rfl] at verified
    obtain ⟨moves, work, x', seg', prog, deep, released, kept⟩ :=
      verifiedChain_effect (d := programOver g.toNat s.dev) (p := p) (g := g.toNat) wf there idle
    have work' : tierWork (govTrack (programVerified g.toNat true s.dev)) =
        tierWork (verifiedChain p false qid pos g.toNat (programOver g.toNat s.dev)) := by
      rw [tierWork_govTrack, verified, tierWork_settleKeys]
    rw [work] at work'
    have queue (i : Nat) : queueOf (govTrack (programVerified g.toNat true s.dev)) i =
        queueOf (verifiedChain p false qid pos g.toNat (programOver g.toNat s.dev)) i := by
      rw [queueOf_govTrack, verified, queueOf_settleKeys]
    rw [queue]
    refine ⟨(congrArg Prod.fst work').trans ended, moves.items wf qid, x', seg', prog, deep, ?_, released, kept⟩
    have cells : (govTrack (programVerified g.toNat true s.dev)).tier.cells = _ := congrArg (fun w => w.2.2.2.2) work'
    rw [cells, tblFind_put_same]
    rfl
  · refine completes_of_exec_eq_act (f := fun d => govTrack (programVerified g.toNat false d)) rfl ?_
    obtain ⟨verified, ended⟩ := programVerified_alone line seg what false
    rw [if_neg (by decide)] at verified
    obtain ⟨moves, active, level, head⟩ := programFailed_effect (d := programOver g.toNat s.dev) g.toNat what idle
    have work : tierWork (govTrack (programVerified g.toNat false s.dev)) =
        tierWork (programFailed p g.toNat (programOver g.toNat s.dev)) := by
      rw [tierWork_govTrack, verified, tierWork_settleKeys]
    have queue (i : Nat) : queueOf (govTrack (programVerified g.toNat false s.dev)) i =
        queueOf (programFailed p g.toNat (programOver g.toNat s.dev)) i := by
      rw [queueOf_govTrack, verified, queueOf_settleKeys]
    have line' : (govTrack (programVerified g.toNat false s.dev)).tier.progQ =
        (programFailed p g.toNat (programOver g.toNat s.dev)).tier.progQ := by
      rw [(sameBut_govTrack _).tier_eq (by decide), verified, settleKeys_progQ]
    rw [queue, line']
    exact ⟨(congrArg Prod.fst work).trans (active.trans ended), (congrArg (fun w => w.2.2.1) work).trans level, head, moves.items wf qid⟩
  · refine completes_of_exec_eq_act (f := fun d => govTrack (deepRead qid.toNat pos [] d)) rfl ?_
    obtain ⟨moves, n, resvd, seg⟩ := deepRead_arrives wf fw there deep reading near can reads
    rw [queueOf_govTrack]
    exact ⟨moves.items wf _, _, seg, rfl, rfl, deep⟩
  · refine completes_of_exec_eq_act (f := journalTimer) rfl ?_
    have flushes : journalTimer s.dev = flushJournal s.dev := if_pos (by simp [fw, due])
    rw [flushes]
    exact flushJournal_writes works some_ few

end Sys2Proof.Machine
end

section
/-!
JTAG and the Loupe: the scans and what each may do (R573 to R588).
-/

namespace Sys2Proof.Machine

/-! ### The scans of the TAP -/

/-- A scan's own registers are not among the setup registers. -/
theorem readReg_loadIr (i : TapInstr) (out : Bytes) (d : Dev) (off : Nat) : readReg (loadIr i out d) off = readReg d off := rfl

theorem boundaryActs_extest {d : Dev} (on : awake d = true) (ir : d.jtag.ir = .extest) (wait : d.boot.status = .waitImage) :
    boundaryActs d = true := by
  unfold boundaryActs
  rw [on, ir, wait]
  rfl

theorem boundaryActs_running {d : Dev} (runs : fwRunning d = true) : boundaryActs d = false := by
  have status : d.boot.status = .fwRunning := by simpa [fwRunning] using runs
  unfold boundaryActs
  rw [status]
  simp

/-- A scan of LOUPE_CTRL: the captured bits leave, and AUTOINC is stored. -/
def ctrlScanned (autoinc : Bool) (d : Dev) : Dev :=
  { loadIr .loupeCtrl (natLe 2 (flagAt d.jtag.autoinc 3 + debugBits d)) d with jtag.autoinc := autoinc }

theorem scanCtrl_mayControl {autoinc : Bool} {f : Dev → Dev} {d : Dev} (on : awake d = true) (unlocked : loupeShut d = false)
    (may : mayControl d = true) : scanCtrl autoinc f d = f (ctrlScanned autoinc d) := by
  unfold scanCtrl
  rw [if_neg (by simp [on]), if_neg (by simp [unlocked])]
  exact if_pos may

/-! ### Accesses of the Loupe -/

theorem doLoupeRead_shown {d : Dev} (on : awake d = true) (unlocked : loupeShut d = false) (may : mayRead d = true)
    (space : d.jtag.space = 0) (inside : d.jtag.addr.toNat < 0x4000) :
    doLoupeRead d = endAccess (BitVec.ofNat 32 (readReg d d.jtag.addr.toNat)) (captureData d) := by
  have found : readSpace (captureData d).jtag.space.toNat (captureData d).jtag.addr.toNat (captureData d) =
      some (BitVec.ofNat 32 (readReg d d.jtag.addr.toNat), captureData d) := by
    change readSpace d.jtag.space.toNat d.jtag.addr.toNat (captureData d) = _
    rw [space]
    exact if_pos inside
  unfold doLoupeRead
  rw [if_neg (by simp [on]), if_neg (by simp [unlocked])]
  dsimp only
  rw [if_neg (by rw [show mayRead (captureData d) = true from may]; decide), found]

theorem doLoupeRead_refused {d : Dev} (on : awake d = true) (unlocked : loupeShut d = false) (may : mayRead d = false) :
    doLoupeRead d = refuseAccess (captureData d) := by
  unfold doLoupeRead
  rw [if_neg (by simp [on]), if_neg (by simp [unlocked])]
  exact if_pos (by rw [show mayRead (captureData d) = false from may]; decide)

theorem doLoupeWrite_sram {v : Word} {d : Dev} (on : awake d = true) (unlocked : loupeShut d = false)
    (may : mayControl d = true) (space : d.jtag.space = 4) (inside : d.jtag.addr.toNat < 65536) :
    doLoupeWrite v d = if d.jtag.halted then
        endAccess v { captureData d with boot.iSram := tblSet 0 d.boot.iSram (d.jtag.addr.toNat / 4) v }
      else refuseAccess (captureData d) := by
  have found : writeSpace (captureData d).jtag.space.toNat (captureData d).jtag.addr.toNat v (captureData d) =
      if d.jtag.halted then some { captureData d with boot.iSram := tblSet 0 d.boot.iSram (d.jtag.addr.toNat / 4) v }
      else none := by
    change writeSpace d.jtag.space.toNat d.jtag.addr.toNat v (captureData d) = _
    rw [space]
    change (if (d.jtag.halted && decide (d.jtag.addr.toNat < 65536)) = true then _ else _) = _
    rw [decide_eq_true inside, Bool.and_true]
    rfl
  unfold doLoupeWrite
  rw [if_neg (by simp [on]), if_neg (by simp [unlocked])]
  dsimp only
  rw [if_neg (by rw [show mayControl (captureData d) = true from may]; decide), found]
  cases d.jtag.halted <;> rfl

/-- A write in the space of the instruction SRAM starts no operation. -/
theorem loupeReserved_sram {v : Word} {d : Dev} (space : d.jtag.space = 4) : loupeReserved v d = false := by
  simp [loupeReserved, space]

/-! ### The Shuttle's halt -/

theorem sameBut_settlePauses (d : Dev) : SameBut [.timers] d (settlePauses d) := mask_settlePauses (by decide) d

/-- A halt leaves its mark, and the timers that it pauses. -/
theorem haltNow_frame (d : Dev) :
    haltNow d = { d with jtag := { d.jtag with halted := true, haltPend := false, core := [] }
                         tb.timers := (haltNow d).tb.timers } :=
  (sameBut_settlePauses { d with jtag.halted := true, jtag.haltPend := false, jtag.core := [] }).eq

theorem askHalt_idle {d : Dev} (runs : d.jtag.halted = false) (idle : lockedSeq d = 0) : askHalt d = haltNow d := by
  rw [askHalt, if_neg (by simp [runs]), if_pos idle]

theorem askHalt_locked {d : Dev} (runs : d.jtag.halted = false) (busy : lockedSeq d ≠ 0) :
    askHalt d = { d with jtag.haltPend := true } := by
  rw [askHalt, if_neg (by simp [runs]), if_neg busy]

/-! ### The unlock -/

theorem doUnlockChal_drawn {d : Dev} (on : awake d = true) (few : d.jtag.fails < 3) :
    doUnlockChal d = { d with jtag := (doUnlockChal d).jtag, free := (doUnlockChal d).free } ∧
      ∃ (n : BitVec 256) (sig : Bytes), sig.length = 96 ∧
        (doUnlockChal d).jtag.chal = some (chalBytes (serialNumber d) n) ∧
        (doUnlockChal d).jtag.out = chalBytes (serialNumber d) n ++ sig := by
  unfold doUnlockChal
  rw [if_neg (by simp [on]), if_neg (by omega)]
  exact ⟨rfl, _, _, by rw [natBe, List.length_reverse, natLe_length], rfl, rfl⟩

theorem doUnlockChal_spent {d : Dev} (on : awake d = true) (spent : 3 ≤ d.jtag.fails) :
    doUnlockChal d = loadIr .unlockChal (List.replicate 144 0) d := by
  unfold doUnlockChal
  rw [if_neg (by simp [on]), if_pos spent]

theorem doUnlockResp_spent {r : Bytes} {d : Dev} (on : awake d = true) (spent : 3 ≤ d.jtag.fails) :
    doUnlockResp r d = loadIr .unlockResp [0] d := by
  unfold doUnlockResp
  rw [if_neg (by simp [on]), if_pos spent]

/-- What a response that is right makes of the device. -/
def unlockedBy (r : Bytes) (d : Dev) : Dev :=
  { loadIr .unlockResp [0] d with jtag.chal := none, jtag.unlocked := some (BitVec.ofNat 2 (leAt r 1 1)) }

/-- The device with one more response counted that was wrong. -/
def unlockRefused (d : Dev) : Dev := { loadIr .unlockResp [0] d with jtag.chal := none, jtag.fails := d.jtag.fails + 1 }

theorem doUnlockResp_checked {r : Bytes} {d : Dev} (on : awake d = true) (few : d.jtag.fails < 3) :
    doUnlockResp r d = if unlockOk r d then
        (if fwExec d then logRec 4 0 0 0 (leAt r 1 1) 0 (unlockedBy r d) else unlockedBy r d)
      else recordErr 0x86 0 0 (unlockRefused d) := by
  unfold doUnlockResp
  rw [if_neg (by simp [on]), if_neg (by omega)]
  rfl

theorem logRec_appends (kind code object cid opcode result : Nat) (d : Dev) :
    ∃ l n, logRec kind code object cid opcode result d = { d with err.log := l, err.logSeq := n } := ⟨_, _, rfl⟩

theorem recordErr_last (code src obj : Nat) (d : Dev) :
    (recordErr code src obj d).err.last.map (·.code) = some (BitVec.ofNat 8 code) := by
  rw [recordErr, capture_last]
  rfl

end Sys2Proof.Machine
end

section
/-!
What the firmware takes up when it goes on: hard faults of the near tier that have waited, spills and segments to
release (R29, R411). None of it changes a stored item.
-/

namespace Sys2Proof.Machine

/-! ### The queue that owns a near segment -/

theorem tblFind_of_mem {α : Type} {k : Nat} {v : α} {t : Tbl α} (sorted : tblSorted t = true) (mem : (k, v) ∈ t) :
    tblFind t k = some v := by
  induction t with
  | nil => cases mem
  | cons e t ih =>
    obtain ⟨j, w⟩ := e
    obtain ⟨above, rest⟩ := tblSorted_cons.1 sorted
    obtain same | later := List.mem_cons.1 mem
    · cases same
      exact if_pos rfl
    · have before : j < k := above _ later
      rw [tblFind, if_neg (by omega)]
      exact ih rest later

theorem queueOf_of_mem {d : Dev} {i : Nat} {q : Queue} (wf : tblWf {} d.queues = true) (mem : (i, q) ∈ d.queues) :
    queueOf d i = q := by
  have sorted : tblSorted d.queues = true := (Bool.and_eq_true_iff.1 wf).1
  rw [queueOf, tblGet, tblFind_of_mem sorted mem, Option.getD_some]

/-! ### Items stay -/

theorem storageMoves_noteShort (i : Nat) (d : Dev) : StorageMoves d (noteShort i d) :=
  SameBut.storageMoves (S := [.tier]) (mask_noteShort (by decide) ..) (by decide) (by decide)

theorem storageMoves_rep (r : Rep) (d : Dev) : StorageMoves d { d with rep := r } := .of_eq rfl rfl fun _ hx => hx

theorem storageMoves_tier (t : Tier) (d : Dev) : StorageMoves d { d with tier := t } := .of_eq rfl rfl fun _ hx => hx

theorem storageMoves_writeRepair (d : Dev) : StorageMoves d (writeRepair d) :=
  SameBut.storageMoves (S := [.tier]) (mask_writeRepair (by decide) d) (by decide) (by decide)

theorem storageMoves_ite {p : Prop} [Decidable p] {a b d : Dev} (ha : StorageMoves d a) (hb : StorageMoves d b) :
    StorageMoves d (if p then a else b) := by
  split
  · exact ha
  · exact hb

theorem storageMoves_putFound {i : Nat} {q q' : Queue} {d : Dev} (mem : (i, q) ∈ d.queues)
    (same : restOfQueue q' = restOfQueue q) : StorageMoves d (putQueue i q' d) := by
  refine ⟨rfl, fun wf => putQueue_wf wf i q', fun wf j => ?_, fun _ hx => hx⟩
  by_cases here : j = i
  · rw [here, queueOf_put_same wf, same, queueOf_of_mem wf mem]
  · rw [queueOf_put_other _ _ here]

theorem storageMoves_resvFree (n : Nat) (d : Dev) :
    StorageMoves d { d with queues := tblMap {} (fun q => { q with resvFree := q.resvFree.filter (· ≠ n) }) d.queues } := by
  refine ⟨rfl, fun wf => ?_, fun wf i => ?_, fun _ hx => hx⟩
  · exact tblWf_map (fun q : Queue => { q with resvFree := q.resvFree.filter (· ≠ n) }) wf
  rw [queueOf, tblGet_map rfl (Bool.and_eq_true_iff.1 wf).1 i]
  rfl

theorem storageMoves_retireNearSeg (n : Nat) (d : Dev) : StorageMoves d (retireNearSeg n d) := by
  unfold retireNearSeg
  extract_lets +onlyGivenNames owner
  cases found : owner with
  | none =>
    extract_lets +onlyGivenNames freed retired
    have before : StorageMoves d retired := (storageMoves_resvFree n d).trans (storageMoves_retireNear n freed)
    exact before.trans ((storageMoves_foldl (fun e x => storageMoves_noteShort (Prod.fst x) e) _ _).trans (storageMoves_settleShorts _))
  | some x =>
    obtain ⟨i, q⟩ := x
    have put (q' : Queue) (same : restOfQueue q' = restOfQueue q) : StorageMoves d (wipeNear n (putQueue i q' d)) :=
      (storageMoves_putFound (List.mem_of_find?_eq_some found) same).trans (.of_eq rfl rfl fun _ hx => hx)
    dsimp -zeta only
    extract_lets +onlyGivenNames dst
    clear_value dst
    cases dst with
    | none => exact storageMoves_ite (.refl d) (.of_eq rfl rfl fun _ hx => hx)
    | some g =>
      dsimp -zeta only
      extract_lets +onlyGivenNames fromResv q'
      exact (put q' rfl).trans ((storageMoves_retireNear ..).trans ((storageMoves_noteShort ..).trans (storageMoves_settleShorts _)))

theorem storageMoves_hardFaultNear (a : Nat) (d : Dev) : StorageMoves d (hardFaultNear a d) := by
  unfold hardFaultNear
  extract_lets +onlyGivenNames seg _ cleared _ repaired
  have before : StorageMoves d repaired :=
    ((storageMoves_rep _ d).trans (storageMoves_rep _ cleared)).trans (storageMoves_writeRepair _)
  clear_value repaired
  split
  · exact .refl d
  · split
    · exact before.trans (storageMoves_retireNearSeg ..)
    · split
      · exact before.trans (storageMoves_retireNearSeg ..)
      · exact before.trans (.of_eq rfl rfl fun _ hx => hx)

theorem storageMoves_queueProgram (i pos : Nat) (d : Dev) : StorageMoves d (queueProgram i pos d) :=
  (storageMoves_tier _ d).trans (storageMoves_put rfl)

theorem storageMoves_spillCheck (n i : Nat) : ∀ d, StorageMoves d (spillCheck n i d) := by
  induction n with
  | zero => exact .refl
  | succ n ih =>
    intro d
    unfold spillCheck
    dsimp only
    split
    · split
      · exact (storageMoves_queueProgram ..).trans (ih _)
      · exact .refl d
    · exact .refl d

theorem storageMoves_releaseSpill (n i : Nat) (d : Dev) : StorageMoves d (spillCheck n i (releaseUnused i d)) :=
  (storageMoves_releaseUnused i d).trans (storageMoves_spillCheck n i _)

theorem storageMoves_firmwareResumes (d : Dev) : StorageMoves d (firmwareResumes d) := by
  unfold firmwareResumes
  generalize 512 = n
  split
  · exact .refl d
  · extract_lets +onlyGivenNames due _ served
    have before : StorageMoves d served :=
      (storageMoves_rep _ d).trans (storageMoves_foldl (fun e a => storageMoves_hardFaultNear a e) _ _)
    have swept : StorageMoves served (served.queues.foldl (fun d e => spillCheck n e.1 (releaseUnused e.1 d)) served) :=
      storageMoves_foldl (fun e (x : Nat × Queue) => storageMoves_releaseSpill n x.1 e) _ _
    exact before.trans (swept.trans (storageMoves_settleShorts _))

/-! ### The faults that wait -/

/-- Hard faults of the near tier that wait for the firmware. -/
def waitingFaults (d : Dev) : List Nat := d.rep.faultsDue

theorem SameBut.waitingFaults {S : List Part} {d e : Dev} (h : SameBut S d e) (p : .rep ∉ S) :
    waitingFaults e = waitingFaults d := congrArg Rep.faultsDue (h.rep_eq p)

theorem waitingFaults_foldl {β : Type} {f : Dev → β → Dev} (keeps : ∀ d x, waitingFaults (f d x) = waitingFaults d) (l : List β) :
    ∀ d, waitingFaults (l.foldl f d) = waitingFaults d := by
  induction l with
  | nil => exact fun _ => rfl
  | cons x l ih => intro d; exact (ih _).trans (keeps d x)

theorem waitingFaults_recordErr (code src obj : Nat) (d : Dev) : waitingFaults (recordErr code src obj d) = waitingFaults d :=
  (sameBut_capture ..).waitingFaults (by decide)

theorem waitingFaults_writeRepair (d : Dev) : waitingFaults (writeRepair d) = waitingFaults d :=
  SameBut.waitingFaults (S := [.tier]) (mask_writeRepair (by decide) d) (by decide)

theorem waitingFaults_noteShort (i : Nat) (d : Dev) : waitingFaults (noteShort i d) = waitingFaults d :=
  SameBut.waitingFaults (S := [.tier]) (mask_noteShort (by decide) ..) (by decide)

theorem waitingFaults_settleShorts (d : Dev) : waitingFaults (settleShorts d) = waitingFaults d :=
  SameBut.waitingFaults (S := [.queues, .tier]) (mask_settleShorts (by decide) (by decide) d) (by decide)

theorem waitingFaults_addRecord (r : JRec) (d : Dev) : waitingFaults (addRecord r d) = waitingFaults d :=
  SameBut.waitingFaults (S := [.timers, .epoch, .queues, .tier])
    (mask_addRecord (by decide) (by decide) (by decide) (by decide) r d) (by decide)

theorem waitingFaults_retireNear (n : Nat) (d : Dev) : waitingFaults (retireNear n d) = waitingFaults d :=
  (waitingFaults_recordErr ..).trans (waitingFaults_writeRepair d)

theorem waitingFaults_giveNear (i n : Nat) (d : Dev) : waitingFaults (giveNear i n d) = waitingFaults d := by
  unfold giveNear
  dsimp only
  split
  · exact (waitingFaults_settleShorts _).trans ((waitingFaults_noteShort ..).trans ((waitingFaults_retireNear ..).trans rfl))
  · split
    · exact (waitingFaults_settleShorts _).trans rfl
    · exact (waitingFaults_settleShorts _).trans rfl

theorem waitingFaults_retireDeep (seg : Nat) (d : Dev) : waitingFaults (retireDeep seg d) = waitingFaults d := by
  unfold retireDeep
  extract_lets +onlyGivenNames repaired _ _ recorded
  have before : waitingFaults recorded = waitingFaults d := (waitingFaults_recordErr ..).trans (waitingFaults_writeRepair d)
  split
  · exact before
  · split
    · exact before
    · exact (waitingFaults_recordErr ..).trans before

theorem waitingFaults_freeDeep (i seg : Nat) (named : Bool) (d : Dev) : waitingFaults (freeDeep i seg named d) = waitingFaults d := by
  unfold freeDeep
  split
  · dsimp only
    split
    · exact (waitingFaults_addRecord ..).trans (waitingFaults_retireDeep ..)
    · exact waitingFaults_retireDeep ..
  · split
    · exact (waitingFaults_addRecord ..).trans rfl
    · rfl

theorem waitingFaults_giveLoan (i : Nat) (persist hole : Bool) (l : LoanRef) (d : Dev) :
    waitingFaults (giveLoan i persist hole l d) = waitingFaults d :=
  SameBut.waitingFaults (S := [.timers, .out, .epoch, .queues, .tier, .peers])
    (mask_giveLoan (by decide) (by decide) (by decide) (by decide) (by decide) (by decide) ..) (by decide)

theorem waitingFaults_releaseSeg (i : Nat) (persist : Bool) (c : ChainSeg) (d : Dev) :
    waitingFaults (releaseSeg i persist c d) = waitingFaults d := by
  unfold releaseSeg
  extract_lets +onlyGivenNames near deep loan
  have first : waitingFaults near = waitingFaults d := by
    unfold near
    split
    · exact waitingFaults_giveNear ..
    · rfl
  have second : waitingFaults deep = waitingFaults near := by
    unfold deep
    split
    · exact waitingFaults_freeDeep ..
    · rfl
  have third : waitingFaults loan = waitingFaults deep := by
    unfold loan
    split
    · exact waitingFaults_giveLoan ..
    · rfl
  exact third.trans (second.trans first)

theorem waitingFaults_releaseUnused (i : Nat) (d : Dev) : waitingFaults (releaseUnused i d) = waitingFaults d := by
  unfold releaseUnused
  dsimp only
  split
  · rfl
  · exact (waitingFaults_foldl (fun e c => waitingFaults_releaseSeg ..) _ _).trans rfl

theorem waitingFaults_retireNearSeg (n : Nat) (d : Dev) : waitingFaults (retireNearSeg n d) = waitingFaults d := by
  unfold retireNearSeg
  extract_lets +onlyGivenNames owner
  clear_value owner
  cases owner with
  | none =>
    exact (waitingFaults_settleShorts _).trans ((waitingFaults_foldl (fun e x => waitingFaults_noteShort ..) _ _).trans
      ((waitingFaults_retireNear ..).trans rfl))
  | some x =>
    dsimp -zeta only
    extract_lets +onlyGivenNames dst
    clear_value dst
    cases dst with
    | none =>
      dsimp only
      split
      · rfl
      · rfl
    | some g => exact (waitingFaults_settleShorts _).trans ((waitingFaults_noteShort ..).trans ((waitingFaults_retireNear ..).trans rfl))

theorem waitingFaults_hardFaultNear (a : Nat) (d : Dev) : waitingFaults (hardFaultNear a d) = waitingFaults d := by
  unfold hardFaultNear
  extract_lets +onlyGivenNames seg _ cleared _ repaired
  have before : waitingFaults repaired = waitingFaults d := waitingFaults_writeRepair { cleared with rep.hardLog := cleared.rep.hardLog ++ [a] }
  clear_value repaired
  split
  · rfl
  · split
    · exact (waitingFaults_retireNearSeg ..).trans before
    · split
      · exact (waitingFaults_retireNearSeg ..).trans before
      · exact before

/-- The firmware takes every fault up that has waited for it. -/
theorem waitingFaults_firmwareResumes {d : Dev} (runs : fwExec d = true) : waitingFaults (firmwareResumes d) = [] := by
  unfold firmwareResumes
  rw [if_neg (by simp [runs])]
  dsimp only
  refine (waitingFaults_settleShorts _).trans ((waitingFaults_foldl (fun e x => ?_) _ _).trans
    ((waitingFaults_foldl (fun e a => waitingFaults_hardFaultNear a e) _ _).trans rfl))
  exact (SameBut.waitingFaults (S := [.queues, .tier]) (mask_spillCheck (by decide) (by decide) ..) (by decide)).trans
    (waitingFaults_releaseUnused ..)

/-! ### Nothing else of the device moves -/

theorem mask_retireNearSeg {S : List Part} (hlink : .link ∈ S) (hout : .out ∈ S) (hqueues : .queues ∈ S) (htier : .tier ∈ S)
    (hrep : .rep ∈ S) (herr : .err ∈ S) (n : Nat) (d : Dev) : mask S (retireNearSeg n d) = mask S d := by
  have settles (e : Dev) : mask S (settleShorts e) = mask S e := mask_settleShorts hqueues htier e
  have notes (i : Nat) (e : Dev) : mask S (noteShort i e) = mask S e := mask_noteShort htier ..
  have retires (e : Dev) : mask S (retireNear n e) = mask S e := mask_retireNear hlink hout htier hrep herr ..
  unfold retireNearSeg
  extract_lets +onlyGivenNames owner
  clear_value owner
  cases owner with
  | none => exact (settles _).trans ((mask_foldl (fun e x => notes ..) _ _).trans ((retires _).trans (mask_set_queues d hqueues _)))
  | some x =>
    dsimp -zeta only
    extract_lets +onlyGivenNames dst
    clear_value dst
    cases dst with
    | none => exact mask_ite rfl (mask_set_tier d htier _)
    | some g => exact (settles _).trans ((notes ..).trans ((retires _).trans ((mask_wipeNear hrep ..).trans (mask_putQueue hqueues ..))))

theorem mask_hardFaultNear {S : List Part} (hlink : .link ∈ S) (hout : .out ∈ S) (hqueues : .queues ∈ S) (htier : .tier ∈ S)
    (hrep : .rep ∈ S) (herr : .err ∈ S) (a : Nat) (d : Dev) : mask S (hardFaultNear a d) = mask S d := by
  unfold hardFaultNear
  extract_lets +onlyGivenNames seg _ cleared _ repaired
  have before : mask S repaired = mask S d :=
    (mask_writeRepair htier _).trans ((mask_set_rep _ hrep _).trans (mask_set_rep d hrep _))
  clear_value repaired
  split
  · rfl
  · split
    · exact (mask_retireNearSeg hlink hout hqueues htier hrep herr ..).trans before
    · split
      · exact (mask_retireNearSeg hlink hout hqueues htier hrep herr ..).trans before
      · exact (mask_set_rep _ hrep _).trans before

/-- The parts of the device that work taken up again may move. -/
def resumedParts : List Part := [.timers, .link, .out, .epoch, .queues, .tier, .rep, .err, .peers]

theorem sameBut_firmwareResumes (d : Dev) : SameBut resumedParts d (firmwareResumes d) := by
  unfold firmwareResumes
  split
  · rfl
  · dsimp only
    refine (mask_settleShorts (by decide) (by decide) _).trans ((mask_foldl (fun e x => ?_) _ _).trans
      ((mask_foldl (fun e a => mask_hardFaultNear (by decide) (by decide) (by decide) (by decide) (by decide) (by decide) a e) _ _).trans
        (mask_set_rep d (by decide) _)))
    exact (mask_spillCheck (by decide) (by decide) ..).trans
      (mask_releaseUnused (by decide) (by decide) (by decide) (by decide) (by decide) (by decide) (by decide) (by decide) (by decide) ..)

end Sys2Proof.Machine
end

section
/-!
RESUME, and what JTAG and the Loupe may do (R573 to R588).
-/

namespace Sys2Proof.Machine

theorem StorageMoves.retained {d e : Dev} (h : StorageMoves d e) (wf : tblWf {} d.queues = true) (i : Nat) :
    (queueOf e i).retained = (queueOf d i).retained :=
  show (restOfQueue (queueOf e i)).retained = (restOfQueue (queueOf d i)).retained by rw [h.rest wf i]

/-! ### The Shuttle goes on (R29, R581) -/

/-- The device when the Shuttle goes on: the timers that had stopped run again. -/
def goneOn (d : Dev) : Dev := settlePauses { d with jtag.halted := false, jtag.core := [] }

theorem serveHeld_none {d : Dev} (none : d.cas.held = []) (quiet : d.cas.standbyAfterRsp = false) :
    SameBut [.cas] d (serveHeld d) := by
  have cleared : standbyCheck { d with cas.held := [] } = { d with cas.held := [] } := standbyCheck_quiet quiet
  unfold serveHeld
  split
  · rfl
  · rw [none, List.foldl_nil, cleared]
    exact mask_set_cas d (by decide) _

theorem flushDoe_none {d : Dev} (none : d.spdm.held = none) : flushDoe d = d := by
  unfold flushDoe
  rw [none]

/-- What the firmware takes up is all that a RESUME changes of the queues and of the repairs. -/
theorem goOn_frame {d : Dev} (halted : d.jtag.halted = true) (held : d.cas.held = []) (doe : d.spdm.held = none)
    (quiet : d.cas.standbyAfterRsp = false) :
    SameBut [.timers, .link, .out, .cas, .adm, .rings, .ports] (firmwareResumes (goneOn d)) (goOn d) := by
  have paused : SameBut [.timers] { d with jtag.halted := false, jtag.core := [] } (goneOn d) := sameBut_settlePauses _
  have noDoe : (goneOn d).spdm.held = none := (congrArg Spdm.held (paused.spdm_eq (by decide))).trans doe
  have stands := (sameBut_firmwareResumes (goneOn d)).eq
  have noFlit : (firmwareResumes (goneOn d)).cas.held = [] :=
    (congrArg (fun e => e.cas.held) stands).trans ((congrArg (fun e => e.cas.held) paused.eq).trans held)
  have noRsp : (firmwareResumes (goneOn d)).cas.standbyAfterRsp = false :=
    (congrArg (fun e => e.cas.standbyAfterRsp) stands).trans ((congrArg (fun e => e.cas.standbyAfterRsp) paused.eq).trans quiet)
  have goes : goOn d = pumpFlags (fetchNext (serveHeld (firmwareResumes (flushDoe (goneOn d))))) := if_neg (by simp [halted])
  rw [goes, flushDoe_none noDoe]
  refine SameBut.trans ((serveHeld_none noFlit noRsp).mono (by decide)) ?_
  exact SameBut.trans (mask_fetchNext (by decide) (by decide) (by decide) (by decide) _)
    (mask_pumpFlags (by decide) (by decide) (by decide) (by decide) (by decide) _)

theorem goOn_takesUp {d : Dev} (on : awake d = true) (halted : d.jtag.halted = true) (held : d.cas.held = [])
    (doe : d.spdm.held = none) (quiet : d.cas.standbyAfterRsp = false) (wf : tblWf {} d.queues = true) :
    (goOn d).jtag.halted = false ∧
      (fwRunning d = true → d.jtag.haltPend = false → d.err.fatal = false → (goOn d).rep.faultsDue = []) ∧
      ∀ j, (queueOf (goOn d) j).items = (queueOf d j).items ∧ (queueOf (goOn d) j).retained = (queueOf d j).retained := by
  have frame := goOn_frame halted held doe quiet
  have paused : SameBut [.timers] { d with jtag.halted := false, jtag.core := [] } (goneOn d) := sameBut_settlePauses _
  have queues : (goneOn d).queues = d.queues := paused.queues_eq (by decide)
  have moves := storageMoves_firmwareResumes (goneOn d)
  refine ⟨?_, fun runs pend live => ?_, fun j => ?_⟩
  · rw [frame.jtag_eq (by decide), (sameBut_firmwareResumes _).jtag_eq (by decide), paused.jtag_eq (by decide)]
  · rw [frame.rep_eq (by decide)]
    refine waitingFaults_firmwareResumes ?_
    have awake' : d.pwr.standby = false := by
      simp only [awake, Bool.and_eq_true, Bool.not_eq_true'] at on
      exact on.2
    rw [fwExec, fwRunning, paused.boot_eq (by decide), paused.jtag_eq (by decide), paused.pwr_eq (by decide),
      show (goneOn d).err.fatal = d.err.fatal from congrArg (fun e => e.err.fatal) paused.eq]
    simp only [fwRunning] at runs
    simp [runs, pend, live, awake']
  · have wf' : tblWf {} (goneOn d).queues = true := by rw [queues]; exact wf
    have now : queueOf (goOn d) j = queueOf (firmwareResumes (goneOn d)) j := by
      rw [queueOf, frame.queues_eq (by decide), queueOf]
    have before : queueOf (goneOn d) j = queueOf d j := by rw [queueOf, queues, queueOf]
    rw [now, moves.items wf', moves.retained wf', before]
    exact ⟨rfl, rfl⟩

/-- Settles O58. -/
theorem jtagAndLoupeActAsAllowed : Obligations.JtagAndLoupeActAsAllowed := by
  unfold Obligations.JtagAndLoupeActAsAllowed
  intro s on
  refine ⟨?_, ?_, ?_, ?_, ?_, fun data => ?_, fun data => ?_, fun shut => ⟨fun v => ?_, fun may space inside => ?_, fun may => ?_,
    fun v may space inside wf => ⟨fun halted => ?_, fun halted => ?_⟩, fun a may halted => ⟨fun idle => ?_, fun busy => ?_⟩,
    fun a may halted => ⟨?_, fun held doe quiet wf => ?_⟩⟩, fun pend idle => ?_, fun few => ?_, fun spent => ?_,
    fun r spent => ?_, fun r few => ?_⟩
  · exact completes_of_exec_eq_act rfl (if_pos on)
  · exact completes_of_exec_eq_act rfl (if_pos on)
  · exact completes_of_exec_eq_act rfl (if_pos on)
  · exact completes_of_exec_eq_act rfl (if_pos on)
  · exact completes_of_exec_eq_act rfl (if_pos on)
  · refine completes_of_exec_eq_act rfl ?_
    rw [if_pos on]
    exact ⟨rfl, rfl, rfl⟩
  · refine completes_of_exec_eq_act (f := doExtest data) rfl ?_
    unfold doExtest
    rw [if_neg (by simp [on])]
    extract_lets +onlyGivenNames _ d
    split
    case isTrue acts =>
      refine ⟨rfl, rfl, fun _ => rfl, fun runs => ?_⟩
      rw [boundaryActs_running (d := d) runs] at acts
      exact absurd acts Bool.false_ne_true
    case isFalse acts =>
      exact ⟨rfl, rfl, fun wait => absurd (boundaryActs_extest (d := d) on rfl wait) acts, fun _ => ⟨rfl, rfl⟩⟩
  · refine completes_of_exec_eq_act (f := doLoupeAddr v) rfl ?_
    rw [doLoupeAddr, if_neg (by simp [on]), if_neg (by simp [shut])]
    exact ⟨rfl, rfl, rfl⟩
  · refine completes_of_exec_eq_act (f := doLoupeRead) rfl ?_
    rw [doLoupeRead_shown on shut may space inside]
    exact ⟨rfl, rfl, rfl, rfl, rfl⟩
  · refine completes_of_exec_eq_act (f := doLoupeRead) rfl ?_
    rw [doLoupeRead_refused on shut may]
    exact ⟨rfl, rfl, rfl, rfl⟩
  · refine completes_of_exec_eq_act (f := doLoupeWrite v)
      (if_neg (by rw [loupeReserved_sram space]; exact Bool.false_ne_true)) ?_
    rw [doLoupeWrite_sram on shut may space inside, if_pos halted]
    exact ⟨rfl, tblGet_set_same wf _ v, rfl⟩
  · refine completes_of_exec_eq_act (f := doLoupeWrite v)
      (if_neg (by rw [loupeReserved_sram space]; exact Bool.false_ne_true)) ?_
    rw [doLoupeWrite_sram on shut may space inside, if_neg (by simp [halted])]
    exact ⟨rfl, rfl⟩
  · refine completes_of_exec_eq_act (f := scanCtrl a askHalt) rfl ?_
    rw [scanCtrl_mayControl on shut may, askHalt_idle (d := ctrlScanned a s.dev) halted idle, haltNow_frame]
    exact ⟨rfl, rfl, rfl⟩
  · refine completes_of_exec_eq_act (f := scanCtrl a askHalt) rfl ?_
    rw [scanCtrl_mayControl on shut may, askHalt_locked (d := ctrlScanned a s.dev) halted busy]
    exact ⟨rfl, halted, rfl⟩
  · refine completes_of_exec_eq_act (f := scanCtrl a stepOne) rfl ?_
    rw [scanCtrl_mayControl on shut may, stepOne, if_pos (show (ctrlScanned a s.dev).jtag.halted = true from halted)]
    exact ⟨halted, rfl, rfl⟩
  · refine completes_of_exec_eq_act (f := fun d => govTrack (scanCtrl a goOn d)) rfl ?_
    rw [scanCtrl_mayControl on shut may]
    obtain ⟨runs, faults, items⟩ := goOn_takesUp (d := ctrlScanned a s.dev) on halted held doe quiet wf
    have tracked := sameBut_govTrack (goOn (ctrlScanned a s.dev))
    refine ⟨(congrArg Jtag.halted (tracked.jtag_eq (by decide))).trans runs, fun fw pend live => ?_, fun j => ?_⟩
    · exact (congrArg Rep.faultsDue (tracked.rep_eq (by decide))).trans (faults fw pend live)
    · rw [queueOf_govTrack]
      exact items j
  · refine completes_of_exec_eq_act (f := shuttleHalts) rfl ?_
    rw [shuttleHalts, if_pos (by simp [on, pend, idle]), haltNow_frame]
    exact ⟨rfl, rfl, rfl⟩
  · obtain ⟨frame, drawn⟩ := doUnlockChal_drawn on few
    exact completes_of_exec_eq_act rfl ⟨frame, drawn⟩
  · refine completes_of_exec_eq_act (f := doUnlockChal) rfl ?_
    rw [doUnlockChal_spent on spent]
    exact ⟨rfl, rfl, rfl⟩
  · refine completes_of_exec_eq_act (f := doUnlockResp r) rfl ?_
    rw [doUnlockResp_spent on spent]
    exact ⟨rfl, rfl⟩
  · refine completes_of_exec_eq_act (f := doUnlockResp r) rfl ?_
    rw [doUnlockResp_checked on few]
    cases right : unlockOk r s.dev
    · rw [if_neg Bool.false_ne_true, if_neg Bool.false_ne_true]
      have jtag : (recordErr 0x86 0 0 (unlockRefused s.dev)).jtag = (unlockRefused s.dev).jtag :=
        SameBut.jtag_eq (sameBut_capture ..) (by decide)
      rw [jtag]
      exact ⟨rfl, rfl, rfl, recordErr_last 0x86 0 0 (unlockRefused s.dev)⟩
    · rw [if_pos rfl, if_pos rfl]
      split
      · obtain ⟨l, n, logged⟩ := logRec_appends 4 0 0 0 (leAt r 1 1) 0 (unlockedBy r s.dev)
        rw [logged]
        exact ⟨rfl, rfl, rfl, rfl⟩
      · exact ⟨rfl, rfl, rfl, rfl⟩

end Sys2Proof.Machine
end

section
/-!
The lender's side of borrowed segments (R442 to R445, R453).
-/

namespace Sys2Proof.Machine

/-! ### A SEG unit in its turn -/

theorem segUnit_inTurn {h : FlitHdr} {d : Dev} (turn : InTurn h d) (op : Nat) (reply : Bool) (i : Instr) (p : SegPl)
    (f : Nat → Dev → Dev) :
    segUnit op reply i h p f d = standbyCheck (f h.src.toNat (accepted h (segUnitBytes op p) d)) := by
  unfold segUnit
  rw [receive_inTurn turn, whenFirmware_inTurn turn]

/-- A service that leaves the wait for STANDBY alone is all there is to such a unit. -/
theorem segUnit_serves {h : FlitHdr} {d : Dev} {S : List Part} (turn : InTurn h d) (op : Nat) (reply : Bool) (i : Instr)
    (p : SegPl) {f : Nat → Dev → Dev} (same : SameBut S (accepted h (segUnitBytes op p) d)
      (f h.src.toNat (accepted h (segUnitBytes op p) d))) (apart : .cas ∉ S) :
    segUnit op reply i h p f d = f h.src.toNat (accepted h (segUnitBytes op p) d) := by
  rw [segUnit_inTurn turn]
  refine standbyCheck_quiet ?_
  obtain ⟨⟨-, -, -, -, -, quiet, -⟩, -⟩ := turn
  obtain ⟨x, eq⟩ := same.casApart_eq apart
  rw [eq]
  exact (accepted_cas h (segUnitBytes op p) d).2.1.trans quiet

theorem accepted_tier (h : FlitHdr) (payload : Bytes) (d : Dev) : (accepted h payload d).tier = d.tier :=
  (sameBut_accepted h payload d).tier_eq (by decide)

theorem accepted_queues (h : FlitHdr) (payload : Bytes) (d : Dev) : (accepted h payload d).queues = d.queues :=
  (sameBut_accepted h payload d).queues_eq (by decide)

/-- What a change of one peer leaves of every peer. -/
theorem peerOf_onPeer_keeps {β : Type} {f : Peer → Peer} (g : Peer → β) (keeps : ∀ p, g (f p) = g p) (n m : Nat) (d : Dev) :
    g (peerOf (onPeer n f d) m) = g (peerOf d m) := by
  unfold peerOf tblGet onPeer
  by_cases here : m = n
  · subst here
    rw [tblFind_adjust_same]
    cases tblFind d.cas.peers m with
    | none => rfl
    | some p => exact keeps p
  · rw [tblFind_adjust_other _ _ here]

theorem accepted_lineage (h : FlitHdr) (payload : Bytes) (d : Dev) :
    (peerOf (accepted h payload d) h.src.toNat).lineage = (peerOf d h.src.toNat).lineage := by
  have taken : (peerOf (takeHeader h d) h.src.toNat).lineage = (peerOf d h.src.toNat).lineage :=
    (congrArg Peer.lineage ((sendsOnly_takeHeader h d).peerOf h.src.toNat) :)
  rw [← taken]
  unfold accepted
  exact peerOf_onPeer_keeps Peer.lineage (fun _ => by rfl) ..

/-! ### What a lender has to give -/

theorem lendable_accepted (h : FlitHdr) (payload : Bytes) (d : Dev) : lendable (accepted h payload d) = lendable d := by
  rw [(sameBut_accepted h payload d).eq]
  rfl

theorem chooseDeep_accepted (h : FlitHdr) (payload : Bytes) (d : Dev) : chooseDeep (accepted h payload d) = chooseDeep d := by
  unfold chooseDeep wearOf
  rw [accepted_tier]

theorem loanTo_accepted (h : FlitHdr) (payload : Bytes) (d : Dev) (n k : Nat) :
    loanTo (accepted h payload d) n k = loanTo d n k := by
  rw [loanTo, accepted_tier, loanTo]

theorem lentRuns_accepted (h : FlitHdr) (payload : Bytes) (d : Dev) (k : Nat) :
    lentRuns (accepted h payload d) k = lentRuns d k := by
  rw [lentRuns, accepted_tier, lentRuns]

/-! ### Requests of a borrower -/

theorem sameBut_sendSeq (n type : Nat) (payload : Bytes) (d : Dev) : SameBut [.timers, .out, .peers] d (sendSeq n type payload d) :=
  mask_sendSeq (by decide) (by decide) (by decide) ..

/-- What is sent to a borrower changes the ring alone. -/
theorem SameBut.ringOnly {d e : Dev} (h : SameBut [.timers, .out, .peers] d e) : RingOnly d e :=
  (SameBut.mono (T := [.timers, .out, .cas, .peers]) h (by decide)).eq

/-- The ring and the tier alone have changed, and the tier as given. -/
theorem SameBut.ringOnly_tier {d e : Dev} {t : Tier} (h : SameBut [.timers, .out, .peers, .tier] d e) (tier : e.tier = t) :
    RingOnly { d with tier := t } e := by
  subst tier
  exact (SameBut.mono (T := [.timers, .out, .cas, .peers, .tier]) h (by decide)).eq

theorem loanReqTaken_refused {p : SegPl} {src : Nat} {d : Dev} (none : lendable d = 0) :
    loanReqTaken p src d = sendSeq src 8 (segPayload 2 0 p.persist 0 0 p.borrower.toNat []) d := by
  unfold loanReqTaken
  rw [if_pos none]

/-- The lender's tier once segment `g` has been lent. -/
def lentTo (p : SegPl) (src g : Nat) (d : Dev) : Dev :=
  { d with
    tier.loans := tblPut d.tier.loans g { node := src, lineage := (peerOf d src).lineage, persist := p.persist
                                          borrower := p.borrower.toNat, seg := g, data := [] }
    tier.deep := tblPut d.tier.deep g (.lent g) }

theorem lentTo_tier {p : SegPl} {src g : Nat} {d : Dev} {t : Tier} (tier : d.tier = t) : (lentTo p src g d).tier =
    { t with loans := (lentTo p src g d).tier.loans, deep := (lentTo p src g d).tier.deep } := by
  subst tier
  rfl

theorem loanReqTaken_granted {p : SegPl} {src g : Nat} {d : Dev} (spare : 0 < lendable d) (chosen : chooseDeep d = some g)
    (unlent : tblFind d.tier.loans g = none) :
    loanReqTaken p src d = sendSeq src 8 (segPayload 1 g p.persist 0 0 p.borrower.toNat []) (lentTo p src g d) := by
  unfold loanReqTaken
  rw [if_neg (by omega)]
  simp only [chosen, unlent]
  rfl

/-- One more program waits. -/
def withProgram (x : Prog) (d : Dev) : Dev := { d with tier.progQ := d.tier.progQ ++ [x] }

theorem withProgram_tier {x : Prog} {d : Dev} {t : Tier} (tier : d.tier = t) :
    (withProgram x d).tier = { t with progQ := (withProgram x d).tier.progQ } := by
  subst tier
  rfl

theorem segWriteTaken_queued {p : SegPl} {src : Nat} {d : Dev} {l : Loan} (loan : loanTo d src p.handle.toNat = some l)
    (idle : lentRuns d p.handle.toNat = false) (empty : l.data = []) : segWriteTaken p src d = withProgram {
      what := .lent p.handle.toNat src l.borrower l.persist (sliceBytes p.data 0 4096), seg := some l.seg } d := by
  unfold segWriteTaken
  simp only [loan]
  exact if_neg (by simp [idle, empty])

theorem readReqTaken_inside {p : SegPl} {src : Nat} {d : Dev} {l : Loan} (loan : loanTo d src p.handle.toNat = some l)
    (inside : p.first.toNat + p.count.toNat < 128) : readReqTaken p src d =
      sendSeq src 8 (segPayload 7 p.handle.toNat l.persist p.first.toNat p.count.toNat p.borrower.toNat
        (sliceBytes l.data (32 * p.first.toNat) (32 * (p.count.toNat + 1)))) d := by
  have first : p.first.toNat % 128 = p.first.toNat := Nat.mod_eq_of_lt (by omega)
  have sectors : min (p.count.toNat + 1) (128 - p.first.toNat) = p.count.toNat + 1 := by omega
  unfold readReqTaken
  simp only [loan]
  rw [first, sectors, Nat.add_sub_cancel]

theorem tierWork_freeDeep (i seg : Nat) (named : Bool) (d : Dev) : tierWork (freeDeep i seg named d) = tierWork d := by
  unfold freeDeep
  split
  · dsimp only
    split
    · exact (tierWork_addRecord ..).trans (tierWork_retireDeep ..)
    · exact tierWork_retireDeep ..
  · split
    · exact (tierWork_addRecord ..).trans rfl
    · rfl

theorem freeLoan_loans (k : Nat) (d : Dev) : (freeLoan k d).tier.loans = tblErase d.tier.loans k ∨
    (tblFind d.tier.loans k = none ∧ freeLoan k d = d) := by
  unfold freeLoan
  cases found : tblFind d.tier.loans k with
  | none => exact .inr ⟨rfl, rfl⟩
  | some l =>
    refine .inl ?_
    dsimp -zeta only
    extract_lets +onlyGivenNames _ erased named noted
    have before : tierWork noted = tierWork erased := by
      unfold noted
      split
      · exact tierWork_addRecord ..
      · rfl
    have loans (e : Dev) (same : tierWork e = tierWork erased) : e.tier.loans = tblErase d.tier.loans k :=
      congrArg (fun w => w.2.2.2.1) same
    split
    · exact loans _ before
    · exact loans _ ((tierWork_freeDeep ..).trans before)

theorem sameBut_freeLoan (k : Nat) (d : Dev) :
    SameBut [.timers, .link, .out, .epoch, .queues, .tier, .rep, .err] d (freeLoan k d) := by
  unfold freeLoan
  cases tblFind d.tier.loans k with
  | none => rfl
  | some l =>
    dsimp -zeta only
    extract_lets +onlyGivenNames _ erased named noted
    have before : SameBut [.timers, .link, .out, .epoch, .queues, .tier, .rep, .err] d noted := by
      unfold noted
      split
      · exact (mask_addRecord (by decide) (by decide) (by decide) (by decide) ..).trans (mask_set_tier d (by decide) _)
      · exact mask_set_tier d (by decide) _
    split
    · exact before.trans (mask_set_tier _ (by decide) _)
    · exact before.trans (mask_freeDeep (by decide) (by decide) (by decide) (by decide) (by decide) (by decide) (by decide)
        (by decide) ..)

theorem sameBut_reclaimTaken (src : Nat) (d : Dev) : SameBut [.timers, .out, .peers] d (reclaimTaken src d) :=
  (mask_sendSeq (by decide) (by decide) (by decide) ..).trans
    (mask_foldl (fun e l => mask_sendSeq (by decide) (by decide) (by decide) ..) _ d)

theorem reclaimTaken_accepted (h : FlitHdr) (payload : Bytes) (d : Dev) :
    reclaimTaken h.src.toNat (accepted h payload d) = sendSeq h.src.toNat 8 (segPayload 11 0 false 0 0 0 [])
      ((d.tier.loans.filter fun l =>
          l.2.node = h.src.toNat && l.2.persist && l.2.lineage = (peerOf d h.src.toNat).lineage).foldl
        (fun d l => sendSeq h.src.toNat 8 (segPayload 10 l.1 true 0 0 l.2.borrower []) d) (accepted h payload d)) := by
  unfold reclaimTaken
  rw [accepted_tier, accepted_lineage]

/-- Settles O55: a READ_REQ is answered with the data held, whatever the lender's code finds (log entry 63). -/
theorem lendersServeTheirBorrowers : Obligations.LendersServeTheirBorrowers := by
  unfold Obligations.LendersServeTheirBorrowers
  rintro s h p _ rfl turn
  have ring (op : Nat) : SameBut [.timers, .out, .peers] s.dev (accepted h (segUnitBytes op p) s.dev) := sameBut_accepted ..
  refine ⟨fun none => ?_, fun g spare chosen unlent => ?_, fun l loan => ⟨fun idle empty => ?_, fun inside => ?_, fun sorted => ?_⟩, ?_⟩
  · have refused : loanReqTaken p h.src.toNat (accepted h (segUnitBytes 0 p) s.dev) = _ :=
      loanReqTaken_refused ((lendable_accepted ..).trans none)
    refine completes_of_exec_eq_act (f := fun d => govTrack (segUnit 0 false (.loanReq h p) h p (loanReqTaken p) d)) rfl ?_
    rw [segUnit_serves turn 0 false _ p (refused ▸ sameBut_sendSeq ..) (by decide), refused]
  · have granted : loanReqTaken p h.src.toNat (accepted h (segUnitBytes 0 p) s.dev) = _ :=
      loanReqTaken_granted (by rw [lendable_accepted]; exact spare) ((chooseDeep_accepted ..).trans chosen)
        (by rw [accepted_tier]; exact unlent)
    have sent := sameBut_sendSeq h.src.toNat 8 (segPayload 1 g p.persist 0 0 p.borrower.toNat [])
      (lentTo p h.src.toNat g (accepted h (segUnitBytes 0 p) s.dev))
    have same : SameBut [.timers, .out, .peers, .tier] (accepted h (segUnitBytes 0 p) s.dev)
        (loanReqTaken p h.src.toNat (accepted h (segUnitBytes 0 p) s.dev)) := by
      rw [granted]
      exact SameBut.trans (mask_set_tier _ (by decide) _) (sent.mono (by decide))
    refine completes_of_exec_eq_act (f := fun d => govTrack (segUnit 0 false (.loanReq h p) h p (loanReqTaken p) d)) rfl ?_
    rw [segUnit_serves turn 0 false _ p same (by decide)]
    have all : SameBut [.timers, .out, .peers, .tier] s.dev
        (govTrack (loanReqTaken p h.src.toNat (accepted h (segUnitBytes 0 p) s.dev))) :=
      SameBut.trans ((ring 0).mono (by decide)) (same.trans ((sameBut_govTrack _).mono (by decide)))
    have tier : (govTrack (loanReqTaken p h.src.toNat (accepted h (segUnitBytes 0 p) s.dev))).tier = _ :=
      ((sameBut_govTrack _).tier_eq (by decide)).trans (granted ▸ sent.tier_eq (by decide))
    refine ⟨?_, ?_, ?_⟩
    · rw [tier]
      refine (tblFind_put_same ..).trans ?_
      rw [accepted_lineage]
    · rw [tier]
      exact tblFind_put_same ..
    · refine all.ringOnly_tier ?_
      rw [tier]
      exact lentTo_tier (accepted_tier ..)
  · have queued : segWriteTaken p h.src.toNat (accepted h (segUnitBytes 3 p) s.dev) = _ :=
      segWriteTaken_queued ((loanTo_accepted ..).trans loan) ((lentRuns_accepted ..).trans idle) empty
    have same : SameBut [.timers, .out, .peers, .tier] (accepted h (segUnitBytes 3 p) s.dev)
        (segWriteTaken p h.src.toNat (accepted h (segUnitBytes 3 p) s.dev)) := by
      rw [queued]
      exact mask_set_tier _ (by decide) _
    refine completes_of_exec_eq_act (f := fun d => govTrack (segUnit 3 false (.segWrite h p) h p (segWriteTaken p) d)) rfl ?_
    rw [segUnit_serves turn 3 false _ p same (by decide)]
    have all : SameBut [.timers, .out, .peers, .tier] s.dev (govTrack (segWriteTaken p h.src.toNat (accepted h (segUnitBytes 3 p) s.dev))) :=
      SameBut.trans ((ring 3).mono (by decide)) (same.trans ((sameBut_govTrack _).mono (by decide)))
    have tier : (govTrack (segWriteTaken p h.src.toNat (accepted h (segUnitBytes 3 p) s.dev))).tier = _ :=
      ((sameBut_govTrack _).tier_eq (by decide)).trans (congrArg Dev.tier queued)
    refine ⟨?_, all.ringOnly_tier ?_⟩
    · rw [tier, withProgram, accepted_tier]
    · rw [tier]
      exact withProgram_tier (accepted_tier ..)
  · have answered : readReqTaken p h.src.toNat (accepted h (segUnitBytes 6 p) s.dev) = _ :=
      readReqTaken_inside ((loanTo_accepted ..).trans loan) inside
    refine completes_of_exec_eq_act (f := segUnit 6 false (.readReq h p) h p (readReqTaken p)) rfl ?_
    rw [segUnit_serves turn 6 false _ p (answered ▸ sameBut_sendSeq ..) (by decide), answered]
  · have released : segReleaseTaken p h.src.toNat (accepted h (segUnitBytes 8 p) s.dev) = freeLoan p.handle.toNat _ :=
      if_pos (by rw [loanTo_accepted, loan]; rfl)
    refine completes_of_exec_eq_act (f := fun d => govTrack (segUnit 8 false (.segRelease h p) h p (segReleaseTaken p) d)) rfl ?_
    rw [segUnit_serves turn 8 false _ p (released ▸ sameBut_freeLoan ..) (by decide), released, (sameBut_govTrack _).tier_eq (by decide)]
    obtain erased | ⟨absent, -⟩ := freeLoan_loans p.handle.toNat (accepted h (segUnitBytes 8 p) s.dev)
    · rw [erased, accepted_tier]
      exact ⟨tblFind_erase_same sorted _, fun g other => tblFind_erase_other _ other⟩
    · rw [accepted_tier] at absent
      rw [loanTo, absent] at loan
      cases loan
  · refine completes_of_exec_eq_act (f := segUnit 9 false (.reclaim h p) h p reclaimTaken) rfl ?_
    rw [segUnit_serves turn 9 false _ p (sameBut_reclaimTaken ..) (by decide), reclaimTaken_accepted]

end Sys2Proof.Machine
end

section
/-!
What the other work of a step leaves of the peers' presence (R423 to R426, R451).
-/

namespace Sys2Proof.Machine

/-! ### A peer's standing -/

/-- Presence of a node, what its beacons have told, and, once it is no longer present, what is still to be acknowledged. -/
def standing (p : Peer) : PeerState × (BitVec 8 × Word × BitVec 32) × Nat × Nat × List SentFlit :=
  (p.st, (p.boots, p.lineage, p.epoch), p.exhausted, p.losses, if p.st = .present then [] else p.unacked)

/-- Every node that has been seen keeps its standing, and no wait for STANDBY begins or ends. -/
structure KeepsStanding (d e : Dev) : Prop where
  peers : ∀ n p, tblFind d.cas.peers n = some p → p.st ≠ .absent →
    ∃ q, tblFind e.cas.peers n = some q ∧ standing q = standing p
  quiet : e.cas.standbyAfterRsp = d.cas.standbyAfterRsp

theorem st_of_standing {p q : Peer} (h : standing q = standing p) : q.st = p.st := congrArg Prod.fst h

theorem KeepsStanding.of_same {d e : Dev} (h : e.cas.peers = d.cas.peers)
    (quiet : e.cas.standbyAfterRsp = d.cas.standbyAfterRsp) : KeepsStanding d e :=
  ⟨fun n p found _ => ⟨p, by rw [h]; exact found, rfl⟩, quiet⟩

theorem KeepsStanding.trans {a b c : Dev} (h : KeepsStanding a b) (k : KeepsStanding b c) : KeepsStanding a c := by
  refine ⟨fun n p found seen => ?_, k.quiet.trans h.quiet⟩
  obtain ⟨q, found', same⟩ := h.peers n p found seen
  obtain ⟨r, found'', same'⟩ := k.peers n q found' (by rw [st_of_standing same]; exact seen)
  exact ⟨r, found'', same'.trans same⟩

/-- The last move, and what leads up to it. -/
theorem KeepsStanding.after {a b c : Dev} (k : KeepsStanding b c) (h : KeepsStanding a b) : KeepsStanding a c := h.trans k

theorem SameBut.keepsStanding {S : List Part} {d e : Dev} (h : SameBut S d e) (p : .cas ∉ S) (q : .peers ∉ S) : KeepsStanding d e :=
  .of_same (by rw [h.cas_eq p q]) (by rw [h.cas_eq p q])

theorem keepsStanding_foldl {β : Type} {f : Dev → β → Dev} (keeps : ∀ d x, KeepsStanding d (f d x)) (l : List β) :
    ∀ d, KeepsStanding d (l.foldl f d) := by
  induction l with
  | nil => exact fun d => .of_same rfl rfl
  | cons x l ih => intro d; exact (keeps d x).trans (ih _)

theorem keepsStanding_ite {c : Prop} [Decidable c] {d a b : Dev} (ha : KeepsStanding d a) (hb : KeepsStanding d b) :
    KeepsStanding d (if c then a else b) := by
  split
  · exact ha
  · exact hb

theorem KeepsStanding.peerOf {d e : Dev} (h : KeepsStanding d e) {n : Nat} {p : Peer}
    (found : tblFind d.cas.peers n = some p) (seen : p.st ≠ .absent) : standing (peerOf e n) = standing p := by
  obtain ⟨q, found', same⟩ := h.peers n p found seen
  rw [peerOf_of_find found', same]

/-! ### What is sent to a peer -/

theorem keepsStanding_onPeer {f : Peer → Peer} (n : Nat) (d : Dev) (keeps : ∀ p, standing (f p) = standing p) :
    KeepsStanding d (onPeer n f d) := by
  refine ⟨fun m p found _ => ?_, rfl⟩
  unfold onPeer
  by_cases here : m = n
  · subst here
    exact ⟨f p, by rw [tblFind_adjust_same, found]; rfl, keeps p⟩
  · exact ⟨p, by rw [tblFind_adjust_other _ _ here]; exact found, rfl⟩

theorem keepsStanding_put {d : Dev} {n : Nat} {p q : Peer} (found : tblFind d.cas.peers n = some p)
    (keeps : standing q = standing p) : KeepsStanding d { d with cas.peers := tblPut d.cas.peers n q } := by
  refine ⟨fun m r found' _ => ?_, rfl⟩
  by_cases here : m = n
  · subst here
    rw [found] at found'
    cases found'
    exact ⟨q, tblFind_put_same .., keeps⟩
  · exact ⟨r, by rw [tblFind_put_other _ _ here]; exact found', rfl⟩

theorem keepsStanding_emitFlit (type n seq : Nat) (payload : Bytes) (d : Dev) : KeepsStanding d (emitFlit type n seq payload d) := by
  unfold emitFlit
  split
  · exact .of_same rfl rfl
  next p found =>
    exact (keepsStanding_put (q := { p with owedCredits := p.owedCredits - min p.owedCredits 15, ackDue := false }) found rfl).trans
      (.of_same rfl rfl)

theorem standing_of_present {p q : Peer} (present : p.st = .present) (st : q.st = p.st) (told : (q.boots, q.lineage, q.epoch) =
    (p.boots, p.lineage, p.epoch)) (exhausted : q.exhausted = p.exhausted) (losses : q.losses = p.losses) :
    standing q = standing p := by
  rw [standing, standing, st, told, exhausted, losses, if_pos present, if_pos present]

theorem keepsStanding_sendItems (src : Option Producer) (n type : Nat) (payload : Bytes) (d : Dev) :
    KeepsStanding d (sendItems src n type payload d) := by
  unfold sendItems
  split
  · exact .of_same rfl rfl
  next p found =>
    extract_lets +onlyGivenNames units used f
    split
    · exact .of_same rfl rfl
    next present =>
      have present' : p.st = .present := not_not.1 present
      split
      · extract_lets +onlyGivenNames _ d1 d2
        have h1 : KeepsStanding d d1 := keepsStanding_put found (standing_of_present present' rfl rfl rfl rfl)
        have h2 : KeepsStanding d1 d2 := keepsStanding_ite (.of_same rfl rfl) (.of_same rfl rfl)
        exact h1.trans (h2.trans (keepsStanding_emitFlit ..))
      · exact keepsStanding_put found (standing_of_present present' rfl rfl rfl rfl)

theorem keepsStanding_sendSeq (n type : Nat) (payload : Bytes) (d : Dev) : KeepsStanding d (sendSeq n type payload d) :=
  keepsStanding_sendItems ..

theorem keepsStanding_sendAbort (n qid : Nat) (d : Dev) : KeepsStanding d (sendAbort n qid d) :=
  keepsStanding_ite (keepsStanding_onPeer _ _ fun _ => by rfl)
    ((keepsStanding_onPeer _ _ fun _ => by rfl).trans (keepsStanding_sendItems ..))

theorem keepsStanding_abortOwned (p : Producer) (d : Dev) : KeepsStanding d (abortOwned p d) := by
  unfold abortOwned
  extract_lets +onlyGivenNames asked
  have before : KeepsStanding d asked := keepsStanding_foldl (fun e x => keepsStanding_ite
    (SameBut.keepsStanding (S := [.queues]) (mask_requestAbort (by decide) ..) (by decide) (by decide)) (.of_same rfl rfl)) _ d
  refine before.trans (keepsStanding_foldl (fun e x => ?_) _ _)
  exact (keepsStanding_onPeer _ _ fun _ => by rfl).trans (keepsStanding_foldl (fun e o => keepsStanding_sendAbort ..) _ _)

theorem tblFind_tblMap {α : Type} [DecidableEq α] {dflt : α} {f : α → α} {k : Nat} {v : α} {t : Tbl α} (found : tblFind t k = some v)
    (lists : f v ≠ dflt) : tblFind (tblMap dflt f t) k = some (f v) := by
  induction t with
  | nil => cases found
  | cons e t ih =>
    obtain ⟨j, w⟩ := e
    by_cases here : j = k
    · subst here
      rw [tblFind, if_pos rfl] at found
      cases found
      simp [tblMap, lists, tblFind]
    · rw [tblFind, if_neg here] at found
      have rest := ih found
      by_cases empty : f w = dflt
      · simpa [tblMap, empty] using rest
      · simpa [tblMap, empty, tblFind, here] using rest

theorem keepsStanding_forgetDiscards (p : Producer) (d : Dev) : KeepsStanding d (forgetDiscards p d) := by
  refine ⟨fun n x found seen => ?_, rfl⟩
  refine ⟨{ x with dropQ := x.dropQ.filter (·.2 ≠ p) }, tblFind_tblMap (f := fun x : Peer => { x with dropQ := x.dropQ.filter (·.2 ≠ p) }) found fun empty => ?_, rfl⟩
  exact seen (congrArg Peer.st empty)

/-! ### Commands that end -/

theorem keepsStanding_answerRing (op n tag : Nat) (res : AdmRes) (d : Dev) : KeepsStanding d (answerRing op n tag res d) :=
  (keepsStanding_sendSeq ..).after (.of_same rfl rfl)

theorem keepsStanding_logOutcome (r : AdmRun) (res : AdmRes) (d : Dev) : KeepsStanding d (logOutcome r res d) :=
  SameBut.keepsStanding (S := [.err]) (mask_logOutcome (by decide) ..) (by decide) (by decide)

theorem keepsStanding_deliver (r : AdmRun) (res : AdmRes) (d : Dev) : KeepsStanding d (deliver r res d) := by
  have logged := keepsStanding_logOutcome r res d
  have written (a : Nat) (bs : Bytes) (e : Dev) : KeepsStanding e (memWrite a bs false e) :=
    SameBut.keepsStanding (S := [.link, .out]) (mask_memWrite (by decide) (by decide) ..) (by decide) (by decide)
  have completed (st r0 r1 : Nat) (e : Dev) : KeepsStanding e (postAce r.cid st r0 r1 e) :=
    SameBut.keepsStanding (S := [.timers, .link, .out, .adm, .sweep])
      (mask_postAce (by decide) (by decide) (by decide) (by decide) (by decide) ..) (by decide) (by decide)
  unfold deliver
  dsimp only
  split
  · split
    · exact logged.trans ((written ..).trans (completed ..))
    · exact logged.trans (completed ..)
  · exact logged.trans ((keepsStanding_answerRing ..).after (.of_same rfl rfl))

theorem keepsStanding_finishRun (p : RunKind → Bool) (res : AdmRes) (d : Dev) : KeepsStanding d (finishRun p res d) := by
  have logged (e : Dev) : KeepsStanding e (finishBg p res e) :=
    SameBut.keepsStanding (S := [.adm, .err]) (mask_finishBg (by decide) (by decide) ..) (by decide) (by decide)
  unfold finishRun
  split
  · exact keepsStanding_ite ((keepsStanding_deliver ..).after (.of_same rfl rfl)) (logged d)
  · exact logged d

/-! ### Queues settle again -/

theorem keepsStanding_readCheck (qid : Nat) (d : Dev) : KeepsStanding d (readCheck qid d) := by
  unfold readCheck
  extract_lets +onlyGivenNames q
  split
  · exact .of_same rfl rfl
  · extract_lets +onlyGivenNames ahead coming cand0 cand
    refine keepsStanding_foldl (fun e s => keepsStanding_ite ?_ (.of_same rfl rfl)) _ d
    dsimp only
    split
    · exact (keepsStanding_sendSeq ..).after (.of_same rfl rfl)
    · exact .of_same rfl rfl

theorem keepsStanding_resettle (qid : Nat) (d : Dev) : KeepsStanding d (resettle qid d) := by
  unfold resettle bootQueue
  generalize 512 = n
  have spilled : KeepsStanding d (spillCheck n qid d) :=
    SameBut.keepsStanding (S := [.queues, .tier]) (mask_spillCheck (by decide) (by decide) ..) (by decide) (by decide)
  have waits (e : Dev) : KeepsStanding e (drainWaitCheck qid e) :=
    SameBut.keepsStanding (S := [.timers, .queues]) (mask_drainWaitCheck (by decide) (by decide) ..) (by decide) (by decide)
  exact spilled.trans ((keepsStanding_readCheck ..).trans ((waits _).after (.of_same rfl rfl)))

/-! ### A node is lost (R424, R425, R451) -/

theorem keepsStanding_makeHoles (n : Nat) (d : Dev) : KeepsStanding d (makeHoles n d) := by
  unfold makeHoles
  refine keepsStanding_foldl (fun e x => ?_) _ d
  extract_lets +onlyGivenNames hit
  clear_value hit
  split
  · exact (keepsStanding_resettle ..).after (.of_same rfl rfl)
  · exact .of_same rfl rfl

theorem keepsStanding_takeBackHeld (d : Dev) : KeepsStanding d (takeBackHeld d) := by
  unfold takeBackHeld
  refine keepsStanding_foldl (fun e x => ?_) _ d
  extract_lets +onlyGivenNames q now back owed q'
  clear_value q'
  split
  · exact .of_same rfl rfl
  · exact (keepsStanding_resettle ..).after (.of_same rfl rfl)

theorem keepsStanding_startTraining (d : Dev) : KeepsStanding d (startTraining d) := by
  have paused (e : Dev) : KeepsStanding e (settlePauses e) := (sameBut_settlePauses e).keepsStanding (by decide) (by decide)
  have cast (e : Dev) : KeepsStanding e (emitCast 0 trainPayload e) := by
    unfold emitCast
    exact keepsStanding_ite (.of_same rfl rfl) (.of_same rfl rfl)
  unfold startTraining
  split
  · exact (paused _).after ((cast _).after (.of_same rfl rfl))
  · exact .of_same rfl rfl

theorem keepsStanding_endBorrow (p : Prog) (d : Dev) : KeepsStanding d (endBorrow p d) := by
  unfold endBorrow
  split
  · exact keepsStanding_ite (.of_same rfl rfl) (.of_same rfl rfl)
  · exact .of_same rfl rfl

/-- What is done about a node once the link to it has been cut. -/
def afterCut (n : Nat) (d : Dev) : Dev :=
  let d := recordErr 0x71 7 n d
  let d := finishRun (fun k => match k with
    | .relay m _ _ => m == n
    | _ => false) (failWith 0x71) d
  let d := { d with rings.drains := d.rings.drains.map fun (e : Nat × DrainRing) => (e.1, loseDrain n e.2) }
  let d := d.rings.fills.foldl (fun d e =>
    if (e.2.cur.map fun c => decide (c.qid / 4096 = n)).getD false then finishFill e.1 0x71 false d else d) d
  let d := forgetDiscards (.node n) (abortOwned (.node n) d)
  let d := (d.tier.active.filter (borrowsFrom n)).foldl (fun d p => endBorrow p d) d
  let d := makeHoles n d
  let d := if anyHole d n && !timerOn d (.hole n) then startTimer (.hole n) d else d
  let d := if n = 0 then takeBackHeld d else d
  pump (stallChecks (refreshFlags (settlePauses (startTraining d))))

theorem declareLost_present {n : Nat} {d : Dev} (present : isPresent d n = true) : declareLost n d =
    afterCut n (stopTimer (.beaconTo n) (stopTimer (.retry n) (onPeer n cutLink d))) :=
  if_neg (by simp [present])

theorem keepsStanding_afterCut (n : Nat) (d : Dev) : KeepsStanding d (afterCut n d) := by
  unfold afterCut
  extract_lets +onlyGivenNames recorded ended _ lost stopped forgotten given holed timed taken
  have h1 : KeepsStanding d recorded := (sameBut_capture ..).keepsStanding (by decide) (by decide)
  have h2 : KeepsStanding recorded ended := keepsStanding_finishRun ..
  have h3 : KeepsStanding ended lost := .of_same rfl rfl
  have h4 : KeepsStanding lost stopped := by
    refine keepsStanding_foldl (fun e x => keepsStanding_ite ?_ (.of_same rfl rfl)) _ _
    exact SameBut.keepsStanding (S := [.timers, .link, .reads, .out, .rings, .sweep])
      (mask_finishFill (by decide) (by decide) (by decide) (by decide) (by decide) (by decide) ..) (by decide) (by decide)
  have h5 : KeepsStanding stopped forgotten := (keepsStanding_abortOwned ..).trans (keepsStanding_forgetDiscards ..)
  have h6 : KeepsStanding forgotten given := keepsStanding_foldl (fun e p => keepsStanding_endBorrow ..) _ _
  have h7 : KeepsStanding given holed := keepsStanding_makeHoles ..
  have h8 : KeepsStanding holed timed := keepsStanding_ite (.of_same rfl rfl) (.of_same rfl rfl)
  have h9 : KeepsStanding timed taken := keepsStanding_ite (keepsStanding_takeBackHeld ..) (.of_same rfl rfl)
  have h10 : KeepsStanding taken (pump (stallChecks (refreshFlags (settlePauses (startTraining taken))))) := by
    refine (keepsStanding_startTraining taken).trans (SameBut.keepsStanding (S := [.timers, .link, .out, .rings, .ports]) ?_
      (by decide) (by decide))
    exact (mask_pump (by decide) (by decide) (by decide) (by decide) _).trans ((mask_stallChecks (by decide) _).trans
      ((mask_refreshFlags (by decide) _).trans (mask_settlePauses (by decide) _)))
  exact h1.trans (h2.trans (h3.trans (h4.trans (h5.trans (h6.trans (h7.trans (h8.trans (h9.trans h10))))))))

/-- A node that is declared lost is lost: nothing is left to acknowledge, and the loss is counted. -/
theorem declareLost_lost {n : Nat} {d : Dev} (present : isPresent d n = true) :
    (peerOf (declareLost n d) n).st = .lost ∧ (peerOf (declareLost n d) n).unacked = [] ∧
      (peerOf (declareLost n d) n).losses = sat32 (peerOf d n).losses 1 ∧
      (peerOf (declareLost n d) n).exhausted = (peerOf d n).exhausted := by
  have found : tblFind (stopTimer (.beaconTo n) (stopTimer (.retry n) (onPeer n cutLink d))).cas.peers n =
      some (cutLink (peerOf d n)) := by
    change tblFind (onPeer n cutLink d).cas.peers n = _
    rw [onPeer, tblFind_adjust_same, find_of_isPresent present]
    rfl
  have same : standing (peerOf (declareLost n d) n) = standing (cutLink (peerOf d n)) := by
    rw [declareLost_present present]
    exact (keepsStanding_afterCut n _).peerOf found (by simp [cutLink])
  have st : (peerOf (declareLost n d) n).st = .lost := congrArg Prod.fst same
  have unacked : (if (peerOf (declareLost n d) n).st = .present then [] else (peerOf (declareLost n d) n).unacked) = [] :=
    congrArg (fun x => x.2.2.2.2) same
  rw [if_neg (by rw [st]; decide)] at unacked
  exact ⟨st, unacked, congrArg (fun x => x.2.2.2.1) same, congrArg (fun x => x.2.2.1) same⟩

end Sys2Proof.Machine
end

section
/-!
Training, acknowledgement, resending and loss of flits (R410 to R422).
-/

namespace Sys2Proof.Machine

/-! ### Training (R413, R418) -/

/-- The ring as its training begins. -/
def retrained (d : Dev) : Dev :=
  { d with
    cas.up := false, cas.training := true, cas.trainSeen := 0, cas.fast := allExpected d
    cas.trainings := sat16 d.cas.trainings 1 }

theorem startTraining_of_ready {d : Dev} (host : ownNode d = 0) (en : d.regs.casEn = true) (runs : fwRunning d = true)
    (live : d.err.fatal = false) : (startTraining d).cas.training = true ∧ (startTraining d).cas.up = false ∧
      OutMsg.flit 0 0 0 0 0 false trainPayload ∈ (startTraining d).out := by
  have starts : startTraining d = settlePauses (emitCast 0 trainPayload (retrained d)) :=
    if_pos (by simp [host, en, runs, live])
  have casts : emitCast 0 trainPayload (retrained d) = emit (.flit 0 0 0 0 0 false trainPayload) (retrained d) :=
    if_neg (by simp [retrained, en])
  have paused := sameBut_settlePauses (emitCast 0 trainPayload (retrained d))
  rw [starts, paused.cas_eq (by decide) (by decide), paused.out_eq (by decide), casts]
  exact ⟨rfl, rfl, List.mem_append_right _ (List.mem_singleton_self _)⟩

theorem casEnable_starts {d : Dev} (en : d.regs.casEn = false) :
    (casEnable d).regs.casEn = true ∧ SameBut [.cas, .timers, .out] { d with regs.casEn := true } (casEnable d) := by
  unfold casEnable
  rw [if_neg (by simp [en])]
  dsimp only
  split
  · have trained : SameBut [.cas, .timers, .out] { d with regs.casEn := true }
        (startTraining (startTimer .beacon { d with regs.casEn := true })) :=
      (mask_startTraining (by decide) (by decide) (by decide) _).trans (mask_startTimer (by decide) ..)
    exact ⟨congrArg Regs.casEn (trained.regs_eq (by decide)), trained⟩
  · exact ⟨rfl, rfl⟩

/-- What every peer's waiting units do changes the ring alone. -/
theorem sameBut_pumpAll (d : Dev) : SameBut [.timers, .out, .peers] d (d.cas.peers.foldl (fun d e => pumpNode e.1 d) d) :=
  mask_foldl (fun e x => mask_pumpNode (by decide) (by decide) (by decide) ..) _ d

/-- The device once node 0 has seen its own TRAIN flits come round. -/
def trained (d : Dev) : Dev := settlePauses { d with cas.trainSeen := 0, cas.training := false, cas.up := true }

theorem trainFlit_ends {d : Dev} (ring : ringOn d = true) (host : ownNode d = 0) (training : d.cas.training = true)
    (seen : 64 ≤ d.cas.trainSeen + 1) : trainFlit d = (trained d).cas.peers.foldl (fun d e => pumpNode e.1 d) (trained d) := by
  unfold trainFlit
  rw [if_neg (by simp [ring]), if_neg (by simp [host]), if_neg (by simp [training]), if_neg (by omega)]
  rfl

theorem trainFlit_counts {d : Dev} (ring : ringOn d = true) (host : ownNode d = 0) (training : d.cas.training = true)
    (seen : d.cas.trainSeen + 1 < 64) : trainFlit d = { d with cas.trainSeen := d.cas.trainSeen + 1 } := by
  unfold trainFlit
  rw [if_neg (by simp [ring]), if_neg (by simp [host]), if_neg (by simp [training]), if_pos seen]

theorem trainFlit_passes {d : Dev} (ring : ringOn d = true) (peer : ownNode d ≠ 0) : trainFlit d =
    emit (.forward 0 0 0 0 trainPayload) (settlePauses { d with cas.up := false, cas.training := true }) := by
  unfold trainFlit
  rw [if_neg (by simp [ring]), if_pos peer]

theorem peerOf_govTrack (d : Dev) (n : Nat) : peerOf (govTrack d) n = peerOf d n := by
  rw [peerOf, (sameBut_govTrack d).cas_eq (by decide) (by decide), peerOf]

/-! ### A flit for this node -/

/-- A flit for this node is taken. -/
theorem routed_forMe {h : FlitHdr} {d : Dev} (mine : ForMe h d) (type : Nat) (payload : Bytes) (reply : Bool) (f : Dev → Dev) :
    routed h type payload reply f d = f d := by
  obtain ⟨ring, -, up, trained, -, -, dst, src, present⟩ := mine
  unfold routed
  simp [ring, heard_of_up up trained, src, dst, present]

theorem peerOf_onPeer_same {n : Nat} {f : Peer → Peer} {d : Dev} (present : isPresent d n = true) :
    peerOf (onPeer n f d) n = f (peerOf d n) := by
  refine peerOf_of_find ?_
  rw [onPeer, tblFind_adjust_same, find_of_isPresent present]
  rfl

/-- A flit that leaves the wait for STANDBY alone is all there is to its arrival. -/
theorem standbyCheck_sameBut {S : List Part} {d e : Dev} (same : SameBut S d e) (apart : .cas ∉ S)
    (quiet : d.cas.standbyAfterRsp = false) : standbyCheck e = e := by
  refine standbyCheck_quiet ?_
  obtain ⟨x, eq⟩ := same.casApart_eq apart
  rw [eq]
  exact quiet

/-! ### Acknowledgements (R415, R420) -/

theorem dropAcked_first {ack : Nat} {f : SentFlit} {fs : List SentFlit} (first : (f.seq + flitUnits f.payload) % 256 = ack) :
    dropAcked ack (f :: fs) = fs := by
  unfold dropAcked
  simp [List.findIdx?_cons, first]

/-- The peer once its oldest unit has been acknowledged. -/
def ackedOne (crd : Nat) (fs : List SentFlit) (p : Peer) : Peer :=
  { p with unacked := fs, credits := min 16 (p.credits + crd), attempts := (if fs = [] then 0 else 1), retrying := false }

theorem pumpNode_quiet {n : Nat} {d : Dev} (waiting : (peerOf d n).waiting = []) (aborts : (peerOf d n).abortQ = []) :
    pumpNode n d = d := by
  have pumped : pumpPeer ((peerOf d n).waiting.length) n d = d := by rw [waiting]; rfl
  unfold pumpNode
  rw [pumped]
  dsimp only
  rw [aborts]
  rfl

theorem applyAck_oldest {n ack crd : Nat} {f : SentFlit} {fs : List SentFlit} {d : Dev} (present : isPresent d n = true)
    (unacked : (peerOf d n).unacked = f :: fs) (first : (f.seq + flitUnits f.payload) % 256 = ack)
    (waiting : (peerOf d n).waiting = []) (aborts : (peerOf d n).abortQ = []) :
    peerOf (applyAck n ack crd d) n = ackedOne crd fs (peerOf d n) ∧ SameBut [.peers, .timers] d (applyAck n ack crd d) := by
  have left : dropAcked ack (peerOf d n).unacked = fs := by rw [unacked]; exact dropAcked_first first
  unfold applyAck
  extract_lets +onlyGivenNames p l moved noted timed
  have all : l = fs := left
  have moves : moved = true := by simp [moved, p, unacked, all]
  have peer : peerOf noted n = ackedOne crd fs (peerOf d n) := by
    rw [peerOf_onPeer_same present, all, moves]
    simp [ackedOne]
  have kept : SameBut [.timers] noted timed := mask_ite rfl (mask_ite (mask_stopTimer (by decide) ..) (mask_startTimer (by decide) ..))
  have peer' : peerOf timed n = ackedOne crd fs (peerOf d n) := by
    rw [← peer, peerOf, kept.cas_eq (by decide) (by decide), peerOf]
  have idle : pumpNode n timed = timed := pumpNode_quiet (by rw [peer']; exact waiting) (by rw [peer']; exact aborts)
  have paused := sameBut_settlePauses timed
  rw [idle]
  refine ⟨?_, ?_⟩
  · rw [peerOf, paused.cas_eq (by decide) (by decide), ← peer', peerOf]
  · have changed : SameBut [.peers] d noted := mask_onPeer (by decide) ..
    exact SameBut.trans (changed.mono (by decide)) ((kept.trans paused).mono (by decide))

theorem takeHeader_noAck {h : FlitHdr} {d : Dev} (none : h.ackv = false) : takeHeader h d = d := if_neg (by simp [none])

/-! ### Flits that go out -/

theorem emitFlit_found {type n seq : Nat} {payload : Bytes} {d : Dev} {p : Peer} (found : tblFind d.cas.peers n = some p) :
    (emitFlit type n seq payload d).out = d.out ++ [.flit type n seq p.rxSeq (min p.owedCredits 15) true payload] ∧
      tblFind (emitFlit type n seq payload d).cas.peers n =
        some { p with ackDue := false, owedCredits := p.owedCredits - min p.owedCredits 15 } := by
  unfold emitFlit
  rw [found]
  exact ⟨rfl, tblFind_put_same ..⟩

theorem sameBut_emitFlit (type n seq : Nat) (payload : Bytes) (d : Dev) :
    SameBut [.timers, .out, .peers] d (emitFlit type n seq payload d) := mask_emitFlit (by decide) (by decide) ..

/-- What resending a unit leaves of its receiver. -/
def sentSide (p : Peer) : Nat × List SentFlit × Bool × Nat := (p.attempts, p.unacked, p.retrying, p.rxSeq)

theorem emitAll_found {n : Nat} (l : List SentFlit) : ∀ {d : Dev} {p : Peer}, tblFind d.cas.peers n = some p →
    ∃ q, tblFind (l.foldl (fun d f => emitFlit f.type n f.seq f.payload d) d).cas.peers n = some q ∧ sentSide q = sentSide p ∧
      (∀ x ∈ d.out, x ∈ (l.foldl (fun d f => emitFlit f.type n f.seq f.payload d) d).out) ∧
      ∀ f ∈ l, ∃ crd, OutMsg.flit f.type n f.seq p.rxSeq crd true f.payload ∈
        (l.foldl (fun d f => emitFlit f.type n f.seq f.payload d) d).out := by
  induction l with
  | nil => exact fun {d p} found => ⟨p, found, rfl, fun _ hx => hx, fun _ hf => by cases hf⟩
  | cons f l ih =>
    intro d p found
    obtain ⟨out, peer⟩ := emitFlit_found (type := f.type) (seq := f.seq) (payload := f.payload) found
    obtain ⟨q, found', same, kept, sent⟩ := ih peer
    refine ⟨q, found', same, fun x hx => kept x (by rw [out]; exact List.mem_append_left _ hx), fun g hg => ?_⟩
    obtain rfl | later := List.mem_cons.1 hg
    · exact ⟨_, kept _ (by rw [out]; exact List.mem_append_right _ (List.mem_singleton_self _))⟩
    · exact sent g later

/-! ### Retry (R419 to R421) -/

/-- The peer as the unacknowledged units go out again. -/
def retried (p : Peer) : Peer :=
  { p with
    attempts := p.attempts + 1, retrying := true
    resends := sat32 p.resends (p.unacked.map fun f => flitUnits f.payload).sum }

/-- Every unacknowledged unit has gone out again. -/
structure Resent (n : Nat) (d e : Dev) : Prop where
  attempts : (peerOf e n).attempts = (peerOf d n).attempts + 1
  unacked : (peerOf e n).unacked = (peerOf d n).unacked
  retrying : (peerOf e n).retrying = true
  ring : SameBut [.timers, .out, .peers] d e
  out : ∀ f ∈ (peerOf d n).unacked, ∃ crd, OutMsg.flit f.type n f.seq (peerOf d n).rxSeq crd true f.payload ∈ e.out

theorem resend_again {n : Nat} {d : Dev} (present : isPresent d n = true) (some : (peerOf d n).unacked ≠ [])
    (few : (peerOf d n).attempts < 8) : Resent n d (resend n d) := by
  unfold resend
  rw [if_neg (by simpa using some), if_neg (by omega)]
  extract_lets +onlyGivenNames units noted sent
  have found : tblFind noted.cas.peers n = .some (retried (peerOf d n)) := by
    unfold noted
    rw [onPeer, tblFind_adjust_same, find_of_isPresent present]
    rfl
  obtain ⟨q, found', same, -, out⟩ := emitAll_found (peerOf d n).unacked found
  have timed : SameBut [.timers] sent (settlePauses (startTimer (.retry n) sent)) :=
    (mask_settlePauses (by decide) _).trans (mask_startTimer (by decide) ..)
  have peer : peerOf (settlePauses (startTimer (.retry n) sent)) n = q := by
    rw [peerOf, timed.cas_eq (by decide) (by decide)]
    exact peerOf_of_find (d := sent) found'
  have goes : SameBut [.timers, .out, .peers] d sent :=
    SameBut.trans (mask_onPeer (by decide) ..) (mask_foldl (fun e f => mask_emitFlit (by decide) (by decide) ..) _ noted)
  refine ⟨?_, ?_, ?_, goes.trans (timed.mono (by decide)), ?_⟩
  · rw [peer]
    exact (congrArg Prod.fst same :)
  · rw [peer]
    exact (congrArg (fun x => x.2.1) same :)
  · rw [peer]
    exact (congrArg (fun x => x.2.2.1) same :)
  · rw [timed.out_eq (by decide)]
    exact out

theorem resend_lost {n : Nat} {d : Dev} (some : (peerOf d n).unacked ≠ []) (many : 8 ≤ (peerOf d n).attempts) :
    resend n d = declareLost n (onPeer n (fun p => { p with exhausted := sat32 p.exhausted 1 }) d) := by
  unfold resend
  rw [if_neg (by simpa using some), if_pos many]

theorem Resent.tracked {n : Nat} {d e : Dev} (h : Resent n d e) : Resent n d (govTrack e) := by
  have same := sameBut_govTrack e
  refine ⟨?_, ?_, ?_, h.ring.trans (same.mono (by decide)), ?_⟩
  · rw [peerOf_govTrack, h.attempts]
  · rw [peerOf_govTrack, h.unacked]
  · rw [peerOf_govTrack, h.retrying]
  · rw [same.out_eq (by decide)]
    exact h.out

/-- An acknowledgement that is owed goes out on its timer (R420). -/
theorem ackTimer_emits {n : Nat} {d : Dev} (ring : ringOn d = true) (present : isPresent d n = true)
    (due : (peerOf d n).ackDue = true) (quiet : d.cas.standbyAfterRsp = false) : ackTimer n d = emitFlit 1 n 0 [] d := by
  unfold ackTimer
  rw [if_pos (by simp [ring, present, due])]
  exact standbyCheck_sameBut (sameBut_emitFlit ..) (by decide) quiet

/-- A unit out of turn draws one NAK (R419). -/
theorem accept_outOfTurn {h : FlitHdr} {payload : Bytes} {f : Nat → Dev → Dev} {d : Dev} (trained : d.cas.training = false)
    (noAck : h.ackv = false) (turn : h.seq.toNat ≠ (peerOf d h.src.toNat).rxSeq)
    (first : (peerOf d h.src.toNat).nakSent = false) : accept h payload f d =
      emitFlit 2 h.src.toNat 0 [] (onPeer h.src.toNat (fun p => { p with nakSent := true }) d) := by
  unfold accept
  rw [if_neg (by simp [trained]), takeHeader_noAck noAck]
  dsimp only
  rw [if_pos turn, if_neg (by simp [first])]

theorem ack_oldest {h : FlitHdr} {s : State} {f : SentFlit} {fs : List SentFlit} (mine : ForMe h s.dev) (ack : h.ackv = true)
    (unacked : (peerOf s.dev h.src.toNat).unacked = f :: fs) (first : (f.seq + flitUnits f.payload) % 256 = h.ack.toNat)
    (waiting : (peerOf s.dev h.src.toNat).waiting = []) (aborts : (peerOf s.dev h.src.toNat).abortQ = []) :
    Completes (.ack h) s fun e => peerOf e h.src.toNat = ackedOne h.crd.toNat fs (peerOf s.dev h.src.toNat) ∧
      SameBut [.peers, .timers] s.dev e := by
  have taken : takeHeader h s.dev = applyAck h.src.toNat h.ack.toNat h.crd.toNat s.dev := if_pos ack
  have routes := routed_forMe mine 1 [] false (takeHeader h)
  obtain ⟨-, -, -, -, -, quiet, -, -, present⟩ := mine
  obtain ⟨peer, same⟩ := applyAck_oldest (crd := h.crd.toNat) present unacked first waiting aborts
  refine completes_of_exec_eq_act (f := fun d => govTrack (standbyCheck (routed h 1 [] false (takeHeader h) d))) rfl ?_
  rw [routes, standbyCheck_sameBut (sameBut_takeHeader h s.dev) (by decide) quiet, taken, peerOf_govTrack]
  exact ⟨peer, same.trans ((sameBut_govTrack _).mono (by decide))⟩

theorem nak_again {h : FlitHdr} {s : State} (mine : ForMe h s.dev) (noAck : h.ackv = false)
    (some : (peerOf s.dev h.src.toNat).unacked ≠ []) (few : (peerOf s.dev h.src.toNat).attempts < 8) :
    Completes (.nak h) s (Resent h.src.toNat s.dev) := by
  have routes := routed_forMe mine 2 [] false (nakTaken h)
  obtain ⟨-, -, up, -, -, quiet, -, -, present⟩ := mine
  have again := resend_again present some few
  have taken : nakTaken h s.dev = resend h.src.toNat s.dev := by
    unfold nakTaken
    rw [takeHeader_noAck noAck]
    exact if_pos up
  refine completes_of_exec_eq_act (f := fun d => govTrack (standbyCheck (routed h 2 [] false (nakTaken h) d))) rfl ?_
  rw [routes, taken, standbyCheck_sameBut again.ring (by decide) quiet]
  exact again.tracked

theorem retryTimeout_due {n : Nat} {d : Dev} (ring : ringOn d = true) (due : timerDue d (.retry n) 20 = true) :
    retryTimeout n d = resend n d := if_pos (by rw [ring, due]; rfl)

theorem retry_lost {n : Nat} {d : Dev} (present : isPresent d n = true) (some : (peerOf d n).unacked ≠ [])
    (many : 8 ≤ (peerOf d n).attempts) : (peerOf (resend n d) n).st = .lost ∧
      (peerOf (resend n d) n).exhausted = sat32 (peerOf d n).exhausted 1 ∧ (peerOf (resend n d) n).unacked = [] := by
  have counted := peerOf_onPeer_same (f := fun p => { p with exhausted := sat32 p.exhausted 1 }) present
  have present' : isPresent (onPeer n (fun p => { p with exhausted := sat32 p.exhausted 1 }) d) n = true := by
    rw [isPresent, counted]
    exact present
  obtain ⟨st, unacked, -, exhausted⟩ := declareLost_lost present'
  rw [resend_lost some many]
  exact ⟨st, exhausted.trans (congrArg Peer.exhausted counted), unacked⟩

theorem receive_outOfTurn {h : FlitHdr} {type : Nat} {payload : Bytes} {reply : Bool} {f : Nat → Dev → Dev} {d : Dev}
    (mine : ForMe h d) (noAck : h.ackv = false) (turn : h.seq.toNat ≠ (peerOf d h.src.toNat).rxSeq)
    (first : (peerOf d h.src.toNat).nakSent = false) : receive h type payload reply f d =
      emitFlit 2 h.src.toNat 0 [] (onPeer h.src.toNat (fun p => { p with nakSent := true }) d) := by
  have routes := routed_forMe mine type payload reply (accept h payload f)
  obtain ⟨-, -, -, trained, -, quiet, -, -, -⟩ := mine
  have same : SameBut [.timers, .out, .peers] d
      (emitFlit 2 h.src.toNat 0 [] (onPeer h.src.toNat (fun p => { p with nakSent := true }) d)) :=
    SameBut.trans (mask_onPeer (by decide) ..) (sameBut_emitFlit ..)
  rw [receive, routes, accept_outOfTurn trained noAck turn first]
  exact standbyCheck_sameBut same (by decide) quiet

/-- Settles O52. -/
theorem ringUnitsAreAcknowledgedOrResent : Obligations.RingUnitsAreAcknowledgedOrResent := by
  unfold Obligations.RingUnitsAreAcknowledgedOrResent
  intro s
  refine ⟨fun reach en => ?_, fun ring host training => ⟨fun seen => ?_, fun seen => ?_⟩, fun ring peer => ?_,
    ?_, ?_, ?_, fun ring => ?_, ?_⟩
  · refine completes_of_exec_eq_act (f := fun d => if hostReach d then casEnable d else d) rfl ?_
    rw [if_pos reach]
    obtain ⟨on, same⟩ := casEnable_starts en
    refine ⟨on, same.eq, fun host runs live => ?_⟩
    have starts : casEnable s.dev = startTraining (startTimer .beacon { s.dev with regs.casEn := true }) := by
      unfold casEnable
      rw [if_neg (by simp [en])]
      exact if_pos (by rw [Bool.and_eq_true]; exact ⟨decide_eq_true host, runs⟩)
    rw [starts]
    exact startTraining_of_ready host rfl runs live
  · refine completes_of_exec_eq_act (f := trainFlit) rfl ?_
    exact trainFlit_counts ring host training seen
  · refine completes_of_exec_eq_act (f := trainFlit) rfl ?_
    rw [trainFlit_ends ring host training seen]
    have begun : SameBut [.cas, .timers] s.dev (trained s.dev) :=
      (mask_settlePauses (by decide) _).trans (mask_set_cas s.dev (by decide) _)
    have paused := sameBut_settlePauses { s.dev with cas.trainSeen := 0, cas.training := false, cas.up := true }
    have pumped := sameBut_pumpAll (trained s.dev)
    obtain ⟨x, cas⟩ := pumped.casApart_eq (by decide)
    have cas' : (trained s.dev).cas = _ := paused.cas_eq (by decide) (by decide)
    have all : SameBut [.timers, .out, .cas, .peers] s.dev _ := (begun.mono (by decide)).trans (pumped.mono (by decide))
    refine ⟨?_, ?_, ?_, all.eq⟩
    · exact (congrArg Cas.up cas).trans (congrArg Cas.up cas')
    · exact (congrArg Cas.training cas).trans (congrArg Cas.training cas')
    · exact (congrArg Cas.trainSeen cas).trans (congrArg Cas.trainSeen cas')
  · refine completes_of_exec_eq_act (f := trainFlit) rfl ?_
    rw [trainFlit_passes ring peer]
    have paused := sameBut_settlePauses { s.dev with cas.up := false, cas.training := true }
    refine ⟨?_, ?_, ?_, ?_⟩
    · exact congrArg (· ++ [.forward 0 0 0 0 trainPayload]) (paused.out_eq (by decide))
    · exact congrArg Cas.training (paused.cas_eq (by decide) (by decide))
    · exact congrArg Cas.up (paused.cas_eq (by decide) (by decide))
    · exact (SameBut.trans (S := [.timers, .out, .cas, .peers]) (mask_set_cas s.dev (by decide) _)
        ((paused.mono (by decide)).trans (mask_set_out _ (by decide) _))).eq
  · rintro h p f fs mine rfl ack unacked first waiting aborts
    obtain ⟨t, runs, pending, peer, same⟩ := ack_oldest mine ack unacked first waiting aborts
    exact ⟨t, runs, pending, peer, same.eq⟩
  · rintro n p rfl some again
    have resent (e : Dev) (h : Resent n s.dev e) : again e := ⟨h.attempts, h.unacked, h.retrying, h.ring.ringOnly, h.out⟩
    refine ⟨fun h mine src noAck few => ?_, fun b node ring due present => ?_⟩
    · subst src
      obtain ⟨t, runs, pending, sent⟩ := nak_again mine noAck some few
      exact ⟨t, runs, pending, resent _ sent⟩
    · have goes : exec (.retryTimeout b) s = act (fun d => govTrack (retryTimeout b.toNat d)) s := rfl
      have listed : isPresent s.dev n = true := by rw [isPresent, present]; rfl
      refine ⟨fun few => completes_of_exec_eq_act goes ?_, fun many => completes_of_exec_eq_act goes ?_⟩
      · rw [node, retryTimeout_due ring due]
        exact resent _ (resend_again listed some few).tracked
      · rw [node, retryTimeout_due ring due, peerOf_govTrack]
        exact retry_lost listed some many
  · rintro b p rfl ring present due quiet
    have listed : isPresent s.dev b.toNat = true := by rw [isPresent, present]; rfl
    obtain ⟨out, peer⟩ := emitFlit_found (type := 1) (seq := 0) (payload := []) (find_of_isPresent listed)
    refine completes_of_exec_eq_act (f := ackTimer b.toNat) rfl ?_
    rw [ackTimer_emits ring listed due quiet]
    exact ⟨(sameBut_emitFlit ..).ringOnly, out, peerOf_of_find peer⟩
  · refine completes_of_exec_eq_act (f := crcFail) rfl ?_
    exact if_pos (by simp [ring])
  · rintro h p mine noAck turn first
    have noted := peerOf_onPeer_same (f := fun p => { p with nakSent := true }) mine.2.2.2.2.2.2.2.2
    have found : tblFind (onPeer h.src.toNat (fun p => { p with nakSent := true }) s.dev).cas.peers h.src.toNat = _ :=
      find_of_isPresent (by rw [isPresent, noted]; exact mine.2.2.2.2.2.2.2.2)
    obtain ⟨out, peer⟩ := emitFlit_found (type := 2) (seq := 0) (payload := []) found
    refine completes_of_exec_eq_act (f := receive h 4 (pushBytes p) false (pushTaken p)) rfl ?_
    rw [receive_outOfTurn mine noAck turn first, peerOf_of_find peer, noted, out]
    have same : SameBut [.timers, .out, .peers] s.dev
        (emitFlit 2 h.src.toNat 0 [] (onPeer h.src.toNat (fun p => { p with nakSent := true }) s.dev)) :=
      SameBut.trans (mask_onPeer (by decide) ..) (sameBut_emitFlit ..)
    exact ⟨same.ringOnly, rfl, rfl, _, _, List.mem_append_right _ (List.mem_singleton_self _)⟩

end Sys2Proof.Machine
end

section
/-!
Beacons, presence and the images that the ring relays (R423 to R429, R453, R455).
-/

namespace Sys2Proof.Machine

/-! ### Loans that end keep the peers' standing -/

theorem keepsStanding_addRecord (r : JRec) (d : Dev) : KeepsStanding d (addRecord r d) :=
  SameBut.keepsStanding (S := [.timers, .epoch, .queues, .tier])
    (mask_addRecord (by decide) (by decide) (by decide) (by decide) ..) (by decide) (by decide)

theorem keepsStanding_giveLoan (i : Nat) (persist hole : Bool) (l : LoanRef) (d : Dev) :
    KeepsStanding d (giveLoan i persist hole l d) := by
  unfold giveLoan
  extract_lets +onlyGivenNames noted
  have before : KeepsStanding d noted := keepsStanding_ite (keepsStanding_addRecord ..) (.of_same rfl rfl)
  exact keepsStanding_ite before (before.trans (keepsStanding_sendSeq ..))

theorem keepsStanding_freeDeep (i seg : Nat) (named : Bool) (d : Dev) : KeepsStanding d (freeDeep i seg named d) := by
  have retired (e : Dev) : KeepsStanding e (retireDeep seg e) :=
    SameBut.keepsStanding (S := [.link, .out, .tier, .rep, .err])
      (mask_retireDeep (by decide) (by decide) (by decide) (by decide) (by decide) ..) (by decide) (by decide)
  unfold freeDeep
  dsimp only
  split
  · exact keepsStanding_ite ((retired d).trans (keepsStanding_addRecord ..)) (retired d)
  · exact keepsStanding_ite ((keepsStanding_addRecord ..).after (.of_same rfl rfl)) (.of_same rfl rfl)

theorem keepsStanding_releaseSeg (i : Nat) (persist : Bool) (c : ChainSeg) (d : Dev) :
    KeepsStanding d (releaseSeg i persist c d) := by
  unfold releaseSeg
  extract_lets +onlyGivenNames near deep loan
  have first : KeepsStanding d near := by
    unfold near
    split
    · exact SameBut.keepsStanding (S := [.link, .out, .queues, .tier, .rep, .err])
        (mask_giveNear (by decide) (by decide) (by decide) (by decide) (by decide) (by decide) ..) (by decide) (by decide)
    · exact .of_same rfl rfl
  have second : KeepsStanding near deep := by
    unfold deep
    split
    · exact keepsStanding_freeDeep ..
    · exact .of_same rfl rfl
  have third : KeepsStanding deep loan := by
    unfold loan
    split
    · exact keepsStanding_giveLoan ..
    · exact .of_same rfl rfl
  exact first.trans (second.trans (third.trans (.of_same rfl rfl)))

theorem keepsStanding_releaseUnused (i : Nat) (d : Dev) : KeepsStanding d (releaseUnused i d) := by
  unfold releaseUnused
  dsimp only
  split
  · exact .of_same rfl rfl
  · exact (keepsStanding_foldl (fun e c => keepsStanding_releaseSeg ..) _ _).after (.of_same rfl rfl)

theorem keepsStanding_discardHole (sel : ChainSeg → Bool) (tell : Bool) (i : Nat) (d : Dev) :
    KeepsStanding d (discardHole sel tell i d) := by
  unfold discardHole
  extract_lets +onlyGivenNames q segs gone q' put freed
  have released : KeepsStanding put freed := keepsStanding_foldl (fun e c => keepsStanding_releaseSeg ..) _ _
  have before : KeepsStanding d put := .of_same rfl rfl
  split
  · exact .of_same rfl rfl
  · exact before.trans (released.trans ((keepsStanding_releaseUnused ..).trans (keepsStanding_resettle ..)))

theorem keepsStanding_discardHoles (sel : ChainSeg → Bool) (tell : Bool) (d : Dev) : KeepsStanding d (discardHoles sel tell d) :=
  keepsStanding_foldl (fun _ _ => keepsStanding_discardHole ..) _ d

theorem keepsStanding_forgetLoans (sel : LoanRef → Bool) (d : Dev) : KeepsStanding d (forgetLoans sel d) := by
  unfold forgetLoans
  refine keepsStanding_foldl (fun e x => keepsStanding_foldl (fun g c => ?_) _ e) _ d
  dsimp only
  split
  · exact (keepsStanding_giveLoan ..).after (.of_same rfl rfl)
  · exact .of_same rfl rfl

theorem keepsStanding_freeLoan (k : Nat) (d : Dev) : KeepsStanding d (freeLoan k d) :=
  (sameBut_freeLoan k d).keepsStanding (by decide) (by decide)

theorem keepsStanding_settleLoans (n : Nat) (lineage : Word) (knew : Bool) (d : Dev) :
    KeepsStanding d (settleLoans n lineage knew d) := by
  unfold settleLoans
  extract_lets +onlyGivenNames other settled freed
  have h1 : KeepsStanding d settled := by
    have timed (e : Dev) : KeepsStanding e (holeTimer n e) := keepsStanding_ite (.of_same rfl rfl) (.of_same rfl rfl)
    exact (keepsStanding_forgetLoans ..).trans ((keepsStanding_discardHoles ..).trans (timed _))
  have h2 : KeepsStanding settled freed := keepsStanding_foldl (fun e x => keepsStanding_freeLoan ..) _ _
  clear_value settled freed
  split
  · exact h1.trans (h2.trans ((keepsStanding_sendSeq ..).after (keepsStanding_onPeer _ _ fun _ => by rfl)))
  · exact h1.trans h2

theorem keepsStanding_armBind (b : BindEnt) (d : Dev) : KeepsStanding d (armBind b d) := by
  unfold armBind
  split
  · exact keepsStanding_ite (.of_same rfl rfl) (keepsStanding_sendSeq ..)
  · exact .of_same rfl rfl

theorem keepsStanding_relayCheck (d : Dev) : KeepsStanding d (relayCheck d) := by
  unfold relayCheck
  dsimp only
  split
  · exact .of_same rfl rfl
  · split
    · exact (keepsStanding_finishRun ..).after (.of_same rfl rfl)
    · exact .of_same rfl rfl

/-! ### A node becomes present (R413, R424) -/

/-- A peer as its first beacon makes it. -/
def presentPeer (b : BeaconPl) (p : Peer) : Peer :=
  { cutLink p with
    st := .present, losses := p.losses, boots := b.boots, lineage := b.lineage, epoch := b.epoch, sealing := b.sealing
    pstate := b.pstate, txSeq := 0, rxSeq := 0, credits := 16 }

theorem becomePresent_standing (n : Nat) (b : BeaconPl) (d : Dev) :
    standing (peerOf (becomePresent n b d) n) = standing (presentPeer b (peerOf d n)) ∧
      (becomePresent n b d).cas.standbyAfterRsp = d.cas.standbyAfterRsp := by
  unfold becomePresent
  extract_lets +onlyGivenNames p knew _ put started settled armed
  have found : tblFind put.cas.peers n = some (presentPeer b (peerOf d n)) := by
    have listed : presentPeer b (peerOf d n) ≠ {} := fun empty => absurd (congrArg Peer.st empty) (by simp [presentPeer])
    have table : put.cas.peers = tblPut d.cas.peers n (presentPeer b (peerOf d n)) :=
      show tblSet {} d.cas.peers n (presentPeer b (peerOf d n)) = _ from if_neg listed
    rw [table, tblFind_put_same]
  have h1 : KeepsStanding put started := keepsStanding_startTraining ..
  have h2 : KeepsStanding started settled := keepsStanding_settleLoans ..
  have h3 : KeepsStanding settled armed :=
    keepsStanding_foldl (fun e x => keepsStanding_ite (keepsStanding_armBind ..) (.of_same rfl rfl)) _ _
  have all := h1.trans (h2.trans (h3.trans (keepsStanding_relayCheck armed)))
  exact ⟨all.peerOf found (by simp [presentPeer]), all.quiet⟩

/-! ### Beacons -/

theorem timerOn_govTrack {id : TimerId} (up : id ≠ .govUp) (down : id ≠ .govDown) (d : Dev) :
    timerOn (govTrack d) id = timerOn d id := by
  have stops : timerOn (stopWindows d) id = timerOn d id := by
    rw [stopWindows, timerOn_stopTimer_other _ up, timerOn_stopTimer_other _ down]
  unfold govTrack govRefresh
  split
  · split
    · exact stops
    · dsimp only
      split
      · split
        · exact timerOn_stopTimer_other _ down
        · rw [timerOn_startTimer_other _ up, timerOn_stopTimer_other _ down]
      · split
        · exact timerOn_stopTimer_other _ up
        · rw [timerOn_startTimer_other _ down, timerOn_stopTimer_other _ up]
  · rfl

theorem beaconTaken_known {n : Nat} {b : BeaconPl} {d : Dev} (present : (peerOf d n).st = .present)
    (boots : (peerOf d n).boots = b.boots) (lineage : (peerOf d n).lineage = b.lineage) : beaconTaken n b d =
      startTimer (.beaconTo n) (onPeer n (fun p => { p with epoch := b.epoch, sealing := b.sealing, pstate := b.pstate }) d) := by
  have calm : lineageClash n b.lineage d = false := by simp [lineageClash, lineage]
  unfold beaconTaken
  dsimp only
  rw [if_neg (by simp [calm]), if_neg (by simp [present]), if_neg (by simp [boots, lineage])]

/-- The device once a known node's beacon has been passed on and taken. -/
def beaconKnown (h : FlitHdr) (b : BeaconPl) (d : Dev) : Dev :=
  startTimer (.beaconTo h.src.toNat) (onPeer h.src.toNat (fun p => { p with
    epoch := b.epoch, sealing := b.sealing, pstate := b.pstate }) (emit (.forward 3 h.src.toNat h.dst.toNat 0 (beaconBytes b)) d))

theorem beaconTaken_new {n : Nat} {b : BeaconPl} {d : Dev} (absent : (peerOf d n).st ≠ .present)
    (silent : timerOn d (.beaconTo n) = false) : beaconTaken n b d = startTimer (.beaconTo n) (becomePresent n b d) := by
  have calm : lineageClash n b.lineage d = false := by simp [lineageClash, silent]
  unfold beaconTaken
  dsimp only
  rw [if_neg (by simp [calm]), if_pos absent]

theorem sameBut_beaconKnown (h : FlitHdr) (b : BeaconPl) (d : Dev) : SameBut [.timers, .out, .peers] d (beaconKnown h b d) :=
  SameBut.trans (mask_set_out d (by decide) _) (SameBut.trans (mask_onPeer (by decide) ..) (mask_startTimer (by decide) ..))

theorem beaconKnown_taken {h : FlitHdr} {b : BeaconPl} {d : Dev} (present : (peerOf d h.src.toNat).st = .present)
    (boots : (peerOf d h.src.toNat).boots = b.boots) (lineage : (peerOf d h.src.toNat).lineage = b.lineage)
    (quiet : d.cas.standbyAfterRsp = false) : standbyCheck (beaconTaken h.src.toNat b
      (emit (.forward 3 h.src.toNat h.dst.toNat 0 (beaconBytes b)) d)) = beaconKnown h b d := by
  rw [beaconTaken_known (by exact present) (by exact boots) (by exact lineage)]
  exact standbyCheck_sameBut (sameBut_beaconKnown h b d) (by decide) quiet

/-- The device once a new node's beacon has been passed on and taken. -/
def beaconNew (h : FlitHdr) (b : BeaconPl) (d : Dev) : Dev :=
  startTimer (.beaconTo h.src.toNat) (becomePresent h.src.toNat b (emit (.forward 3 h.src.toNat h.dst.toNat 0 (beaconBytes b)) d))

theorem beaconNew_standing (h : FlitHdr) (b : BeaconPl) (d : Dev) :
    standing (peerOf (beaconNew h b d) h.src.toNat) = standing (presentPeer b (peerOf d h.src.toNat)) := by
  have told := (becomePresent_standing h.src.toNat b (emit (.forward 3 h.src.toNat h.dst.toNat 0 (beaconBytes b)) d)).1
  unfold peerOf at told ⊢
  rw [emit_cas] at told
  rw [beaconNew, startTimer_cas]
  exact told

theorem told_of_standing {b : BeaconPl} {p q : Peer} (same : standing q = standing (presentPeer b p)) :
    q.st = .present ∧ q.boots = b.boots ∧ q.lineage = b.lineage ∧ q.epoch = b.epoch :=
  ⟨congrArg Prod.fst same, congrArg (fun x => x.2.1.1) same, congrArg (fun x => x.2.1.2.1) same,
    congrArg (fun x => x.2.1.2.2) same⟩

theorem beaconNew_taken {h : FlitHdr} {b : BeaconPl} {d : Dev} (absent : (peerOf d h.src.toNat).st ≠ .present)
    (silent : timerOn d (.beaconTo h.src.toNat) = false) (quiet : d.cas.standbyAfterRsp = false) :
    standbyCheck (beaconTaken h.src.toNat b (emit (.forward 3 h.src.toNat h.dst.toNat 0 (beaconBytes b)) d)) = beaconNew h b d := by
  have calm := (becomePresent_standing h.src.toNat b (emit (.forward 3 h.src.toNat h.dst.toNat 0 (beaconBytes b)) d)).2
  rw [emit_cas] at calm
  rw [beaconTaken_new (by exact absent) (by exact silent), standbyCheck_quiet (by rw [startTimer_cas, calm, quiet]), beaconNew]

/-- A beacon of another node is passed on and taken. -/
theorem beaconFlit_taken {h : FlitHdr} {b : BeaconPl} {d : Dev} (ring : ringOn d = true) (runs : fwExec d = true)
    (held : d.cas.held = []) (other : h.src.toNat ≠ ownNode d) (up : d.cas.up = true) (trained : d.cas.training = false) :
    beaconFlit h b d = standbyCheck (beaconTaken h.src.toNat b
      (emit (.forward 3 h.src.toNat h.dst.toNat 0 (beaconBytes b)) d)) := by
  unfold beaconFlit
  dsimp only
  rw [if_neg (by simp [ring]), heard_of_up up trained, if_neg other]
  refine congrArg standbyCheck (if_pos ?_)
  rw [show fwExec (emit (.forward 3 h.src.toNat h.dst.toNat 0 (beaconBytes b)) d) = fwExec d from rfl, runs,
    show (emit (.forward 3 h.src.toNat h.dst.toNat 0 (beaconBytes b)) d).cas.held = d.cas.held from rfl, held]
  rfl

/-! ### Images (R428) -/

theorem SameBut.switch {S : List Part} {d e : Dev} (h : SameBut S d e) (apart : .cas ∉ S) :
    e.cas.switchClosed = d.cas.switchClosed := by
  obtain ⟨x, eq⟩ := h.casApart_eq apart
  rw [eq]

theorem bootFirmware_switch (lost : Unread) (d : Dev) : (bootFirmware lost d).cas.switchClosed = d.cas.switchClosed := by
  have begun (e : Dev) (b : BootStatus) : (setBoot b e).cas.switchClosed = e.cas.switchClosed :=
    SameBut.switch (S := [.boot, .link, .out]) (mask_setBoot (by decide) (by decide) (by decide) ..) (by decide)
  have keyed (e : Dev) : (restoreKeys lost.keys (deriveKeys e)).cas.switchClosed = e.cas.switchClosed :=
    SameBut.switch (S := [.keys, .err, .free])
      ((mask_restoreKeys (by decide) (by decide) (by decide) ..).trans (mask_deriveKeys (by decide) e)) (by decide)
  have settled (e : Dev) : (settleKeys e).cas.switchClosed = e.cas.switchClosed :=
    SameBut.switch (S := [.tier, .keys, .free]) (mask_settleKeys (by decide) (by decide) (by decide) e) (by decide)
  rw [bootFirmware_eq, (sameBut_firmwareRuns _).switch (by decide), begun, firmwareRestored, settled,
    (sameBut_applyEpoch0 _).switch (by decide), (sameBut_restore lost _).switch (by decide), keyed, begun]

theorem startTraining_switch (d : Dev) : (startTraining d).cas.switchClosed = d.cas.switchClosed := by
  unfold startTraining
  split
  · refine ((sameBut_settlePauses _).switch (by decide)).trans ?_
    unfold emitCast
    split
    · rfl
    · rfl
  · rfl

theorem ringBegins_switch (d : Dev) : (ringBegins d).cas.switchClosed = d.cas.switchClosed := by
  unfold ringBegins
  split
  · rfl
  · split
    · exact startTraining_switch _
    · rfl

/-- An image that starts opens the cascade switches. -/
theorem startFirmware_switch (lost : Unread) (d : Dev) : (startFirmware lost d).cas.switchClosed = false := by
  have loaded : (imageLoaded d).cas.switchClosed = false :=
    SameBut.switch (S := [.tier, .rep, .link, .out, .spdm]) (d := { loadSram d with
        boot.held := 0, cas.switchClosed := false, cas.verified := false })
      ((mask_recordLanes (by decide) (by decide) _).trans (mask_endRomSpdm (by decide) (by decide) (by decide) _)) (by decide)
  have booted : (bootFirmware lost (imageLoaded d)).cas.switchClosed = false := (bootFirmware_switch ..).trans loaded
  rw [startFirmware_eq, ringBegins_switch, booted]

theorem ringOn_notRunning {d : Dev} (off : fwRunning d = false) : ringOn d = false := by simp [ringOn, off]

theorem setBoot_same {b : BootStatus} {d : Dev} (same : d.boot.status = b) : setBoot b d = d := by
  subst same
  unfold setBoot
  simp only [ne_eq, not_true_eq_false, if_false]
  split <;> rfl

/-- A chunk that a peer keeps, before it has the header's first seven bytes. -/
theorem imgFlit_kept {h : FlitHdr} {k : Nat} {data : Bytes} {d : Dev} (ring : ringOn d = false) (waits : waitsForImage d = true)
    (loading : d.boot.status = .loading) (first : tblFind d.boot.relayed 1 = none) (other : k ≠ 1) :
    imgFlit h k data d = { d with
      boot.relayed := tblPut d.boot.relayed k (sliceBytes data 0 7)
      out := if ringBypassed d then d.out ++ [.forward 11 h.src.toNat h.dst.toNat 0 (imgPayload k data)] else d.out } := by
  have missing (e : Dev) (boot : e.boot.relayed = tblPut d.boot.relayed k (sliceBytes data 0 7)) : relayAssemble e = e := by
    have absent : tblFind e.boot.relayed 1 = none := by rw [boot, tblFind_put_other _ _ (Ne.symm other), first]
    exact if_pos (by rw [absent]; rfl)
  have passed : passBy 11 h.src.toNat h.dst.toNat 0 (imgPayload k data) d = { d with
      out := if ringBypassed d then d.out ++ [.forward 11 h.src.toNat h.dst.toNat 0 (imgPayload k data)] else d.out } := by
    unfold passBy
    split <;> rfl
  unfold imgFlit
  rw [if_neg (by simp [ring]), passed]
  dsimp only
  refine (if_pos (by exact waits)).trans ?_
  rw [setBoot_same (by exact loading)]
  exact missing _ rfl

theorem joinFlit_starts {h : FlitHdr} {m : BitVec 4} {lost : Unread} {d : Dev} (ring : ringOn d = false) (on : awake d = true)
    (verified : d.cas.verified = true) (named : m.getLsbD (ownNode d) = true) :
    ∃ e, joinFlit h m lost d = startFirmware lost e := by
  refine ⟨passBy 12 h.src.toNat h.dst.toNat 0 (natLe 1 m.toNat) d, ?_⟩
  have passed : ∃ o, passBy 12 h.src.toNat h.dst.toNat 0 (natLe 1 m.toNat) d = { d with out := o } := by
    unfold passBy
    split
    · exact ⟨_, rfl⟩
    · exact ⟨d.out, rfl⟩
  obtain ⟨o, eq⟩ := passed
  unfold joinFlit
  rw [if_neg (by simp [ring]), eq]
  exact if_pos (by
    rw [show awake { d with out := o } = true from on, show ({ d with out := o } : Dev).cas.verified = true from verified,
      show m.getLsbD (ownNode { d with out := o }) = true from named]
    rfl)

theorem beaconTimeout_due {n : Nat} {d : Dev} (runs : fwExec d = true)
    (due : timerDue d (.beaconTo n) (4 * d.regs.casBeacon) = true) :
    beaconTimeout n d = declareLost n (stopTimer (.beaconTo n) d) := if_pos (by rw [runs, due]; rfl)

/-- Settles O53. -/
theorem beaconsAndImagesMakePresence : Obligations.BeaconsAndImagesMakePresence := by
  unfold Obligations.BeaconsAndImagesMakePresence
  intro s
  refine ⟨fun ring runs due => ?_, ?_, fun n runs present due => ?_, fun h k data ring waits loading first other => ?_,
    fun h m lost peer off on verified named => ?_⟩
  · refine completes_of_exec_eq_act (f := beaconTimer) rfl ?_
    have enabled : ¬(ownNode s.dev = 0 && !s.dev.regs.casEn) = true := by
      intro silent
      simp only [Bool.and_eq_true, Bool.not_eq_true'] at silent
      simp [ringOn, silent] at ring
    have casts : emitCast 3 (beaconPayload s.dev) s.dev = emit (.flit 3 0 0 0 0 false (beaconPayload s.dev)) s.dev := if_neg enabled
    unfold beaconTimer
    rw [if_pos (by rw [ring, runs, due]; rfl), casts]
    rfl
  · rintro h b p rfl ring runs held quiet other up trained
    have taken := beaconFlit_taken (h := h) (b := b) ring runs held other up trained
    refine ⟨fun present boots lineage => ?_, fun absent silent => ?_⟩
    · refine completes_of_exec_eq_act (f := fun d => govTrack (beaconFlit h b d)) rfl ?_
      have listed : isPresent s.dev h.src.toNat = true := by rw [isPresent, present]; rfl
      have tracked := sameBut_govTrack (beaconKnown h b s.dev)
      rw [taken, beaconKnown_taken present boots lineage quiet, peerOf_govTrack, tracked.out_eq (by decide),
        timerOn_govTrack (by simp) (by simp)]
      refine ⟨?_, rfl, timerOn_startTimer_same .., ((sameBut_beaconKnown h b s.dev).trans (tracked.mono (by decide))).ringOnly⟩
      exact peerOf_onPeer_same (d := emit (.forward 3 h.src.toNat h.dst.toNat 0 (beaconBytes b)) s.dev) listed
    · refine completes_of_exec_eq_act (f := fun d => govTrack (beaconFlit h b d)) rfl ?_
      have told := beaconNew_standing h b s.dev
      rw [taken, beaconNew_taken absent silent quiet, peerOf_govTrack]
      exact told_of_standing told
  · refine completes_of_exec_eq_act (f := fun d => govTrack (beaconTimeout n.toNat d)) rfl ?_
    rw [beaconTimeout_due runs due, peerOf_govTrack]
    obtain ⟨st, -, losses, -⟩ := declareLost_lost (n := n.toNat) (d := stopTimer (.beaconTo n.toNat) s.dev) present
    exact ⟨st, losses⟩
  · refine completes_of_exec_eq_act (f := imgFlit h k.toNat data) rfl ?_
    rw [imgFlit_kept ring waits loading first other]
    exact ⟨tblFind_put_same .., loading, rfl, rfl⟩
  · refine completes_of_exec_eq_act (f := joinFlit h m lost) rfl ?_
    obtain ⟨e, starts⟩ := joinFlit_starts (h := h) (lost := lost) (ringOn_notRunning off) on verified named
    rw [starts, startFirmware_boot]
    exact ⟨rfl, startFirmware_switch ..⟩

end Sys2Proof.Machine
end

section
/-!
Bursts and drain transfers over the ring (R430 to R439).
-/

namespace Sys2Proof.Machine

/-! ### What is in a queue -/

/-- Items of a queue, those held for transfers, and its armed transfer. -/
def contents (q : Queue) : List Item × List Item × List (Nat × List Item) × Option (Bool × Nat × Nat × Nat) :=
  (q.items, q.retained, q.held, q.armed)

/-- Every queue holds what it held. -/
structure ContentsStand (d e : Dev) : Prop where
  wf : tblWf {} d.queues = true → tblWf {} e.queues = true
  same : tblWf {} d.queues = true → ∀ i, contents (queueOf e i) = contents (queueOf d i)

theorem ContentsStand.trans {a b c : Dev} (h : ContentsStand a b) (k : ContentsStand b c) : ContentsStand a c :=
  ⟨fun wf => k.wf (h.wf wf), fun wf i => (k.same (h.wf wf) i).trans (h.same wf i)⟩

/-- The last move, and what leads up to it. -/
theorem ContentsStand.after {a b c : Dev} (k : ContentsStand b c) (h : ContentsStand a b) : ContentsStand a c := h.trans k

theorem ContentsStand.of_same {d e : Dev} (queues : e.queues = d.queues) : ContentsStand d e :=
  ⟨fun wf => by rw [queues]; exact wf, fun _ i => by rw [queueOf, queues, queueOf]⟩

theorem SameBut.contentsStand {S : List Part} {d e : Dev} (h : SameBut S d e) (p : .queues ∉ S) : ContentsStand d e :=
  .of_same (h.queues_eq p)

theorem StorageMoves.contentsStand {d e : Dev} (h : StorageMoves d e) : ContentsStand d e :=
  ⟨h.wf, fun wf i => show contents (restOfQueue (queueOf e i)) = contents (restOfQueue (queueOf d i)) by rw [h.rest wf i]⟩

theorem contentsStand_put {i : Nat} {q : Queue} {d : Dev} (same : contents q = contents (queueOf d i)) :
    ContentsStand d (putQueue i q d) := by
  refine ⟨fun wf => putQueue_wf wf i q, fun wf j => ?_⟩
  by_cases here : j = i
  · rw [here, queueOf_put_same wf, same]
  · rw [queueOf_put_other _ _ here]

theorem contentsStand_ite {p : Prop} [Decidable p] {a b d : Dev} (ha : ContentsStand d a) (hb : ContentsStand d b) :
    ContentsStand d (if p then a else b) := by
  split
  · exact ha
  · exact hb

theorem contentsStand_foldl {β : Type} {f : Dev → β → Dev} (stands : ∀ d x, ContentsStand d (f d x)) (l : List β) :
    ∀ d, ContentsStand d (l.foldl f d) := by
  induction l with
  | nil => exact fun d => .of_same rfl
  | cons x l ih => intro d; exact (stands d x).trans (ih _)

theorem contentsStand_readCheck (i : Nat) (d : Dev) : ContentsStand d (readCheck i d) := by
  unfold readCheck
  extract_lets +onlyGivenNames q
  split
  · exact .of_same rfl
  · extract_lets +onlyGivenNames ahead coming cand0 cand
    refine contentsStand_foldl (fun e s => contentsStand_ite ?_ (.of_same rfl)) _ d
    dsimp only
    split
    · exact (SameBut.contentsStand (sameBut_sendSeq ..) (by decide)).after (contentsStand_put rfl)
    · exact contentsStand_put rfl

theorem contentsStand_drainWaitCheck (i : Nat) (d : Dev) : ContentsStand d (drainWaitCheck i d) := by
  have waited (b : Bool) : ContentsStand d (putQueue i { queueOf d i with waited := b } d) := contentsStand_put rfl
  unfold drainWaitCheck
  exact contentsStand_ite (contentsStand_ite ((waited _).trans (.of_same rfl)) (.of_same rfl))
    (contentsStand_ite (.of_same rfl) (.of_same rfl))

theorem contentsStand_resettle (i : Nat) (d : Dev) : ContentsStand d (resettle i d) := by
  unfold resettle bootQueue
  generalize 512 = n
  have spilled := (storageMoves_spillCheck n i d).contentsStand
  have read := contentsStand_readCheck i (spillCheck n i d)
  generalize readCheck i (spillCheck n i d) = e at read
  have flags : ContentsStand e (onQueue i (setFlags d) e) := contentsStand_put rfl
  exact spilled.trans (read.trans (flags.trans (contentsStand_drainWaitCheck i _)))

/-- What follows a change of queues outside a round. -/
theorem contentsStand_settled (d : Dev) : ContentsStand d (pump (stallChecks (refreshFlags d))) :=
  SameBut.contentsStand (S := [.timers, .link, .out, .rings, .ports])
    ((mask_pump (by decide) (by decide) (by decide) (by decide) _).trans ((mask_stallChecks (by decide) _).trans
      (mask_refreshFlags (by decide) _))) (by decide)

/-! ### Units in their turn -/

theorem accepted_present {h : FlitHdr} {payload : Bytes} {d : Dev} (present : isPresent d h.src.toNat = true) :
    isPresent (accepted h payload d) h.src.toNat = true := by
  have taken : isPresent (takeHeader h d) h.src.toNat = true := by
    have same : (peerOf (takeHeader h d) h.src.toNat).st = (peerOf d h.src.toNat).st :=
      (congrArg Peer.st ((sendsOnly_takeHeader h d).peerOf h.src.toNat) :)
    rw [isPresent, same]
    exact present
  rw [isPresent, accepted, peerOf_onPeer_same taken]
  exact taken

theorem accepted_rib {h : FlitHdr} {payload : Bytes} {d : Dev} :
    (peerOf (accepted h payload d) h.src.toNat).rib = (peerOf d h.src.toNat).rib := by
  have taken : (peerOf (takeHeader h d) h.src.toNat).rib = (peerOf d h.src.toNat).rib :=
    (congrArg Peer.rib ((sendsOnly_takeHeader h d).peerOf h.src.toNat) :)
  rw [← taken]
  unfold accepted
  exact peerOf_onPeer_keeps Peer.rib (fun _ => by rfl) ..

theorem accepted_late {h : FlitHdr} {payload : Bytes} {d : Dev} :
    (peerOf (accepted h payload d) h.src.toNat).late = (peerOf d h.src.toNat).late := by
  have taken : (peerOf (takeHeader h d) h.src.toNat).late = (peerOf d h.src.toNat).late :=
    (congrArg Peer.late ((sendsOnly_takeHeader h d).peerOf h.src.toNat) :)
  rw [← taken]
  unfold accepted
  exact peerOf_onPeer_keeps Peer.late (fun _ => by rfl) ..

theorem accepted_rings (h : FlitHdr) (payload : Bytes) (d : Dev) : (accepted h payload d).rings = d.rings :=
  (sameBut_accepted h payload d).rings_eq (by decide)

theorem queueOf_accepted (h : FlitHdr) (payload : Bytes) (d : Dev) (i : Nat) : queueOf (accepted h payload d) i = queueOf d i := by
  rw [queueOf, accepted_queues, queueOf]

/-- A service that leaves the wait for STANDBY alone is all there is to a unit in its turn. -/
theorem receive_serves {h : FlitHdr} {d : Dev} {S : List Part} (turn : InTurn h d) (type : Nat) (payload : Bytes) (reply : Bool)
    {f : Nat → Dev → Dev} (same : SameBut S (accepted h payload d) (f h.src.toNat (accepted h payload d))) (apart : .cas ∉ S) :
    receive h type payload reply f d = f h.src.toNat (accepted h payload d) := by
  rw [receive_inTurn turn]
  obtain ⟨⟨-, -, -, -, -, quiet, -⟩, -⟩ := turn
  exact standbyCheck_sameBut same apart ((accepted_cas h payload d).2.1.trans quiet)

/-! ### Bursts (R430 to R434) -/

/-- The burst that a PUSH brings. -/
def burstOf (p : PushPl) (src : Nat) (d : Dev) : Burst :=
  { prod := .node src, qid := ownNode d * 4096 + p.qid.toNat, stamp := d.epoch.seq
    items := if p.abort then [] else itemsOf (queueOf d p.qid.toNat).cfg.ew (p.data.take 64) p.ends p.ragged
    ringStamp := some p.stamp, sop := p.opens, abort := p.abort }

theorem pushTaken_eq (p : PushPl) (src : Nat) (d : Dev) :
    pushTaken p src d = onPeer src (fun x => { x with rib := x.rib ++ [burstOf p src d] }) d := rfl

theorem burstOf_accepted (p : PushPl) (src : Nat) (h : FlitHdr) (payload : Bytes) (d : Dev) :
    burstOf p src (accepted h payload d) = burstOf p src d := by
  rw [burstOf, queueOf_accepted, (sameBut_accepted h payload d).epoch_eq (by decide), ownNode, (accepted_cas ..).2.2.1]
  rfl

/-! ### Drain transfers (R437 to R439) -/

theorem popReqTaken_start {p : PopReqPl} {src : Nat} {d : Dev} (done : p.done = false) (ret : p.ret = false)
    (arm : p.arm = false) (idle : (queueOf d p.qid.toNat).ptx = none) (valid : (queueOf d p.qid.toNat).cfg.valid = true) :
    popReqTaken p src d = putQueue p.qid.toNat { queueOf d p.qid.toNat with
      armed := none
      ptx := some { tag := p.tag.toNat, limit := p.limit.toNat, packed := p.packed, ew := (queueOf d p.qid.toNat).cfg.ew } } d := by
  unfold popReqTaken
  rw [if_neg (by simp [done]), if_neg (by simp [ret]), if_neg (by simp [arm])]
  unfold popStart
  dsimp only
  rw [if_neg (by simp [idle]), if_neg (by simp [valid])]

theorem popReqTaken_done {p : PopReqPl} {src : Nat} {d : Dev} (done : p.done = true) :
    popReqTaken p src d = popDone p.qid.toNat p.tag.toNat d := if_pos done

theorem popReqTaken_return {p : PopReqPl} {src : Nat} {d : Dev} (done : p.done = false) (ret : p.ret = true) :
    popReqTaken p src d = popReturn p.qid.toNat p.tag.toNat d := by
  unfold popReqTaken
  rw [if_neg (by simp [done]), if_pos ret]

theorem popReqTaken_arm {p : PopReqPl} {src : Nat} {d : Dev} (done : p.done = false) (ret : p.ret = false) (arm : p.arm = true) :
    popReqTaken p src d = popArm p d := by
  unfold popReqTaken
  rw [if_neg (by simp [done]), if_neg (by simp [ret]), if_pos arm]

/-- The queue once the items of a held transfer have come back. -/
def takenBack (tag : Nat) (l : List Item) (q : Queue) : Queue :=
  returnItems l { q with held := q.held.filter fun h => h.1 ≠ tag }

theorem popReturn_held {qid tag : Nat} {d : Dev} {x : Nat × List Item} (idle : (queueOf d qid).ptx = none)
    (found : (queueOf d qid).held.find? (fun h => h.1 = tag) = some x) (some : x.2 ≠ []) :
    popReturn qid tag d = pump (stallChecks (refreshFlags (resettle qid (putQueue qid (takenBack tag x.2 (queueOf d qid)) d)))) := by
  unfold popReturn
  refine congrArg (fun q => pump (stallChecks (refreshFlags (resettle qid (putQueue qid q d))))) ?_
  rw [idle]
  dsimp only
  rw [found]
  dsimp only
  rw [if_neg (by simpa using some), takenBack, idle]

theorem takenBack_contents {tag : Nat} {l : List Item} {q : Queue} (some : l ≠ []) :
    (takenBack tag l q).items = (if q.owedEnd then closeRun l else l) ++ q.items ∧
      (takenBack tag l q).held = q.held.filter fun h => h.1 ≠ tag := by
  obtain ⟨i, l', rfl⟩ := List.exists_cons_of_ne_nil some
  exact ⟨rfl, rfl⟩

/-- What makes a queue ready whether or not its items have waited. -/
def readyAtOnce (q : Queue) (packed : Bool) (dmin len : Nat) : Bool :=
  (decide (0 < available q) && decide (min dmin len ≤ available q * ewBytes q.cfg.ew)) ||
    (!packed && (availItems q).any (·.bound)) || endPending q

theorem drainReady_eq (q : Queue) (packed : Bool) (dmin wait len : Nat) (b : Bool) (a : Option (Bool × Nat × Nat × Nat)) :
    drainReady { q with waited := b, armed := a } packed dmin wait len =
      (q.cfg.valid && (readyAtOnce q packed dmin len || (decide (wait ≠ 0) && b && decide (0 < available q)))) := rfl

/-- A wait that ends can only make a queue less ready. -/
theorem drainReady_waited {q : Queue} {packed : Bool} {dmin wait len : Nat} {b : Bool} (a : Option (Bool × Nat × Nat × Nat))
    (less : b = true → q.waited = true) (not : drainReady q packed dmin wait len = false) :
    drainReady { q with waited := b, armed := a } packed dmin wait len = false := by
  have fewer : ∀ v x w b c y : Bool, (b = true → c = true) → (v && (x || (w && c && y))) = false →
      (v && (x || (w && b && y))) = false := by decide
  rw [drainReady_eq]
  exact fewer _ _ _ _ _ _ less ((drainReady_eq q packed dmin wait len q.waited q.armed).symm.trans not)

/-- The queue once an arming request has been noted. -/
def armedQueue (p : PopReqPl) (q : Queue) : Queue :=
  { q with armed := some (p.packed, p.dmin.toNat * 64, p.wait.toNat, p.tag.toNat) }

theorem drainWaitCheck_queue (i : Nat) {d : Dev} (wf : tblWf {} d.queues = true) :
    ∃ b, queueOf (drainWaitCheck i d) i = { queueOf d i with waited := b } ∧ (b = true → (queueOf d i).waited = true) := by
  unfold drainWaitCheck
  dsimp only
  split
  · split
    · refine ⟨false, ?_, by simp⟩
      exact queueOf_put_same wf i _
    · exact ⟨_, rfl, id⟩
  · split
    · exact ⟨_, rfl, id⟩
    · exact ⟨_, rfl, id⟩

theorem readyCheck_idle {i : Nat} {d : Dev} {a : Bool × Nat × Nat × Nat} (armed : (queueOf d i).armed = some a)
    (not : drainReady (queueOf d i) a.1 a.2.1 a.2.2.1 0xFFFFFF = false) : readyCheck i d = d := by
  unfold readyCheck
  dsimp only
  rw [armed]
  exact if_neg (by simp [not])

theorem popArm_noted {p : PopReqPl} {d : Dev} (wf : tblWf {} d.queues = true)
    (not : drainReady (queueOf d p.qid.toNat) p.packed (p.dmin.toNat * 64) p.wait.toNat 0xFFFFFF = false) :
    (queueOf (popArm p d) p.qid.toNat).armed = some (p.packed, p.dmin.toNat * 64, p.wait.toNat, p.tag.toNat) ∧
      (queueOf (popArm p d) p.qid.toNat).items = (queueOf d p.qid.toNat).items ∧
      SameBut [.timers, .queues] d (popArm p d) := by
  have noted : queueOf (onQueue p.qid.toNat (armedQueue p) d) p.qid.toNat = armedQueue p (queueOf d p.qid.toNat) :=
    queueOf_on_same wf ..
  have wf' : tblWf {} (onQueue p.qid.toNat (armedQueue p) d).queues = true := putQueue_wf wf ..
  obtain ⟨b, queue, less⟩ := drainWaitCheck_queue p.qid.toNat wf'
  rw [noted] at queue less
  have arms : popArm p d = readyCheck p.qid.toNat (drainWaitCheck p.qid.toNat (onQueue p.qid.toNat (armedQueue p) d)) := rfl
  have idle : readyCheck p.qid.toNat (drainWaitCheck p.qid.toNat (onQueue p.qid.toNat (armedQueue p) d)) = _ :=
    readyCheck_idle (a := (p.packed, p.dmin.toNat * 64, p.wait.toNat, p.tag.toNat)) (by rw [queue]; rfl)
      (by rw [queue]; exact drainReady_waited _ less not)
  rw [arms, idle, queue]
  exact ⟨rfl, rfl, SameBut.trans (mask_onQueue (by decide) ..) (mask_drainWaitCheck (by decide) (by decide) ..)⟩

/-! ### Answers to transfers (R437, R438, R450) -/

theorem lateResult_counts {n : Nat} {d : Dev} (present : isPresent d n = true) :
    (peerOf (lateResult n d) n).late = sat32 (peerOf d n).late 1 ∧ SameBut [.peers, .err] d (lateResult n d) := by
  have counted := peerOf_onPeer_same (f := fun p => { p with late := sat32 p.late 1 }) present
  have logged (e : Dev) : SameBut [.err] e (lateSuccess 0 0 0 e) := mask_lateSuccess (by decide) ..
  refine ⟨?_, SameBut.trans (S := [.peers, .err]) (mask_onPeer (by decide) ..) ((logged _).mono (by decide))⟩
  rw [lateResult, peerOf, (logged _).cas_eq (by decide) (by decide)]
  exact congrArg Peer.late counted

theorem popRspTaken_late {p : PopRspPl} {src : Nat} {d : Dev} (none : tblFind d.rings.drains p.tag.toNat = none)
    (data : p.ready = false) : popRspTaken p src d = lateResult src d := by
  unfold popRspTaken
  dsimp only
  rw [none]
  exact if_neg (by simp [data])

theorem popRspTaken_ready {p : PopRspPl} {src : Nat} {d : Dev} {r : DrainRing} (ring : tblFind d.rings.drains p.tag.toNat = some r)
    (ready : p.ready = true) (new : src * 4096 + p.qid.toNat ∉ r.ready)
    (bound : d.bind.drain.any (fun b => b.target = p.tag.toNat && b.qid = src * 4096 + p.qid.toNat) = true) :
    popRspTaken p src d = pump (putDrain p.tag.toNat { r with ready := r.ready ++ [src * 4096 + p.qid.toNat] } d) := by
  unfold popRspTaken
  dsimp only
  rw [ring]
  dsimp only
  rw [if_pos ready, if_neg (by simp only [new, bound]; decide)]

theorem popRspTaken_data {p : PopRspPl} {src : Nat} {d : Dev} {r : DrainRing} {x : Xfer}
    (ring : tblFind d.rings.drains p.tag.toNat = some r) (answer : p.ready = false) (xfer : r.xfer = some x)
    (remote : x.remote = some p.tag.toNat) (qid : x.qid = src * 4096 + p.qid.toNat) (runs : x.ended = false) (some : p.data ≠ []) :
    popRspTaken p src d = putDrain p.tag.toNat { r with xfer := .some { x with
      bytes := p.data.take x.buf.len, remoteFlags := popRspFlags p, ended := true } } d := by
  unfold popRspTaken
  dsimp only
  rw [ring]
  dsimp only
  rw [if_neg (by simp [answer]), xfer]
  dsimp only
  rw [if_pos (by simp [remote, qid, runs]), popAnswer, if_neg (by simp [some])]

/-! ### The services, seen from outside -/

theorem SameBut.ringOnly_queues {d e : Dev} (h : SameBut [.timers, .out, .peers, .queues] d e) :
    RingOnly { d with queues := e.queues } e :=
  (SameBut.mono (T := [.timers, .out, .cas, .peers, .queues]) h (by decide)).eq

/-- The items of a queue and those it holds for transfers are the same on both devices. -/
theorem ContentsStand.items_held {d e : Dev} (h : ContentsStand d e) (wf : tblWf {} d.queues = true) (i : Nat) :
    (queueOf e i).items = (queueOf d i).items ∧ (queueOf e i).held = (queueOf d i).held := by
  have same := h.same wf i
  exact ⟨(congrArg Prod.fst same :), (congrArg (fun c => c.2.2.1) same :)⟩

/-- A POP_REQ whose service leaves the rest of the ring's state alone completes as that service leaves the device. -/
theorem completes_popReq {h : FlitHdr} {p : PopReqPl} {s : State} {S : List Part} {P : Dev → Prop} (turn : InTurn h s.dev)
    (same : SameBut S (accepted h (popReqBytes p) s.dev) (popReqTaken p h.src.toNat (accepted h (popReqBytes p) s.dev)))
    (apart : .cas ∉ S) (holds : P (govTrack (popReqTaken p h.src.toNat (accepted h (popReqBytes p) s.dev)))) :
    Completes (.popReq h p) s P := by
  refine completes_of_exec_eq_act (f := fun d => govTrack (receive h 6 (popReqBytes p) false (popReqTaken p) d)) rfl ?_
  rw [receive_serves turn 6 (popReqBytes p) false same apart]
  exact holds

theorem completes_popRsp {h : FlitHdr} {p : PopRspPl} {s : State} {S : List Part} {P : Dev → Prop} (turn : InTurn h s.dev)
    (same : SameBut S (accepted h (popRspBytes p) s.dev) (popRspTaken p h.src.toNat (accepted h (popRspBytes p) s.dev)))
    (apart : .cas ∉ S) (holds : P (popRspTaken p h.src.toNat (accepted h (popRspBytes p) s.dev))) :
    Completes (.popRsp h p) s P := by
  refine completes_of_exec_eq_act (f := receive h 7 (popRspBytes p) true (popRspTaken p)) rfl ?_
  rw [receive_serves turn 7 (popRspBytes p) true same apart]
  exact holds

/-- The queue once a held transfer has been let go. -/
def heldFreed (tag : Nat) (q : Queue) : Queue := { q with held := q.held.filter fun h => h.1 ≠ tag }

theorem popDone_eq (qid tag : Nat) (d : Dev) : popDone qid tag d = releaseUnused qid (onQueue qid (heldFreed tag) d) := rfl

theorem sameBut_popDone (qid tag : Nat) (d : Dev) :
    SameBut [.timers, .link, .out, .epoch, .queues, .tier, .rep, .err, .peers] d (popDone qid tag d) := by
  rw [popDone_eq]
  exact SameBut.trans (mask_onQueue (by decide) ..) (mask_releaseUnused (by decide) (by decide) (by decide) (by decide)
    (by decide) (by decide) (by decide) (by decide) (by decide) ..)

theorem popDone_contents {qid tag : Nat} {d : Dev} (wf : tblWf {} d.queues = true) :
    (queueOf (popDone qid tag d) qid).held = (queueOf d qid).held.filter (fun h => h.1 ≠ tag) ∧
      (queueOf (popDone qid tag d) qid).items = (queueOf d qid).items := by
  have dropped : queueOf (onQueue qid (heldFreed tag) d) qid = heldFreed tag (queueOf d qid) := queueOf_on_same wf ..
  obtain ⟨items, held⟩ := (storageMoves_releaseUnused qid (onQueue qid (heldFreed tag) d)).contentsStand.items_held
    (putQueue_wf wf ..) qid
  rw [popDone_eq, items, held, dropped]
  exact ⟨rfl, rfl⟩

theorem sameBut_resettle (i : Nat) (d : Dev) : SameBut [.timers, .out, .queues, .tier, .peers] d (resettle i d) := by
  unfold resettle bootQueue
  generalize 512 = n
  exact SameBut.trans (mask_spillCheck (by decide) (by decide) n i d) (SameBut.trans
    (mask_readCheck (by decide) (by decide) (by decide) (by decide) ..) (SameBut.trans (mask_onQueue (by decide) ..)
      (mask_drainWaitCheck (by decide) (by decide) ..)))

theorem sameBut_settled (d : Dev) : SameBut [.timers, .link, .out, .rings, .ports] d (pump (stallChecks (refreshFlags d))) :=
  (mask_pump (by decide) (by decide) (by decide) (by decide) _).trans ((mask_stallChecks (by decide) _).trans
    (mask_refreshFlags (by decide) _))

/-- Settles O54: each unit in its turn is served at once; what the items and the rings hold then comes from the
services' own equations, and what follows a change of queues moves no item. -/
theorem ringMovesBurstsAndTransfers : Obligations.RingMovesBurstsAndTransfers := by
  unfold Obligations.RingMovesBurstsAndTransfers
  rintro s h _ rfl turn wf
  obtain ⟨-, -, -, -, -, -, -, -, present⟩ := turn.1
  refine ⟨fun p => ?_, ?_, ?_⟩
  · refine completes_of_exec_eq_act (f := receive h 4 (pushBytes p) false (pushTaken p)) rfl ?_
    have pushed (e : Dev) : SameBut [.peers] e (pushTaken p h.src.toNat e) := mask_onPeer (by decide) ..
    rw [receive_serves turn 4 (pushBytes p) false (pushed _) (by decide)]
    refine ⟨?_, SameBut.ringOnly ((sameBut_accepted ..).trans ((pushed _).mono (by decide)))⟩
    rw [pushTaken_eq, peerOf_onPeer_same (accepted_present present), burstOf_accepted, accepted_rib]
    rfl
  · rintro p _ rfl
    have ring : SameBut [.timers, .out, .peers] s.dev (accepted h (popReqBytes p) s.dev) := sameBut_accepted ..
    have queues := accepted_queues h (popReqBytes p) s.dev
    have queue := queueOf_accepted h (popReqBytes p) s.dev
    refine ⟨fun done ret arm idle valid => ?_, fun done ret arm waits => ?_, fun done => ?_, fun x done ret idle found some => ?_⟩
    · have starts := popReqTaken_start (src := h.src.toNat) (d := accepted h (popReqBytes p) s.dev) done ret arm
        (by rw [queue]; exact idle) (by rw [queue]; exact valid)
      have same : SameBut [.queues] (accepted h (popReqBytes p) s.dev)
          (popReqTaken p h.src.toNat (accepted h (popReqBytes p) s.dev)) := by
        rw [starts]
        exact mask_putQueue (by decide) ..
      refine completes_popReq turn same (by decide) ⟨?_, fun j other => ?_, SameBut.ringOnly_queues ?_⟩
      · rw [queueOf_govTrack, starts, queueOf_put_same (queues ▸ wf), queue]
      · rw [queueOf_govTrack, starts, queueOf_put_other _ _ other, queue]
      · exact SameBut.trans (ring.mono (by decide)) (SameBut.trans (same.mono (by decide)) ((sameBut_govTrack _).mono (by decide)))
    · have arms := popReqTaken_arm (src := h.src.toNat) (d := accepted h (popReqBytes p) s.dev) done ret arm
      obtain ⟨armed, items, same⟩ := popArm_noted (p := p) (d := accepted h (popReqBytes p) s.dev) (queues ▸ wf)
        (by rw [queue]; exact waits)
      refine completes_popReq turn (arms ▸ same) (by decide) ?_
      rw [queueOf_govTrack, arms]
      exact ⟨armed, items.trans (by rw [queue])⟩
    · have gives := popReqTaken_done (src := h.src.toNat) (d := accepted h (popReqBytes p) s.dev) done
      obtain ⟨held, items⟩ := popDone_contents (qid := p.qid.toNat) (tag := p.tag.toNat)
        (d := accepted h (popReqBytes p) s.dev) (queues ▸ wf)
      refine completes_popReq turn (gives ▸ sameBut_popDone ..) (by decide) ?_
      rw [queueOf_govTrack, gives, held, items, queue]
      exact ⟨rfl, rfl⟩
    · have brings := (popReqTaken_return (src := h.src.toNat) (d := accepted h (popReqBytes p) s.dev) done ret).trans
        (popReturn_held (by rw [queue]; exact idle) (by rw [queue]; exact found) some)
      have here := queueOf_put_same (d := accepted h (popReqBytes p) s.dev) (queues ▸ wf) p.qid.toNat
        (takenBack p.tag.toNat x.2 (queueOf (accepted h (popReqBytes p) s.dev) p.qid.toNat))
      have wf' := putQueue_wf (d := accepted h (popReqBytes p) s.dev) (queues ▸ wf) p.qid.toNat
        (takenBack p.tag.toNat x.2 (queueOf (accepted h (popReqBytes p) s.dev) p.qid.toNat))
      have put : SameBut [.queues] (accepted h (popReqBytes p) s.dev) (putQueue p.qid.toNat
        (takenBack p.tag.toNat x.2 (queueOf (accepted h (popReqBytes p) s.dev) p.qid.toNat)) _) := mask_putQueue (by decide) ..
      generalize putQueue p.qid.toNat _ _ = e at brings here wf' put
      have settles := ((contentsStand_resettle p.qid.toNat e).trans (contentsStand_settled _)).items_held wf' p.qid.toNat
      have same : SameBut [.timers, .link, .out, .rings, .ports, .queues, .tier, .peers]
          (accepted h (popReqBytes p) s.dev) (popReqTaken p h.src.toNat (accepted h (popReqBytes p) s.dev)) := by
        rw [brings]
        exact (put.mono (by decide)).trans (SameBut.trans ((sameBut_resettle ..).mono (by decide))
          ((sameBut_settled _).mono (by decide)))
      refine completes_popReq turn same (by decide) ?_
      obtain ⟨items, held⟩ := takenBack_contents (tag := p.tag.toNat) (q := queueOf s.dev p.qid.toNat) some
      rw [queueOf_govTrack, brings, settles.1, settles.2, here, queue]
      exact ⟨items, held⟩
  · rintro p _ rfl
    have rings := accepted_rings h (popRspBytes p) s.dev
    have queues := accepted_queues h (popRspBytes p) s.dev
    refine ⟨fun none data => ?_, fun r found => ⟨fun ready new bound => ?_, fun x answer xfer remote qid runs some => ?_⟩⟩
    · have late := popRspTaken_late (src := h.src.toNat) (d := accepted h (popRspBytes p) s.dev) (by rw [rings]; exact none) data
      obtain ⟨counted, same⟩ := lateResult_counts (d := accepted h (popRspBytes p) s.dev) (accepted_present present)
      refine completes_popRsp turn (late ▸ same) (by decide) ?_
      rw [late, counted, accepted_late, same.rings_eq (by decide), same.queues_eq (by decide), rings, queues]
      exact ⟨rfl, rfl, rfl⟩
    · have readied := popRspTaken_ready (src := h.src.toNat) (d := accepted h (popRspBytes p) s.dev)
        (by rw [rings]; exact found) ready new (by rw [(sameBut_accepted ..).bind_eq (by decide)]; exact bound)
      have put : tblFind (putDrain p.tag.toNat { r with ready := r.ready ++ [h.src.toNat * 4096 + p.qid.toNat] }
          (accepted h (popRspBytes p) s.dev)).rings.drains p.tag.toNat = _ := tblFind_put_same ..
      have same : SameBut [.timers, .link, .out, .rings] (accepted h (popRspBytes p) s.dev)
          (popRspTaken p h.src.toNat (accepted h (popRspBytes p) s.dev)) := by
        rw [readied]
        exact SameBut.trans (mask_putDrain (by decide) ..) (mask_pump (by decide) (by decide) (by decide) (by decide) _)
      refine completes_popRsp turn same (by decide) ?_
      rw [readied]
      obtain ⟨r', found', moves⟩ := (ringsMove_pump _).drains _ _ put
      rw [DrainMoves] at moves
      exact ⟨r', found', by rw [moves], by rw [moves]⟩
    · have ends := popRspTaken_data (src := h.src.toNat) (d := accepted h (popRspBytes p) s.dev)
        (by rw [rings]; exact found) answer xfer remote qid runs some
      have same : SameBut [.rings] (accepted h (popRspBytes p) s.dev)
          (popRspTaken p h.src.toNat (accepted h (popRspBytes p) s.dev)) := by
        rw [ends]
        exact mask_putDrain (by decide) ..
      refine completes_popRsp turn same (by decide) ?_
      rw [same.queues_eq (by decide), queues, ends]
      exact ⟨tblFind_put_same .., rfl⟩

end Sys2Proof.Machine
end

section
/-!
Holes that fade: what the release of segments leaves of a queue's holes (R451 to R457).
-/

namespace Sys2Proof.Machine

/-! ### The holes of a queue -/

/-- The lent segments that are missing from a queue's chain. -/
def holesOf (q : Queue) : List LoanRef := (q.chain.filter (·.hole)).filterMap (·.loan)

theorem mem_holesOf {q : Queue} {l : LoanRef} : l ∈ holesOf q ↔ ∃ c ∈ q.chain, c.hole = true ∧ c.loan = some l := by
  simp [holesOf, and_assoc]

/-- No queue has a hole that it did not have, and of the peers nothing but what is sent to them has changed. -/
structure HolesFade (d e : Dev) : Prop where
  wf : tblWf {} d.queues = true → tblWf {} e.queues = true
  holes : tblWf {} d.queues = true → ∀ i, holesOf (queueOf e i) ⊆ holesOf (queueOf d i)
  sends : SendsOnly d e

theorem HolesFade.trans {a b c : Dev} (h : HolesFade a b) (k : HolesFade b c) : HolesFade a c :=
  ⟨fun wf => k.wf (h.wf wf), fun wf i => List.Subset.trans (k.holes (h.wf wf) i) (h.holes wf i), h.sends.trans k.sends⟩

/-- The last move, and what leads up to it. -/
theorem HolesFade.after {a b c : Dev} (k : HolesFade b c) (h : HolesFade a b) : HolesFade a c := h.trans k

theorem HolesFade.of_sends {d e : Dev} (queues : e.queues = d.queues) (sends : SendsOnly d e) : HolesFade d e :=
  ⟨fun wf => by rw [queues]; exact wf, fun _ i => by rw [queueOf, queues, queueOf]; exact fun _ h => h, sends⟩

theorem HolesFade.of_same {d e : Dev} (queues : e.queues = d.queues) (peers : e.cas.peers = d.cas.peers) : HolesFade d e :=
  .of_sends queues (.of_same peers)

theorem SameBut.holesFade {S : List Part} {d e : Dev} (h : SameBut S d e) (q : .queues ∉ S) (c : .cas ∉ S) (p : .peers ∉ S) :
    HolesFade d e := .of_same (h.queues_eq q) (by rw [h.cas_eq c p])

theorem SameBut.sendsOnly {S : List Part} {d e : Dev} (h : SameBut S d e) (c : .cas ∉ S) (p : .peers ∉ S) : SendsOnly d e :=
  .of_same (by rw [h.cas_eq c p])

theorem ChainsStand.holesFade {d e : Dev} (h : ChainsStand d e) (sends : SendsOnly d e) : HolesFade d e :=
  ⟨h.wf, fun wf i => by rw [holesOf, h.chain wf i, holesOf]; exact fun _ m => m, sends⟩

theorem holesFade_put {i : Nat} {q : Queue} {d : Dev} (fewer : holesOf q ⊆ holesOf (queueOf d i)) : HolesFade d (putQueue i q d) := by
  refine ⟨fun wf => putQueue_wf wf i q, fun wf j => ?_, .of_same rfl⟩
  by_cases here : j = i
  · rw [here, queueOf_put_same wf]
    exact fewer
  · rw [queueOf_put_other _ _ here]
    exact fun _ h => h

theorem holesFade_ite {p : Prop} [Decidable p] {a b d : Dev} (ha : HolesFade d a) (hb : HolesFade d b) :
    HolesFade d (if p then a else b) := by
  split
  · exact ha
  · exact hb

theorem holesFade_foldl {β : Type} {f : Dev → β → Dev} (fades : ∀ d x, HolesFade d (f d x)) (l : List β) :
    ∀ d, HolesFade d (l.foldl f d) := by
  induction l with
  | nil => exact fun d => .of_same rfl rfl
  | cons x l ih => intro d; exact (fades d x).trans (ih _)

/-- Segments that gain no hole and no loan. -/
theorem holesOf_map {q q' : Queue} {g : ChainSeg → ChainSeg} (chain : q'.chain = q.chain.map g)
    (fades : ∀ c l, (g c).hole = true → (g c).loan = some l → c.hole = true ∧ c.loan = some l) : holesOf q' ⊆ holesOf q := by
  intro l mem
  obtain ⟨_, inChain, hole, loan⟩ := mem_holesOf.1 mem
  rw [chain] at inChain
  obtain ⟨c, listed, rfl⟩ := List.mem_map.1 inChain
  exact mem_holesOf.2 ⟨c, listed, fades c l hole loan⟩

theorem holesOf_filter {q q' : Queue} {p : ChainSeg → Bool} (chain : q'.chain = q.chain.filter p) : holesOf q' ⊆ holesOf q := by
  intro l mem
  obtain ⟨c, inChain, missing⟩ := mem_holesOf.1 mem
  rw [chain] at inChain
  exact mem_holesOf.2 ⟨c, (List.mem_filter.1 inChain).1, missing⟩

theorem holesFade_onSeg {i pos : Nat} {f : ChainSeg → ChainSeg} {d : Dev}
    (fades : ∀ c l, (f c).hole = true → (f c).loan = some l → c.hole = true ∧ c.loan = some l) : HolesFade d (onSeg i pos f d) := by
  refine holesFade_put (holesOf_map (g := fun s => if s.pos = pos then f s else s) rfl fun c l hole loan => ?_)
  by_cases here : c.pos = pos
  · rw [if_pos here] at hole loan
    exact fades c l hole loan
  · rw [if_neg here] at hole loan
    exact ⟨hole, loan⟩

/-! ### Segments that are released -/

theorem sendsOnly_sendSeq (n type : Nat) (payload : Bytes) (d : Dev) : SendsOnly d (sendSeq n type payload d) :=
  sendsOnly_sendItems ..

theorem holesFade_sendSeq (n type : Nat) (payload : Bytes) (d : Dev) : HolesFade d (sendSeq n type payload d) :=
  .of_sends ((sameBut_sendSeq ..).queues_eq (by decide)) (sendsOnly_sendSeq ..)

theorem holesFade_addRecord (r : JRec) (d : Dev) : HolesFade d (addRecord r d) := by
  have moves := storageMoves_addRecord r d
  have same : SameBut [.timers, .epoch, .queues, .tier] d (addRecord r d) :=
    mask_addRecord (by decide) (by decide) (by decide) (by decide) ..
  refine ⟨moves.wf, fun wf i => ?_, same.sendsOnly (by decide) (by decide)⟩
  obtain kept | imaged := queueOf_addRecord (r := r) wf
  · rw [kept]
    exact fun _ h => h
  · rw [imaged]
    exact holesOf_map rfl fun _ _ hole loan => ⟨hole, loan⟩

theorem holesFade_giveNear (i n : Nat) (d : Dev) : HolesFade d (giveNear i n d) :=
  (chainsStand_giveNear i n d).holesFade (SameBut.sendsOnly (S := [.link, .out, .queues, .tier, .rep, .err])
    (mask_giveNear (by decide) (by decide) (by decide) (by decide) (by decide) (by decide) ..) (by decide) (by decide))

theorem holesFade_giveLoan (i : Nat) (persist hole : Bool) (l : LoanRef) (d : Dev) : HolesFade d (giveLoan i persist hole l d) := by
  unfold giveLoan
  extract_lets +onlyGivenNames noted
  have before : HolesFade d noted := holesFade_ite (holesFade_addRecord ..) (.of_same rfl rfl)
  exact holesFade_ite before (before.trans (holesFade_sendSeq ..))

theorem holesFade_freeDeep (i seg : Nat) (named : Bool) (d : Dev) : HolesFade d (freeDeep i seg named d) := by
  have retired (e : Dev) : HolesFade e (retireDeep seg e) :=
    SameBut.holesFade (S := [.link, .out, .tier, .rep, .err])
      (mask_retireDeep (by decide) (by decide) (by decide) (by decide) (by decide) ..) (by decide) (by decide) (by decide)
  unfold freeDeep
  dsimp only
  split
  · exact holesFade_ite ((retired d).trans (holesFade_addRecord ..)) (retired d)
  · exact holesFade_ite ((holesFade_addRecord ..).after (.of_same rfl rfl)) (.of_same rfl rfl)

theorem holesFade_releaseSeg (i : Nat) (persist : Bool) (c : ChainSeg) (d : Dev) : HolesFade d (releaseSeg i persist c d) := by
  unfold releaseSeg
  extract_lets +onlyGivenNames near deep loan
  have first : HolesFade d near := by
    unfold near
    split
    · exact holesFade_giveNear ..
    · exact .of_same rfl rfl
  have second : HolesFade near deep := by
    unfold deep
    split
    · exact holesFade_freeDeep ..
    · exact .of_same rfl rfl
  have third : HolesFade deep loan := by
    unfold loan
    split
    · exact holesFade_giveLoan ..
    · exact .of_same rfl rfl
  exact first.trans (second.trans (third.trans (.of_same rfl rfl)))

theorem holesFade_releaseUnused (i : Nat) (d : Dev) : HolesFade d (releaseUnused i d) := by
  unfold releaseUnused
  dsimp only
  split
  · exact .of_same rfl rfl
  · exact (holesFade_foldl (fun e c => holesFade_releaseSeg ..) _ _).after (holesFade_put (holesOf_filter rfl))

/-! ### Queues settle again -/

theorem holesFade_spillCheck (n i : Nat) : ∀ d, HolesFade d (spillCheck n i d) := by
  have queued (pos : Nat) (d : Dev) : HolesFade d (queueProgram i pos d) :=
    (holesFade_onSeg (f := fun s => { s with prog := .queued }) fun _ _ hole loan => ⟨hole, loan⟩).trans (.of_same rfl rfl)
  induction n with
  | zero => exact fun d => .of_same rfl rfl
  | succ n ih =>
    intro d
    unfold spillCheck
    dsimp only
    split
    · split
      · exact (queued _ d).trans (ih _)
      · exact .of_same rfl rfl
    · exact .of_same rfl rfl

theorem holesFade_readCheck (i : Nat) (d : Dev) : HolesFade d (readCheck i d) := by
  have reads (pos : Nat) (e : Dev) : HolesFade e (onSeg i pos (fun t => { t with reading := true }) e) :=
    holesFade_onSeg fun _ _ hole loan => ⟨hole, loan⟩
  unfold readCheck
  extract_lets +onlyGivenNames q
  split
  · exact .of_same rfl rfl
  · extract_lets +onlyGivenNames ahead coming cand0 cand
    refine holesFade_foldl (fun e s => holesFade_ite ?_ (.of_same rfl rfl)) _ d
    dsimp only
    split
    · exact (holesFade_sendSeq ..).after (reads s.pos e)
    · exact reads s.pos e

theorem holesFade_resettle (i : Nat) (d : Dev) : HolesFade d (resettle i d) := by
  unfold resettle bootQueue
  generalize 512 = n
  have flags (e : Dev) : HolesFade e (onQueue i (setFlags d) e) := holesFade_put fun _ h => h
  have waits (e : Dev) : HolesFade e (drainWaitCheck i e) := by
    have waited (b : Bool) : HolesFade e (putQueue i { queueOf e i with waited := b } e) := holesFade_put fun _ h => h
    unfold drainWaitCheck
    exact holesFade_ite (holesFade_ite ((waited _).trans (.of_same rfl rfl)) (.of_same rfl rfl))
      (holesFade_ite (.of_same rfl rfl) (.of_same rfl rfl))
  exact (holesFade_spillCheck ..).trans ((holesFade_readCheck ..).trans ((flags _).trans (waits _)))

theorem holesFade_settled (d : Dev) : HolesFade d (pump (stallChecks (refreshFlags d))) :=
  (sameBut_settled d).holesFade (by decide) (by decide) (by decide)

/-! ### Holes that are discarded (R451, R453) -/

/-- No hole of the queue is of a lent segment that `sel` names. -/
def Clear (sel : LoanRef → Bool) (q : Queue) : Prop := ∀ l ∈ holesOf q, sel l = false

theorem Clear.fade {sel : LoanRef → Bool} {q q' : Queue} (h : Clear sel q) (fewer : holesOf q' ⊆ holesOf q) : Clear sel q' :=
  fun l mem => h l (fewer mem)

theorem mem_of_tblFind {α : Type} {t : Tbl α} {k : Nat} {v : α} (found : tblFind t k = some v) : (k, v) ∈ t := by
  induction t with
  | nil => cases found
  | cons e t ih =>
    obtain ⟨j, w⟩ := e
    unfold tblFind at found
    split at found
    · cases found
      subst j
      exact List.mem_cons_self
    · exact List.mem_cons_of_mem _ (ih found)

/-- A pass over the queues that clears each in its turn clears them all. -/
theorem clear_foldl {sel : LoanRef → Bool} {f : Dev → Nat × Queue → Dev} {d : Dev} (wf : tblWf {} d.queues = true)
    (fades : ∀ e x, HolesFade e (f e x))
    (clears : ∀ e, HolesFade d e → ∀ x ∈ d.queues, Clear sel (queueOf (f e x) x.1)) (i : Nat) :
    Clear sel (queueOf (d.queues.foldl f d) i) := by
  have pass (t : Tbl Queue) (listed : ∀ x ∈ t, x ∈ d.queues) : ∀ e, HolesFade d e →
      ∀ x ∈ t, Clear sel (queueOf (t.foldl f e) x.1) := by
    induction t with
    | nil => exact fun _ _ x mem => absurd mem (by simp)
    | cons y t ih =>
      intro e fade x mem
      rw [List.foldl_cons]
      have fade' := fade.trans (fades e y)
      obtain rfl | mem := List.mem_cons.1 mem
      · exact (clears e fade x (listed x (by simp))).fade ((holesFade_foldl fades t _).holes (fade'.wf wf) x.1)
      · exact ih (fun z mem => listed z (by simp [mem])) _ fade' x mem
  cases found : tblFind d.queues i with
  | none =>
    refine Clear.fade (fun l mem => ?_) ((holesFade_foldl fades d.queues d).holes wf i)
    have empty : queueOf d i = {} := by
      rw [queueOf, tblGet, found]
      rfl
    rw [empty] at mem
    exact absurd mem (by simp [holesOf])
  | some q => exact pass d.queues (fun _ mem => mem) d (.of_same rfl rfl) (i, q) (mem_of_tblFind found)

theorem holesFade_discardHole (sel : ChainSeg → Bool) (tell : Bool) (i : Nat) (d : Dev) :
    HolesFade d (discardHole sel tell i d) := by
  unfold discardHole
  extract_lets +onlyGivenNames q segs gone q' put freed
  have before : HolesFade d put := holesFade_put (holesOf_filter rfl)
  have released : HolesFade put freed := holesFade_foldl (fun e c => holesFade_releaseSeg ..) _ _
  exact holesFade_ite (.of_same rfl rfl)
    (before.trans (released.trans ((holesFade_releaseUnused ..).trans (holesFade_resettle ..))))

theorem holesFade_discardHoles (sel : ChainSeg → Bool) (tell : Bool) (d : Dev) : HolesFade d (discardHoles sel tell d) :=
  holesFade_foldl (fun _ _ => holesFade_discardHole ..) _ d

/-- The lent segments of a node. -/
def ofNode (n : Nat) (l : LoanRef) : Bool := l.node == n

theorem discardHole_clear (n : Nat) (tell : Bool) (i : Nat) (d : Dev) (wf : tblWf {} d.queues = true) :
    Clear (ofNode n) (queueOf (discardHole (borrowedFrom n) tell i d) i) := by
  have kept {q : Queue} (all : ∀ c ∈ q.chain, (c.hole && borrowedFrom n c) = false) : Clear (ofNode n) q := by
    intro l mem
    obtain ⟨c, listed, hole, loan⟩ := mem_holesOf.1 mem
    have away := all c listed
    rw [hole, borrowedFrom, loan] at away
    simpa [ofNode] using away
  unfold discardHole
  extract_lets +onlyGivenNames q segs gone q' put freed
  split
  case isTrue none =>
    refine kept fun c listed => ?_
    by_contra missing
    have mem : c ∈ segs := List.mem_filter.2 ⟨listed, by simpa using missing⟩
    rw [List.isEmpty_iff.1 none] at mem
    cases mem
  case isFalse =>
    have clear : Clear (ofNode n) (queueOf put i) := by
      rw [queueOf_put_same wf]
      refine kept fun c listed => ?_
      have stays := (List.mem_filter.1 listed).2
      exact Bool.not_eq_true' _ ▸ stays
    have released : HolesFade put freed := holesFade_foldl (fun e c => holesFade_releaseSeg ..) _ _
    exact clear.fade ((released.trans ((holesFade_releaseUnused ..).trans (holesFade_resettle ..))).holes (putQueue_wf wf ..) i)

theorem discardHoles_clear (n : Nat) (tell : Bool) {d : Dev} (wf : tblWf {} d.queues = true) (i : Nat) :
    Clear (ofNode n) (queueOf (discardHoles (borrowedFrom n) tell d) i) :=
  clear_foldl wf (fun _ _ => holesFade_discardHole ..) (fun e fade x _ => discardHole_clear n tell x.1 e (fade.wf wf)) i

theorem holeOf_of_clear {n : Nat} {q : Queue} (clear : Clear (ofNode n) q) {c : ChainSeg} (listed : c ∈ q.chain) :
    holeOf n c = false := by
  by_contra missing
  simp only [holeOf, borrowedFrom, Bool.not_eq_false, Bool.and_eq_true, beq_iff_eq, Option.map_eq_some_iff] at missing
  obtain ⟨hole, l, loan, node⟩ := missing
  have away := clear l (mem_holesOf.2 ⟨c, listed, hole, loan⟩)
  simp [ofNode, node] at away

theorem holesFade_forgetLoans (sel : LoanRef → Bool) (d : Dev) : HolesFade d (forgetLoans sel d) := by
  have forgotten (i pos : Nat) (e : Dev) : HolesFade e (onSeg i pos (fun s => { s with loan := none }) e) :=
    holesFade_onSeg fun _ _ _ loan => by cases loan
  unfold forgetLoans
  refine holesFade_foldl (fun e x => holesFade_foldl (fun g c => ?_) _ e) _ d
  dsimp only
  split
  · exact (holesFade_giveLoan ..).after (forgotten ..)
  · exact forgotten ..

end Sys2Proof.Machine
end

section
/-!
The borrower's side of a loan: the segment that is written, refused, verified or written again (R441 to R444).
-/

namespace Sys2Proof.Machine

/-! ### Units of a loan in their turn -/

/-- A service that keeps the peers' standing is all there is to a unit in its turn. -/
theorem segUnit_standing {h : FlitHdr} {d : Dev} (turn : InTurn h d) (op : Nat) (reply : Bool) (i : Instr) (p : SegPl)
    {f : Nat → Dev → Dev} (keeps : KeepsStanding (accepted h (segUnitBytes op p) d)
      (f h.src.toNat (accepted h (segUnitBytes op p) d))) :
    segUnit op reply i h p f d = f h.src.toNat (accepted h (segUnitBytes op p) d) := by
  rw [segUnit_inTurn turn]
  obtain ⟨⟨-, -, -, -, -, quiet, -⟩, -⟩ := turn
  exact standbyCheck_quiet (keeps.quiet.trans ((accepted_cas h (segUnitBytes op p) d).2.1.trans quiet))

/-- A unit of a loan completes as its service leaves the device. -/
theorem completes_segUnit {c : Instr} {h : FlitHdr} {s : State} {op : Nat} {reply : Bool} {p : SegPl} {f : Nat → Dev → Dev}
    {P : Dev → Prop} (runs : exec c s = actBacklog (segUnit op reply c h p f) s) (turn : InTurn h s.dev)
    (keeps : KeepsStanding (accepted h (segUnitBytes op p) s.dev) (f h.src.toNat (accepted h (segUnitBytes op p) s.dev)))
    (holds : P (govTrack (f h.src.toNat (accepted h (segUnitBytes op p) s.dev)))) : Completes c s P := by
  refine completes_of_exec_eq_act (f := fun d => govTrack (segUnit op reply c h p f d)) runs ?_
  rw [segUnit_standing turn op reply c p keeps]
  exact holds

theorem sameBut_govAccepted {h : FlitHdr} {payload : Bytes} {d e : Dev}
    (same : SameBut [.timers, .out, .queues, .tier, .peers] (accepted h payload d) e) :
    SameBut [.timers, .out, .queues, .tier, .peers] d (govTrack e) :=
  SameBut.trans ((sameBut_accepted h payload d).mono (by decide)) (same.trans ((sameBut_govTrack e).mono (by decide)))

/-- The ring, the tier and the queues alone have changed, and the last two as given. -/
theorem SameBut.ringOnly_stored {d e : Dev} {t : Tier} (h : SameBut [.timers, .out, .queues, .tier, .peers] d e)
    (tier : e.tier = t) : RingOnly { d with tier := t, queues := e.queues } e := by
  subst tier
  exact (SameBut.mono (T := [.timers, .out, .cas, .queues, .tier, .peers]) h (by decide)).eq

theorem borrowing_accepted (h : FlitHdr) (payload : Bytes) (d : Dev) (src qid : Nat) (k : Option Nat) :
    borrowing (accepted h payload d) src qid k = borrowing d src qid k := by
  rw [borrowing, accepted_tier, borrowing]

theorem stillNear_accepted (h : FlitHdr) (payload : Bytes) (d : Dev) (qid pos : Nat) :
    stillNear (accepted h payload d) qid pos = stillNear d qid pos := by
  rw [stillNear, queueOf_accepted, stillNear]

/-! ### A loan in the making moves on -/

/-- The device once a loan in the making has moved on, its segment with it. -/
def borrowMoved (x : Prog) (new : List Prog) (qid pos : Nat) (st : ProgState) (d : Dev) : Dev :=
  onQueue qid (setProg pos st) (swapProg x new d)

theorem borrowMoved_tier (x : Prog) (new : List Prog) (qid pos : Nat) (st : ProgState) (d : Dev) :
    (borrowMoved x new qid pos st d).tier = { d.tier with active := d.tier.active.filter (· ≠ x) ++ new } := rfl

theorem queueOf_borrowMoved {d : Dev} (wf : tblWf {} d.queues = true) (x : Prog) (new : List Prog) (qid pos : Nat) (st : ProgState) :
    queueOf (borrowMoved x new qid pos st d) qid = setProg pos st (queueOf d qid) := queueOf_on_same (d := swapProg x new d) wf ..

theorem sameBut_borrowMoved (x : Prog) (new : List Prog) (qid pos : Nat) (st : ProgState) (d : Dev) :
    SameBut [.queues, .tier] d (borrowMoved x new qid pos st d) :=
  SameBut.trans (mask_set_tier d (by decide) _) (mask_onQueue (by decide) ..)

/-- What such a move leaves, seen behind a unit that is sent on. -/
theorem borrowSent_effect {h : FlitHdr} {payload : Bytes} {s : Dev} {x : Prog} {new : List Prog} {qid pos : Nat} {st : ProgState}
    {e : Dev} (wf : tblWf {} s.queues = true)
    (sent : SameBut [.timers, .out, .peers] (borrowMoved x new qid pos st (accepted h payload s)) e) :
    (govTrack e).tier.active = s.tier.active.filter (fun y => y ≠ x) ++ new ∧
      queueOf (govTrack e) qid = setProg pos st (queueOf s qid) ∧
      RingOnly { s with tier.active := (govTrack e).tier.active, queues := (govTrack e).queues } (govTrack e) := by
  have tier : (govTrack e).tier = { s.tier with active := s.tier.active.filter (fun y => y ≠ x) ++ new } := by
    rw [(sameBut_govTrack e).tier_eq (by decide), sent.tier_eq (by decide), borrowMoved_tier, accepted_tier]
  have same := sameBut_govAccepted (((sameBut_borrowMoved x new qid pos st (accepted h payload s)).mono (by decide)).trans
    (sent.mono (by decide)))
  refine ⟨by rw [tier], ?_, same.ringOnly_stored (tier.trans (by rw [tier]))⟩
  rw [queueOf_govTrack, queueOf, sent.queues_eq (by decide), ← queueOf, queueOf_borrowMoved (by rw [accepted_queues]; exact wf),
    queueOf_accepted]

/-- The move and what is sent of it keep the peers' standing. -/
theorem keepsStanding_borrowMoved (x : Prog) (new : List Prog) (qid pos : Nat) (st : ProgState) (d : Dev) :
    KeepsStanding d (borrowMoved x new qid pos st d) := .of_same rfl rfl

section
variable {p : SegPl} {src : Nat} {d : Dev} {x : Prog} {qid pos node gen : Nat}

theorem loanGrantTaken_starts (asked : borrowing d src p.borrower.toNat none = some x) (what : x.what = .borrow qid pos node gen none)
    (still : stillNear d qid pos = true) : ∃ data, loanGrantTaken p src d = sendSeq src 8 data
      (borrowMoved x [{ x with what := .borrow qid pos node gen (some p.handle.toNat) }] qid pos .started d) := by
  unfold loanGrantTaken
  dsimp only
  rw [asked]
  dsimp only
  rw [what]
  exact ⟨_, if_pos still⟩

theorem verifyFailTaken_again (asked : borrowing d src 0 (some p.handle.toNat) = some x)
    (what : x.what = .borrow qid pos node gen (some p.handle.toNat)) (still : stillNear d qid pos = true) :
    ∃ data, verifyFailTaken p src d = sendSeq src 8 data
      (borrowMoved x [{ x with what := .borrow qid pos node gen none }] qid pos .queued d) := by
  unfold verifyFailTaken
  rw [asked]
  dsimp only
  rw [what]
  exact ⟨_, if_pos still⟩

theorem loanRefuseTaken_ends (asked : borrowing d src p.borrower.toNat none = some x) (what : x.what = .borrow qid pos node gen none)
    (wf : tblWf {} d.queues = true) (idle : d.tier.sealRun = none) (tier : (queueOf d qid).cfg.tier ≠ 2) :
    loanRefuseTaken p src d = borrowMoved x [] qid pos .none d := by
  have ended : endBorrow x d = borrowMoved x [] qid pos .none d := by
    unfold endBorrow borrowMoved swapProg
    rw [what]
    dsimp only
    rw [idle, List.append_nil]
    rfl
  have kept : (queueOf (borrowMoved x [] qid pos .none d) qid).cfg.tier ≠ 2 := by
    rw [queueOf_borrowMoved wf]
    exact tier
  unfold loanRefuseTaken
  rw [asked]
  dsimp only
  rw [what]
  dsimp only
  rw [ended]
  exact if_neg fun both => kept (of_decide_eq_true (Bool.and_eq_true_iff.1 both).2)

end

/-! ### A borrowed copy is verified (R444) -/

/-- The device once the borrowed copy is in its chain. -/
def loanStored (l : LoanRef) (qid pos : Nat) (d : Dev) : Dev :=
  onSeg qid pos (fun s => { s with loan := some l, prog := .none }) d

/-- The device with the borrowed copy journalled. -/
def loanNamed (l : LoanRef) (m : MapSeg) (qid pos : Nat) (persist : Bool) (d : Dev) : Dev :=
  if persist then addRecord (.add qid m) (loanStored l qid pos d) else loanStored l qid pos d

theorem loanNamed_effect {l : LoanRef} {m : MapSeg} {qid pos : Nat} {persist : Bool} {d : Dev} {c : ChainSeg}
    (wf : tblWf {} d.queues = true) (there : segAt (queueOf d qid) pos = some c) :
    StorageMoves d (loanNamed l m qid pos persist d) ∧ tierWork (loanNamed l m qid pos persist d) = tierWork d ∧
      ∃ c', segAt (queueOf (loanNamed l m qid pos persist d) qid) pos = some c' ∧ c'.prog = .none ∧ c'.loan = some l := by
  have moves : StorageMoves d (loanStored l qid pos d) := storageMoves_onSeg ..
  have seg : segAt (queueOf (loanStored l qid pos d) qid) pos = some { c with loan := some l, prog := .none } :=
    segAt_onSeg wf (fun _ => rfl) there
  unfold loanNamed
  split
  · refine ⟨moves.trans (storageMoves_addRecord ..), tierWork_addRecord .., ?_⟩
    obtain same | imaged := segAt_addRecord (i := qid) (pos := pos) (r := .add qid m) (moves.wf wf)
    · exact ⟨_, same.trans seg, rfl, rfl⟩
    · exact ⟨_, imaged.trans (by rw [seg]; rfl), rfl, rfl⟩
  · exact ⟨moves, rfl, _, seg, rfl, rfl⟩

/-- The near copy goes where the policy lets it go. -/
def loanLetGo (qid pos : Nat) (lets : Bool) (d : Dev) : Dev := if lets then releaseNear qid pos d else d

theorem loanLetGo_effect {qid pos : Nat} {lets : Bool} {d : Dev} {c : ChainSeg} (wf : tblWf {} d.queues = true)
    (there : segAt (queueOf d qid) pos = some c) :
    StorageMoves d (loanLetGo qid pos lets d) ∧ tierWork (loanLetGo qid pos lets d) = tierWork d ∧
      ∃ c', segAt (queueOf (loanLetGo qid pos lets d) qid) pos = some c' ∧ c'.prog = c.prog ∧ c'.loan = c.loan ∧
        (lets = true → c'.near = none) := by
  unfold loanLetGo
  cases lets with
  | true =>
    obtain ⟨moves, work, r, seg⟩ := releaseNear_effect wf there
    exact ⟨moves, work, _, seg, rfl, rfl, fun _ => rfl⟩
  | false => exact ⟨.refl d, rfl, c, there, rfl, rfl, fun h => absurd h (by decide)⟩

/-- What follows, once the chain holds the copy. -/
def loanSettled (d : Dev) : Dev := pump (stallChecks (refreshFlags (settleKeys d)))

theorem loanSettled_keeps (d : Dev) : (loanSettled d).queues = d.queues ∧ tierWork (loanSettled d) = tierWork d := by
  have same := sameBut_settled (settleKeys d)
  exact ⟨(same.queues_eq (by decide)).trans (queues_settleKeys d),
    (tierWork_congr (same.tier_eq (by decide))).trans (tierWork_settleKeys d)⟩

theorem verifyOkTaken_stores {p : SegPl} {src : Nat} {d : Dev} {x : Prog} {qid pos node gen : Nat} {c : ChainSeg}
    (asked : borrowing d src 0 (some p.handle.toNat) = some x) (what : x.what = .borrow qid pos node gen (some p.handle.toNat))
    (there : segAt (queueOf d qid) pos = some c) (idle : d.tier.sealRun = none) (wf : tblWf {} d.queues = true) :
    ∃ m, verifyOkTaken p src d = loanSettled (loanLetGo qid pos (letGo (queueOf d qid) pos)
      (loanNamed { node, handle := p.handle.toNat, gen, lineage := (peerOf d src).lineage } m qid pos (queueOf d qid).cfg.persist
        (swapProg x [] d))) := by
  refine ⟨{ pos, seg := 0, begins := c.begins, loan := some { node, handle := p.handle.toNat, gen, lineage := (peerOf d src).lineage }
            items := x.items }, ?_⟩
  have wf' : tblWf {} (swapProg x [] d).queues = true := wf
  have there' : segAt (queueOf (swapProg x [] d) qid) pos = some c := there
  unfold verifyOkTaken
  dsimp only
  rw [asked]
  dsimp only
  rw [what]
  dsimp only
  have queue : queueOf (swapProg x [] d) qid = queueOf d qid := rfl
  have peer : peerOf (swapProg x [] d) src = peerOf d src := rfl
  rw [queue, peer, there]
  dsimp only
  generalize ({ pos, seg := 0, begins := c.begins, loan := _, items := x.items } : MapSeg) = m
  obtain ⟨moves, work, c1, seg, -⟩ := loanNamed_effect (persist := (queueOf d qid).cfg.persist) (m := m)
    (l := { node, handle := p.handle.toNat, gen, lineage := (peerOf d src).lineage }) wf' there'
  obtain ⟨-, work', -⟩ := loanLetGo_effect (lets := letGo (queueOf d qid) pos) (moves.wf wf') seg
  have idle' : (loanLetGo qid pos (letGo (queueOf d qid) pos) (loanNamed _ m qid pos (queueOf d qid).cfg.persist
      (swapProg x [] d))).tier.sealRun = none := (congrArg (fun w => w.2.1) (work'.trans work) :).trans idle
  exact congrArg loanSettled (sealProgress_none idle')

theorem keepsStanding_giveNear (qid n : Nat) (d : Dev) : KeepsStanding d (giveNear qid n d) :=
  SameBut.keepsStanding (S := [.link, .out, .queues, .tier, .rep, .err])
    (mask_giveNear (by decide) (by decide) (by decide) (by decide) (by decide) (by decide) ..) (by decide) (by decide)

theorem keepsStanding_settleKeys (d : Dev) : KeepsStanding d (settleKeys d) :=
  SameBut.keepsStanding (S := [.tier, .keys, .free]) (mask_settleKeys (by decide) (by decide) (by decide) d) (by decide) (by decide)

theorem keepsStanding_settled (d : Dev) : KeepsStanding d (pump (stallChecks (refreshFlags d))) :=
  (sameBut_settled d).keepsStanding (by decide) (by decide)

theorem keepsStanding_releaseNear (qid pos : Nat) (d : Dev) : KeepsStanding d (releaseNear qid pos d) := by
  unfold releaseNear
  split
  · exact (keepsStanding_giveNear ..).after (.of_same rfl rfl)
  · exact .of_same rfl rfl

theorem keepsStanding_verifyOk {x : Prog} {qid pos : Nat} {lets persist : Bool} {l : LoanRef} {m : MapSeg} (d : Dev) :
    KeepsStanding d (loanSettled (loanLetGo qid pos lets (loanNamed l m qid pos persist (swapProg x [] d)))) := by
  have named : KeepsStanding d (loanNamed l m qid pos persist (swapProg x [] d)) :=
    keepsStanding_ite ((keepsStanding_addRecord ..).after (.of_same rfl rfl)) (.of_same rfl rfl)
  have lets_ : KeepsStanding d (loanLetGo qid pos lets (loanNamed l m qid pos persist (swapProg x [] d))) :=
    keepsStanding_ite (named.trans (keepsStanding_releaseNear ..)) named
  exact lets_.trans ((keepsStanding_settleKeys _).trans (keepsStanding_settled _))

end Sys2Proof.Machine
end

section
/-!
The borrower's side of a loan: the segment that comes back, and the holes that its lender's list resolves (R335, R445, R453 to R457).
-/

namespace Sys2Proof.Machine

/-! ### A segment that has arrived stays so -/

/-- The queue has a segment at `pos`, and each one there is in a near segment and not being read. -/
def Arrived (pos : Nat) (q : Queue) : Prop :=
  (∃ c ∈ q.chain, c.pos = pos) ∧ ∀ c ∈ q.chain, c.pos = pos → c.near.isSome = true ∧ c.reading = false

theorem Arrived.segAt {pos : Nat} {q : Queue} (h : Arrived pos q) :
    ∃ c, segAt q pos = some c ∧ c.near.isSome = true ∧ c.reading = false := by
  obtain ⟨⟨c, listed, here⟩, all⟩ := h
  have some_ : (Machine.segAt q pos).isSome = true := List.find?_isSome.2 ⟨c, listed, by simpa using here⟩
  obtain ⟨c', found⟩ := Option.isSome_iff_exists.1 some_
  exact ⟨c', found, all c' (List.mem_of_find?_eq_some found) (pos_of_segAt found)⟩

theorem Arrived.of_chain {pos : Nat} {q q' : Queue} (h : Arrived pos q) (chain : q'.chain = q.chain) : Arrived pos q' := by
  rw [Arrived, chain]
  exact h

/-- A change of segments that leaves those at `pos` where they are. -/
theorem Arrived.map {pos : Nat} {q q' : Queue} (h : Arrived pos q) {g : ChainSeg → ChainSeg} (chain : q'.chain = q.chain.map g)
    (keeps : ∀ c, (g c).pos = c.pos) (stays : ∀ c, c.pos = pos → (g c).near = c.near ∧ (g c).reading = c.reading) :
    Arrived pos q' := by
  obtain ⟨⟨c, listed, here⟩, all⟩ := h
  rw [Arrived, chain]
  refine ⟨⟨g c, List.mem_map_of_mem listed, (keeps c).trans here⟩, fun c' listed' here' => ?_⟩
  obtain ⟨c, listed, rfl⟩ := List.mem_map.1 listed'
  have there : c.pos = pos := (keeps c).symm.trans here'
  obtain ⟨near, reading⟩ := stays c there
  rw [near, reading]
  exact all c listed there

/-- The queues' table is well formed, and queue `qid` holds the segment at `pos`. -/
def ArrivedAt (qid pos : Nat) (d : Dev) : Prop := tblWf {} d.queues = true ∧ Arrived pos (queueOf d qid)

theorem ArrivedAt.of_queues {qid pos : Nat} {d e : Dev} (h : ArrivedAt qid pos d) (queues : e.queues = d.queues) :
    ArrivedAt qid pos e := by
  rw [ArrivedAt, queueOf, queues]
  exact h

theorem ArrivedAt.put {qid pos : Nat} {q : Queue} {d : Dev} (h : ArrivedAt qid pos d) (chain : q.chain = (queueOf d qid).chain) :
    ArrivedAt qid pos (putQueue qid q d) :=
  ⟨putQueue_wf h.1 .., by rw [queueOf_put_same h.1]; exact h.2.of_chain chain⟩

theorem arrivedAt_onSeg {qid pos p : Nat} {f : ChainSeg → ChainSeg} {d : Dev} (h : ArrivedAt qid pos d) (keeps : ∀ c, (f c).pos = c.pos)
    (stays : p = pos → ∀ c, (f c).near = c.near ∧ (f c).reading = c.reading) : ArrivedAt qid pos (onSeg qid p f d) := by
  refine ⟨putQueue_wf h.1 .., ?_⟩
  have changed : queueOf (onSeg qid p f d) qid =
      { queueOf d qid with chain := (queueOf d qid).chain.map fun s => if s.pos = p then f s else s } := queueOf_on_same h.1 qid _
  rw [changed]
  refine h.2.map (g := fun s => if s.pos = p then f s else s) rfl (fun c => ?_) fun c here => ?_
  · by_cases at_ : c.pos = p
    · rw [if_pos at_, keeps]
    · rw [if_neg at_]
  · by_cases at_ : c.pos = p
    · rw [if_pos at_]
      exact stays (at_.symm.trans here) c
    · rw [if_neg at_]
      exact ⟨rfl, rfl⟩

theorem arrivedAt_spillCheck {qid pos : Nat} (n : Nat) : ∀ {d : Dev}, ArrivedAt qid pos d → ArrivedAt qid pos (spillCheck n qid d) := by
  induction n with
  | zero => exact id
  | succ n ih =>
    intro d h
    unfold spillCheck
    dsimp only
    split
    · split
      next s _ =>
        have queued : ArrivedAt qid pos (onSeg qid s.pos (fun s => { s with prog := .queued }) d) :=
          arrivedAt_onSeg h (fun _ => rfl) fun _ _ => ⟨rfl, rfl⟩
        exact ih (queued.of_queues (e := queueProgram qid s.pos d) rfl)
      · exact h
    · exact h

theorem arrivedAt_readCheck {qid pos : Nat} {d : Dev} (h : ArrivedAt qid pos d) : ArrivedAt qid pos (readCheck qid d) := by
  unfold readCheck
  extract_lets +onlyGivenNames q
  split
  · exact h
  · extract_lets +onlyGivenNames ahead coming cand0 cand
    have first : ∀ c ∈ cand0, c ∈ q.chain := fun c mem => (List.dropWhile_sublist _).mem ((List.take_sublist ..).mem mem)
    have listed : ∀ c ∈ cand, c ∈ q.chain := by
      intro c mem
      unfold cand at mem
      split at mem
      next t last =>
        split at mem
        · exact first c mem
        · obtain mem | rfl := (List.mem_append.1 mem).imp_right List.mem_singleton.1
          · exact first c mem
          · exact List.mem_of_getLast? last
      · exact first c mem
    clear_value cand cand0
    refine List.foldlRecOn cand _ h fun e held s mem => ?_
    split
    case isFalse => exact held
    case isTrue missing =>
      have away : s.pos ≠ pos := fun here => by
        have near := (h.2.2 s (listed s mem) here).1
        simp only [Bool.and_eq_true, Option.isNone_iff_eq_none] at missing
        rw [missing.1.1.1] at near
        cases near
      have reads : ArrivedAt qid pos (onSeg qid s.pos (fun t => { t with reading := true }) e) :=
        arrivedAt_onSeg held (fun _ => rfl) fun here => absurd here away
      dsimp only
      split
      · exact reads.of_queues ((sameBut_sendSeq ..).queues_eq (by decide))
      · exact reads

theorem arrivedAt_resettle {qid pos : Nat} {d : Dev} (h : ArrivedAt qid pos d) : ArrivedAt qid pos (resettle qid d) := by
  unfold resettle bootQueue
  generalize 512 = n
  have read := arrivedAt_readCheck (arrivedAt_spillCheck n h)
  generalize readCheck qid (spillCheck n qid d) = e at read
  have flags : ArrivedAt qid pos (onQueue qid (setFlags d) e) := read.put rfl
  generalize onQueue qid (setFlags d) e = e at flags
  have waited (b : Bool) : ArrivedAt qid pos (putQueue qid { queueOf e qid with waited := b } e) := flags.put rfl
  unfold drainWaitCheck
  dsimp only
  split
  · split
    · exact (waited false).of_queues rfl
    · exact flags
  · split
    · exact flags.of_queues rfl
    · exact flags

/-! ### The sectors of a borrowed segment come back -/

theorem mapItems_length (pos lo hi : Nat) (f : Nat → Item → Item) (q : Queue) :
    (mapItems pos lo hi f q).items.length = q.items.length := by
  simp [mapItems, itemOffsets, storedItems]

/-- What the arrival of a segment leaves: as many items as before, and the segment in a near segment. -/
theorem arriveNear_effect {qid pos gen lo : Nat} {bs : Bytes} {d : Dev} {c : ChainSeg} (wf : tblWf {} d.queues = true)
    (can : canTakeNear d (queueOf d qid) = true) (listed : c ∈ (queueOf d qid).chain) (here : c.pos = pos) :
    ArrivedAt qid pos (arriveNear qid pos gen (onQueue qid (writeItems pos lo bs)) d) ∧
      (queueOf (arriveNear qid pos gen (onQueue qid (writeItems pos lo bs)) d) qid).items.length = (queueOf d qid).items.length := by
  obtain ⟨n, resvd, e, taken, moves, chains, -⟩ := takeNear_takes can
  have put := moves.trans (storageMoves_onSeg qid pos (fun s => { s with near := some n, resvd, reading := false }) e)
  have arrived : Arrived pos (queueOf (onSeg qid pos (fun s => { s with near := some n, resvd, reading := false }) e) qid) := by
    have changed : queueOf (onSeg qid pos (fun s => { s with near := some n, resvd, reading := false }) e) qid =
      { queueOf e qid with chain := (queueOf e qid).chain.map fun s =>
          if s.pos = pos then { s with near := some n, resvd, reading := false } else s } := queueOf_on_same (moves.wf wf) qid _
    rw [changed, chains.chain wf]
    refine ⟨⟨_, List.mem_map_of_mem listed, by rw [if_pos here]; exact here⟩, fun c' mem at_ => ?_⟩
    obtain ⟨c, -, rfl⟩ := List.mem_map.1 mem
    by_cases there : c.pos = pos
    · rw [if_pos there]
      exact ⟨rfl, rfl⟩
    · rw [if_neg there] at at_
      exact absurd at_ there
  have unfolded : arriveNear qid pos gen (onQueue qid (writeItems pos lo bs)) d = settleKeys
      (let w := onQueue qid (writeItems pos lo bs) (onSeg qid pos (fun s => { s with near := some n, resvd, reading := false }) e)
       if copyReads w (queueOf w qid).cfg.slot.toNat gen then w else onQueue qid (damageBytes pos 0 4096) w) := by
    unfold arriveNear
    rw [taken]
  have items : (queueOf (onSeg qid pos (fun s => { s with near := some n, resvd, reading := false }) e) qid).items =
      (queueOf d qid).items := put.items wf qid
  have held : ArrivedAt qid pos (onSeg qid pos (fun s => { s with near := some n, resvd, reading := false }) e) :=
    ⟨put.wf wf, arrived⟩
  rw [unfolded, ← items]
  generalize onSeg qid pos (fun s => { s with near := some n, resvd, reading := false }) e = e at held
  have written : ArrivedAt qid pos (onQueue qid (writeItems pos lo bs) e) := held.put rfl
  have count : (queueOf (onQueue qid (writeItems pos lo bs) e) qid).items.length = (queueOf e qid).items.length := by
    rw [queueOf_on_same held.1]
    exact mapItems_length ..
  dsimp only
  generalize onQueue qid (writeItems pos lo bs) e = w at written count
  rw [queueOf_settleKeys, ← count]
  refine ⟨ArrivedAt.of_queues ?_ (queues_settleKeys _), ?_⟩
  · split
    · exact written
    · exact written.put rfl
  · split
    · rfl
    · rw [queueOf_on_same written.1]
      exact mapItems_length pos 0 4096 (fun _ i => { i with damaged := true }) (queueOf w qid)

theorem keepsStanding_arriveNear {qid pos gen : Nat} {f : Queue → Queue} (d : Dev) :
    KeepsStanding d (arriveNear qid pos gen (onQueue qid f) d) := by
  unfold arriveNear
  split
  · exact .of_same rfl rfl
  next n resvd e taken =>
    have first : KeepsStanding d e := by
      unfold takeNear at taken
      dsimp only at taken
      split at taken
      · cases taken
      · split at taken
        · cases taken
          exact .of_same rfl rfl
        · obtain ⟨n, -, eq⟩ := Option.map_eq_some_iff.1 taken
          cases eq
          exact .of_same rfl rfl
    refine first.trans ((keepsStanding_settleKeys _).after ?_)
    exact keepsStanding_ite (.of_same rfl rfl) (.of_same rfl rfl)

theorem canTakeNear_accepted (h : FlitHdr) (payload : Bytes) (d : Dev) (q : Queue) :
    canTakeNear (accepted h payload d) q = canTakeNear d q := by
  rw [(sameBut_accepted h payload d).eq]
  rfl

/-- The device with the segment in its near segment. -/
def sectorsBack (p : SegPl) (src qid : Nat) (c : ChainSeg) (d : Dev) : Dev :=
  arriveNear qid c.pos ((c.loan.map (·.gen)).getD 0) (onQueue qid (writeItems c.pos (32 * (p.first.toNat % 128))
    (cipher Config.xtsDecrypt (slotKey d (queueOf d qid).cfg.slot.toNat) src p.handle.toNat (p.first.toNat % 128)
      (sliceBytes p.data 0 (32 * (p.count.toNat + 1)))))) d

theorem readRspTaken_back {p : SegPl} {src : Nat} {d : Dev} {c : ChainSeg}
    (can : canTakeNear d (queueOf d (p.borrower.toNat % 4096)) = true)
    (found : (queueOf d (p.borrower.toNat % 4096)).chain.find? (fun x => x.reading && x.near.isNone &&
      (x.loan.map fun l => (l.node, l.handle)) = some (src, p.handle.toNat)) = some c) :
    readRspTaken p src d = pump (stallChecks (refreshFlags (resettle (p.borrower.toNat % 4096)
      (sectorsBack p src (p.borrower.toNat % 4096) c d)))) := by
  obtain ⟨n, resvd, e, taken, -⟩ := takeNear_takes can
  unfold readRspTaken
  dsimp only
  rw [found]
  dsimp only
  rw [if_neg (by simp [taken])]
  rfl

/-! ### A lender's list (R453, R457) -/

/-- A segment that a handle of a node has lent. -/
def lentBy (n h : Nat) (l : LoanRef) : Bool := decide ((l.node, l.handle) = (n, h))

/-- The holes of that segment are restored. -/
def holesRestored (n h : Nat) (q : Queue) : Queue :=
  { q with chain := q.chain.map fun s =>
      if (s.loan.map fun l => (l.node, l.handle)) == some (n, h) then { s with hole := false } else s }

/-- The pass over the queues for one listed handle. -/
def restoreQueue (n h : Nat) (d : Dev) (x : Nat × Queue) : Dev :=
  if x.2.chain.any fun s => s.hole && (s.loan.map fun l => (l.node, l.handle)) == some (n, h) then
    resettle x.1 (onQueue x.1 (holesRestored n h) d)
  else d

theorem holesRestored_fewer (n h : Nat) (q : Queue) : holesOf (holesRestored n h q) ⊆ holesOf q := by
  refine holesOf_map rfl fun c l hole loan => ?_
  split at hole
  · cases hole
  next away =>
    rw [if_neg away] at loan
    exact ⟨hole, loan⟩

theorem holesFade_restoreQueue (n h : Nat) (d : Dev) (x : Nat × Queue) : HolesFade d (restoreQueue n h d x) :=
  holesFade_ite ((holesFade_resettle ..).after (holesFade_put (holesRestored_fewer ..))) (.of_same rfl rfl)

theorem restoreQueue_clear (n h : Nat) {d e : Dev} (wf : tblWf {} d.queues = true) (fade : HolesFade d e) {x : Nat × Queue}
    (mem : x ∈ d.queues) : Clear (lentBy n h) (queueOf (restoreQueue n h e x) x.1) := by
  unfold restoreQueue
  split
  · refine Clear.fade (q := queueOf (onQueue x.1 (holesRestored n h) e) x.1) ?_ ((holesFade_resettle ..).holes (putQueue_wf (fade.wf wf) ..) x.1)
    rw [queueOf_on_same (fade.wf wf)]
    intro l missing
    obtain ⟨_, listed, hole, loan⟩ := mem_holesOf.1 missing
    obtain ⟨c, -, rfl⟩ := List.mem_map.1 listed
    split at hole
    · cases hole
    next away =>
      rw [if_neg away] at loan
      rw [loan] at away
      simpa [lentBy] using away
  next none =>
    refine Clear.fade (q := queueOf d x.1) ?_ (fade.holes wf x.1)
    rw [queueOf_of_mem wf mem]
    intro l missing
    obtain ⟨c, listed, hole, loan⟩ := mem_holesOf.1 missing
    by_contra named
    refine none (List.any_eq_true.2 ⟨c, listed, ?_⟩)
    rw [hole, loan]
    simpa [lentBy] using named

theorem chained_accepted (h : FlitHdr) (payload : Bytes) (d : Dev) (src k : Nat) :
    chained (accepted h payload d) src k = chained d src k := by
  rw [chained, accepted_queues, chained]

/-- The node's list with one handle more. -/
def listedMore (n h : Nat) (d : Dev) : Dev := onPeer n (fun x => { x with listed := x.listed ++ [h] }) d

theorem loanListTaken_restores {p : SegPl} {src : Nat} {d : Dev} (chain : chained d src p.handle.toNat = true) :
    loanListTaken p src d = pump (stallChecks (refreshFlags ((listedMore src p.handle.toNat d).queues.foldl
      (restoreQueue src p.handle.toNat) (listedMore src p.handle.toNat d)))) := if_pos chain

/-- Of the fields of a peer that a list changes, what a unit that is sent leaves. -/
theorem HolesFade.listed {d e : Dev} (h : HolesFade d e) (n : Nat) :
    (peerOf e n).listed = (peerOf d n).listed ∧ (peerOf e n).reclaiming = (peerOf d n).reclaiming :=
  ⟨(congrArg Peer.listed (h.sends.peerOf n) :), (congrArg Peer.reclaiming (h.sends.peerOf n) :)⟩

theorem accepted_roll (h : FlitHdr) (payload : Bytes) (d : Dev) :
    (peerOf (accepted h payload d) h.src.toNat).listed = (peerOf d h.src.toNat).listed ∧
      (peerOf (accepted h payload d) h.src.toNat).reclaiming = (peerOf d h.src.toNat).reclaiming := by
  have same := (sendsOnly_takeHeader h d).peerOf h.src.toNat
  unfold accepted
  exact ⟨(peerOf_onPeer_keeps Peer.listed (fun _ => by rfl) ..).trans (congrArg Peer.listed same :),
    (peerOf_onPeer_keeps Peer.reclaiming (fun _ => by rfl) ..).trans (congrArg Peer.reclaiming same :)⟩

/-- The handles that a lender has not listed. -/
def unlisted (n : Nat) (d : Dev) (l : LoanRef) : Bool := l.node == n && decide (l.handle ∉ (peerOf d n).listed)

/-- The node's list has ended. -/
def listEnded (n : Nat) (d : Dev) : Dev := onPeer n (fun x => { x with reclaiming := false, listed := [] }) d

theorem listEndTaken_discards {src : Nat} {d : Dev} (reclaims : (peerOf d src).reclaiming = true) :
    listEndTaken src d = pump (stallChecks (refreshFlags (stopTimer (.hole src)
      (discardHoles (borrowedFrom src) true (forgetLoans (unlisted src d) (listEnded src d)))))) := by
  unfold listEndTaken
  dsimp only
  rw [if_neg (by simp [reclaims])]
  rfl

theorem keepsStanding_restoreQueue (n h : Nat) (d : Dev) (x : Nat × Queue) : KeepsStanding d (restoreQueue n h d x) :=
  keepsStanding_ite ((keepsStanding_resettle ..).after (.of_same rfl rfl)) (.of_same rfl rfl)

/-- What the sectors that come back leave. -/
theorem readRspTaken_effect {p : SegPl} {src qid : Nat} {d : Dev} {c : ChainSeg} (wf : tblWf {} d.queues = true)
    (queue : qid = p.borrower.toNat % 4096) (can : canTakeNear d (queueOf d qid) = true)
    (found : (queueOf d qid).chain.find? (fun x => x.reading && x.near.isNone &&
      (x.loan.map fun l => (l.node, l.handle)) = some (src, p.handle.toNat)) = some c) :
    KeepsStanding d (readRspTaken p src d) ∧
      (queueOf (readRspTaken p src d) qid).items.length = (queueOf d qid).items.length ∧
      Arrived c.pos (queueOf (readRspTaken p src d) qid) := by
  have back : readRspTaken p src d = pump (stallChecks (refreshFlags (resettle qid (sectorsBack p src qid c d)))) := by
    subst queue
    exact readRspTaken_back can found
  have keeps : KeepsStanding d (sectorsBack p src qid c d) := keepsStanding_arriveNear d
  obtain ⟨arrived, count⟩ : ArrivedAt qid c.pos (sectorsBack p src qid c d) ∧
      (queueOf (sectorsBack p src qid c d) qid).items.length = (queueOf d qid).items.length :=
    arriveNear_effect wf can (List.mem_of_find?_eq_some found) rfl
  rw [back, ← count]
  generalize sectorsBack p src qid c d = e at *
  have settles := ((contentsStand_resettle qid e).trans (contentsStand_settled _)).items_held arrived.1 qid
  exact ⟨keeps.trans ((keepsStanding_resettle ..).trans (keepsStanding_settled _)), congrArg List.length settles.1,
    ((arrivedAt_resettle arrived).of_queues ((sameBut_settled _).queues_eq (by decide))).2⟩

/-- What a listed handle leaves. -/
theorem loanListTaken_effect {p : SegPl} {src : Nat} {d : Dev} (wf : tblWf {} d.queues = true) (present : isPresent d src = true)
    (chain : chained d src p.handle.toNat = true) :
    KeepsStanding d (loanListTaken p src d) ∧
      (peerOf (loanListTaken p src d) src).listed = (peerOf d src).listed ++ [p.handle.toNat] ∧
      ∀ q, Clear (lentBy src p.handle.toNat) (queueOf (loanListTaken p src d) q) := by
  have more : KeepsStanding d (listedMore src p.handle.toNat d) := keepsStanding_onPeer _ _ fun _ => by rfl
  have wf' : tblWf {} (listedMore src p.handle.toNat d).queues = true := wf
  have listed : (peerOf (listedMore src p.handle.toNat d) src).listed = (peerOf d src).listed ++ [p.handle.toNat] := by
    rw [listedMore, peerOf_onPeer_same present]
  rw [loanListTaken_restores chain, ← listed]
  generalize listedMore src p.handle.toNat d = e at more wf'
  have fade := holesFade_foldl (holesFade_restoreQueue src p.handle.toNat) e.queues e
  have clear := clear_foldl wf' (holesFade_restoreQueue src p.handle.toNat)
    (fun g fade x mem => restoreQueue_clear src p.handle.toNat wf' fade mem)
  have pass := keepsStanding_foldl (keepsStanding_restoreQueue src p.handle.toNat) e.queues e
  generalize e.queues.foldl (restoreQueue src p.handle.toNat) e = g at *
  have after := holesFade_settled g
  exact ⟨more.trans (pass.trans (keepsStanding_settled g)), ((fade.trans after).listed src).1,
    fun q => (clear q).fade (after.holes (fade.wf wf') q)⟩

/-- What the end of a lender's list leaves. -/
theorem listEndTaken_effect {src : Nat} {d : Dev} (wf : tblWf {} d.queues = true) (present : isPresent d src = true)
    (reclaims : (peerOf d src).reclaiming = true) :
    KeepsStanding d (listEndTaken src d) ∧ (peerOf (listEndTaken src d) src).reclaiming = false ∧
      (peerOf (listEndTaken src d) src).listed = [] ∧ ∀ q, Clear (ofNode src) (queueOf (listEndTaken src d) q) := by
  have ended : KeepsStanding d (listEnded src d) := keepsStanding_onPeer _ _ fun _ => by rfl
  have wf' : tblWf {} (listEnded src d).queues = true := wf
  have roll : (peerOf (listEnded src d) src).reclaiming = false ∧ (peerOf (listEnded src d) src).listed = [] := by
    rw [listEnded, peerOf_onPeer_same present]
    exact ⟨rfl, rfl⟩
  have stops (e : Dev) : HolesFade e (stopTimer (.hole src) e) := .of_same rfl rfl
  have stops' (e : Dev) : KeepsStanding e (stopTimer (.hole src) e) := .of_same rfl rfl
  rw [listEndTaken_discards reclaims]
  generalize listEnded src d = e at ended wf' roll
  have forgotten := holesFade_forgetLoans (unlisted src d) e
  have forgets := keepsStanding_forgetLoans (unlisted src d) e
  generalize forgetLoans (unlisted src d) e = g at forgotten forgets
  have discarded := holesFade_discardHoles (borrowedFrom src) true g
  have discards := keepsStanding_discardHoles (borrowedFrom src) true g
  have clear := discardHoles_clear src true (forgotten.wf wf')
  generalize discardHoles (borrowedFrom src) true g = k at *
  have after := (stops k).trans (holesFade_settled _)
  obtain ⟨listed, reclaiming⟩ := (forgotten.trans (discarded.trans after)).listed src
  exact ⟨ended.trans (forgets.trans (discards.trans ((stops' k).trans (keepsStanding_settled _)))), reclaiming.trans roll.1,
    listed.trans roll.2, fun q => (clear q).fade (after.holes (discarded.wf (forgotten.wf wf')) q)⟩

/-- The limit of CAS_HOLE_TO leaves no hole against the lender. -/
theorem holeTimeout_clear {n : Nat} {d : Dev} (wf : tblWf {} d.queues = true) (fw : fwExec d = true) (on : d.regs.casHoleTo ≠ 0)
    (due : timerDue d (.hole n) d.regs.casHoleTo = true) (q : Nat) : Clear (ofNode n) (queueOf (holeTimeout n d) q) := by
  have discards : holeTimeout n d = pump (stallChecks (refreshFlags (discardHoles (borrowedFrom n) (isPresent d n)
    (stopTimer (.hole n) d)))) := if_pos (by simp [fw, on, due])
  have wf' : tblWf {} (stopTimer (.hole n) d).queues = true := wf
  rw [discards]
  generalize isPresent d n = tell
  generalize stopTimer (.hole n) d = e at wf'
  exact (discardHoles_clear n tell wf' q).fade ((holesFade_settled _).holes ((holesFade_discardHoles ..).wf wf') q)

/-- What a verified loan leaves. -/
theorem verifyOk_effect {l : LoanRef} {m : MapSeg} {qid pos : Nat} {lets persist : Bool} {x : Prog} {d : Dev} {c : ChainSeg}
    (wf : tblWf {} d.queues = true) (there : segAt (queueOf d qid) pos = some c) :
    (queueOf (loanSettled (loanLetGo qid pos lets (loanNamed l m qid pos persist (swapProg x [] d)))) qid).items =
        (queueOf d qid).items ∧
      (loanSettled (loanLetGo qid pos lets (loanNamed l m qid pos persist (swapProg x [] d)))).tier.active =
        d.tier.active.filter (· ≠ x) ∧
      ∃ c', segAt (queueOf (loanSettled (loanLetGo qid pos lets (loanNamed l m qid pos persist (swapProg x [] d)))) qid) pos = some c' ∧
        c'.prog = .none ∧ c'.loan = some l ∧ (lets = true → c'.near = none) := by
  have wf' : tblWf {} (swapProg x [] d).queues = true := wf
  have there' : segAt (queueOf (swapProg x [] d) qid) pos = some c := there
  have begins : tierWork (swapProg x [] d) = (d.tier.active.filter (· ≠ x) ++ [], d.tier.sealRun, d.tier.level, d.tier.loans, d.tier.cells) := rfl
  have items : (queueOf (swapProg x [] d) qid).items = (queueOf d qid).items := rfl
  rw [← items]
  rw [List.append_nil] at begins
  generalize swapProg x [] d = e at *
  obtain ⟨moves, work, c1, seg, prog, loan⟩ := loanNamed_effect (persist := persist) (m := m) (l := l) wf' there'
  obtain ⟨moves', work', c2, seg', prog', loan', near⟩ := loanLetGo_effect (lets := lets) (moves.wf wf') seg
  obtain ⟨queues, work''⟩ := loanSettled_keeps (loanLetGo qid pos lets (loanNamed l m qid pos persist e))
  rw [queueOf, queues, ← queueOf]
  exact ⟨(moves.trans moves').items wf' qid, (congrArg Prod.fst (work''.trans (work'.trans (work.trans begins))) :), c2, seg',
    prog'.trans prog, loan'.trans loan, near⟩

/-- Settles O56: a loan in the making moves on by what its lender answers; the segment that comes back takes a near
segment and settling leaves it there; a pass over the queues clears each of its holes, and nothing brings one back. -/
theorem borrowersFollowTheirLenders : Obligations.BorrowersFollowTheirLenders := by
  unfold Obligations.BorrowersFollowTheirLenders
  refine ⟨?_, fun s n fw on wf due => ?_⟩
  · rintro s h p _ rfl turn wf
    obtain ⟨-, -, -, -, -, -, -, -, present⟩ := turn.1
    have wf' (payload : Bytes) : tblWf {} (accepted h payload s.dev).queues = true := by rw [accepted_queues]; exact wf
    refine ⟨fun x qid pos node gen asked what => ⟨fun still => ?_, fun idle tier => ?_⟩,
      fun x qid pos node gen asked what => ⟨fun c there idle => ?_, fun still => ?_⟩, fun c qid eq can found => ?_,
      fun chain => ?_, fun reclaims => ?_⟩
    · obtain ⟨data, starts⟩ := loanGrantTaken_starts (p := p) (d := accepted h (segUnitBytes 1 p) s.dev)
        ((borrowing_accepted ..).trans asked) what ((stillNear_accepted ..).trans still)
      refine completes_segUnit rfl turn ?_ ?_
      · rw [starts]
        exact (keepsStanding_borrowMoved ..).trans (keepsStanding_sendSeq ..)
      · rw [starts]
        exact borrowSent_effect wf (sameBut_sendSeq ..)
    · have ends := loanRefuseTaken_ends (p := p) (d := accepted h (segUnitBytes 2 p) s.dev) ((borrowing_accepted ..).trans asked) what
        (wf' _) (by rw [accepted_tier]; exact idle) (by rw [queueOf_accepted]; exact tier)
      refine completes_segUnit rfl turn (ends ▸ keepsStanding_borrowMoved ..) ?_
      rw [ends]
      obtain ⟨active, queue, only⟩ := borrowSent_effect (h := h) (payload := segUnitBytes 2 p) (x := x) (new := [])
        (qid := qid) (pos := pos) (st := .none) wf rfl
      exact ⟨active.trans (List.append_nil _), queue, only⟩
    · obtain ⟨m, stores⟩ := verifyOkTaken_stores (p := p) (d := accepted h (segUnitBytes 4 p) s.dev)
        ((borrowing_accepted ..).trans asked) what (by rw [queueOf_accepted]; exact there) (by rw [accepted_tier]; exact idle) (wf' _)
      obtain ⟨items, active, c', seg, prog, loan, near⟩ := verifyOk_effect
        (lets := letGo (queueOf (accepted h (segUnitBytes 4 p) s.dev) qid) pos) (m := m) (x := x)
        (l := { node, handle := p.handle.toNat, gen, lineage := (peerOf (accepted h (segUnitBytes 4 p) s.dev) h.src.toNat).lineage })
        (persist := (queueOf (accepted h (segUnitBytes 4 p) s.dev) qid).cfg.persist) (wf' (segUnitBytes 4 p))
        (by rw [queueOf_accepted]; exact there)
      refine completes_segUnit rfl turn (stores ▸ keepsStanding_verifyOk ..) ?_
      rw [queueOf_govTrack, (sameBut_govTrack _).tier_eq (by decide), stores]
      have same := queueOf_accepted h (segUnitBytes 4 p) s.dev qid
      rw [show letGo (queueOf s.dev qid) pos = _ from congrArg (letGo · pos) same.symm]
      rw [accepted_lineage] at loan
      refine ⟨items.trans (congrArg Queue.items same), fun mem => ?_, c', seg, prog, loan, near⟩
      rw [active] at mem
      simpa using (List.mem_filter.1 mem).2
    · obtain ⟨data, again⟩ := verifyFailTaken_again (p := p) (d := accepted h (segUnitBytes 5 p) s.dev)
        ((borrowing_accepted ..).trans asked) what ((stillNear_accepted ..).trans still)
      refine completes_segUnit rfl turn ?_ ?_
      · rw [again]
        exact (keepsStanding_borrowMoved ..).trans (keepsStanding_sendSeq ..)
      · rw [again]
        exact borrowSent_effect wf (sameBut_sendSeq ..)
    · obtain ⟨keeps, count, arrived⟩ := readRspTaken_effect (p := p) (src := h.src.toNat) (c := c) (wf' (segUnitBytes 7 p)) eq
        ((canTakeNear_accepted ..).trans (by rw [queueOf_accepted]; exact can)) (by rw [queueOf_accepted]; exact found)
      refine completes_segUnit rfl turn keeps ?_
      rw [queueOf_govTrack]
      exact ⟨count.trans (by rw [queueOf_accepted]), arrived.segAt⟩
    · obtain ⟨keeps, listed, clear⟩ := loanListTaken_effect (p := p) (wf' (segUnitBytes 10 p)) (accepted_present present)
        ((chained_accepted ..).trans chain)
      refine completes_segUnit rfl turn keeps ⟨?_, fun q c inChain lent => ?_⟩
      · rw [peerOf_govTrack, listed, (accepted_roll ..).1]
      · rw [queueOf_govTrack] at inChain
        obtain ⟨l, loan, named⟩ := Option.map_eq_some_iff.1 lent
        by_contra missing
        have away := clear q l (mem_holesOf.2 ⟨c, inChain, by simpa using missing, loan⟩)
        simp [lentBy, named] at away
    · obtain ⟨keeps, reclaiming, listed, clear⟩ := listEndTaken_effect (wf' (segUnitBytes 11 p)) (accepted_present present)
        ((accepted_roll ..).2.trans reclaims)
      refine completes_segUnit rfl turn keeps ⟨?_, ?_, fun q c inChain => ?_⟩
      · rw [peerOf_govTrack, reclaiming]
      · rw [peerOf_govTrack, listed]
      · rw [queueOf_govTrack] at inChain
        exact holeOf_of_clear (clear q) inChain
  · refine completes_of_exec_eq_act (f := fun d => govTrack (holeTimeout n.toNat d)) rfl fun q c inChain => ?_
    rw [queueOf_govTrack] at inChain
    exact holeOf_of_clear (holeTimeout_clear wf fw on due q) inChain

end Sys2Proof.Machine
end

section
/-!
A round that meets an error in the word it adds to (R371, R372).
-/

namespace Sys2Proof.Machine

/-! ### The state of the refutation -/

/-- A queue of one-byte items that holds one, of value 1, in near segment 0. -/
def oneByteQueue : Queue :=
  { cfg := { valid := true, cap := 64, nearQuota := 4 }, items := [{ data := 1 }], nextPos := 1
    chain := [{ pos := 0, used := 1, near := some 0, all := [{ data := 1 }] }] }

/-- A burst of one item for it, from ingress port 0. -/
def oneByteBurst : Burst := { prod := .port 0, qid := 3, items := [{ data := 1 }], stamp := 0, beats := 1 }

/-- The firmware runs; the word that holds the item has met an error that shows both of its cells' valid bits clear. -/
def marredDev : Dev :=
  { Dev.reset with
    pwr.perst := false, boot.status := .fwRunning, queues := [(3, oneByteQueue)]
    ports.i0.latched := some oneByteBurst, rep.upset := [(0, 3 <<< 72)] }

def marredState : State := { dev := marredDev, pending := [] }

set_option maxRecDepth 20000 in
/-- The round reads the word before it puts the next item into it, and the item there reads 0. -/
theorem marred_round : ∃ e, exec (.turnstileRound 3 [] []) marredState = .next e ∧
    (queueOf e.dev 3).items.map (fun i => (i.data, i.bound)) = [(0, false), (1, false)] :=
  ⟨_, rfl, by decide⟩

set_option maxRecDepth 20000 in
theorem marred_quiet : roundBlocked marredDev 3 = false ∧ isLocal marredDev 3 = true ∧ tblWf {} marredDev.queues = true ∧
    portOpen marredDev 2 = false ∧ portOpen marredDev 3 = false ∧
    ∀ p, p ∈ producers marredDev → p ≠ .port 0 → latchedOf marredDev 3 p = none := by decide

set_option maxRecDepth 20000 in
theorem marred_burst : latchedOf marredDev 3 (.port 0) = some oneByteBurst ∧ recheck marredDev oneByteBurst = none ∧
    burstFits marredDev (queueOf marredDev 3) 1 = true ∧ waitsForFirmware marredDev (queueOf marredDev 3) 1 = false ∧
    (1 : Nat) ≤ segItems (queueOf marredDev 3).cfg.ew := by decide

/-- Refutes O43: its push clause says nothing of errors in near words. An item that is put into a partly filled word has the
word read first (R372); where an error shows both of the word's valid bits clear, that read returns zero (R371), so the
item stored there reads 0 afterwards and not the 1 that the clause keeps. The order of controls, pop and pushes (R94,
log entry 67) is not what fails. -/
theorem not_roundsServeControlsThenPushes : ¬ Obligations.RoundsServeControlsThenPushes := by
  unfold Obligations.RoundsServeControlsThenPushes
  rintro ⟨-, rounds⟩
  obtain ⟨runs, here, wf, closed0, closed1, others⟩ := marred_quiet
  obtain ⟨latched, passes, fits, firmware, short⟩ := marred_burst
  obtain ⟨-, serves⟩ := rounds marredState 3 3 3 rfl rfl here
  obtain ⟨-, pushes⟩ := serves runs wf rfl rfl closed0 closed1 rfl rfl others
  obtain ⟨t, next, -, items, -⟩ := pushes oneByteBurst latched rfl passes rfl rfl rfl rfl rfl rfl (.inl rfl) rfl fits firmware short
  obtain ⟨e, next', marred⟩ := marred_round
  cases next.symm.trans next'
  rw [marred] at items
  exact absurd items (by decide)

end Sys2Proof.Machine
end
